-- ==== Sys2Proof/Word.lean ====
section
/-! DEFINITION. The machine's words (00 R6, 03 R46, R51, 04 R66). -/
namespace Sys2Proof

/-- One byte of memory. -/
abbrev Byte := BitVec 8
/-- One lane of a vector register, or one instruction word. -/
abbrev W32 := BitVec 32
/-- One group register or address. -/
abbrev W64 := BitVec 64

end Sys2Proof
end

