-- ==== Sys2Proof/Config.lean ====
section
/-! DEFINITION. What an implementation fixes and the values the manual leaves free. Nothing here has a body, so no
proof can rest on a value (notes/assumptions/1.md, 3.md). -/
namespace Sys2Proof

/-- DESIGN CHOICE (log 1): the free choice of the device at a tick, taken modulo the number of outcomes the manual lists. -/
opaque Config.choice : Nat → Nat
/-- DESIGN CHOICE (log 3): whether an SLH-DSA signature verifies against the key hash in ROM (14 R273). -/
opaque Config.slhVerify : List Byte → List Byte → Bool
/-- DESIGN CHOICE (log 3): the SLH-DSA signature of a report under the device identity key (14 R273). -/
opaque Config.slhSign : List Byte → List Byte
/-- DESIGN CHOICE (log 3): the part a verified variant record names: 0 the 9600, 1 the 9400, 2 the 9200, modulo 3 (00 R1). -/
opaque Config.recordPart : List Byte → Nat
/-- DESIGN CHOICE (log 3): the TDP in watts that the variant record of a 9400 or a 9200 sets (01 R17, 14 R274). -/
opaque Config.recordTdp : List Byte → Nat
/-- DESIGN CHOICE (log 3): which of the eight measurement registers takes a component (14 R273). -/
opaque Config.measureSlot : Nat → Nat
/-- DESIGN CHOICE (log 3): the word of the identity block at an offset, for a part, a boot state, a variant record hash and a package
ID (14 R268). -/
opaque Config.identity : Nat → Nat → Nat → List Byte → Nat → W64
/-- DESIGN CHOICE (log 3): the package ID that the fabric manager assigns at a boot (14 R272). -/
opaque Config.fabricId : Nat → Nat
/-- DESIGN CHOICE (log 39): operand `k` of a 64-byte entry of the driver's command ring (14 R269). -/
opaque Config.cmdField : Nat → List Byte → Nat
/-- DESIGN CHOICE (log 39): the physical address that a virtual address of the driver's command ring names (14 R269). -/
opaque Config.driverPa : Nat → Nat
/-- DESIGN CHOICE (log 39): whether a reserved byte among the operands of an entry of the command ring is nonzero (14 R269). -/
opaque Config.cmdReserved : List Byte → Bool
/-- DESIGN CHOICE (log 39): the record of a page request: page, root, queue, access mask, ID (14 R270). -/
opaque Config.requestRecord : Nat → Nat → Nat → Nat → Nat → List Byte
/-- DESIGN CHOICE (log 40): the bytes of an image, its header included, by kind and moment (13 R264 SIZE). -/
opaque Config.imageBytes : Nat → Nat → Nat
/-- DESIGN CHOICE (log 41): what a record that the program has overwritten then holds, by moment and number (09 R171). -/
opaque Config.anyValue : Nat → Nat → W64
/-- DESIGN CHOICE (log 3): whether the domain has a package of an ID (14 R272). -/
opaque Config.present : Nat → Bool
/-- DESIGN CHOICE (log 3): a monitor reading at a tick, by offset, under the throttle steps of the dies, of the package and the cycles
of the last droop (14 R274). -/
opaque Config.monitor : Nat → Nat → List (Nat × Nat) → Nat → Nat → W64

end Sys2Proof
end

