-- ==== Sys2Proof/Syntax.lean ====
section
/-! DEFINITION. The instruction set: one constructor per row of spec/opcode_table.json. Encoded rows carry
the fields of the word (04 R67); rows of the device carry the operands of the event (95). -/
namespace Sys2Proof

/-- Every row of the opcode table. The first ones are events of the device, then words of the instruction set;
events without an operand act on the group or the packet in focus and stand last. -/
inductive Instr where
  /-- CREATE_QUEUE (R269). -/
  | createQueue (q : Nat) (ring : BitVec 64) (size prio : Nat) (dies : List Nat) (root headva : BitVec 64) (status : Nat) (rsv : Bool)
  /-- DESTROY_QUEUE (R269). -/
  | destroyQueue (q status : Nat) (rsv : Bool)
  /-- RESET_QUEUE (R269). -/
  | resetQueue (q status : Nat) (rsv : Bool)
  /-- ABORT_QUEUE (R269). -/
  | abortQueue (q status : Nat) (rsv : Bool)
  /-- SET_QUANTUM (R269). -/
  | setQuantum (us status : Nat) (rsv : Bool)
  /-- INVALIDATE (R269). -/
  | invalidate (root va : BitVec 64) (pages status : Nat) (rsv : Bool)
  /-- PAGE_RESPONSE (R270). -/
  | pageResponse (id answer status : Nat) (rsv : Bool)
  /-- DOORBELL (R238). -/
  | doorbell (q : Nat) (value : BitVec 64)
  /-- REGISTER_WRITE (R268). -/
  | registerWrite (offset size : Nat) (value : BitVec 64)
  /-- ATTESTATION_REQUEST (R273). -/
  | attestationRequest (nonce : List (BitVec 8))
  /-- HOST_WRITE (R271). -/
  | hostWrite (pa : Nat) (data : List (BitVec 8))
  /-- HOST_READ (R271). -/
  | hostRead (pa len : Nat)
  /-- LINK_TRAINING (R267). -/
  | linkTraining (m : Nat) (trained : Bool)
  /-- RESET_BOOT (R273). -/
  | resetBoot (firmware fwSig record recSig : List (BitVec 8))
  /-- REMOTE_REQUEST (R272). -/
  | remoteRequest (kind code pa : Nat) (data : List (BitVec 8))
  /-- REMOTE_REQUEST_TIMEOUT (R272). -/
  | remoteRequestTimeout (pkg : Nat)
  /-- THERMAL_STEP_CHANGE (R274). -/
  | thermalStepChange (die celsius : Nat)
  /-- POWER_THROTTLE (R274). -/
  | powerThrottle (watts : Nat)
  /-- DROOP_EVENT (R274). -/
  | droopEvent (die cycles : Nat)
  /-- PACKET_READ (R239). -/
  | packetRead (q : Nat)
  /-- HEAD_PUBLISH (R239). -/
  | headPublish (q : Nat)
  /-- LAUNCH_PACKET (R236). -/
  | launchPacket (q : Nat)
  /-- COPY_PACKET (R237). -/
  | copyPacket (q : Nat)
  /-- WAIT_SIGNAL_PACKET (R237). -/
  | waitSignalPacket (q : Nat)
  /-- SET_SIGNAL_PACKET (R237). -/
  | setSignalPacket (q : Nat)
  /-- TEAM_DISPATCH (R45). -/
  | teamDispatch (job core : Nat)
  /-- TASK_START (R30). -/
  | taskStart (core : Nat)
  /-- TASK_STEAL (R35). -/
  | taskSteal (thief victim : Nat)
  /-- TIME_SLICE (R27). -/
  | timeSlice (job lcore core : Nat)
  /-- RACKING (R36). -/
  | racking (job lcore core : Nat)
  /-- SWITCH_OUT (R263). -/
  | switchOut (job team : Nat)
  /-- RESTORE (R262). -/
  | restore (job team core : Nat)
  /-- ENGINE_CONTEXT_SWITCH (R232). -/
  | engineContextSwitch (job cluster : Nat)
  /-- ENGINE_ARRIVAL (R193). -/
  | engineArrival (op : Nat)
  /-- TRIGGERED_OP_COMPLETE (R208). -/
  | triggeredOpComplete (k : Nat)
  /-- IADD_V (R344). -/
  | iaddV (q : BitVec 2) (d : BitVec 7) (a : BitVec 7) (b : BitVec 7)
  /-- ISUB_V (R344). -/
  | isubV (q : BitVec 2) (d : BitVec 7) (a : BitVec 7) (b : BitVec 7)
  /-- IMUL_V (R344). -/
  | imulV (q : BitVec 2) (d : BitVec 7) (a : BitVec 7) (b : BitVec 7)
  /-- IMULH_S32_V (R344). -/
  | imulhS32V (q : BitVec 2) (d : BitVec 7) (a : BitVec 7) (b : BitVec 7)
  /-- IMULH_Z32_V (R344). -/
  | imulhZ32V (q : BitVec 2) (d : BitVec 7) (a : BitVec 7) (b : BitVec 7)
  /-- IMAD_V (R344). -/
  | imadV (q : BitVec 2) (d : BitVec 7) (a : BitVec 7) (b : BitVec 7)
  /-- IABS_V (R345). -/
  | iabsV (q : BitVec 2) (d : BitVec 7) (a : BitVec 7)
  /-- IADD_V64 (R344). -/
  | iaddV64 (q : BitVec 2) (d : BitVec 7) (a : BitVec 7) (b : BitVec 7)
  /-- ISUB_V64 (R344). -/
  | isubV64 (q : BitVec 2) (d : BitVec 7) (a : BitVec 7) (b : BitVec 7)
  /-- IMUL_V64 (R344). -/
  | imulV64 (q : BitVec 2) (d : BitVec 7) (a : BitVec 7) (b : BitVec 7)
  /-- IMULH_S64_V (R344). -/
  | imulhS64V (q : BitVec 2) (d : BitVec 7) (a : BitVec 7) (b : BitVec 7)
  /-- IMULH_Z64_V (R344). -/
  | imulhZ64V (q : BitVec 2) (d : BitVec 7) (a : BitVec 7) (b : BitVec 7)
  /-- IMAD_V64 (R344). -/
  | imadV64 (q : BitVec 2) (d : BitVec 7) (a : BitVec 7) (b : BitVec 7)
  /-- IABS_V64 (R345). -/
  | iabsV64 (q : BitVec 2) (d : BitVec 7) (a : BitVec 7)
  /-- IADD_G32 (R344). -/
  | iaddG32 (q : BitVec 2) (d : BitVec 7) (a : BitVec 7) (b : BitVec 7)
  /-- ISUB_G32 (R344). -/
  | isubG32 (q : BitVec 2) (d : BitVec 7) (a : BitVec 7) (b : BitVec 7)
  /-- IMUL_G32 (R344). -/
  | imulG32 (q : BitVec 2) (d : BitVec 7) (a : BitVec 7) (b : BitVec 7)
  /-- IMULH_S32_G (R344). -/
  | imulhS32G (q : BitVec 2) (d : BitVec 7) (a : BitVec 7) (b : BitVec 7)
  /-- IMULH_Z32_G (R344). -/
  | imulhZ32G (q : BitVec 2) (d : BitVec 7) (a : BitVec 7) (b : BitVec 7)
  /-- IMAD_G32 (R344). -/
  | imadG32 (q : BitVec 2) (d : BitVec 7) (a : BitVec 7) (b : BitVec 7)
  /-- IABS_G32 (R345). -/
  | iabsG32 (q : BitVec 2) (d : BitVec 7) (a : BitVec 7)
  /-- IADD_G64 (R344). -/
  | iaddG64 (q : BitVec 2) (d : BitVec 7) (a : BitVec 7) (b : BitVec 7)
  /-- ISUB_G64 (R344). -/
  | isubG64 (q : BitVec 2) (d : BitVec 7) (a : BitVec 7) (b : BitVec 7)
  /-- IMUL_G64 (R344). -/
  | imulG64 (q : BitVec 2) (d : BitVec 7) (a : BitVec 7) (b : BitVec 7)
  /-- IMULH_S64_G (R344). -/
  | imulhS64G (q : BitVec 2) (d : BitVec 7) (a : BitVec 7) (b : BitVec 7)
  /-- IMULH_Z64_G (R344). -/
  | imulhZ64G (q : BitVec 2) (d : BitVec 7) (a : BitVec 7) (b : BitVec 7)
  /-- IMAD_G64 (R344). -/
  | imadG64 (q : BitVec 2) (d : BitVec 7) (a : BitVec 7) (b : BitVec 7)
  /-- IABS_G64 (R345). -/
  | iabsG64 (q : BitVec 2) (d : BitVec 7) (a : BitVec 7)
  /-- IADD_IMM_V (R345). -/
  | iaddImmV (q : BitVec 2) (d : BitVec 7) (a : BitVec 7) (i : BitVec 10)
  /-- IADD_IMM_V64 (R345). -/
  | iaddImmV64 (q : BitVec 2) (d : BitVec 7) (a : BitVec 7) (i : BitVec 10)
  /-- IADD_IMM_G32 (R345). -/
  | iaddImmG32 (q : BitVec 2) (d : BitVec 7) (a : BitVec 7) (i : BitVec 10)
  /-- IADD_IMM_G64 (R345). -/
  | iaddImmG64 (q : BitVec 2) (d : BitVec 7) (a : BitVec 7) (i : BitVec 10)
  /-- IMAX_V (R346). -/
  | imaxV (q : BitVec 2) (w : BitVec 1) (s : BitVec 1) (d : BitVec 7) (a : BitVec 7) (b : BitVec 7)
  /-- IMIN_V (R346). -/
  | iminV (q : BitVec 2) (w : BitVec 1) (s : BitVec 1) (d : BitVec 7) (a : BitVec 7) (b : BitVec 7)
  /-- IMAX_G (R346). -/
  | imaxG (q : BitVec 2) (w : BitVec 1) (s : BitVec 1) (d : BitVec 7) (a : BitVec 7) (b : BitVec 7)
  /-- IMIN_G (R346). -/
  | iminG (q : BitVec 2) (w : BitVec 1) (s : BitVec 1) (d : BitVec 7) (a : BitVec 7) (b : BitVec 7)
  /-- AND_V (R307). -/
  | andV (q : BitVec 2) (w : BitVec 1) (d : BitVec 7) (a : BitVec 7) (b : BitVec 7)
  /-- OR_V (R368). -/
  | orV (q : BitVec 2) (w : BitVec 1) (d : BitVec 7) (a : BitVec 7) (b : BitVec 7)
  /-- XOR_V (R407). -/
  | xorV (q : BitVec 2) (w : BitVec 1) (d : BitVec 7) (a : BitVec 7) (b : BitVec 7)
  /-- ANDN_V (R307). -/
  | andnV (q : BitVec 2) (w : BitVec 1) (d : BitVec 7) (a : BitVec 7) (b : BitVec 7)
  /-- AND_G (R307). -/
  | andG (q : BitVec 2) (w : BitVec 1) (d : BitVec 7) (a : BitVec 7) (b : BitVec 7)
  /-- OR_G (R368). -/
  | orG (q : BitVec 2) (w : BitVec 1) (d : BitVec 7) (a : BitVec 7) (b : BitVec 7)
  /-- XOR_G (R407). -/
  | xorG (q : BitVec 2) (w : BitVec 1) (d : BitVec 7) (a : BitVec 7) (b : BitVec 7)
  /-- ANDN_G (R307). -/
  | andnG (q : BitVec 2) (w : BitVec 1) (d : BitVec 7) (a : BitVec 7) (b : BitVec 7)
  /-- SHL_V (R387). -/
  | shlV (q : BitVec 2) (i : BitVec 1) (d : BitVec 7) (a : BitVec 7) (b : BitVec 7)
  /-- SHR_V (R387). -/
  | shrV (q : BitVec 2) (i : BitVec 1) (d : BitVec 7) (a : BitVec 7) (b : BitVec 7)
  /-- SAR_V (R387). -/
  | sarV (q : BitVec 2) (i : BitVec 1) (d : BitVec 7) (a : BitVec 7) (b : BitVec 7)
  /-- ROT_V (R383). -/
  | rotV (q : BitVec 2) (i : BitVec 1) (d : BitVec 7) (a : BitVec 7) (b : BitVec 7)
  /-- SHL_V64 (R387). -/
  | shlV64 (q : BitVec 2) (i : BitVec 1) (d : BitVec 7) (a : BitVec 7) (b : BitVec 7)
  /-- SHR_V64 (R387). -/
  | shrV64 (q : BitVec 2) (i : BitVec 1) (d : BitVec 7) (a : BitVec 7) (b : BitVec 7)
  /-- SAR_V64 (R387). -/
  | sarV64 (q : BitVec 2) (i : BitVec 1) (d : BitVec 7) (a : BitVec 7) (b : BitVec 7)
  /-- ROT_V64 (R383). -/
  | rotV64 (q : BitVec 2) (i : BitVec 1) (d : BitVec 7) (a : BitVec 7) (b : BitVec 7)
  /-- SHL_G32 (R387). -/
  | shlG32 (q : BitVec 2) (i : BitVec 1) (d : BitVec 7) (a : BitVec 7) (b : BitVec 7)
  /-- SHR_G32 (R387). -/
  | shrG32 (q : BitVec 2) (i : BitVec 1) (d : BitVec 7) (a : BitVec 7) (b : BitVec 7)
  /-- SAR_G32 (R387). -/
  | sarG32 (q : BitVec 2) (i : BitVec 1) (d : BitVec 7) (a : BitVec 7) (b : BitVec 7)
  /-- ROT_G32 (R383). -/
  | rotG32 (q : BitVec 2) (i : BitVec 1) (d : BitVec 7) (a : BitVec 7) (b : BitVec 7)
  /-- SHL_G64 (R387). -/
  | shlG64 (q : BitVec 2) (i : BitVec 1) (d : BitVec 7) (a : BitVec 7) (b : BitVec 7)
  /-- SHR_G64 (R387). -/
  | shrG64 (q : BitVec 2) (i : BitVec 1) (d : BitVec 7) (a : BitVec 7) (b : BitVec 7)
  /-- SAR_G64 (R387). -/
  | sarG64 (q : BitVec 2) (i : BitVec 1) (d : BitVec 7) (a : BitVec 7) (b : BitVec 7)
  /-- ROT_G64 (R383). -/
  | rotG64 (q : BitVec 2) (i : BitVec 1) (d : BitVec 7) (a : BitVec 7) (b : BitVec 7)
  /-- CLZ_V (R325). -/
  | clzV (q : BitVec 2) (d : BitVec 7) (a : BitVec 7)
  /-- CLZ_V64 (R325). -/
  | clzV64 (q : BitVec 2) (d : BitVec 7) (a : BitVec 7)
  /-- CLZ_G32 (R325). -/
  | clzG32 (q : BitVec 2) (d : BitVec 7) (a : BitVec 7)
  /-- CLZ_G64 (R325). -/
  | clzG64 (q : BitVec 2) (d : BitVec 7) (a : BitVec 7)
  /-- POPC_V (R370). -/
  | popcV (q : BitVec 2) (d : BitVec 7) (a : BitVec 7)
  /-- POPC_V64 (R370). -/
  | popcV64 (q : BitVec 2) (d : BitVec 7) (a : BitVec 7)
  /-- POPC_G32 (R370). -/
  | popcG32 (q : BitVec 2) (d : BitVec 7) (a : BitVec 7)
  /-- POPC_G64 (R370). -/
  | popcG64 (q : BitVec 2) (d : BitVec 7) (a : BitVec 7)
  /-- BREV_V (R319). -/
  | brevV (q : BitVec 2) (d : BitVec 7) (a : BitVec 7)
  /-- BREV_G (R319). -/
  | brevG (q : BitVec 2) (d : BitVec 7) (a : BitVec 7)
  /-- BFX_Z_V (R315). -/
  | bfxZV (q : BitVec 2) (d : BitVec 7) (a : BitVec 7) (b : BitVec 7)
  /-- BFX_S_V (R315). -/
  | bfxSV (q : BitVec 2) (d : BitVec 7) (a : BitVec 7) (b : BitVec 7)
  /-- BFX_Z_G (R315). -/
  | bfxZG (q : BitVec 2) (d : BitVec 7) (a : BitVec 7) (b : BitVec 7)
  /-- BFX_S_G (R315). -/
  | bfxSG (q : BitVec 2) (d : BitVec 7) (a : BitVec 7) (b : BitVec 7)
  /-- BFI_V (R315). -/
  | bfiV (q : BitVec 2) (d : BitVec 7) (a : BitVec 7) (b : BitVec 7)
  /-- BFI_G (R315). -/
  | bfiG (q : BitVec 2) (d : BitVec 7) (a : BitVec 7) (b : BitVec 7)
  /-- ICMP_V (R347). -/
  | icmpV (q : BitVec 2) (f : BitVec 3) (w : BitVec 1) (p : BitVec 2) (a : BitVec 7) (b : BitVec 7)
  /-- ICMP_G (R347). -/
  | icmpG (q : BitVec 2) (f : BitVec 3) (w : BitVec 1) (p : BitVec 2) (a : BitVec 7) (b : BitVec 7)
  /-- MOV_V (R363). -/
  | movV (q : BitVec 2) (d : BitVec 7) (a : BitVec 7)
  /-- MOV_V64 (R363). -/
  | movV64 (q : BitVec 2) (d : BitVec 7) (a : BitVec 7)
  /-- MOV_G32 (R363). -/
  | movG32 (q : BitVec 2) (d : BitVec 7) (a : BitVec 7)
  /-- MOV_G64 (R363). -/
  | movG64 (q : BitVec 2) (d : BitVec 7) (a : BitVec 7)
  /-- SEL_V (R390). -/
  | selV (q : BitVec 2) (w : BitVec 1) (p : BitVec 2) (d : BitVec 7) (a : BitVec 7) (b : BitVec 7)
  /-- SEL_G (R390). -/
  | selG (q : BitVec 2) (w : BitVec 1) (p : BitVec 2) (d : BitVec 7) (a : BitVec 7) (b : BitVec 7)
  /-- PSET_V (R371). -/
  | psetV (q : BitVec 2) (f : BitVec 3) (d : BitVec 2) (a : BitVec 2) (b : BitVec 2)
  /-- PSET_G (R371). -/
  | psetG (q : BitVec 2) (f : BitVec 3) (d : BitVec 2) (a : BitVec 2) (b : BitVec 2)
  /-- PSET_NZ_V (R371). -/
  | psetNzV (q : BitVec 2) (d : BitVec 2) (a : BitVec 7) (w : BitVec 1)
  /-- PSET_NZ_G (R371). -/
  | psetNzG (q : BitVec 2) (d : BitVec 2) (a : BitVec 7) (w : BitVec 1)
  /-- MOV_SPECIAL_V (R56). -/
  | movSpecialV (q : BitVec 2) (d : BitVec 7) (s : BitVec 7)
  /-- MOV_SPECIAL_G (R56). -/
  | movSpecialG (q : BitVec 2) (d : BitVec 7) (s : BitVec 7)
  /-- MOVI_V (R365). -/
  | moviV (q : BitVec 2) (d : BitVec 7) (i : BitVec 17)
  /-- MOVI_G (R365). -/
  | moviG (q : BitVec 2) (d : BitVec 7) (i : BitVec 17)
  /-- BRX_V (R321). -/
  | brxV (q : BitVec 2) (a : BitVec 7)
  /-- BRX_G (R321). -/
  | brxG (q : BitVec 2) (a : BitVec 7)
  /-- RET_V (R382). -/
  | retV (q : BitVec 2) (a : BitVec 7)
  /-- RET_G (R382). -/
  | retG (q : BitVec 2) (a : BitVec 7)
  /-- LEA_V (R356). -/
  | leaV (q : BitVec 2) (s : BitVec 2) (d : BitVec 7) (a : BitVec 7) (b : BitVec 7)
  /-- LEA_G (R356). -/
  | leaG (q : BitVec 2) (s : BitVec 2) (d : BitVec 7) (a : BitVec 7) (b : BitVec 7)
  /-- CALL_V (R322). -/
  | callV (q : BitVec 2) (i : BitVec 24)
  /-- CALL_G (R322). -/
  | callG (q : BitVec 2) (i : BitVec 24)
  /-- BRA_V (R317). -/
  | braV (q : BitVec 2) (i : BitVec 24)
  /-- BRA_G (R317). -/
  | braG (q : BitVec 2) (i : BitVec 24)
  /-- FADD (R337). -/
  | fadd (q : BitVec 2) (d : BitVec 7) (a : BitVec 7) (b : BitVec 7)
  /-- FSUB (R337). -/
  | fsub (q : BitVec 2) (d : BitVec 7) (a : BitVec 7) (b : BitVec 7)
  /-- FMUL (R337). -/
  | fmul (q : BitVec 2) (d : BitVec 7) (a : BitVec 7) (b : BitVec 7)
  /-- FFMA (R337). -/
  | ffma (q : BitVec 2) (d : BitVec 7) (a : BitVec 7) (b : BitVec 7)
  /-- FDIV (R337). -/
  | fdiv (q : BitVec 2) (d : BitVec 7) (a : BitVec 7) (b : BitVec 7)
  /-- FMIN (R338). -/
  | fmin (q : BitVec 2) (d : BitVec 7) (a : BitVec 7) (b : BitVec 7)
  /-- FMAX (R338). -/
  | fmax (q : BitVec 2) (d : BitVec 7) (a : BitVec 7) (b : BitVec 7)
  /-- FADD_F64 (R337). -/
  | faddF64 (q : BitVec 2) (d : BitVec 7) (a : BitVec 7) (b : BitVec 7)
  /-- FSUB_F64 (R337). -/
  | fsubF64 (q : BitVec 2) (d : BitVec 7) (a : BitVec 7) (b : BitVec 7)
  /-- FMUL_F64 (R337). -/
  | fmulF64 (q : BitVec 2) (d : BitVec 7) (a : BitVec 7) (b : BitVec 7)
  /-- FFMA_F64 (R337). -/
  | ffmaF64 (q : BitVec 2) (d : BitVec 7) (a : BitVec 7) (b : BitVec 7)
  /-- FDIV_F64 (R337). -/
  | fdivF64 (q : BitVec 2) (d : BitVec 7) (a : BitVec 7) (b : BitVec 7)
  /-- FMIN_F64 (R338). -/
  | fminF64 (q : BitVec 2) (d : BitVec 7) (a : BitVec 7) (b : BitVec 7)
  /-- FMAX_F64 (R338). -/
  | fmaxF64 (q : BitVec 2) (d : BitVec 7) (a : BitVec 7) (b : BitVec 7)
  /-- FSQRT (R340). -/
  | fsqrt (q : BitVec 2) (d : BitVec 7) (a : BitVec 7) (r : BitVec 7)
  /-- FRCP (R340). -/
  | frcp (q : BitVec 2) (d : BitVec 7) (a : BitVec 7) (r : BitVec 7)
  /-- FRSQ (R340). -/
  | frsq (q : BitVec 2) (d : BitVec 7) (a : BitVec 7) (r : BitVec 7)
  /-- FEXP2 (R340). -/
  | fexp2 (q : BitVec 2) (d : BitVec 7) (a : BitVec 7) (r : BitVec 7)
  /-- FLOG2 (R340). -/
  | flog2 (q : BitVec 2) (d : BitVec 7) (a : BitVec 7) (r : BitVec 7)
  /-- FTRIG_SINPI (R340). -/
  | ftrigSinpi (q : BitVec 2) (d : BitVec 7) (a : BitVec 7) (r : BitVec 7)
  /-- FTRIG_COSPI (R340). -/
  | ftrigCospi (q : BitVec 2) (d : BitVec 7) (a : BitVec 7) (r : BitVec 7)
  /-- FRND (R341). -/
  | frnd (q : BitVec 2) (d : BitVec 7) (a : BitVec 7) (r : BitVec 7)
  /-- FSQRT_F64 (R340). -/
  | fsqrtF64 (q : BitVec 2) (d : BitVec 7) (a : BitVec 7) (r : BitVec 7)
  /-- FRND_F64 (R341). -/
  | frndF64 (q : BitVec 2) (d : BitVec 7) (a : BitVec 7) (r : BitVec 7)
  /-- FCLASS (R341). -/
  | fclass (q : BitVec 2) (w : BitVec 1) (d : BitVec 7) (a : BitVec 7) (r : BitVec 7)
  /-- HFUSE (R343). -/
  | hfuse (q : BitVec 2) (h : BitVec 1) (d : BitVec 7) (a : BitVec 7) (b : BitVec 7)
  /-- FCMP (R342). -/
  | fcmp (q : BitVec 2) (f : BitVec 3) (w : BitVec 1) (p : BitVec 2) (a : BitVec 7) (b : BitVec 7)
  /-- CVT (R332). -/
  | cvt (q : BitVec 2) (r : BitVec 3) (d : BitVec 7) (a : BitVec 7) (p : BitVec 7)
  /-- CVT_GX_ENCODE (R333). -/
  | cvtGxEncode (q : BitVec 2) (d : BitVec 7) (a : BitVec 7) (s : BitVec 1) (c : BitVec 4)
  /-- CVT_GX_DECODE (R333). -/
  | cvtGxDecode (q : BitVec 2) (d : BitVec 7) (a : BitVec 7) (c : BitVec 4)
  /-- DP4 (R334). -/
  | dp4 (q : BitVec 2) (z : BitVec 1) (d : BitVec 7) (a : BitVec 7) (b : BitVec 7)
  /-- RAND (R374). -/
  | rand (q : BitVec 2) (f : BitVec 1) (d : BitVec 7)
  /-- PITCH (R369). -/
  | pitch (q : BitVec 2) (a : BitVec 7)
  /-- SHFL (R391). -/
  | shfl (q : BitVec 2) (m : BitVec 2) (d : BitVec 7) (a : BitVec 7) (b : BitVec 7)
  /-- VOTE (R403). -/
  | vote (q : BitVec 2) (d : BitVec 7) (p : BitVec 2) (k : BitVec 7)
  /-- BCAST (R314). -/
  | bcast (q : BitVec 2) (d : BitVec 7) (a : BitVec 7) (w : BitVec 1)
  /-- REDUX (R379). -/
  | redux (q : BitVec 2) (d : BitVec 7) (a : BitVec 7) (t : BitVec 3) (o : BitVec 3)
  /-- SCAN (R389). -/
  | scan (q : BitVec 2) (d : BitVec 7) (a : BitVec 7) (x : BitVec 1) (t : BitVec 3) (o : BitVec 3)
  /-- NZSCAN (R367). -/
  | nzscan (q : BitVec 2) (d : BitVec 7) (a : BitVec 7) (b : BitVec 7)
  /-- ISECT (R348). -/
  | isect (q : BitVec 2) (d : BitVec 7) (a : BitVec 7) (b : BitVec 7)
  /-- MOV_QUEUE_PUSH (R364). -/
  | movQueuePush (q : BitVec 2) (d : BitVec 7) (a : BitVec 7)
  /-- MOV_QUEUE_POP (R364). -/
  | movQueuePop (q : BitVec 2) (d : BitVec 7)
  /-- CPY (R327). -/
  | cpy (q : BitVec 2) (d : BitVec 7) (a : BitVec 7) (b : BitVec 7)
  /-- CPYR (R327). -/
  | cpyr (q : BitVec 2) (d : BitVec 7) (a : BitVec 7) (b : BitVec 7)
  /-- LD_V (R351). -/
  | ldV (q : BitVec 2) (s : BitVec 3) (d : BitVec 7) (a : BitVec 7) (b : BitVec 7)
  /-- ST_V (R395). -/
  | stV (q : BitVec 2) (s : BitVec 3) (d : BitVec 7) (a : BitVec 7) (b : BitVec 7)
  /-- LD_ORDERED (R351). -/
  | ldOrdered (q : BitVec 2) (d : BitVec 7) (a : BitVec 7) (o : BitVec 5) (s : BitVec 3)
  /-- ST_ORDERED (R395). -/
  | stOrdered (q : BitVec 2) (d : BitVec 7) (a : BitVec 7) (o : BitVec 5) (s : BitVec 3)
  /-- ATOM (R149). -/
  | atom (q : BitVec 2) (d : BitVec 7) (a : BitVec 7) (o : BitVec 5) (c : BitVec 5)
  /-- RED (R377). -/
  | red (q : BitVec 2) (d : BitVec 7) (a : BitVec 7) (o : BitVec 5) (c : BitVec 5)
  /-- LDT (R355). -/
  | ldt (q : BitVec 2) (d : BitVec 7) (a : BitVec 7) (t : BitVec 3) (r : BitVec 1) (k : BitVec 3)
  /-- STT (R398). -/
  | stt (q : BitVec 2) (d : BitVec 7) (a : BitVec 7) (t : BitVec 3) (r : BitVec 1) (k : BitVec 3)
  /-- MOV_SLICE_PUSH (R364). -/
  | movSlicePush (q : BitVec 2) (d : BitVec 7) (a : BitVec 7) (t : BitVec 3) (r : BitVec 1) (k : BitVec 3)
  /-- MOV_SLICE_POP (R364). -/
  | movSlicePop (q : BitVec 2) (a : BitVec 7) (t : BitVec 3) (r : BitVec 1) (k : BitVec 3)
  /-- MOV_SLICE_TO_V (R363). -/
  | movSliceToV (q : BitVec 2) (d : BitVec 7) (a : BitVec 7) (t : BitVec 3) (r : BitVec 1) (k : BitVec 3)
  /-- MOV_V_TO_SLICE (R363). -/
  | movVToSlice (q : BitVec 2) (d : BitVec 7) (a : BitVec 7) (t : BitVec 3) (r : BitVec 1) (k : BitVec 3)
  /-- NOP (R366). -/
  | nop (q : BitVec 2)
  /-- EXIT (R335). -/
  | exit (q : BitVec 2)
  /-- TRAP (R399). -/
  | trap (q : BitVec 2) (n : BitVec 7)
  /-- ERET (R256). -/
  | eret (q : BitVec 2)
  /-- YIELD (R408). -/
  | yield (q : BitVec 2)
  /-- FENCE (R336). -/
  | fence (q : BitVec 2) (o : BitVec 7)
  /-- WBASE_IMM (R406). -/
  | wbaseImm (q : BitVec 2) (c : BitVec 4)
  /-- WBASE_REG (R406). -/
  | wbaseReg (q : BitVec 2) (a : BitVec 7)
  /-- QPOLL (R373). -/
  | qpoll (q : BitVec 2) (p : BitVec 2) (a : BitVec 7)
  /-- SPAWN (R393). -/
  | spawn (q : BitVec 2) (d : BitVec 7) (a : BitVec 7) (b : BitVec 7)
  /-- JOIN (R349). -/
  | join (q : BitVec 2)
  /-- ALLOC_HEAP (R173). -/
  | allocHeap (q : BitVec 2) (d : BitVec 7) (a : BitVec 7)
  /-- ALLOC_LOG (R173). -/
  | allocLog (q : BitVec 2) (d : BitVec 7) (a : BitVec 7)
  /-- RDECL (R175). -/
  | rdecl (q : BitVec 2) (a : BitVec 7) (n : BitVec 7)
  /-- RVIEW (R176). -/
  | rview (q : BitVec 2) (d : BitVec 7) (n : BitVec 7)
  /-- CTLRD (R329). -/
  | ctlrd (q : BitVec 2) (d : BitVec 7) (s : BitVec 10)
  /-- CTLRD_FFLAGS (R330). -/
  | ctlrdFflags (q : BitVec 2) (d : BitVec 7)
  /-- CTLWR (R329). -/
  | ctlwr (q : BitVec 2) (a : BitVec 7) (s : BitVec 10)
  /-- CTLWR_FFLAGS (R330). -/
  | ctlwrFflags (q : BitVec 2) (a : BitVec 7)
  /-- CTLWR_LFM (R61). -/
  | ctlwrLfm (q : BitVec 2) (a : BitVec 7)
  /-- CTLWR_REPC (R62). -/
  | ctlwrRepc (q : BitVec 2) (a : BitVec 7)
  /-- CTLWR_TMR (R63). -/
  | ctlwrTmr (q : BitVec 2) (a : BitVec 7)
  /-- CTLWR_ALARM (R63). -/
  | ctlwrAlarm (q : BitVec 2) (a : BitVec 7)
  /-- BARA (R310). -/
  | bara (q : BitVec 2) (d : BitVec 7) (n : BitVec 7)
  /-- BARW (R310). -/
  | barw (q : BitVec 2) (a : BitVec 7) (n : BitVec 7)
  /-- BARM (R310). -/
  | barm (q : BitVec 2) (a : BitVec 7) (n : BitVec 7)
  /-- BBINIT (R312). -/
  | bbinit (q : BitVec 2) (a : BitVec 7) (b : BitVec 7)
  /-- BBEXP (R312). -/
  | bbexp (q : BitVec 2) (a : BitVec 7) (b : BitVec 7)
  /-- BBARR (R312). -/
  | bbarr (q : BitVec 2) (a : BitVec 7) (b : BitVec 7)
  /-- BBWAIT (R312). -/
  | bbwait (q : BitVec 2) (a : BitVec 7) (b : BitVec 7)
  /-- CKINIT (R323). -/
  | ckinit (q : BitVec 2) (a : BitVec 7) (n : BitVec 4)
  /-- CKRES (R323). -/
  | ckres (q : BitVec 2) (d : BitVec 7) (c : BitVec 3) (n : BitVec 4)
  /-- CKPUB (R323). -/
  | ckpub (q : BitVec 2) (a : BitVec 7) (c : BitVec 3) (n : BitVec 4)
  /-- CKACQ (R323). -/
  | ckacq (q : BitVec 2) (d : BitVec 7) (c : BitVec 3) (n : BitVec 4)
  /-- CKREL (R323). -/
  | ckrel (q : BitVec 2) (a : BitVec 7) (c : BitVec 3) (n : BitVec 4)
  /-- WAIT (R404). -/
  | wait (q : BitVec 2) (a : BitVec 7) (b : BitVec 7)
  /-- ABEG (R304). -/
  | abeg (q : BitVec 2) (a : BitVec 7)
  /-- ACOM (R304). -/
  | acom (q : BitVec 2) (o : BitVec 7)
  /-- CPYT (R327). -/
  | cpyt (q : BitVec 2) (d : BitVec 7) (a : BitVec 7) (b : BitVec 7)
  /-- TSRF (R402). -/
  | tsrf (q : BitVec 2)
  /-- TRIG (R400). -/
  | trig (q : BitVec 2) (p : BitVec 2) (a : BitVec 7)
  /-- LD_G (R351). -/
  | ldG (q : BitVec 2) (s : BitVec 3) (d : BitVec 7) (a : BitVec 7) (b : BitVec 7)
  /-- ST_G (R395). -/
  | stG (q : BitVec 2) (s : BitVec 3) (d : BitVec 7) (a : BitVec 7) (b : BitVec 7)
  /-- MMA (R221). -/
  | mma (q : BitVec 2) (a : BitVec 4) (b : BitVec 4) (c : BitVec 3) (d : BitVec 7)
  /-- MMAG (R222). -/
  | mmag (q : BitVec 2) (a : BitVec 4) (b : BitVec 4) (c : BitVec 3) (d : BitVec 7)
  /-- MMAV (R228). -/
  | mmav (q : BitVec 2) (a : BitVec 4) (b : BitVec 4) (c : BitVec 3) (d : BitVec 7)
  /-- MSCA (R223). -/
  | msca (q : BitVec 2) (a : BitVec 4) (c : BitVec 3) (d : BitVec 7)
  /-- MZERO (R224). -/
  | mzero (q : BitVec 2) (c : BitVec 3)
  /-- MDRN (R224). -/
  | mdrn (q : BitVec 2) (a : BitVec 4) (c : BitVec 3) (d : BitVec 7)
  /-- LIMM (R357). -/
  | limm (i : BitVec 24)
  /-- REP (R381). -/
  | rep (n : BitVec 6) (m : BitVec 3) (s : BitVec 3) (g : BitVec 7)
  /-- PAGE_REQUEST (R270). -/
  | pageRequest
  /-- THERMAL_HALT (R274). -/
  | thermalHalt
  /-- TAP_REBIND (R240). -/
  | tapRebind
  /-- WAIT_SIGNAL_TIMEOUT (R237). -/
  | waitSignalTimeout
  /-- COMPLETION_SIGNAL (R244). -/
  | completionSignal
  /-- LAUNCH_END (R259). -/
  | launchEnd
  /-- TASK_COMPLETION_REPORT (R34). -/
  | taskCompletionReport
  /-- JOIN_COMPLETE (R33). -/
  | joinComplete
  /-- ROOT_VIEW_FOLD (R179). -/
  | rootViewFold
  /-- DEFERRED_ADD_APPLY (R182). -/
  | deferredAddApply
  /-- TRAP_ENTRY (R255). -/
  | trapEntry
  /-- TIMER (R63). -/
  | timer
  /-- ALARM (R63). -/
  | alarm
  /-- GRP_ABSENT (R165). -/
  | grpAbsent
  deriving DecidableEq, Repr

end Sys2Proof
end

