-- ==== Sys2Proof/Decode.lean ====
section
/-! DEFINITION. Decoding of instruction words, total and rejecting by name, and the encoder.
Formats: 04 R66, R67; guards R68; field limits R70; shared codes R71 to R73; map R81. -/
namespace Sys2Proof

/-- The major opcode of a word (04 R66). -/
def majorOf (w : BitVec 32) : BitVec 6 := w.extractLsb' 26 6

/-- The guard bits of a word (04 R66). -/
def guardBits (w : BitVec 32) : BitVec 2 := w.extractLsb' 24 2

/-- An even register, the low half of a 64-bit pair (03 R48). -/
def ev (r : BitVec 7) : Bool := r.extractLsb' 0 1 == 0#1

/-- A g field that names a general register (04 R70). -/
def gr (r : BitVec 7) : Bool := r.toNat < 96

/-- A queue a program may push to: mqa, mqb or mqs (03 R53). -/
def pushReg (r : BitVec 7) : Bool := r == 96#7 || r == 97#7 || r == 99#7

/-- A register that may hold a matrix descriptor (11 R216). -/
def descReg (r : BitVec 7) : Bool := 1 ≤ r.toNat && r.toNat < 96

/-- The data registers a lane load or store of size code `s` may name (20 R350, 22 R394). -/
def dataOk (s : BitVec 3) (d : BitVec 7) : Bool :=
  if s == 6#3 then ev d else if s == 7#3 then d.extractLsb' 0 2 == 0#2 else true

/-- The size codes of a store (22 R394). -/
def stSize (s : BitVec 3) : Bool := s == 0#3 || s == 2#3 || s == 4#3 || s == 6#3 || s == 7#3

/-- The data register rule of ATOM and RED (08 R149). -/
def atomData (c : BitVec 5) (d : BitVec 7) : Bool :=
  if c == 19#5 then d.extractLsb' 0 2 == 0#2
  else if c == 18#5 then ev d
  else if c.extractLsb' 0 1 == 1#1 then ev d else true

/-- The operation and type codes REDUX and SCAN take (21 R378). -/
def redOk (o t : BitVec 3) : Bool := o.toNat < 6 && t.toNat < 6 && (o.toNat < 3 || 2 ≤ t.toNat)

/-- The types REDUX and SCAN read from pairs (21 R378). -/
def wideType (t : BitVec 3) : Bool := t == 1#3 || t == 4#3 || t == 5#3

/-- Source and destination type codes of a CVT pair code, none where unassigned (19 R331). -/
def cvtPair (p : BitVec 7) : Option (Nat × Nat) :=
  let n := p.toNat
  if n < 64 then
    if n % 16 = n / 16 then none else some (n / 16, n % 16)
  else
    let w := (n - 64) / 16
    let t := n % 16
    if 4 ≤ t then some (t, w)
    else
      let s := if w = 0 then 9 else if w = 1 then 10 else if w = 2 then 11 else 12
      let u := if t = 0 then 11 else if t = 1 then 12 else if t = 2 then 13 else 14
      if s = u then none else some (s, u)

/-- Type codes held in an even pair (19 R332). -/
def cvtWide (t : Nat) : Bool := t == 0 || t == 9 || t == 10

/-- The CVT conditions of 19 R331 and R332. -/
def cvtOk (r : BitVec 3) (d a p : BitVec 7) : Bool :=
  match cvtPair p with
  | none => false
  | some (s, t) =>
    (!cvtWide s || ev a) && (!cvtWide t || ev d) && !(9 ≤ s && 9 ≤ t && 2 ≤ r.toNat)

/-- The 8-bit class of matrix formats (11 R217). -/
def isNarrowFloat (f : BitVec 4) : Bool := (5 ≤ f.toNat && f.toNat ≤ 9) || 13 ≤ f.toNat

/-- The integer matrix formats (11 R217). -/
def isIntFmt (f : BitVec 4) : Bool := 10 ≤ f.toNat && f.toNat ≤ 12

/-- The format pairs of MMA and MMAG (11 R217). -/
def pairOk (a b : BitVec 4) : Bool :=
  (a == 0#4 && b == 0#4) ||
  ((a == 1#4 || a == 2#4) && (b == 1#4 || b == 2#4)) ||
  ((a == 3#4 || a == 4#4) && (b == 3#4 || b == 4#4)) ||
  (isNarrowFloat a && isNarrowFloat b) || (isIntFmt a && isIntFmt b)

/-- The format pairs of MMAV (11 R217). -/
def vgPairOk (a b : BitVec 4) : Bool := a != 0#4 && 1 ≤ b.toNat && b.toNat ≤ 12

/-- The field limits of every encoded row that the word alone decides (04 R70, R78); an event has no word. -/
def Instr.fieldsOk : Instr → Bool
  | .iaddV q d a b => !(q == 0#2 && d == 0#7 && a == 0#7 && b == 0#7)
  | .isubV _ _ _ _ => true
  | .imulV _ _ _ _ => true
  | .imulhS32V _ _ _ _ => true
  | .imulhZ32V _ _ _ _ => true
  | .imadV _ _ _ _ => true
  | .iabsV _ _ _ => true
  | .iaddV64 _ d a b => ev d && ev a && ev b
  | .isubV64 _ d a b => ev d && ev a && ev b
  | .imulV64 _ d a b => ev d && ev a && ev b
  | .imulhS64V _ d a b => ev d && ev a && ev b
  | .imulhZ64V _ d a b => ev d && ev a && ev b
  | .imadV64 _ d a b => ev d && ev a && ev b
  | .iabsV64 _ d a => ev d && ev a
  | .iaddG32 _ d a b => gr d && gr a && gr b
  | .isubG32 _ d a b => gr d && gr a && gr b
  | .imulG32 _ d a b => gr d && gr a && gr b
  | .imulhS32G _ d a b => gr d && gr a && gr b
  | .imulhZ32G _ d a b => gr d && gr a && gr b
  | .imadG32 _ d a b => gr d && gr a && gr b
  | .iabsG32 _ d a => gr d && gr a
  | .iaddG64 _ d a b => gr d && gr a && gr b
  | .isubG64 _ d a b => gr d && gr a && gr b
  | .imulG64 _ d a b => gr d && gr a && gr b
  | .imulhS64G _ d a b => gr d && gr a && gr b
  | .imulhZ64G _ d a b => gr d && gr a && gr b
  | .imadG64 _ d a b => gr d && gr a && gr b
  | .iabsG64 _ d a => gr d && gr a
  | .iaddImmV _ _ _ _ => true
  | .iaddImmV64 _ d a _ => ev d && ev a
  | .iaddImmG32 _ d a _ => gr d && gr a
  | .iaddImmG64 _ d a _ => gr d && gr a
  | .imaxV _ w _ d a b => if w == 1#1 then ev d && ev a && ev b else true
  | .iminV _ w _ d a b => if w == 1#1 then ev d && ev a && ev b else true
  | .imaxG _ _ _ d a b => gr d && gr a && gr b
  | .iminG _ _ _ d a b => gr d && gr a && gr b
  | .andV _ w d a b => if w == 1#1 then ev d && ev a && ev b else true
  | .orV _ w d a b => if w == 1#1 then ev d && ev a && ev b else true
  | .xorV _ w d a b => if w == 1#1 then ev d && ev a && ev b else true
  | .andnV _ w d a b => if w == 1#1 then ev d && ev a && ev b else true
  | .andG _ _ d a b => gr d && gr a && gr b
  | .orG _ _ d a b => gr d && gr a && gr b
  | .xorG _ _ d a b => gr d && gr a && gr b
  | .andnG _ _ d a b => gr d && gr a && gr b
  | .shlV _ i _ _ b => i == 0#1 || b.toNat < 32
  | .shrV _ i _ _ b => i == 0#1 || b.toNat < 32
  | .sarV _ i _ _ b => i == 0#1 || b.toNat < 32
  | .rotV _ i _ _ b => i == 0#1 || b.toNat < 32
  | .shlV64 _ i d a b => ev d && ev a && (if i == 1#1 then b.toNat < 64 else ev b)
  | .shrV64 _ i d a b => ev d && ev a && (if i == 1#1 then b.toNat < 64 else ev b)
  | .sarV64 _ i d a b => ev d && ev a && (if i == 1#1 then b.toNat < 64 else ev b)
  | .rotV64 _ i d a b => ev d && ev a && (if i == 1#1 then b.toNat < 64 else ev b)
  | .shlG32 _ i d a b => gr d && gr a && (if i == 1#1 then b.toNat < 32 else gr b)
  | .shrG32 _ i d a b => gr d && gr a && (if i == 1#1 then b.toNat < 32 else gr b)
  | .sarG32 _ i d a b => gr d && gr a && (if i == 1#1 then b.toNat < 32 else gr b)
  | .rotG32 _ i d a b => gr d && gr a && (if i == 1#1 then b.toNat < 32 else gr b)
  | .shlG64 _ i d a b => gr d && gr a && (if i == 1#1 then b.toNat < 64 else gr b)
  | .shrG64 _ i d a b => gr d && gr a && (if i == 1#1 then b.toNat < 64 else gr b)
  | .sarG64 _ i d a b => gr d && gr a && (if i == 1#1 then b.toNat < 64 else gr b)
  | .rotG64 _ i d a b => gr d && gr a && (if i == 1#1 then b.toNat < 64 else gr b)
  | .clzV _ _ _ => true
  | .clzV64 _ d a => ev d && ev a
  | .clzG32 _ d a => gr d && gr a
  | .clzG64 _ d a => gr d && gr a
  | .popcV _ _ _ => true
  | .popcV64 _ d a => ev d && ev a
  | .popcG32 _ d a => gr d && gr a
  | .popcG64 _ d a => gr d && gr a
  | .brevV _ _ _ => true
  | .brevG _ d a => gr d && gr a
  | .bfxZV _ _ _ _ => true
  | .bfxSV _ _ _ _ => true
  | .bfxZG _ d a b => gr d && gr a && gr b
  | .bfxSG _ d a b => gr d && gr a && gr b
  | .bfiV _ _ _ _ => true
  | .bfiG _ d a b => gr d && gr a && gr b
  | .icmpV _ f w _ a b => f.toNat < 6 && (w == 0#1 || (ev a && ev b))
  | .icmpG _ f _ _ a b => f.toNat < 6 && gr a && gr b
  | .movV _ _ _ => true
  | .movV64 _ d a => ev d && ev a
  | .movG32 _ d a => gr d && gr a
  | .movG64 _ d a => gr d && gr a
  | .selV _ w p d a b => p != 0#2 && (w == 0#1 || (ev d && ev a && ev b))
  | .selG _ _ p d a b => p != 0#2 && gr d && gr a && gr b
  | .psetV _ f _ _ b => f.toNat < 4 || (f == 4#3 && b == 0#2)
  | .psetG _ f _ _ b => f.toNat < 4 || (f == 4#3 && b == 0#2)
  | .psetNzV _ _ a w => w == 0#1 || ev a
  | .psetNzG _ _ a _ => gr a
  | .movSpecialV _ _ s => s == 0#7
  | .movSpecialG _ d s => gr d && 1 ≤ s.toNat && s.toNat ≤ 10
  | .moviV _ _ _ => true
  | .moviG _ d _ => gr d
  | .brxV _ a => ev a
  | .brxG _ a => gr a
  | .retV _ a => ev a
  | .retG _ a => gr a
  | .leaV _ _ d a _ => ev d && gr a
  | .leaG _ _ d a b => gr d && gr a && gr b
  | .callV _ _ => true
  | .callG _ _ => true
  | .braV _ _ => true
  | .braG _ _ => true
  | .fadd _ _ _ _ => true
  | .fsub _ _ _ _ => true
  | .fmul _ _ _ _ => true
  | .ffma _ _ _ _ => true
  | .fdiv _ _ _ _ => true
  | .fmin _ _ _ _ => true
  | .fmax _ _ _ _ => true
  | .faddF64 _ d a b => ev d && ev a && ev b
  | .fsubF64 _ d a b => ev d && ev a && ev b
  | .fmulF64 _ d a b => ev d && ev a && ev b
  | .ffmaF64 _ d a b => ev d && ev a && ev b
  | .fdivF64 _ d a b => ev d && ev a && ev b
  | .fminF64 _ d a b => ev d && ev a && ev b
  | .fmaxF64 _ d a b => ev d && ev a && ev b
  | .fsqrt _ _ _ r => r.toNat < 5
  | .frcp _ _ _ r => r.toNat < 5
  | .frsq _ _ _ r => r.toNat < 5
  | .fexp2 _ _ _ r => r.toNat < 5
  | .flog2 _ _ _ r => r.toNat < 5
  | .ftrigSinpi _ _ _ r => r.toNat < 5
  | .ftrigCospi _ _ _ r => r.toNat < 5
  | .frnd _ _ _ r => r.toNat < 5
  | .fsqrtF64 _ d a r => ev d && ev a && r.toNat < 5
  | .frndF64 _ d a r => ev d && ev a && r.toNat < 5
  | .fclass _ w _ a r => r.toNat < 2 && (w == 0#1 || ev a)
  | .hfuse _ _ _ _ _ => true
  | .fcmp _ _ w _ a b => w == 0#1 || (ev a && ev b)
  | .cvt _ r d a p => r.toNat < 6 && cvtOk r d a p
  | .cvtGxEncode _ _ _ _ c => 13 ≤ c.toNat
  | .cvtGxDecode _ _ _ c => 13 ≤ c.toNat
  | .dp4 _ _ _ _ _ => true
  | .rand _ _ _ => true
  | .pitch _ _ => true
  | .shfl _ _ _ _ _ => true
  | .vote _ d _ k => k.toNat < 3 && (if k == 2#7 then gr d else d.toNat < 4)
  | .bcast _ d a w => gr a && (w == 0#1 || ev d)
  | .redux _ d a t o => redOk o t && gr d && (!wideType t || ev a)
  | .scan _ d a _ t o => redOk o t && (!wideType t || (ev d && ev a))
  | .nzscan _ _ _ b => gr b
  | .isect _ d _ _ => ev d
  | .movQueuePush _ d _ => pushReg d
  | .movQueuePop _ _ => true
  | .cpy _ d a b => ev d && ev a && gr b
  | .cpyr _ d a b => ev d && ev a && gr b
  | .ldV _ s d a _ => s != 5#3 && gr a && dataOk s d
  | .stV _ s d a _ => stSize s && gr a && dataOk s d
  | .ldOrdered _ d a o s => s != 5#3 && ev a && dataOk s d && (o.toNat < 7 || o == 19#5)
  | .stOrdered _ d a o s => stSize s && ev a && dataOk s d && (o == 0#5 || (7 ≤ o.toNat && o.toNat ≤ 12))
  | .atom _ d a o c => c.toNat < 26 && o.toNat ≤ 18 && ev a && atomData c d
  | .red _ d a o c => (c.toNat < 16 || (20 ≤ c.toNat && c.toNat < 26)) && (o == 0#5 || (7 ≤ o.toNat && o.toNat ≤ 18)) && ev a && atomData c d
  | .ldt _ d a _ _ _ => gr d && gr a
  | .stt _ d a _ _ _ => gr d && gr a
  | .movSlicePush _ d a _ _ _ => pushReg d && gr a
  | .movSlicePop _ a _ _ _ => gr a
  | .movSliceToV _ _ a _ _ _ => gr a
  | .movVToSlice _ _ a _ _ _ => gr a
  | .nop _ => true
  | .exit _ => true
  | .trap _ _ => true
  | .eret _ => true
  | .yield _ => true
  | .fence _ o => 1 ≤ o.toNat && o.toNat ≤ 18
  | .wbaseImm _ _ => true
  | .wbaseReg _ a => gr a
  | .qpoll _ _ a => 96 ≤ a.toNat && a.toNat ≤ 99
  | .spawn _ d a b => gr d && gr a && gr b
  | .join _ => true
  | .allocHeap _ d a => gr d && gr a
  | .allocLog _ d a => gr d && gr a
  | .rdecl _ a n => gr a && n.toNat < 16
  | .rview _ d n => gr d && n.toNat < 16
  | .ctlrd _ d s => gr d && s.toNat ≤ 9 && s != 2#10
  | .ctlrdFflags _ d => gr d
  | .ctlwr _ a s => gr a && (s.toNat ≤ 1 || (7 ≤ s.toNat && s.toNat ≤ 9))
  | .ctlwrFflags _ a => gr a
  | .ctlwrLfm _ a => gr a
  | .ctlwrRepc _ a => gr a
  | .ctlwrTmr _ a => gr a
  | .ctlwrAlarm _ a => gr a
  | .bara _ d n => gr d && n.toNat < 80
  | .barw _ a n => gr a && n.toNat < 80
  | .barm _ a n => gr a && n.toNat < 80
  | .bbinit _ a b => gr a && gr b
  | .bbexp _ a b => gr a && gr b
  | .bbarr _ a b => gr a && gr b
  | .bbwait _ a b => gr a && gr b
  | .ckinit _ a _ => gr a
  | .ckres _ d _ _ => gr d
  | .ckpub _ a _ _ => gr a
  | .ckacq _ d _ _ => gr d
  | .ckrel _ a _ _ => gr a
  | .wait _ a b => gr a && gr b
  | .abeg _ a => gr a
  | .acom _ o => o.toNat ≤ 18
  | .cpyt _ d a b => gr d && gr a && gr b && b != 95#7
  | .tsrf _ => true
  | .trig _ _ a => gr a
  | .ldG _ s d a b => s != 7#3 && gr d && gr a && gr b
  | .stG _ s d a b => stSize s && s != 7#3 && gr d && gr a && gr b
  | .mma _ a b c d => c.toNat < 2 && descReg d && pairOk a b
  | .mmag _ a b c d => c.toNat < 2 && descReg d && pairOk a b
  | .mmav _ a b _ d => descReg d && vgPairOk a b
  | .msca _ a _ d => (a == 0#4 || a == 1#4 || a == 10#4) && descReg d
  | .mzero _ _ => true
  | .mdrn _ a _ d => (a == 1#4 || a == 3#4 || a == 4#4 || a == 5#4 || a == 6#4) && descReg d
  | .limm _ => true
  | .rep n _ _ g => n == 63#6 && gr g || g == 0#7
  | .createQueue _ _ _ _ _ _ _ _ _ => false
  | .destroyQueue _ _ _ => false
  | .resetQueue _ _ _ => false
  | .abortQueue _ _ _ => false
  | .setQuantum _ _ _ => false
  | .invalidate _ _ _ _ _ => false
  | .pageResponse _ _ _ _ => false
  | .doorbell _ _ => false
  | .registerWrite _ _ _ => false
  | .attestationRequest _ => false
  | .hostWrite _ _ => false
  | .hostRead _ _ => false
  | .linkTraining _ _ => false
  | .resetBoot _ _ _ _ => false
  | .remoteRequest _ _ _ _ => false
  | .remoteRequestTimeout _ => false
  | .thermalStepChange _ _ => false
  | .powerThrottle _ => false
  | .droopEvent _ _ => false
  | .packetRead _ => false
  | .headPublish _ => false
  | .launchPacket _ => false
  | .copyPacket _ => false
  | .waitSignalPacket _ => false
  | .setSignalPacket _ => false
  | .teamDispatch _ _ => false
  | .taskStart _ => false
  | .taskSteal _ _ => false
  | .timeSlice _ _ _ => false
  | .racking _ _ _ => false
  | .switchOut _ _ => false
  | .restore _ _ _ => false
  | .engineContextSwitch _ _ => false
  | .engineArrival _ => false
  | .triggeredOpComplete _ => false
  | .pageRequest => false
  | .thermalHalt => false
  | .tapRebind => false
  | .waitSignalTimeout => false
  | .completionSignal => false
  | .launchEnd => false
  | .taskCompletionReport => false
  | .joinComplete => false
  | .rootViewFold => false
  | .deferredAddApply => false
  | .trapEntry => false
  | .timer => false
  | .alarm => false
  | .grpAbsent => false

/-- The rows of major 0x00 (04 R81). -/
def decodeMajor00 (q : BitVec 2) (fn : BitVec 3) (d : BitVec 7) (a : BitVec 7) (b : BitVec 7) : Option Instr :=
  if fn = 6#3 ∧ b = 0#7 then some (.iabsV q d a) else
  if fn = 0#3 then some (.iaddV q d a b) else
  if fn = 1#3 then some (.isubV q d a b) else
  if fn = 2#3 then some (.imulV q d a b) else
  if fn = 3#3 then some (.imulhS32V q d a b) else
  if fn = 4#3 then some (.imulhZ32V q d a b) else
  if fn = 5#3 then some (.imadV q d a b) else
  none

/-- The rows of major 0x01 (04 R81). -/
def decodeMajor01 (q : BitVec 2) (fn : BitVec 3) (d : BitVec 7) (a : BitVec 7) (b : BitVec 7) : Option Instr :=
  if fn = 6#3 ∧ b = 0#7 then some (.iabsV64 q d a) else
  if fn = 0#3 then some (.iaddV64 q d a b) else
  if fn = 1#3 then some (.isubV64 q d a b) else
  if fn = 2#3 then some (.imulV64 q d a b) else
  if fn = 3#3 then some (.imulhS64V q d a b) else
  if fn = 4#3 then some (.imulhZ64V q d a b) else
  if fn = 5#3 then some (.imadV64 q d a b) else
  none

/-- The rows of major 0x02 (04 R81). -/
def decodeMajor02 (q : BitVec 2) (fn : BitVec 3) (d : BitVec 7) (a : BitVec 7) (b : BitVec 7) : Option Instr :=
  if fn.extractLsb' 1 1 = 0#1 then some (.imaxV q (fn.extractLsb' 2 1) (fn.extractLsb' 0 1) d a b) else
  if fn.extractLsb' 1 1 = 1#1 then some (.iminV q (fn.extractLsb' 2 1) (fn.extractLsb' 0 1) d a b) else
  none

/-- The rows of major 0x03 (04 R81). -/
def decodeMajor03 (q : BitVec 2) (fn : BitVec 3) (d : BitVec 7) (a : BitVec 7) (b : BitVec 7) : Option Instr :=
  if fn.extractLsb' 0 2 = 0#2 then some (.andV q (fn.extractLsb' 2 1) d a b) else
  if fn.extractLsb' 0 2 = 1#2 then some (.orV q (fn.extractLsb' 2 1) d a b) else
  if fn.extractLsb' 0 2 = 2#2 then some (.xorV q (fn.extractLsb' 2 1) d a b) else
  if fn.extractLsb' 0 2 = 3#2 then some (.andnV q (fn.extractLsb' 2 1) d a b) else
  none

/-- The rows of major 0x04 (04 R81). -/
def decodeMajor04 (q : BitVec 2) (fn : BitVec 3) (d : BitVec 7) (a : BitVec 7) (b : BitVec 7) : Option Instr :=
  if fn.extractLsb' 0 2 = 0#2 then some (.shlV q (fn.extractLsb' 2 1) d a b) else
  if fn.extractLsb' 0 2 = 1#2 then some (.shrV q (fn.extractLsb' 2 1) d a b) else
  if fn.extractLsb' 0 2 = 2#2 then some (.sarV q (fn.extractLsb' 2 1) d a b) else
  if fn.extractLsb' 0 2 = 3#2 then some (.rotV q (fn.extractLsb' 2 1) d a b) else
  none

/-- The rows of major 0x05 (04 R81). -/
def decodeMajor05 (q : BitVec 2) (fn : BitVec 3) (d : BitVec 7) (a : BitVec 7) (b : BitVec 7) : Option Instr :=
  if fn.extractLsb' 0 2 = 0#2 then some (.shlV64 q (fn.extractLsb' 2 1) d a b) else
  if fn.extractLsb' 0 2 = 1#2 then some (.shrV64 q (fn.extractLsb' 2 1) d a b) else
  if fn.extractLsb' 0 2 = 2#2 then some (.sarV64 q (fn.extractLsb' 2 1) d a b) else
  if fn.extractLsb' 0 2 = 3#2 then some (.rotV64 q (fn.extractLsb' 2 1) d a b) else
  none

/-- The rows of major 0x06 (04 R81). -/
def decodeMajor06 (q : BitVec 2) (fn : BitVec 3) (d : BitVec 7) (a : BitVec 7) (b : BitVec 7) : Option Instr :=
  if fn = 0#3 ∧ b = 0#7 then some (.clzV q d a) else
  if fn = 6#3 ∧ b = 0#7 then some (.clzV64 q d a) else
  if fn = 1#3 ∧ b = 0#7 then some (.popcV q d a) else
  if fn = 7#3 ∧ b = 0#7 then some (.popcV64 q d a) else
  if fn = 2#3 ∧ b = 0#7 then some (.brevV q d a) else
  if fn = 3#3 then some (.bfxZV q d a b) else
  if fn = 4#3 then some (.bfxSV q d a b) else
  if fn = 5#3 then some (.bfiV q d a b) else
  none

/-- The rows of major 0x07 (04 R81). -/
def decodeMajor07 (q : BitVec 2) (fn : BitVec 3) (d : BitVec 7) (a : BitVec 7) (b : BitVec 7) : Option Instr :=
  if d.extractLsb' 3 4 = 0#4 then some (.icmpV q fn (d.extractLsb' 2 1) (d.extractLsb' 0 2) a b) else
  none

/-- The rows of major 0x08 (04 R81). -/
def decodeMajor08 (q : BitVec 2) (fn : BitVec 3) (d : BitVec 7) (a : BitVec 7) (b : BitVec 7) : Option Instr :=
  if fn = 0#3 ∧ b = 0#7 then some (.movV q d a) else
  if fn = 4#3 ∧ b = 0#7 then some (.movV64 q d a) else
  some (.selV q (fn.extractLsb' 2 1) (fn.extractLsb' 0 2) d a b)

/-- The rows of major 0x09 (04 R81). -/
def decodeMajor09 (q : BitVec 2) (fn : BitVec 3) (d : BitVec 7) (a : BitVec 7) (b : BitVec 7) : Option Instr :=
  if fn = 5#3 ∧ d.extractLsb' 2 5 = 0#5 ∧ b.extractLsb' 1 6 = 0#6 then some (.psetNzV q (d.extractLsb' 0 2) a (b.extractLsb' 0 1)) else
  if fn = 6#3 ∧ a = 0#7 then some (.movSpecialV q d b) else
  if d.extractLsb' 2 5 = 0#5 ∧ a.extractLsb' 2 5 = 0#5 ∧ b.extractLsb' 2 5 = 0#5 then some (.psetV q fn (d.extractLsb' 0 2) (a.extractLsb' 0 2) (b.extractLsb' 0 2)) else
  none

/-- The rows of major 0x0A (04 R81). -/
def decodeMajor0A (q : BitVec 2) (d : BitVec 7) (a : BitVec 7) (i : BitVec 10) : Option Instr :=
  some (.iaddImmV q d a i)

/-- The rows of major 0x0B (04 R81). -/
def decodeMajor0B (q : BitVec 2) (d : BitVec 7) (a : BitVec 7) (i : BitVec 10) : Option Instr :=
  some (.iaddImmV64 q d a i)

/-- The rows of major 0x0C (04 R81). -/
def decodeMajor0C (q : BitVec 2) (d : BitVec 7) (i : BitVec 17) : Option Instr :=
  some (.moviV q d i)

/-- The rows of major 0x0D (04 R81). -/
def decodeMajor0D (q : BitVec 2) (fn : BitVec 3) (d : BitVec 7) (a : BitVec 7) (b : BitVec 7) : Option Instr :=
  if fn = 0#3 ∧ d = 0#7 ∧ b = 0#7 then some (.brxV q a) else
  if fn = 1#3 ∧ d = 0#7 ∧ b = 0#7 then some (.retV q a) else
  if fn.extractLsb' 2 1 = 1#1 then some (.leaV q (fn.extractLsb' 0 2) d a b) else
  none

/-- The rows of major 0x0E (04 R81). -/
def decodeMajor0E (q : BitVec 2) (i : BitVec 24) : Option Instr :=
  some (.callV q i)

/-- The rows of major 0x0F (04 R81). -/
def decodeMajor0F (q : BitVec 2) (i : BitVec 24) : Option Instr :=
  some (.braV q i)

/-- The rows of major 0x10 (04 R81). -/
def decodeMajor10 (q : BitVec 2) (fn : BitVec 3) (d : BitVec 7) (a : BitVec 7) (b : BitVec 7) : Option Instr :=
  if fn = 0#3 then some (.fadd q d a b) else
  if fn = 1#3 then some (.fsub q d a b) else
  if fn = 2#3 then some (.fmul q d a b) else
  if fn = 3#3 then some (.ffma q d a b) else
  if fn = 4#3 then some (.fdiv q d a b) else
  if fn = 5#3 then some (.fmin q d a b) else
  if fn = 6#3 then some (.fmax q d a b) else
  none

/-- The rows of major 0x11 (04 R81). -/
def decodeMajor11 (q : BitVec 2) (fn : BitVec 3) (d : BitVec 7) (a : BitVec 7) (b : BitVec 7) : Option Instr :=
  if fn = 0#3 then some (.faddF64 q d a b) else
  if fn = 1#3 then some (.fsubF64 q d a b) else
  if fn = 2#3 then some (.fmulF64 q d a b) else
  if fn = 3#3 then some (.ffmaF64 q d a b) else
  if fn = 4#3 then some (.fdivF64 q d a b) else
  if fn = 5#3 then some (.fminF64 q d a b) else
  if fn = 6#3 then some (.fmaxF64 q d a b) else
  none

/-- The rows of major 0x12 (04 R81). -/
def decodeMajor12 (q : BitVec 2) (fn : BitVec 3) (d : BitVec 7) (a : BitVec 7) (b : BitVec 7) : Option Instr :=
  if fn = 0#3 then some (.fsqrt q d a b) else
  if fn = 1#3 then some (.frcp q d a b) else
  if fn = 2#3 then some (.frsq q d a b) else
  if fn = 3#3 then some (.fexp2 q d a b) else
  if fn = 4#3 then some (.flog2 q d a b) else
  if fn = 5#3 then some (.ftrigSinpi q d a b) else
  if fn = 6#3 then some (.ftrigCospi q d a b) else
  if fn = 7#3 then some (.frnd q d a b) else
  none

/-- The rows of major 0x13 (04 R81). -/
def decodeMajor13 (q : BitVec 2) (fn : BitVec 3) (d : BitVec 7) (a : BitVec 7) (b : BitVec 7) : Option Instr :=
  if fn = 0#3 then some (.fsqrtF64 q d a b) else
  if fn = 1#3 then some (.frndF64 q d a b) else
  if fn.extractLsb' 1 2 = 1#2 then some (.fclass q (fn.extractLsb' 0 1) d a b) else
  if fn.extractLsb' 1 2 = 2#2 then some (.hfuse q (fn.extractLsb' 0 1) d a b) else
  none

/-- The rows of major 0x14 (04 R81). -/
def decodeMajor14 (q : BitVec 2) (fn : BitVec 3) (d : BitVec 7) (a : BitVec 7) (b : BitVec 7) : Option Instr :=
  if d.extractLsb' 3 4 = 0#4 then some (.fcmp q fn (d.extractLsb' 2 1) (d.extractLsb' 0 2) a b) else
  none

/-- The rows of major 0x15 (04 R81). -/
def decodeMajor15 (q : BitVec 2) (fn : BitVec 3) (d : BitVec 7) (a : BitVec 7) (b : BitVec 7) : Option Instr :=
  if fn = 7#3 ∧ b.extractLsb' 4 3 = 0#3 then some (.cvtGxDecode q d a (b.extractLsb' 0 4)) else
  if fn = 6#3 ∧ b.extractLsb' 5 2 = 0#2 then some (.cvtGxEncode q d a (b.extractLsb' 4 1) (b.extractLsb' 0 4)) else
  some (.cvt q fn d a b)

/-- The rows of major 0x16 (04 R81). -/
def decodeMajor16 (q : BitVec 2) (fn : BitVec 3) (d : BitVec 7) (a : BitVec 7) (b : BitVec 7) : Option Instr :=
  if fn = 4#3 ∧ d = 0#7 ∧ b = 0#7 then some (.pitch q a) else
  if fn.extractLsb' 1 2 = 1#2 ∧ a = 0#7 ∧ b = 0#7 then some (.rand q (fn.extractLsb' 0 1) d) else
  if fn.extractLsb' 1 2 = 0#2 then some (.dp4 q (fn.extractLsb' 0 1) d a b) else
  none

/-- The rows of major 0x17 (04 R81). -/
def decodeMajor17 (q : BitVec 2) (fn : BitVec 3) (d : BitVec 7) (a : BitVec 7) (b : BitVec 7) : Option Instr :=
  if fn = 5#3 ∧ b.extractLsb' 1 6 = 0#6 then some (.bcast q d a (b.extractLsb' 0 1)) else
  if fn = 4#3 ∧ a.extractLsb' 2 5 = 0#5 then some (.vote q d (a.extractLsb' 0 2) b) else
  if fn = 6#3 ∧ b.extractLsb' 6 1 = 0#1 then some (.redux q d a (b.extractLsb' 3 3) (b.extractLsb' 0 3)) else
  if fn = 7#3 then some (.scan q d a (b.extractLsb' 6 1) (b.extractLsb' 3 3) (b.extractLsb' 0 3)) else
  if fn.extractLsb' 2 1 = 0#1 then some (.shfl q (fn.extractLsb' 0 2) d a b) else
  none

/-- The rows of major 0x18 (04 R81). -/
def decodeMajor18 (q : BitVec 2) (fn : BitVec 3) (d : BitVec 7) (a : BitVec 7) (b : BitVec 7) : Option Instr :=
  if fn = 3#3 ∧ a = 98#7 ∧ b = 0#7 then some (.movQueuePop q d) else
  if fn = 2#3 ∧ b = 0#7 then some (.movQueuePush q d a) else
  if fn = 0#3 then some (.nzscan q d a b) else
  if fn = 1#3 then some (.isect q d a b) else
  if fn = 4#3 then some (.cpy q d a b) else
  if fn = 5#3 then some (.cpyr q d a b) else
  none

/-- The rows of major 0x19 (04 R81). -/
def decodeMajor19 (q : BitVec 2) (fn : BitVec 3) (d : BitVec 7) (a : BitVec 7) (b : BitVec 7) : Option Instr :=
  some (.ldV q fn d a b)

/-- The rows of major 0x1A (04 R81). -/
def decodeMajor1A (q : BitVec 2) (fn : BitVec 3) (d : BitVec 7) (a : BitVec 7) (b : BitVec 7) : Option Instr :=
  some (.stV q fn d a b)

/-- The rows of major 0x1B (04 R81). -/
def decodeMajor1B (q : BitVec 2) (d : BitVec 7) (a : BitVec 7) (i : BitVec 10) : Option Instr :=
  if i.extractLsb' 8 2 = 0#2 then some (.ldOrdered q d a (i.extractLsb' 3 5) (i.extractLsb' 0 3)) else
  none

/-- The rows of major 0x1C (04 R81). -/
def decodeMajor1C (q : BitVec 2) (d : BitVec 7) (a : BitVec 7) (i : BitVec 10) : Option Instr :=
  if i.extractLsb' 8 2 = 0#2 then some (.stOrdered q d a (i.extractLsb' 3 5) (i.extractLsb' 0 3)) else
  none

/-- The rows of major 0x1D (04 R81). -/
def decodeMajor1D (q : BitVec 2) (d : BitVec 7) (a : BitVec 7) (i : BitVec 10) : Option Instr :=
  some (.atom q d a (i.extractLsb' 5 5) (i.extractLsb' 0 5))

/-- The rows of major 0x1E (04 R81). -/
def decodeMajor1E (q : BitVec 2) (d : BitVec 7) (a : BitVec 7) (i : BitVec 10) : Option Instr :=
  some (.red q d a (i.extractLsb' 5 5) (i.extractLsb' 0 5))

/-- The rows of major 0x1F (04 R81). -/
def decodeMajor1F (q : BitVec 2) (fn : BitVec 3) (d : BitVec 7) (a : BitVec 7) (b : BitVec 7) : Option Instr :=
  if fn = 3#3 ∧ d = 98#7 then some (.movSlicePop q a (b.extractLsb' 4 3) (b.extractLsb' 3 1) (b.extractLsb' 0 3)) else
  if fn = 0#3 then some (.ldt q d a (b.extractLsb' 4 3) (b.extractLsb' 3 1) (b.extractLsb' 0 3)) else
  if fn = 1#3 then some (.stt q d a (b.extractLsb' 4 3) (b.extractLsb' 3 1) (b.extractLsb' 0 3)) else
  if fn = 2#3 then some (.movSlicePush q d a (b.extractLsb' 4 3) (b.extractLsb' 3 1) (b.extractLsb' 0 3)) else
  if fn = 4#3 then some (.movSliceToV q d a (b.extractLsb' 4 3) (b.extractLsb' 3 1) (b.extractLsb' 0 3)) else
  if fn = 5#3 then some (.movVToSlice q d a (b.extractLsb' 4 3) (b.extractLsb' 3 1) (b.extractLsb' 0 3)) else
  none

/-- The rows of major 0x20 (04 R81). -/
def decodeMajor20 (q : BitVec 2) (fn : BitVec 3) (d : BitVec 7) (a : BitVec 7) (b : BitVec 7) : Option Instr :=
  if fn = 6#3 ∧ b = 0#7 then some (.iabsG32 q d a) else
  if fn = 0#3 then some (.iaddG32 q d a b) else
  if fn = 1#3 then some (.isubG32 q d a b) else
  if fn = 2#3 then some (.imulG32 q d a b) else
  if fn = 3#3 then some (.imulhS32G q d a b) else
  if fn = 4#3 then some (.imulhZ32G q d a b) else
  if fn = 5#3 then some (.imadG32 q d a b) else
  none

/-- The rows of major 0x21 (04 R81). -/
def decodeMajor21 (q : BitVec 2) (fn : BitVec 3) (d : BitVec 7) (a : BitVec 7) (b : BitVec 7) : Option Instr :=
  if fn = 6#3 ∧ b = 0#7 then some (.iabsG64 q d a) else
  if fn = 0#3 then some (.iaddG64 q d a b) else
  if fn = 1#3 then some (.isubG64 q d a b) else
  if fn = 2#3 then some (.imulG64 q d a b) else
  if fn = 3#3 then some (.imulhS64G q d a b) else
  if fn = 4#3 then some (.imulhZ64G q d a b) else
  if fn = 5#3 then some (.imadG64 q d a b) else
  none

/-- The rows of major 0x22 (04 R81). -/
def decodeMajor22 (q : BitVec 2) (fn : BitVec 3) (d : BitVec 7) (a : BitVec 7) (b : BitVec 7) : Option Instr :=
  if fn.extractLsb' 1 1 = 0#1 then some (.imaxG q (fn.extractLsb' 2 1) (fn.extractLsb' 0 1) d a b) else
  if fn.extractLsb' 1 1 = 1#1 then some (.iminG q (fn.extractLsb' 2 1) (fn.extractLsb' 0 1) d a b) else
  none

/-- The rows of major 0x23 (04 R81). -/
def decodeMajor23 (q : BitVec 2) (fn : BitVec 3) (d : BitVec 7) (a : BitVec 7) (b : BitVec 7) : Option Instr :=
  if fn.extractLsb' 0 2 = 0#2 then some (.andG q (fn.extractLsb' 2 1) d a b) else
  if fn.extractLsb' 0 2 = 1#2 then some (.orG q (fn.extractLsb' 2 1) d a b) else
  if fn.extractLsb' 0 2 = 2#2 then some (.xorG q (fn.extractLsb' 2 1) d a b) else
  if fn.extractLsb' 0 2 = 3#2 then some (.andnG q (fn.extractLsb' 2 1) d a b) else
  none

/-- The rows of major 0x24 (04 R81). -/
def decodeMajor24 (q : BitVec 2) (fn : BitVec 3) (d : BitVec 7) (a : BitVec 7) (b : BitVec 7) : Option Instr :=
  if fn.extractLsb' 0 2 = 0#2 then some (.shlG32 q (fn.extractLsb' 2 1) d a b) else
  if fn.extractLsb' 0 2 = 1#2 then some (.shrG32 q (fn.extractLsb' 2 1) d a b) else
  if fn.extractLsb' 0 2 = 2#2 then some (.sarG32 q (fn.extractLsb' 2 1) d a b) else
  if fn.extractLsb' 0 2 = 3#2 then some (.rotG32 q (fn.extractLsb' 2 1) d a b) else
  none

/-- The rows of major 0x25 (04 R81). -/
def decodeMajor25 (q : BitVec 2) (fn : BitVec 3) (d : BitVec 7) (a : BitVec 7) (b : BitVec 7) : Option Instr :=
  if fn.extractLsb' 0 2 = 0#2 then some (.shlG64 q (fn.extractLsb' 2 1) d a b) else
  if fn.extractLsb' 0 2 = 1#2 then some (.shrG64 q (fn.extractLsb' 2 1) d a b) else
  if fn.extractLsb' 0 2 = 2#2 then some (.sarG64 q (fn.extractLsb' 2 1) d a b) else
  if fn.extractLsb' 0 2 = 3#2 then some (.rotG64 q (fn.extractLsb' 2 1) d a b) else
  none

/-- The rows of major 0x26 (04 R81). -/
def decodeMajor26 (q : BitVec 2) (fn : BitVec 3) (d : BitVec 7) (a : BitVec 7) (b : BitVec 7) : Option Instr :=
  if fn = 0#3 ∧ b = 0#7 then some (.clzG32 q d a) else
  if fn = 6#3 ∧ b = 0#7 then some (.clzG64 q d a) else
  if fn = 1#3 ∧ b = 0#7 then some (.popcG32 q d a) else
  if fn = 7#3 ∧ b = 0#7 then some (.popcG64 q d a) else
  if fn = 2#3 ∧ b = 0#7 then some (.brevG q d a) else
  if fn = 3#3 then some (.bfxZG q d a b) else
  if fn = 4#3 then some (.bfxSG q d a b) else
  if fn = 5#3 then some (.bfiG q d a b) else
  none

/-- The rows of major 0x27 (04 R81). -/
def decodeMajor27 (q : BitVec 2) (fn : BitVec 3) (d : BitVec 7) (a : BitVec 7) (b : BitVec 7) : Option Instr :=
  if d.extractLsb' 3 4 = 0#4 then some (.icmpG q fn (d.extractLsb' 2 1) (d.extractLsb' 0 2) a b) else
  none

/-- The rows of major 0x28 (04 R81). -/
def decodeMajor28 (q : BitVec 2) (fn : BitVec 3) (d : BitVec 7) (a : BitVec 7) (b : BitVec 7) : Option Instr :=
  if fn = 0#3 ∧ b = 0#7 then some (.movG32 q d a) else
  if fn = 4#3 ∧ b = 0#7 then some (.movG64 q d a) else
  some (.selG q (fn.extractLsb' 2 1) (fn.extractLsb' 0 2) d a b)

/-- The rows of major 0x29 (04 R81). -/
def decodeMajor29 (q : BitVec 2) (fn : BitVec 3) (d : BitVec 7) (a : BitVec 7) (b : BitVec 7) : Option Instr :=
  if fn = 5#3 ∧ d.extractLsb' 2 5 = 0#5 ∧ b.extractLsb' 1 6 = 0#6 then some (.psetNzG q (d.extractLsb' 0 2) a (b.extractLsb' 0 1)) else
  if fn = 6#3 ∧ a = 0#7 then some (.movSpecialG q d b) else
  if d.extractLsb' 2 5 = 0#5 ∧ a.extractLsb' 2 5 = 0#5 ∧ b.extractLsb' 2 5 = 0#5 then some (.psetG q fn (d.extractLsb' 0 2) (a.extractLsb' 0 2) (b.extractLsb' 0 2)) else
  none

/-- The rows of major 0x2A (04 R81). -/
def decodeMajor2A (q : BitVec 2) (d : BitVec 7) (a : BitVec 7) (i : BitVec 10) : Option Instr :=
  some (.iaddImmG32 q d a i)

/-- The rows of major 0x2B (04 R81). -/
def decodeMajor2B (q : BitVec 2) (d : BitVec 7) (a : BitVec 7) (i : BitVec 10) : Option Instr :=
  some (.iaddImmG64 q d a i)

/-- The rows of major 0x2C (04 R81). -/
def decodeMajor2C (q : BitVec 2) (d : BitVec 7) (i : BitVec 17) : Option Instr :=
  some (.moviG q d i)

/-- The rows of major 0x2D (04 R81). -/
def decodeMajor2D (q : BitVec 2) (fn : BitVec 3) (d : BitVec 7) (a : BitVec 7) (b : BitVec 7) : Option Instr :=
  if fn = 0#3 ∧ d = 0#7 ∧ b = 0#7 then some (.brxG q a) else
  if fn = 1#3 ∧ d = 0#7 ∧ b = 0#7 then some (.retG q a) else
  if fn.extractLsb' 2 1 = 1#1 then some (.leaG q (fn.extractLsb' 0 2) d a b) else
  none

/-- The rows of major 0x2E (04 R81). -/
def decodeMajor2E (q : BitVec 2) (i : BitVec 24) : Option Instr :=
  some (.callG q i)

/-- The rows of major 0x2F (04 R81). -/
def decodeMajor2F (q : BitVec 2) (i : BitVec 24) : Option Instr :=
  some (.braG q i)

/-- The rows of major 0x30 (04 R81). -/
def decodeMajor30 (q : BitVec 2) (fn : BitVec 3) (d : BitVec 7) (a : BitVec 7) (b : BitVec 7) : Option Instr :=
  if fn = 0#3 ∧ d = 0#7 ∧ a = 0#7 ∧ b = 0#7 then some (.nop q) else
  if fn = 1#3 ∧ d = 0#7 ∧ a = 0#7 ∧ b = 0#7 then some (.exit q) else
  if fn = 3#3 ∧ d = 0#7 ∧ a = 0#7 ∧ b = 0#7 then some (.eret q) else
  if fn = 4#3 ∧ d = 0#7 ∧ a = 0#7 ∧ b = 0#7 then some (.yield q) else
  if fn = 6#3 ∧ d = 0#7 ∧ a = 0#7 ∧ b.extractLsb' 4 3 = 0#3 then some (.wbaseImm q (b.extractLsb' 0 4)) else
  if fn = 2#3 ∧ d = 0#7 ∧ a = 0#7 then some (.trap q b) else
  if fn = 5#3 ∧ d = 0#7 ∧ a = 0#7 then some (.fence q b) else
  if fn = 6#3 ∧ d = 0#7 ∧ b = 64#7 then some (.wbaseReg q a) else
  if fn = 7#3 ∧ d.extractLsb' 2 5 = 0#5 ∧ b = 0#7 then some (.qpoll q (d.extractLsb' 0 2) a) else
  none

/-- The rows of major 0x31 (04 R81). -/
def decodeMajor31 (q : BitVec 2) (fn : BitVec 3) (d : BitVec 7) (a : BitVec 7) (b : BitVec 7) : Option Instr :=
  if fn = 1#3 ∧ d = 0#7 ∧ a = 0#7 ∧ b = 0#7 then some (.join q) else
  if fn = 2#3 ∧ b = 0#7 then some (.allocHeap q d a) else
  if fn = 3#3 ∧ b = 0#7 then some (.allocLog q d a) else
  if fn = 4#3 ∧ d = 0#7 then some (.rdecl q a b) else
  if fn = 5#3 ∧ a = 0#7 then some (.rview q d b) else
  if fn = 0#3 then some (.spawn q d a b) else
  none

/-- The rows of major 0x32 (04 R81). -/
def decodeMajor32 (q : BitVec 2) (d : BitVec 7) (a : BitVec 7) (i : BitVec 10) : Option Instr :=
  if a = 0#7 ∧ i = 2#10 then some (.ctlrdFflags q d) else
  if a = 0#7 then some (.ctlrd q d i) else
  none

/-- The rows of major 0x33 (04 R81). -/
def decodeMajor33 (q : BitVec 2) (d : BitVec 7) (a : BitVec 7) (i : BitVec 10) : Option Instr :=
  if d = 0#7 ∧ i = 2#10 then some (.ctlwrFflags q a) else
  if d = 0#7 ∧ i = 3#10 then some (.ctlwrLfm q a) else
  if d = 0#7 ∧ i = 4#10 then some (.ctlwrRepc q a) else
  if d = 0#7 ∧ i = 5#10 then some (.ctlwrTmr q a) else
  if d = 0#7 ∧ i = 6#10 then some (.ctlwrAlarm q a) else
  if d = 0#7 then some (.ctlwr q a i) else
  none

/-- The rows of major 0x34 (04 R81). -/
def decodeMajor34 (q : BitVec 2) (fn : BitVec 3) (d : BitVec 7) (a : BitVec 7) (b : BitVec 7) : Option Instr :=
  if fn = 0#3 ∧ a = 0#7 then some (.bara q d b) else
  if fn = 1#3 ∧ d = 0#7 then some (.barw q a b) else
  if fn = 2#3 ∧ d = 0#7 then some (.barm q a b) else
  if fn = 3#3 ∧ d = 0#7 then some (.bbinit q a b) else
  if fn = 4#3 ∧ d = 0#7 then some (.bbexp q a b) else
  if fn = 5#3 ∧ d = 0#7 then some (.bbarr q a b) else
  if fn = 6#3 ∧ d = 0#7 then some (.bbwait q a b) else
  none

/-- The rows of major 0x35 (04 R81). -/
def decodeMajor35 (q : BitVec 2) (fn : BitVec 3) (d : BitVec 7) (a : BitVec 7) (b : BitVec 7) : Option Instr :=
  if fn = 6#3 ∧ d = 0#7 ∧ b = 0#7 then some (.abeg q a) else
  if fn = 7#3 ∧ d = 0#7 ∧ a = 0#7 then some (.acom q b) else
  if fn = 0#3 ∧ d = 0#7 ∧ b.extractLsb' 4 3 = 0#3 then some (.ckinit q a (b.extractLsb' 0 4)) else
  if fn = 1#3 ∧ a = 0#7 then some (.ckres q d (b.extractLsb' 4 3) (b.extractLsb' 0 4)) else
  if fn = 2#3 ∧ d = 0#7 then some (.ckpub q a (b.extractLsb' 4 3) (b.extractLsb' 0 4)) else
  if fn = 3#3 ∧ a = 0#7 then some (.ckacq q d (b.extractLsb' 4 3) (b.extractLsb' 0 4)) else
  if fn = 4#3 ∧ d = 0#7 then some (.ckrel q a (b.extractLsb' 4 3) (b.extractLsb' 0 4)) else
  if fn = 5#3 ∧ d = 0#7 then some (.wait q a b) else
  none

/-- The rows of major 0x36 (04 R81). -/
def decodeMajor36 (q : BitVec 2) (fn : BitVec 3) (d : BitVec 7) (a : BitVec 7) (b : BitVec 7) : Option Instr :=
  if fn = 1#3 ∧ d = 0#7 ∧ a = 0#7 ∧ b = 0#7 then some (.tsrf q) else
  if fn = 2#3 ∧ d.extractLsb' 2 5 = 0#5 ∧ b = 0#7 then some (.trig q (d.extractLsb' 0 2) a) else
  if fn = 0#3 then some (.cpyt q d a b) else
  none

/-- The rows of major 0x37 (04 R81). -/
def decodeMajor37 (q : BitVec 2) (fn : BitVec 3) (d : BitVec 7) (a : BitVec 7) (b : BitVec 7) : Option Instr :=
  some (.ldG q fn d a b)

/-- The rows of major 0x38 (04 R81). -/
def decodeMajor38 (q : BitVec 2) (fn : BitVec 3) (d : BitVec 7) (a : BitVec 7) (b : BitVec 7) : Option Instr :=
  some (.stG q fn d a b)

/-- The rows of major 0x39 (04 R81). -/
def decodeMajor39 (q : BitVec 2) (fa : BitVec 4) (fb : BitVec 4) (c : BitVec 3) (d : BitVec 7) (f : BitVec 6) : Option Instr :=
  if fa = 0#4 ∧ fb = 0#4 ∧ d = 0#7 ∧ f = 4#6 then some (.mzero q c) else
  if fb = 0#4 ∧ f = 3#6 then some (.msca q fa c d) else
  if fb = 0#4 ∧ f = 5#6 then some (.mdrn q fa c d) else
  if f = 0#6 then some (.mma q fa fb c d) else
  if f = 1#6 then some (.mmag q fa fb c d) else
  if f = 2#6 then some (.mmav q fa fb c d) else
  none

/-- The rows of major 0x3A (04 R81). -/
def decodeMajor3A (q : BitVec 2) (i : BitVec 24) : Option Instr :=
  if q = 0#2 then some (.limm i) else
  none

/-- The rows of major 0x3B (04 R81). -/
def decodeMajor3B (q : BitVec 2) (n : BitVec 6) (m : BitVec 3) (s : BitVec 3) (g : BitVec 7) (z : BitVec 5) : Option Instr :=
  if q = 0#2 ∧ z = 0#5 then some (.rep n m s g) else
  none

/-- The row of the opcode map a word falls in, its fields unchecked (04 R81). -/
def rowOf (w : BitVec 32) : Option Instr :=
  match (majorOf w).toNat with
  | 0 => decodeMajor00 (guardBits w) (w.extractLsb' 21 3) (w.extractLsb' 14 7) (w.extractLsb' 7 7) (w.extractLsb' 0 7)
  | 1 => decodeMajor01 (guardBits w) (w.extractLsb' 21 3) (w.extractLsb' 14 7) (w.extractLsb' 7 7) (w.extractLsb' 0 7)
  | 2 => decodeMajor02 (guardBits w) (w.extractLsb' 21 3) (w.extractLsb' 14 7) (w.extractLsb' 7 7) (w.extractLsb' 0 7)
  | 3 => decodeMajor03 (guardBits w) (w.extractLsb' 21 3) (w.extractLsb' 14 7) (w.extractLsb' 7 7) (w.extractLsb' 0 7)
  | 4 => decodeMajor04 (guardBits w) (w.extractLsb' 21 3) (w.extractLsb' 14 7) (w.extractLsb' 7 7) (w.extractLsb' 0 7)
  | 5 => decodeMajor05 (guardBits w) (w.extractLsb' 21 3) (w.extractLsb' 14 7) (w.extractLsb' 7 7) (w.extractLsb' 0 7)
  | 6 => decodeMajor06 (guardBits w) (w.extractLsb' 21 3) (w.extractLsb' 14 7) (w.extractLsb' 7 7) (w.extractLsb' 0 7)
  | 7 => decodeMajor07 (guardBits w) (w.extractLsb' 21 3) (w.extractLsb' 14 7) (w.extractLsb' 7 7) (w.extractLsb' 0 7)
  | 8 => decodeMajor08 (guardBits w) (w.extractLsb' 21 3) (w.extractLsb' 14 7) (w.extractLsb' 7 7) (w.extractLsb' 0 7)
  | 9 => decodeMajor09 (guardBits w) (w.extractLsb' 21 3) (w.extractLsb' 14 7) (w.extractLsb' 7 7) (w.extractLsb' 0 7)
  | 10 => decodeMajor0A (guardBits w) (w.extractLsb' 17 7) (w.extractLsb' 10 7) (w.extractLsb' 0 10)
  | 11 => decodeMajor0B (guardBits w) (w.extractLsb' 17 7) (w.extractLsb' 10 7) (w.extractLsb' 0 10)
  | 12 => decodeMajor0C (guardBits w) (w.extractLsb' 17 7) (w.extractLsb' 0 17)
  | 13 => decodeMajor0D (guardBits w) (w.extractLsb' 21 3) (w.extractLsb' 14 7) (w.extractLsb' 7 7) (w.extractLsb' 0 7)
  | 14 => decodeMajor0E (guardBits w) (w.extractLsb' 0 24)
  | 15 => decodeMajor0F (guardBits w) (w.extractLsb' 0 24)
  | 16 => decodeMajor10 (guardBits w) (w.extractLsb' 21 3) (w.extractLsb' 14 7) (w.extractLsb' 7 7) (w.extractLsb' 0 7)
  | 17 => decodeMajor11 (guardBits w) (w.extractLsb' 21 3) (w.extractLsb' 14 7) (w.extractLsb' 7 7) (w.extractLsb' 0 7)
  | 18 => decodeMajor12 (guardBits w) (w.extractLsb' 21 3) (w.extractLsb' 14 7) (w.extractLsb' 7 7) (w.extractLsb' 0 7)
  | 19 => decodeMajor13 (guardBits w) (w.extractLsb' 21 3) (w.extractLsb' 14 7) (w.extractLsb' 7 7) (w.extractLsb' 0 7)
  | 20 => decodeMajor14 (guardBits w) (w.extractLsb' 21 3) (w.extractLsb' 14 7) (w.extractLsb' 7 7) (w.extractLsb' 0 7)
  | 21 => decodeMajor15 (guardBits w) (w.extractLsb' 21 3) (w.extractLsb' 14 7) (w.extractLsb' 7 7) (w.extractLsb' 0 7)
  | 22 => decodeMajor16 (guardBits w) (w.extractLsb' 21 3) (w.extractLsb' 14 7) (w.extractLsb' 7 7) (w.extractLsb' 0 7)
  | 23 => decodeMajor17 (guardBits w) (w.extractLsb' 21 3) (w.extractLsb' 14 7) (w.extractLsb' 7 7) (w.extractLsb' 0 7)
  | 24 => decodeMajor18 (guardBits w) (w.extractLsb' 21 3) (w.extractLsb' 14 7) (w.extractLsb' 7 7) (w.extractLsb' 0 7)
  | 25 => decodeMajor19 (guardBits w) (w.extractLsb' 21 3) (w.extractLsb' 14 7) (w.extractLsb' 7 7) (w.extractLsb' 0 7)
  | 26 => decodeMajor1A (guardBits w) (w.extractLsb' 21 3) (w.extractLsb' 14 7) (w.extractLsb' 7 7) (w.extractLsb' 0 7)
  | 27 => decodeMajor1B (guardBits w) (w.extractLsb' 17 7) (w.extractLsb' 10 7) (w.extractLsb' 0 10)
  | 28 => decodeMajor1C (guardBits w) (w.extractLsb' 17 7) (w.extractLsb' 10 7) (w.extractLsb' 0 10)
  | 29 => decodeMajor1D (guardBits w) (w.extractLsb' 17 7) (w.extractLsb' 10 7) (w.extractLsb' 0 10)
  | 30 => decodeMajor1E (guardBits w) (w.extractLsb' 17 7) (w.extractLsb' 10 7) (w.extractLsb' 0 10)
  | 31 => decodeMajor1F (guardBits w) (w.extractLsb' 21 3) (w.extractLsb' 14 7) (w.extractLsb' 7 7) (w.extractLsb' 0 7)
  | 32 => decodeMajor20 (guardBits w) (w.extractLsb' 21 3) (w.extractLsb' 14 7) (w.extractLsb' 7 7) (w.extractLsb' 0 7)
  | 33 => decodeMajor21 (guardBits w) (w.extractLsb' 21 3) (w.extractLsb' 14 7) (w.extractLsb' 7 7) (w.extractLsb' 0 7)
  | 34 => decodeMajor22 (guardBits w) (w.extractLsb' 21 3) (w.extractLsb' 14 7) (w.extractLsb' 7 7) (w.extractLsb' 0 7)
  | 35 => decodeMajor23 (guardBits w) (w.extractLsb' 21 3) (w.extractLsb' 14 7) (w.extractLsb' 7 7) (w.extractLsb' 0 7)
  | 36 => decodeMajor24 (guardBits w) (w.extractLsb' 21 3) (w.extractLsb' 14 7) (w.extractLsb' 7 7) (w.extractLsb' 0 7)
  | 37 => decodeMajor25 (guardBits w) (w.extractLsb' 21 3) (w.extractLsb' 14 7) (w.extractLsb' 7 7) (w.extractLsb' 0 7)
  | 38 => decodeMajor26 (guardBits w) (w.extractLsb' 21 3) (w.extractLsb' 14 7) (w.extractLsb' 7 7) (w.extractLsb' 0 7)
  | 39 => decodeMajor27 (guardBits w) (w.extractLsb' 21 3) (w.extractLsb' 14 7) (w.extractLsb' 7 7) (w.extractLsb' 0 7)
  | 40 => decodeMajor28 (guardBits w) (w.extractLsb' 21 3) (w.extractLsb' 14 7) (w.extractLsb' 7 7) (w.extractLsb' 0 7)
  | 41 => decodeMajor29 (guardBits w) (w.extractLsb' 21 3) (w.extractLsb' 14 7) (w.extractLsb' 7 7) (w.extractLsb' 0 7)
  | 42 => decodeMajor2A (guardBits w) (w.extractLsb' 17 7) (w.extractLsb' 10 7) (w.extractLsb' 0 10)
  | 43 => decodeMajor2B (guardBits w) (w.extractLsb' 17 7) (w.extractLsb' 10 7) (w.extractLsb' 0 10)
  | 44 => decodeMajor2C (guardBits w) (w.extractLsb' 17 7) (w.extractLsb' 0 17)
  | 45 => decodeMajor2D (guardBits w) (w.extractLsb' 21 3) (w.extractLsb' 14 7) (w.extractLsb' 7 7) (w.extractLsb' 0 7)
  | 46 => decodeMajor2E (guardBits w) (w.extractLsb' 0 24)
  | 47 => decodeMajor2F (guardBits w) (w.extractLsb' 0 24)
  | 48 => decodeMajor30 (guardBits w) (w.extractLsb' 21 3) (w.extractLsb' 14 7) (w.extractLsb' 7 7) (w.extractLsb' 0 7)
  | 49 => decodeMajor31 (guardBits w) (w.extractLsb' 21 3) (w.extractLsb' 14 7) (w.extractLsb' 7 7) (w.extractLsb' 0 7)
  | 50 => decodeMajor32 (guardBits w) (w.extractLsb' 17 7) (w.extractLsb' 10 7) (w.extractLsb' 0 10)
  | 51 => decodeMajor33 (guardBits w) (w.extractLsb' 17 7) (w.extractLsb' 10 7) (w.extractLsb' 0 10)
  | 52 => decodeMajor34 (guardBits w) (w.extractLsb' 21 3) (w.extractLsb' 14 7) (w.extractLsb' 7 7) (w.extractLsb' 0 7)
  | 53 => decodeMajor35 (guardBits w) (w.extractLsb' 21 3) (w.extractLsb' 14 7) (w.extractLsb' 7 7) (w.extractLsb' 0 7)
  | 54 => decodeMajor36 (guardBits w) (w.extractLsb' 21 3) (w.extractLsb' 14 7) (w.extractLsb' 7 7) (w.extractLsb' 0 7)
  | 55 => decodeMajor37 (guardBits w) (w.extractLsb' 21 3) (w.extractLsb' 14 7) (w.extractLsb' 7 7) (w.extractLsb' 0 7)
  | 56 => decodeMajor38 (guardBits w) (w.extractLsb' 21 3) (w.extractLsb' 14 7) (w.extractLsb' 7 7) (w.extractLsb' 0 7)
  | 57 => decodeMajor39 (guardBits w) (w.extractLsb' 20 4) (w.extractLsb' 16 4) (w.extractLsb' 13 3) (w.extractLsb' 6 7) (w.extractLsb' 0 6)
  | 58 => decodeMajor3A (guardBits w) (w.extractLsb' 0 24)
  | 59 => decodeMajor3B (guardBits w) (w.extractLsb' 18 6) (w.extractLsb' 15 3) (w.extractLsb' 12 3) (w.extractLsb' 5 7) (w.extractLsb' 0 5)
  | _ => none

/-- Why a word is no instruction; each of these is ILLEGAL_OP (04 R78). -/
inductive DecodeError where
  /-- The all-zero word. -/
  | zeroWord
  /-- No row of the opcode map. -/
  | unassigned
  /-- A reserved field that is nonzero, or a field outside its limits. -/
  | badField
  /-- Fewer than four bytes. -/
  | short
  deriving DecidableEq, Repr

/-- The instruction a word stands for (04 R78, R81). -/
def decodeWord (w : BitVec 32) : Except DecodeError Instr :=
  if w = 0#32 then .error .zeroWord else
  match rowOf w with
  | none => .error .unassigned
  | some i => if i.fieldsOk then .ok i else .error .badField

/-- Decoding of little-endian bytes: the instruction and the bytes after it (04 R66). -/
def decodeBytes : List (BitVec 8) → Except DecodeError (Instr × List (BitVec 8))
  | b0 :: b1 :: b2 :: b3 :: rest =>
    match decodeWord (b3 ++ b2 ++ b1 ++ b0) with
    | .error e => .error e
    | .ok i => .ok (i, rest)
  | _ => .error .short

/-- The four bytes of a word as memory holds them (00 R6). -/
def wordBytes (w : BitVec 32) : List (BitVec 8) :=
  [w.extractLsb' 0 8, w.extractLsb' 8 8, w.extractLsb' 16 8, w.extractLsb' 24 8]

/-- The instruction the decoder reads from the bits `w`, the bits above `nbits` zero. -/
def decodeTableWord (nbits w : Nat) : Option Instr :=
  match decodeBytes (wordBytes (BitVec.ofNat 32 (w % 2 ^ nbits))) with
  | .ok (i, _) => some i
  | .error _ => none

/-- Format A, also M and T (04 R67). -/
def fmtA (m : BitVec 6) (q : BitVec 2) (fn : BitVec 3) (d a b : BitVec 7) : BitVec 32 := m ++ q ++ fn ++ d ++ a ++ b
/-- Format B (04 R67). -/
def fmtB (m : BitVec 6) (q : BitVec 2) (d a : BitVec 7) (i : BitVec 10) : BitVec 32 := m ++ q ++ d ++ a ++ i
/-- Format B with the joined immediate of MOVI (04 R67). -/
def fmtI (m : BitVec 6) (q : BitVec 2) (d : BitVec 7) (i : BitVec 17) : BitVec 32 := m ++ q ++ d ++ i
/-- Format C (04 R67). -/
def fmtC (m : BitVec 6) (q : BitVec 2) (i : BitVec 24) : BitVec 32 := m ++ q ++ i
/-- Format X (04 R67). -/
def fmtX (m : BitVec 6) (q : BitVec 2) (a b : BitVec 4) (c : BitVec 3) (d : BitVec 7) (f : BitVec 6) : BitVec 32 :=
  m ++ q ++ a ++ b ++ c ++ d ++ f
/-- Format P (04 R67). -/
def fmtP (m : BitVec 6) (q : BitVec 2) (n : BitVec 6) (k s : BitVec 3) (g : BitVec 7) (z : BitVec 5) : BitVec 32 :=
  m ++ q ++ n ++ k ++ s ++ g ++ z

/-- The word of an instruction (04 R67, R81 and the entries of 18 to 22); an event has none. -/
def encode : Instr → BitVec 32
  | .iaddV q d a b => fmtA 0#6 q 0#3 d a b
  | .isubV q d a b => fmtA 0#6 q 1#3 d a b
  | .imulV q d a b => fmtA 0#6 q 2#3 d a b
  | .imulhS32V q d a b => fmtA 0#6 q 3#3 d a b
  | .imulhZ32V q d a b => fmtA 0#6 q 4#3 d a b
  | .imadV q d a b => fmtA 0#6 q 5#3 d a b
  | .iabsV q d a => fmtA 0#6 q 6#3 d a 0#7
  | .iaddV64 q d a b => fmtA 1#6 q 0#3 d a b
  | .isubV64 q d a b => fmtA 1#6 q 1#3 d a b
  | .imulV64 q d a b => fmtA 1#6 q 2#3 d a b
  | .imulhS64V q d a b => fmtA 1#6 q 3#3 d a b
  | .imulhZ64V q d a b => fmtA 1#6 q 4#3 d a b
  | .imadV64 q d a b => fmtA 1#6 q 5#3 d a b
  | .iabsV64 q d a => fmtA 1#6 q 6#3 d a 0#7
  | .iaddG32 q d a b => fmtA 32#6 q 0#3 d a b
  | .isubG32 q d a b => fmtA 32#6 q 1#3 d a b
  | .imulG32 q d a b => fmtA 32#6 q 2#3 d a b
  | .imulhS32G q d a b => fmtA 32#6 q 3#3 d a b
  | .imulhZ32G q d a b => fmtA 32#6 q 4#3 d a b
  | .imadG32 q d a b => fmtA 32#6 q 5#3 d a b
  | .iabsG32 q d a => fmtA 32#6 q 6#3 d a 0#7
  | .iaddG64 q d a b => fmtA 33#6 q 0#3 d a b
  | .isubG64 q d a b => fmtA 33#6 q 1#3 d a b
  | .imulG64 q d a b => fmtA 33#6 q 2#3 d a b
  | .imulhS64G q d a b => fmtA 33#6 q 3#3 d a b
  | .imulhZ64G q d a b => fmtA 33#6 q 4#3 d a b
  | .imadG64 q d a b => fmtA 33#6 q 5#3 d a b
  | .iabsG64 q d a => fmtA 33#6 q 6#3 d a 0#7
  | .iaddImmV q d a i => fmtB 10#6 q d a i
  | .iaddImmV64 q d a i => fmtB 11#6 q d a i
  | .iaddImmG32 q d a i => fmtB 42#6 q d a i
  | .iaddImmG64 q d a i => fmtB 43#6 q d a i
  | .imaxV q w s d a b => fmtA 2#6 q (w ++ 0#1 ++ s) d a b
  | .iminV q w s d a b => fmtA 2#6 q (w ++ 1#1 ++ s) d a b
  | .imaxG q w s d a b => fmtA 34#6 q (w ++ 0#1 ++ s) d a b
  | .iminG q w s d a b => fmtA 34#6 q (w ++ 1#1 ++ s) d a b
  | .andV q w d a b => fmtA 3#6 q (w ++ 0#2) d a b
  | .orV q w d a b => fmtA 3#6 q (w ++ 1#2) d a b
  | .xorV q w d a b => fmtA 3#6 q (w ++ 2#2) d a b
  | .andnV q w d a b => fmtA 3#6 q (w ++ 3#2) d a b
  | .andG q w d a b => fmtA 35#6 q (w ++ 0#2) d a b
  | .orG q w d a b => fmtA 35#6 q (w ++ 1#2) d a b
  | .xorG q w d a b => fmtA 35#6 q (w ++ 2#2) d a b
  | .andnG q w d a b => fmtA 35#6 q (w ++ 3#2) d a b
  | .shlV q i d a b => fmtA 4#6 q (i ++ 0#2) d a b
  | .shrV q i d a b => fmtA 4#6 q (i ++ 1#2) d a b
  | .sarV q i d a b => fmtA 4#6 q (i ++ 2#2) d a b
  | .rotV q i d a b => fmtA 4#6 q (i ++ 3#2) d a b
  | .shlV64 q i d a b => fmtA 5#6 q (i ++ 0#2) d a b
  | .shrV64 q i d a b => fmtA 5#6 q (i ++ 1#2) d a b
  | .sarV64 q i d a b => fmtA 5#6 q (i ++ 2#2) d a b
  | .rotV64 q i d a b => fmtA 5#6 q (i ++ 3#2) d a b
  | .shlG32 q i d a b => fmtA 36#6 q (i ++ 0#2) d a b
  | .shrG32 q i d a b => fmtA 36#6 q (i ++ 1#2) d a b
  | .sarG32 q i d a b => fmtA 36#6 q (i ++ 2#2) d a b
  | .rotG32 q i d a b => fmtA 36#6 q (i ++ 3#2) d a b
  | .shlG64 q i d a b => fmtA 37#6 q (i ++ 0#2) d a b
  | .shrG64 q i d a b => fmtA 37#6 q (i ++ 1#2) d a b
  | .sarG64 q i d a b => fmtA 37#6 q (i ++ 2#2) d a b
  | .rotG64 q i d a b => fmtA 37#6 q (i ++ 3#2) d a b
  | .clzV q d a => fmtA 6#6 q 0#3 d a 0#7
  | .clzV64 q d a => fmtA 6#6 q 6#3 d a 0#7
  | .clzG32 q d a => fmtA 38#6 q 0#3 d a 0#7
  | .clzG64 q d a => fmtA 38#6 q 6#3 d a 0#7
  | .popcV q d a => fmtA 6#6 q 1#3 d a 0#7
  | .popcV64 q d a => fmtA 6#6 q 7#3 d a 0#7
  | .popcG32 q d a => fmtA 38#6 q 1#3 d a 0#7
  | .popcG64 q d a => fmtA 38#6 q 7#3 d a 0#7
  | .brevV q d a => fmtA 6#6 q 2#3 d a 0#7
  | .brevG q d a => fmtA 38#6 q 2#3 d a 0#7
  | .bfxZV q d a b => fmtA 6#6 q 3#3 d a b
  | .bfxSV q d a b => fmtA 6#6 q 4#3 d a b
  | .bfxZG q d a b => fmtA 38#6 q 3#3 d a b
  | .bfxSG q d a b => fmtA 38#6 q 4#3 d a b
  | .bfiV q d a b => fmtA 6#6 q 5#3 d a b
  | .bfiG q d a b => fmtA 38#6 q 5#3 d a b
  | .icmpV q f w p a b => fmtA 7#6 q f (0#4 ++ w ++ p) a b
  | .icmpG q f w p a b => fmtA 39#6 q f (0#4 ++ w ++ p) a b
  | .movV q d a => fmtA 8#6 q 0#3 d a 0#7
  | .movV64 q d a => fmtA 8#6 q 4#3 d a 0#7
  | .movG32 q d a => fmtA 40#6 q 0#3 d a 0#7
  | .movG64 q d a => fmtA 40#6 q 4#3 d a 0#7
  | .selV q w p d a b => fmtA 8#6 q (w ++ p) d a b
  | .selG q w p d a b => fmtA 40#6 q (w ++ p) d a b
  | .psetV q f d a b => fmtA 9#6 q f (0#5 ++ d) (0#5 ++ a) (0#5 ++ b)
  | .psetG q f d a b => fmtA 41#6 q f (0#5 ++ d) (0#5 ++ a) (0#5 ++ b)
  | .psetNzV q d a w => fmtA 9#6 q 5#3 (0#5 ++ d) a (0#6 ++ w)
  | .psetNzG q d a w => fmtA 41#6 q 5#3 (0#5 ++ d) a (0#6 ++ w)
  | .movSpecialV q d s => fmtA 9#6 q 6#3 d 0#7 s
  | .movSpecialG q d s => fmtA 41#6 q 6#3 d 0#7 s
  | .moviV q d i => fmtI 12#6 q d i
  | .moviG q d i => fmtI 44#6 q d i
  | .brxV q a => fmtA 13#6 q 0#3 0#7 a 0#7
  | .brxG q a => fmtA 45#6 q 0#3 0#7 a 0#7
  | .retV q a => fmtA 13#6 q 1#3 0#7 a 0#7
  | .retG q a => fmtA 45#6 q 1#3 0#7 a 0#7
  | .leaV q s d a b => fmtA 13#6 q (1#1 ++ s) d a b
  | .leaG q s d a b => fmtA 45#6 q (1#1 ++ s) d a b
  | .callV q i => fmtC 14#6 q i
  | .callG q i => fmtC 46#6 q i
  | .braV q i => fmtC 15#6 q i
  | .braG q i => fmtC 47#6 q i
  | .fadd q d a b => fmtA 16#6 q 0#3 d a b
  | .fsub q d a b => fmtA 16#6 q 1#3 d a b
  | .fmul q d a b => fmtA 16#6 q 2#3 d a b
  | .ffma q d a b => fmtA 16#6 q 3#3 d a b
  | .fdiv q d a b => fmtA 16#6 q 4#3 d a b
  | .fmin q d a b => fmtA 16#6 q 5#3 d a b
  | .fmax q d a b => fmtA 16#6 q 6#3 d a b
  | .faddF64 q d a b => fmtA 17#6 q 0#3 d a b
  | .fsubF64 q d a b => fmtA 17#6 q 1#3 d a b
  | .fmulF64 q d a b => fmtA 17#6 q 2#3 d a b
  | .ffmaF64 q d a b => fmtA 17#6 q 3#3 d a b
  | .fdivF64 q d a b => fmtA 17#6 q 4#3 d a b
  | .fminF64 q d a b => fmtA 17#6 q 5#3 d a b
  | .fmaxF64 q d a b => fmtA 17#6 q 6#3 d a b
  | .fsqrt q d a r => fmtA 18#6 q 0#3 d a r
  | .frcp q d a r => fmtA 18#6 q 1#3 d a r
  | .frsq q d a r => fmtA 18#6 q 2#3 d a r
  | .fexp2 q d a r => fmtA 18#6 q 3#3 d a r
  | .flog2 q d a r => fmtA 18#6 q 4#3 d a r
  | .ftrigSinpi q d a r => fmtA 18#6 q 5#3 d a r
  | .ftrigCospi q d a r => fmtA 18#6 q 6#3 d a r
  | .frnd q d a r => fmtA 18#6 q 7#3 d a r
  | .fsqrtF64 q d a r => fmtA 19#6 q 0#3 d a r
  | .frndF64 q d a r => fmtA 19#6 q 1#3 d a r
  | .fclass q w d a r => fmtA 19#6 q (1#2 ++ w) d a r
  | .hfuse q h d a b => fmtA 19#6 q (2#2 ++ h) d a b
  | .fcmp q f w p a b => fmtA 20#6 q f (0#4 ++ w ++ p) a b
  | .cvt q r d a p => fmtA 21#6 q r d a p
  | .cvtGxEncode q d a s c => fmtA 21#6 q 6#3 d a (0#2 ++ s ++ c)
  | .cvtGxDecode q d a c => fmtA 21#6 q 7#3 d a (0#3 ++ c)
  | .dp4 q z d a b => fmtA 22#6 q (0#2 ++ z) d a b
  | .rand q f d => fmtA 22#6 q (1#2 ++ f) d 0#7 0#7
  | .pitch q a => fmtA 22#6 q 4#3 0#7 a 0#7
  | .shfl q m d a b => fmtA 23#6 q (0#1 ++ m) d a b
  | .vote q d p k => fmtA 23#6 q 4#3 d (0#5 ++ p) k
  | .bcast q d a w => fmtA 23#6 q 5#3 d a (0#6 ++ w)
  | .redux q d a t o => fmtA 23#6 q 6#3 d a (0#1 ++ t ++ o)
  | .scan q d a x t o => fmtA 23#6 q 7#3 d a (x ++ t ++ o)
  | .nzscan q d a b => fmtA 24#6 q 0#3 d a b
  | .isect q d a b => fmtA 24#6 q 1#3 d a b
  | .movQueuePush q d a => fmtA 24#6 q 2#3 d a 0#7
  | .movQueuePop q d => fmtA 24#6 q 3#3 d 98#7 0#7
  | .cpy q d a b => fmtA 24#6 q 4#3 d a b
  | .cpyr q d a b => fmtA 24#6 q 5#3 d a b
  | .ldV q s d a b => fmtA 25#6 q s d a b
  | .stV q s d a b => fmtA 26#6 q s d a b
  | .ldOrdered q d a o s => fmtB 27#6 q d a (0#2 ++ o ++ s)
  | .stOrdered q d a o s => fmtB 28#6 q d a (0#2 ++ o ++ s)
  | .atom q d a o c => fmtB 29#6 q d a (o ++ c)
  | .red q d a o c => fmtB 30#6 q d a (o ++ c)
  | .ldt q d a t r k => fmtA 31#6 q 0#3 d a (t ++ r ++ k)
  | .stt q d a t r k => fmtA 31#6 q 1#3 d a (t ++ r ++ k)
  | .movSlicePush q d a t r k => fmtA 31#6 q 2#3 d a (t ++ r ++ k)
  | .movSlicePop q a t r k => fmtA 31#6 q 3#3 98#7 a (t ++ r ++ k)
  | .movSliceToV q d a t r k => fmtA 31#6 q 4#3 d a (t ++ r ++ k)
  | .movVToSlice q d a t r k => fmtA 31#6 q 5#3 d a (t ++ r ++ k)
  | .nop q => fmtA 48#6 q 0#3 0#7 0#7 0#7
  | .exit q => fmtA 48#6 q 1#3 0#7 0#7 0#7
  | .trap q n => fmtA 48#6 q 2#3 0#7 0#7 n
  | .eret q => fmtA 48#6 q 3#3 0#7 0#7 0#7
  | .yield q => fmtA 48#6 q 4#3 0#7 0#7 0#7
  | .fence q o => fmtA 48#6 q 5#3 0#7 0#7 o
  | .wbaseImm q c => fmtA 48#6 q 6#3 0#7 0#7 (0#3 ++ c)
  | .wbaseReg q a => fmtA 48#6 q 6#3 0#7 a 64#7
  | .qpoll q p a => fmtA 48#6 q 7#3 (0#5 ++ p) a 0#7
  | .spawn q d a b => fmtA 49#6 q 0#3 d a b
  | .join q => fmtA 49#6 q 1#3 0#7 0#7 0#7
  | .allocHeap q d a => fmtA 49#6 q 2#3 d a 0#7
  | .allocLog q d a => fmtA 49#6 q 3#3 d a 0#7
  | .rdecl q a n => fmtA 49#6 q 4#3 0#7 a n
  | .rview q d n => fmtA 49#6 q 5#3 d 0#7 n
  | .ctlrd q d s => fmtB 50#6 q d 0#7 s
  | .ctlrdFflags q d => fmtB 50#6 q d 0#7 2#10
  | .ctlwr q a s => fmtB 51#6 q 0#7 a s
  | .ctlwrFflags q a => fmtB 51#6 q 0#7 a 2#10
  | .ctlwrLfm q a => fmtB 51#6 q 0#7 a 3#10
  | .ctlwrRepc q a => fmtB 51#6 q 0#7 a 4#10
  | .ctlwrTmr q a => fmtB 51#6 q 0#7 a 5#10
  | .ctlwrAlarm q a => fmtB 51#6 q 0#7 a 6#10
  | .bara q d n => fmtA 52#6 q 0#3 d 0#7 n
  | .barw q a n => fmtA 52#6 q 1#3 0#7 a n
  | .barm q a n => fmtA 52#6 q 2#3 0#7 a n
  | .bbinit q a b => fmtA 52#6 q 3#3 0#7 a b
  | .bbexp q a b => fmtA 52#6 q 4#3 0#7 a b
  | .bbarr q a b => fmtA 52#6 q 5#3 0#7 a b
  | .bbwait q a b => fmtA 52#6 q 6#3 0#7 a b
  | .ckinit q a n => fmtA 53#6 q 0#3 0#7 a (0#3 ++ n)
  | .ckres q d c n => fmtA 53#6 q 1#3 d 0#7 (c ++ n)
  | .ckpub q a c n => fmtA 53#6 q 2#3 0#7 a (c ++ n)
  | .ckacq q d c n => fmtA 53#6 q 3#3 d 0#7 (c ++ n)
  | .ckrel q a c n => fmtA 53#6 q 4#3 0#7 a (c ++ n)
  | .wait q a b => fmtA 53#6 q 5#3 0#7 a b
  | .abeg q a => fmtA 53#6 q 6#3 0#7 a 0#7
  | .acom q o => fmtA 53#6 q 7#3 0#7 0#7 o
  | .cpyt q d a b => fmtA 54#6 q 0#3 d a b
  | .tsrf q => fmtA 54#6 q 1#3 0#7 0#7 0#7
  | .trig q p a => fmtA 54#6 q 2#3 (0#5 ++ p) a 0#7
  | .ldG q s d a b => fmtA 55#6 q s d a b
  | .stG q s d a b => fmtA 56#6 q s d a b
  | .mma q a b c d => fmtX 57#6 q a b c d 0#6
  | .mmag q a b c d => fmtX 57#6 q a b c d 1#6
  | .mmav q a b c d => fmtX 57#6 q a b c d 2#6
  | .msca q a c d => fmtX 57#6 q a 0#4 c d 3#6
  | .mzero q c => fmtX 57#6 q 0#4 0#4 c 0#7 4#6
  | .mdrn q a c d => fmtX 57#6 q a 0#4 c d 5#6
  | .limm i => fmtC 58#6 0#2 i
  | .rep n m s g => fmtP 59#6 0#2 n m s g 0#5
  | .createQueue _ _ _ _ _ _ _ _ _ => 0#32
  | .destroyQueue _ _ _ => 0#32
  | .resetQueue _ _ _ => 0#32
  | .abortQueue _ _ _ => 0#32
  | .setQuantum _ _ _ => 0#32
  | .invalidate _ _ _ _ _ => 0#32
  | .pageResponse _ _ _ _ => 0#32
  | .doorbell _ _ => 0#32
  | .registerWrite _ _ _ => 0#32
  | .attestationRequest _ => 0#32
  | .hostWrite _ _ => 0#32
  | .hostRead _ _ => 0#32
  | .linkTraining _ _ => 0#32
  | .resetBoot _ _ _ _ => 0#32
  | .remoteRequest _ _ _ _ => 0#32
  | .remoteRequestTimeout _ => 0#32
  | .thermalStepChange _ _ => 0#32
  | .powerThrottle _ => 0#32
  | .droopEvent _ _ => 0#32
  | .packetRead _ => 0#32
  | .headPublish _ => 0#32
  | .launchPacket _ => 0#32
  | .copyPacket _ => 0#32
  | .waitSignalPacket _ => 0#32
  | .setSignalPacket _ => 0#32
  | .teamDispatch _ _ => 0#32
  | .taskStart _ => 0#32
  | .taskSteal _ _ => 0#32
  | .timeSlice _ _ _ => 0#32
  | .racking _ _ _ => 0#32
  | .switchOut _ _ => 0#32
  | .restore _ _ _ => 0#32
  | .engineContextSwitch _ _ => 0#32
  | .engineArrival _ => 0#32
  | .triggeredOpComplete _ => 0#32
  | .pageRequest => 0#32
  | .thermalHalt => 0#32
  | .tapRebind => 0#32
  | .waitSignalTimeout => 0#32
  | .completionSignal => 0#32
  | .launchEnd => 0#32
  | .taskCompletionReport => 0#32
  | .joinComplete => 0#32
  | .rootViewFold => 0#32
  | .deferredAddApply => 0#32
  | .trapEntry => 0#32
  | .timer => 0#32
  | .alarm => 0#32
  | .grpAbsent => 0#32

end Sys2Proof
end

