-- ==== Sys2Proof/Machine/Cells.lean ====
section
/-! DEFINITION. Sparse stores in one canonical form: keys strictly rising, no entry equal to zero, so that equal
stores are equal data; and keyed lists of records. -/
namespace Sys2Proof.Machine

/-- A store of w-bit values by number; a number not listed reads zero. -/
abbrev Cells (w : Nat) := List (Nat × BitVec w)

/-- The value at `k`. -/
def Cells.get {w : Nat} : Cells w → Nat → BitVec w
  | [], _ => 0#w
  | (a, x) :: c, k => if k = a then x else Cells.get c k

/-- `c` with the entry `x` at `k`, before the first greater number. -/
def Cells.insert {w : Nat} : Cells w → Nat → BitVec w → Cells w
  | [], k, x => [(k, x)]
  | (a, y) :: c, k, x =>
    if k = a then (k, x) :: c
    else if k < a then (k, x) :: (a, y) :: c
    else (a, y) :: Cells.insert c k x

/-- `c` with `x` at `k`: zero removes the entry. -/
def Cells.set {w : Nat} (c : Cells w) (k : Nat) (x : BitVec w) : Cells w :=
  if x = 0#w then c.filter (fun p => p.1 != k) else Cells.insert c k x

/-- Keys above `lo` and strictly rising, no entry zero. -/
def Cells.wfAbove {w : Nat} : Nat → Cells w → Bool
  | _, [] => true
  | lo, (a, x) :: c => lo ≤ a && x != 0#w && Cells.wfAbove (a + 1) c

/-- The canonical form. -/
def Cells.wf {w : Nat} (c : Cells w) : Bool := Cells.wfAbove 0 c

/-- The first record with key `k`. -/
def look {α : Type} : List (Nat × α) → Nat → Option α
  | [], _ => none
  | (a, x) :: l, k => if k = a then some x else look l k

/-- `l` with the record `x` under key `k`. -/
def put {α : Type} : List (Nat × α) → Nat → α → List (Nat × α)
  | [], k, x => [(k, x)]
  | (a, y) :: l, k, x => if k = a then (k, x) :: l else (a, y) :: put l k x

/-- `l` without the records under key `k`. -/
def drop {α : Type} (l : List (Nat × α)) (k : Nat) : List (Nat × α) := l.filter (fun p => p.1 != k)

/-- The little-endian number of a list of bytes (00 R6). -/
def leNat : List Byte → Nat
  | [] => 0
  | b :: bs => b.toNat + 256 * leNat bs

/-- The `n` little-endian bytes of a number (00 R6). -/
def leBytes : Nat → Nat → List Byte
  | 0, _ => []
  | n + 1, x => BitVec.ofNat 8 x :: leBytes n (x / 256)

/-- `x` rounded up to a multiple of `n`. -/
def roundUp (x n : Nat) : Nat := (x + n - 1) / n * n

/-- Bits `h:l` of a number (05 R106). -/
def bitsOf (x h l : Nat) : Nat := (x >>> l) % 2 ^ (h + 1 - l)

end Sys2Proof.Machine
end

