-- ==== Sys2Proof/Machine/Float.lean ====
section
/-! DEFINITION. Floating formats, exact values, rounding and flags (05 R87 to R93). -/
namespace Sys2Proof.Machine

/-- A decoded value: a NaN, an infinity, or plus or minus `m * 2 ^ e` (05 R106, decode). -/
inductive FVal where
  /-- A NaN; DXA does not tell signalling from quiet (05 R90). -/
  | nan
  /-- An infinity, negative when `neg`. -/
  | inf (neg : Bool)
  /-- A finite value; `m = 0` is a signed zero. -/
  | fin (neg : Bool) (m : Nat) (e : Int)
  deriving DecidableEq, Repr

/-- A floating layout (05 R87). -/
structure Fmt where
  /-- Exponent bits. -/
  eb : Nat
  /-- Mantissa bits. -/
  mb : Nat
  /-- Exponent bias. -/
  bias : Int
  /-- Whether the all-ones exponent encodes infinity and NaNs. -/
  ieee : Bool
  /-- Whether the all-ones word is a NaN instead (E4M3). -/
  topNan : Bool
  /-- The canonical NaN, zero where the format has none (05 R90). -/
  cnan : Nat
  deriving DecidableEq, Repr

def fp64 : Fmt := ⟨11, 52, 1023, true, false, 0x7FF8000000000000⟩
def fp32 : Fmt := ⟨8, 23, 127, true, false, 0x7FC00000⟩
/-- FP19 without the 13 ignored low bits of its container (05 R87). -/
def fp19 : Fmt := ⟨8, 10, 127, true, false, 0x3FE00⟩
def bf16 : Fmt := ⟨8, 7, 127, true, false, 0x7FC0⟩
def fp16 : Fmt := ⟨5, 10, 15, true, false, 0x7E00⟩
def e5m2 : Fmt := ⟨5, 2, 15, true, false, 0x7E⟩
def e4m3 : Fmt := ⟨4, 3, 7, false, true, 0x7F⟩
def e3m2 : Fmt := ⟨3, 2, 3, false, false, 0⟩
def e2m3 : Fmt := ⟨2, 3, 1, false, false, 0⟩
def e2m1 : Fmt := ⟨2, 1, 1, false, false, 0⟩

/-- Rounding modes (05 R92); SR carries its draw. -/
inductive Mode where
  | rne | rz | ru | rd
  /-- Stochastic, with the 32-bit draw. -/
  | sr (draw : Nat)
  deriving DecidableEq, Repr

/-- Flag bits of ctl.fflags (03 R60). -/
def fNV : Nat := 1
def fDZ : Nat := 2
def fOF : Nat := 4
def fUF : Nat := 8
def fNX : Nat := 16
def fSAT : Nat := 32

/-- A result word with the flags it raises. -/
structure FRes where
  bits : Nat
  flags : Nat
  deriving DecidableEq, Repr

/-- Width of a format. -/
def Fmt.width (f : Fmt) : Nat := 1 + f.eb + f.mb

/-- The least normal exponent. -/
def Fmt.emin (f : Fmt) : Int := 1 - f.bias

/-- The largest finite value's encoding without its sign. -/
def Fmt.maxEnc (f : Fmt) : Nat :=
  if f.ieee then (2 ^ f.eb - 1) * 2 ^ f.mb - 1
  else if f.topNan then 2 ^ (f.eb + f.mb) - 2 else 2 ^ (f.eb + f.mb) - 1

/-- Mantissa and exponent of a finite encoding without its sign. -/
def Fmt.unpack (f : Fmt) (x : Nat) : Nat × Int :=
  let ex := x / 2 ^ f.mb
  let mn := x % 2 ^ f.mb
  if ex = 0 then (mn, f.emin - f.mb) else (2 ^ f.mb + mn, ex - f.bias - f.mb)

/-- The value a word encodes (05 R87). -/
def decodeF (f : Fmt) (w : Nat) : FVal :=
  let s := w / 2 ^ (f.eb + f.mb) % 2 = 1
  let x := w % 2 ^ (f.eb + f.mb)
  if f.ieee && x / 2 ^ f.mb == 2 ^ f.eb - 1 then
    (if x % 2 ^ f.mb = 0 then .inf s else .nan)
  else if f.topNan && x == 2 ^ (f.eb + f.mb) - 1 then .nan
  else let p := f.unpack x; .fin s p.1 p.2

/-- The word of a sign and an encoding without sign. -/
def Fmt.word (f : Fmt) (neg : Bool) (x : Nat) : Nat := (if neg then 2 ^ (f.eb + f.mb) else 0) + x

/-- `m / 2 ^ k` rounded to an integer under a mode for a value of sign `neg`, and whether it was exact (05 R92). -/
def roundShift (mode : Mode) (neg : Bool) (m k : Nat) : Nat × Bool :=
  let lo := m >>> k
  let rem := m - (lo <<< k)
  if rem = 0 then (lo, true) else
  let up := match mode with
    | .rne => decide (2 ^ k < 2 * rem) || (decide (2 * rem = 2 ^ k) && decide (lo % 2 = 1))
    | .rz => false
    | .ru => !neg
    | .rd => neg
    | .sr draw => decide (draw < (rem * 2 ^ 32) >>> k)
  (if up then lo + 1 else lo, false)

/-- `m * 2 ^ e` rounded to a multiple of `2 ^ q`, in units of `2 ^ q`. -/
def roundAt (mode : Mode) (neg : Bool) (m : Nat) (e q : Int) : Nat × Bool :=
  if q ≤ e then (m <<< (e - q).toNat, true) else roundShift mode neg m (q - e).toNat

/-- The result of a finite overflow (05 R93). -/
def overflowRes (f : Fmt) (mode : Mode) (neg : Bool) : FRes :=
  if f.ieee then
    let toInf := match mode with
      | .rne => true | .rz => false | .ru => !neg | .rd => neg | .sr _ => false
    if toInf then ⟨f.word neg ((2 ^ f.eb - 1) * 2 ^ f.mb), fOF + fNX⟩ else ⟨f.word neg f.maxEnc, fOF + fNX⟩
  else ⟨f.word neg f.maxEnc, fOF + fNX + fSAT⟩

/-- Whether `m * 2 ^ e` exceeds `n * 2 ^ q`. -/
def dyadicGt (m : Nat) (e : Int) (n : Nat) (q : Int) : Bool :=
  if q ≤ e then decide (n < m <<< (e - q).toNat) else decide (n <<< (q - e).toNat < m)

/-- A finite nonzero `m * 2 ^ e` of sign `neg` rounded to a format (05 R91 to R93); `ftz` flushes a subnormal result. -/
def roundFin (f : Fmt) (mode : Mode) (ftz : Bool) (neg : Bool) (m : Nat) (e : Int) : FRes :=
  if m = 0 then ⟨f.word neg 0, 0⟩ else
  let top : Int := e + Nat.log2 m
  let q : Int := max top f.emin - f.mb
  let mx := f.unpack f.maxEnc
  let r := roundAt mode neg m e q
  let big := match mode with
    | .sr _ => dyadicGt m e mx.1 mx.2
    | _ => dyadicGt r.1 q mx.1 mx.2
  if big then overflowRes f mode neg else
  let enc : Nat := if r.1 < 2 ^ f.mb then r.1 else r.1 + (q + f.mb - f.emin).toNat * 2 ^ f.mb
  let u := roundAt mode neg m e (top - f.mb)
  let tiny := decide (top < f.emin) && !(decide (top + 1 = f.emin) && decide (u.1 = 2 ^ (f.mb + 1)))
  let fl := if r.2 then 0 else if tiny then fUF + fNX else fNX
  if ftz && decide (enc < 2 ^ f.mb) && decide (enc ≠ 0) then ⟨f.word neg 0, fUF + fNX⟩
  else ⟨f.word neg enc, fl⟩

/-- round_fmt of 05 R106: a value rounded to a format, with the NaN and infinity rows of 05 R93. -/
def roundF (f : Fmt) (mode : Mode) (ftz : Bool) : FVal → FRes
  | .nan => if f.ieee || f.topNan then ⟨f.cnan, 0⟩ else ⟨0, fNV⟩
  | .inf s => if f.ieee then ⟨f.word s ((2 ^ f.eb - 1) * 2 ^ f.mb), 0⟩ else ⟨f.word s f.maxEnc, fSAT⟩
  | .fin s m e => roundFin f mode ftz s m e

/-- A subnormal of the format becomes the zero of its sign under FTZ (05 R91). -/
def flushIn (f : Fmt) (ftz : Bool) : FVal → FVal
  | .fin s m e => if ftz && decide (m < 2 ^ f.mb) && decide (e = f.emin - f.mb) then .fin s 0 0 else .fin s m e
  | v => v

/-- decode with FTZ on the input (05 R91). -/
def decodeIn (f : Fmt) (ftz : Bool) (w : Nat) : FVal := flushIn f ftz (decodeF f w)

/-- The signed integer of a finite value scaled by `2 ^ -q`, `q` at most its exponent. -/
def scaled (neg : Bool) (m : Nat) (e q : Int) : Int :=
  let x : Int := (m <<< (e - q).toNat : Nat)
  if neg then -x else x

/-- A value with the flags met on the way to it. -/
abbrev FExact := FVal × Nat

/-- The exact sum; the sign of an exact zero follows the mode (05 R91), infinities of both signs are invalid. -/
def addV (down : Bool) : FVal → FVal → FExact
  | .nan, _ => (.nan, 0)
  | _, .nan => (.nan, 0)
  | .inf s, .inf t => if s = t then (.inf s, 0) else (.nan, fNV)
  | .inf s, .fin _ _ _ => (.inf s, 0)
  | .fin _ _ _, .inf t => (.inf t, 0)
  | .fin s m e, .fin t n g =>
    if m = 0 && n = 0 then (.fin (if s = t then s else down) 0 0, 0)
    else if m = 0 then (.fin t n g, 0)
    else if n = 0 then (.fin s m e, 0)
    else
      let q := min e g
      let x := scaled s m e q + scaled t n g q
      if x = 0 then (.fin down 0 0, 0) else (.fin (decide (x < 0)) x.natAbs q, 0)

/-- Negation. -/
def negV : FVal → FVal
  | .nan => .nan
  | .inf s => .inf (!s)
  | .fin s m e => .fin (!s) m e

/-- The exact product; zero times infinity is invalid. -/
def mulV : FVal → FVal → FExact
  | .nan, _ => (.nan, 0)
  | _, .nan => (.nan, 0)
  | .inf s, .inf t => (.inf (s != t), 0)
  | .inf s, .fin t n _ => if n = 0 then (.nan, fNV) else (.inf (s != t), 0)
  | .fin s m _, .inf t => if m = 0 then (.nan, fNV) else (.inf (s != t), 0)
  | .fin s m e, .fin t n g => (.fin (s != t) (m * n) (e + g), 0)

/-- `x * y + z` exactly; zero times infinity raises NV even when `z` is a NaN (19 R337). -/
def fmaV (down : Bool) (x y z : FVal) : FExact :=
  let p := mulV x y
  let r := addV down p.1 z
  (r.1, p.2 ||| r.2)

/-- The quotient; where inexact, the last mantissa bit stands for the rest (19 R337). -/
def divV : FVal → FVal → FExact
  | .nan, _ => (.nan, 0)
  | _, .nan => (.nan, 0)
  | .inf _, .inf _ => (.nan, fNV)
  | .inf s, .fin t _ _ => (.inf (s != t), 0)
  | .fin s _ _, .inf t => (.fin (s != t) 0 0, 0)
  | .fin s m e, .fin t n g =>
    if n = 0 then (if m = 0 then (.nan, fNV) else (.inf (s != t), fDZ))
    else if m = 0 then (.fin (s != t) 0 0, 0)
    else
      let k : Nat := 130
      let q := (m <<< k) / n
      let r := (m <<< k) % n
      (.fin (s != t) (2 * q + (if r = 0 then 0 else 1)) (e - g - k - 1), 0)

/-- Integer square root by fuel, one result bit a turn. -/
def isqrtGo : Nat → Nat → Nat → Nat
  | 0, _, r => r
  | k + 1, n, r =>
    let t := r + 2 ^ k
    isqrtGo k n (if t * t ≤ n then t else r)

/-- floor of the square root. -/
def isqrt (n : Nat) : Nat := isqrtGo (Nat.log2 n / 2 + 1) n 0

/-- The square root, its last bit standing for the rest (19 R340). -/
def sqrtV : FVal → FExact
  | .nan => (.nan, 0)
  | .inf s => if s then (.nan, fNV) else (.inf false, 0)
  | .fin s m e =>
    if m = 0 then (.fin s 0 0, 0) else if s then (.nan, fNV) else
    let odd : Bool := e % 2 = 1
    let m1 := (if odd then 2 * m else m) <<< 140
    let e1 : Int := (if odd then e - 1 else e) - 140
    let r := isqrt m1
    (.fin false (2 * r + (if r * r = m1 then 0 else 1)) (e1 / 2 - 1), 0)

/-- 1 / x (19 R340). -/
def rcpV (x : FVal) : FExact := divV (.fin false 1 0) x

/-- 1 / sqrt x (19 R340). -/
def rsqV : FVal → FExact
  | .nan => (.nan, 0)
  | .inf s => if s then (.nan, fNV) else (.fin false 0 0, 0)
  | .fin s m e =>
    if m = 0 then (.inf s, fDZ) else if s then (.nan, fNV) else
    let odd : Bool := e % 2 = 1
    let m1 := if odd then 2 * m else m
    let e1 : Int := if odd then e - 1 else e
    let k : Nat := 200
    let r := isqrt (2 ^ (2 * k) / m1)
    (.fin false (2 * r + (if r * r * m1 = 2 ^ (2 * k) then 0 else 1)) (-(e1 / 2) - k - 1), 0)

/-- Total order test of two non-NaN values with -0 below +0 (19 R338). -/
def ltV : FVal → FVal → Bool
  | .inf s, .inf t => s && !t
  | .inf s, .fin _ _ _ => s
  | .fin _ _ _, .inf t => !t
  | .fin s m e, .fin t n g =>
    let q := min e g
    let x := scaled s m e q
    let y := scaled t n g q
    decide (x < y) || (decide (x = y) && s && !t)
  | _, _ => false

/-- Numeric comparison of two non-NaN values, zeros equal (19 R342). -/
def ltNum (x y : FVal) : Bool :=
  match x, y with
  | .fin s m e, .fin t n g => decide (scaled s m e (min e g) < scaled t n g (min e g))
  | x, y => ltV x y

/-- Equality of values, zeros equal, NaN unequal. -/
def eqNum (x y : FVal) : Bool :=
  match x, y with
  | .nan, _ => false
  | _, .nan => false
  | x, y => !ltNum x y && !ltNum y x

/-- A value rounded to an integer, and whether it was exact (05 R106, round_int). -/
def roundInt (mode : Mode) (neg : Bool) (m : Nat) (e : Int) : Int × Bool :=
  let r := roundAt mode neg m e 0
  (if neg then -(r.1 : Int) else r.1, r.2)

/-- ctl.fpmode.RM as a mode (03 R59). -/
def modeOfRM (n : Nat) : Mode := match n % 4 with | 0 => .rne | 1 => .rz | 2 => .ru | _ => .rd

/-- Whether an exact zero sum is negative: only under RD. -/
def Mode.down : Mode → Bool | .rd => true | _ => false

/-- An operation of exact parts rounded once: the flags of both. -/
def finishF (f : Fmt) (mode : Mode) (ftz : Bool) (x : FExact) : FRes :=
  let r := roundF f mode ftz x.1
  ⟨r.bits, r.flags ||| x.2⟩

/-- Addition of two words of a format (19 R337). -/
def faddW (f : Fmt) (mode : Mode) (ftz : Bool) (a b : Nat) : FRes :=
  finishF f mode ftz (addV mode.down (decodeIn f ftz a) (decodeIn f ftz b))
/-- Subtraction (19 R337). -/
def fsubW (f : Fmt) (mode : Mode) (ftz : Bool) (a b : Nat) : FRes :=
  finishF f mode ftz (addV mode.down (decodeIn f ftz a) (negV (decodeIn f ftz b)))
/-- Multiplication (19 R337). -/
def fmulW (f : Fmt) (mode : Mode) (ftz : Bool) (a b : Nat) : FRes :=
  finishF f mode ftz (mulV (decodeIn f ftz a) (decodeIn f ftz b))
/-- Fused multiply-add (19 R337). -/
def ffmaW (f : Fmt) (mode : Mode) (ftz : Bool) (a b c : Nat) : FRes :=
  finishF f mode ftz (fmaV mode.down (decodeIn f ftz a) (decodeIn f ftz b) (decodeIn f ftz c))
/-- Division (19 R337). -/
def fdivW (f : Fmt) (mode : Mode) (ftz : Bool) (a b : Nat) : FRes :=
  finishF f mode ftz (divV (decodeIn f ftz a) (decodeIn f ftz b))

/-- The word of an operand after the FTZ replacement (19 R338). -/
def flushW (f : Fmt) (ftz : Bool) (w : Nat) : Nat :=
  match decodeF f w with
  | .fin s m e => if ftz && decide (m < 2 ^ f.mb) && decide (e = f.emin - f.mb) then f.word s 0 else w
  | _ => w

/-- FMIN (greatest = false) and FMAX: the NaN loses, -0 below +0, no flag (19 R338). -/
def fminmaxW (f : Fmt) (greatest ftz : Bool) (a b : Nat) : FRes :=
  let x := flushW f ftz a
  let y := flushW f ftz b
  match decodeF f x, decodeF f y with
  | .nan, .nan => ⟨f.cnan, 0⟩
  | .nan, _ => ⟨y, 0⟩
  | _, .nan => ⟨x, 0⟩
  | u, v => ⟨if (if greatest then ltV u v else ltV v u) then y else x, 0⟩

/-- MIN and MAX of the atomics and of group loads: a NaN wins (08 R150, R163). -/
def nanMinmaxW (f : Fmt) (greatest : Bool) (a b : Nat) : Nat :=
  match decodeF f a, decodeF f b with
  | .nan, _ => f.cnan
  | _, .nan => f.cnan
  | u, v => if (if greatest then ltV u v else ltV v u) then b else a

/-- FRND: the nearest integral value, no flag (19 R341). -/
def frndW (f : Fmt) (mode : Mode) (ftz : Bool) (a : Nat) : FRes :=
  match decodeIn f ftz a with
  | .nan => ⟨f.cnan, 0⟩
  | .inf s => ⟨f.word s ((2 ^ f.eb - 1) * 2 ^ f.mb), 0⟩
  | .fin s m e =>
    if m = 0 then ⟨f.word s 0, 0⟩ else if 0 ≤ e then ⟨a, 0⟩ else
    ⟨(roundFin f .rz false s (roundAt mode s m e 0).1 0).bits, 0⟩

/-- FCLASS: the bit of the operand's class (19 R341). -/
def fclassW (f : Fmt) (a : Nat) : Nat :=
  match decodeF f a with
  | .nan => 256
  | .inf s => if s then 1 else 128
  | .fin s m e =>
    if m = 0 then (if s then 8 else 16)
    else if decide (m < 2 ^ f.mb) && decide (e = f.emin - f.mb) then (if s then 4 else 32)
    else (if s then 2 else 64)

/-- FCMP: truth and NV (19 R342). -/
def fcmpW (f : Fmt) (ftz : Bool) (code : Nat) (a b : Nat) : Bool × Nat :=
  let x := decodeIn f ftz a
  let y := decodeIn f ftz b
  let un := x = .nan ∨ y = .nan
  match code with
  | 0 => (eqNum x y, 0)
  | 1 => (!eqNum x y, 0)
  | 2 => if un then (false, fNV) else (ltNum x y, 0)
  | 3 => if un then (false, fNV) else (!ltNum y x, 0)
  | 4 => if un then (false, fNV) else (ltNum y x, 0)
  | 5 => if un then (false, fNV) else (!ltNum x y, 0)
  | 6 => (decide un, 0)
  | _ => (!decide un, 0)

end Sys2Proof.Machine
end

