-- ==== Sys2Proof/Machine/Trans.lean ====
section
/-! DEFINITION. The FP32 functions 2^x, log2 x, sin(pi x) and cos(pi x) of 19 R340, by fixed-point series of 320 bits:
an inexact result carries a last bit that stands for the rest, so one rounding gives the correctly rounded value
as long as the series error stays below the distance to a rounding boundary (log 6). -/
namespace Sys2Proof.Machine

/-- Fraction bits of the series. -/
def fxBits : Nat := 320
/-- pi in units of 2 ^ -320. -/
def fxPi : Nat := 0x3243f6a8885a308d313198a2e03707344a4093822299f31d0082efa98ec4e6c89452821e638d01377
/-- ln 2 in units of 2 ^ -320. -/
def fxLn2 : Nat := 0xb17217f7d1cf79abc9e3b39803f2f6af40f343267298b62d8a0d175b8baafa2be7b876206debac98

/-- Sum of z^k / k! from term `t` at index `k`, by fuel. -/
def expGo : Nat → Nat → Nat → Nat → Nat → Nat
  | 0, _, _, _, acc => acc
  | n + 1, z, k, t, acc =>
    let u := ((t * z) >>> fxBits) / (k + 1)
    expGo n z (k + 1) u (acc + u)

/-- exp z for z below 1, in fixed point. -/
def fxExp (z : Nat) : Nat := expGo 80 z 0 (1 <<< fxBits) (1 <<< fxBits)

/-- Sum of z^(2k+1) / (2k+1), by fuel. -/
def atanhGo : Nat → Nat → Nat → Nat → Nat → Nat
  | 0, _, _, _, acc => acc
  | n + 1, z2, k, t, acc => atanhGo n z2 (k + 1) ((t * z2) >>> fxBits) (acc + t / (2 * k + 1))

/-- ln m for a fixed-point m in [1, 2). -/
def fxLn (m : Nat) : Nat :=
  let one := 1 <<< fxBits
  let z := ((m - one) <<< fxBits) / (m + one)
  2 * atanhGo 110 ((z * z) >>> fxBits) 0 z 0

/-- sin y / y as an alternating series in y^2, by fuel. -/
def sincGo : Nat → Nat → Nat → Nat → Nat → Nat → Nat
  | 0, _, _, _, pos, ngt => pos - ngt
  | n + 1, y2, k, t, pos, ngt =>
    let u := ((t * y2) >>> fxBits) / ((2 * k + 2) * (2 * k + 3))
    if k % 2 = 0 then sincGo n y2 (k + 1) u pos (ngt + u) else sincGo n y2 (k + 1) u (pos + u) ngt

/-- sin y / y for a fixed-point y in [0, pi/2]. -/
def fxSinc (y : Nat) : Nat := sincGo 60 ((y * y) >>> fxBits) 0 (1 <<< fxBits) (1 <<< fxBits) 0

/-- A positive value just off a grid point: above when `up`, below otherwise. -/
def nearOne (up : Bool) (neg : Bool) : FVal := .fin neg (if up then 2 ^ 100 + 1 else 2 ^ 100 - 1) (-100)

/-- 2^x (19 R340). -/
def exp2V : FVal → FExact
  | .nan => (.nan, 0)
  | .inf s => (if s then .fin false 0 0 else .inf false, 0)
  | .fin s m e =>
    if m = 0 then (.fin false 1 0, 0)
    else if 0 ≤ e + Nat.log2 m - 10 then (.fin false 1 (if s then -2000 else 2000), 0)
    else if e + Nat.log2 m < -60 then (nearOne (!s) false, 0)
    else
      let fx : Nat := if 0 ≤ e then m <<< (fxBits + e.toNat) else (m <<< fxBits) >>> (-e).toNat
      let whole := fx >>> fxBits
      let frac := fx - (whole <<< fxBits)
      if frac = 0 then (.fin false 1 (if s then -(whole : Int) else whole), 0)
      else
        let f := if s then (1 <<< fxBits) - frac else frac
        let i : Int := if s then -(whole : Int) - 1 else whole
        (.fin false (2 * fxExp ((f * fxLn2) >>> fxBits) + 1) (i - fxBits - 1), 0)

/-- log2 x (19 R340). -/
def log2V : FVal → FExact
  | .nan => (.nan, 0)
  | .inf s => if s then (.nan, fNV) else (.inf false, 0)
  | .fin s m e =>
    if m = 0 then (.inf true, fDZ) else if s then (.nan, fNV) else
    let t := Nat.log2 m
    let i : Int := e + t
    if m = 2 ^ t then
      (if i = 0 then .fin false 0 0 else .fin (decide (i < 0)) i.natAbs 0, 0)
    else
      let l := (fxLn ((m <<< fxBits) >>> t) <<< fxBits) / fxLn2
      let v : Int := i * (1 <<< fxBits : Nat) + l
      (.fin (decide (v < 0)) (2 * v.natAbs + 1) (-(fxBits : Int) - 1), 0)

/-- sin(pi r) for an exact r in (0, 1/2) given as m * 2 ^ e, inexact. -/
def sinSmall (neg : Bool) (m : Nat) (e : Int) : FVal :=
  let r : Nat := if 0 ≤ e + fxBits then m <<< (e + fxBits).toNat else m >>> (-(e + fxBits)).toNat
  let c := fxSinc ((r * fxPi) >>> fxBits)
  .fin neg (2 * (m * fxPi * c) + 1) (e - 2 * fxBits - 1)

/-- sin(pi x), or of x + 1/2 when `cosine`, for |x| below 2 ^ 24 in units of 2 ^ -k (19 R340). -/
def sinUnits (zeroNeg neg : Bool) (u k : Nat) : FVal :=
  -- u / 2^k is the nonnegative argument; one half turn is 2^k
  let h := 2 ^ k
  let r := u % (2 * h)
  let flip := decide (h ≤ r)
  let r1 := if flip then r - h else r
  let sgn := neg != flip
  if r1 = 0 then .fin zeroNeg 0 0
  else if 2 * r1 = h then .fin sgn 1 0
  else
    let r2 := if h < 2 * r1 then h - r1 else r1
    sinSmall sgn r2 (-(k : Int))

/-- sin(pi x) (19 R340). -/
def sinpiV : FVal → FExact
  | .nan => (.nan, 0)
  | .inf _ => (.nan, fNV)
  | .fin s m e =>
    if m = 0 then (.fin s 0 0, 0)
    else if 0 ≤ e then (.fin s 0 0, 0)
    else (sinUnits s s m (-e).toNat, 0)

/-- cos(pi x) (19 R340). -/
def cospiV : FVal → FExact
  | .nan => (.nan, 0)
  | .inf _ => (.nan, fNV)
  | .fin _ m e =>
    if m = 0 then (.fin false 1 0, 0)
    else if 0 ≤ e then (.fin (decide (m <<< e.toNat % 2 = 1)) 1 0, 0)
    else if e + Nat.log2 m < -60 then (nearOne false false, 0)
    else
      let k := (-e).toNat
      (sinUnits false false (2 * m + 2 ^ k) (k + 1), 0)

end Sys2Proof.Machine
end

