-- ==== Sys2Proof/Machine/Numeric.lean ====
section
/-! DEFINITION. Conversions, GX blocks, the lane generator, combination steps and architected sum orders
(05 R88 to R105, 08 R162, R163). -/
namespace Sys2Proof.Machine

/-- The float format of a CVT type code 0 to 8 (19 R331). -/
def cvtFmt : Nat → Fmt
  | 0 => fp64 | 1 => fp32 | 2 => fp16 | 3 => bf16 | 4 => e5m2 | 5 => e4m3 | 6 => e3m2 | 7 => e2m3 | _ => e2m1

/-- Signedness and width of a CVT integer type code 9 to 15 (19 R331). -/
def cvtInt : Nat → Bool × Nat
  | 9 => (true, 64) | 10 => (false, 64) | 11 => (true, 32) | 12 => (false, 32) | 13 => (true, 8) | 14 => (false, 8) | _ => (true, 4)

/-- The integer a w-bit word holds. -/
def intOf (signed : Bool) (w x : Nat) : Int :=
  let y := x % 2 ^ w
  if signed && decide (2 ^ (w - 1) ≤ y) then (y : Int) - 2 ^ w else y

/-- The w-bit word of an integer. -/
def ofInt (w : Nat) (x : Int) : Nat := (x % (2 ^ w : Nat)).toNat

/-- Least and greatest value of an integer type. -/
def intRange (signed : Bool) (w : Nat) : Int × Int :=
  if signed then (-(2 ^ (w - 1) : Nat), (2 ^ (w - 1) : Nat) - 1) else (0, (2 ^ w : Nat) - 1)

/-- An exact integer as a value. -/
def FVal.ofInteger (x : Int) : FVal := .fin (decide (x < 0)) x.natAbs 0

/-- A value to an integer type under the range, infinity and NaN rows of 05 R93. -/
def toIntType (signed : Bool) (w : Nat) (mode : Mode) : FVal → FRes
  | .nan => ⟨0, fNV⟩
  | .inf s => ⟨Sys2Proof.Machine.ofInt w (if s then (intRange signed w).1 else (intRange signed w).2), fNV + fSAT⟩
  | .fin s m e =>
    let lo := (intRange signed w).1
    let hi := (intRange signed w).2
    -- under SR a value already outside the range takes the out-of-range row whatever the draw
    let r := match mode with
      | .sr _ =>
        let c := roundInt (if s then .rd else .ru) s m e
        if c.1 < lo ∨ hi < c.1 then c else roundInt mode s m e
      | md => roundInt md s m e
    if r.1 < lo then ⟨Sys2Proof.Machine.ofInt w lo, fNV + fSAT⟩
    else if hi < r.1 then ⟨Sys2Proof.Machine.ofInt w hi, fNV + fSAT⟩
    else ⟨Sys2Proof.Machine.ofInt w r.1, if r.2 then 0 else fNX⟩

/-- CVT of one element: source and destination type codes, the mode, FTZ (19 R332). -/
def cvtW (s t : Nat) (mode : Mode) (ftz : Bool) (x : Nat) : FRes :=
  if s < 9 then
    let v := decodeIn (cvtFmt s) (ftz && decide (s < 4)) x
    if t < 9 then roundF (cvtFmt t) mode (ftz && decide (t < 4)) v
    else toIntType (cvtInt t).1 (cvtInt t).2 mode v
  else
    let i := intOf (cvtInt s).1 (cvtInt s).2 x
    if t < 9 then roundF (cvtFmt t) mode (ftz && decide (t < 4)) (FVal.ofInteger i)
    else
      let lo := (intRange (cvtInt t).1 (cvtInt t).2).1
      let hi := (intRange (cvtInt t).1 (cvtInt t).2).2
      let y := max lo (min hi i)
      ⟨ofInt (cvtInt t).2 y, if y = i then 0 else fSAT⟩

/-- floor of log2 of a nonzero dyadic (05 R106). -/
def ilog2 (m : Nat) (e : Int) : Int := e + Nat.log2 m

/-- Magnitude bits of a GX format code 13 to 15 (05 R94). -/
def gxBits (c : Nat) : Nat := if c = 13 then 7 else if c = 14 then 4 else 2
/-- Bytes of a GX block (05 R94). -/
def gxSize (c : Nat) : Nat := if c = 13 then 34 else if c = 14 then 22 else 14
/-- Lanes of a GX block's register image (05 R95). -/
def gxLanes (c : Nat) : Nat := (gxSize c + 3) / 4

/-- Element `i` of a block given as the little-endian number of its bytes (05 R94). -/
def gxElem (c blk i : Nat) : FVal :=
  let n := gxBits c
  let ex := blk % 256
  if ex = 255 then .nan else
  let f := (blk >>> (16 + i * (1 + n))) % 2 ^ (1 + n)
  let st := (blk >>> (8 + 2 * (i / 8))) % 4
  .fin (decide (f % 2 = 1)) (f / 2) ((ex : Int) - 127 - st - n)

/-- Greatest exponent of a list of values: the value of larger magnitude decides. -/
def maxLog (l : List FVal) : Option Int :=
  l.foldl (fun a v => match v with
    | .fin _ m e => if m = 0 then a else
      match a with
      | none => some (ilog2 m e)
      | some x => some (max x (ilog2 m e))
    | _ => a) none

/-- gx_encode: the block's number and the flags; each element comes with its rounding mode (05 R96). -/
def gxEncode (c : Nat) (xs : List (FVal × Mode)) : Nat × Nat :=
  let n := gxBits c
  let vs := xs.map Prod.fst
  if vs.any (fun v => match v with | .fin _ _ _ => false | _ => true) then (255, fNV) else
  let sgn : FVal → Nat := fun v => match v with | .fin true _ _ => 1 | _ => 0
  match maxLog vs with
  | none =>
    let area := (vs.zipIdx.map (fun p => sgn p.1 <<< (p.2 * (1 + n)))).foldl (· + ·) 0
    (0xFF00 + (area <<< 16), 0)
  | some t =>
    let e0 : Int := t + 128
    let sat := decide (254 < e0)
    let ex : Int := if 254 < e0 then 254 else if e0 < 0 then 0 else e0
    let step : Nat → Nat := fun o =>
      match maxLog ((vs.drop (8 * o)).take 8) with
      | none => 3
      | some mo => (min 3 (max 0 (ex - 128 - mo))).toNat
    let fields := xs.zipIdx.map (fun p =>
      match p.1.1 with
      | .fin s m e =>
        let st : Int := (step (p.2 / 8) : Nat)
        let r := roundAt p.1.2 false m (e + n - (ex - 127 - st)) 0
        let big := decide (2 ^ n - 1 < r.1)
        let mant := if big then 2 ^ n - 1 else r.1
        ((2 * mant + (if s then 1 else 0)) <<< (p.2 * (1 + n)), big || !(r.2 || decide (m = 0)))
      | _ => (0, false))
    let area := (fields.map Prod.fst).foldl (· + ·) 0
    let steps := step 0 + 4 * step 1 + 16 * step 2 + 64 * step 3
    let nx := fields.any Prod.snd
    (ex.toNat + 256 * steps + (area <<< 16), (if sat then fSAT else 0) + (if nx then fNX else 0))

/-- rotl64 (05 R106). -/
def rotl64 (x : W64) (c : Nat) : W64 := x.rotateLeft c

/-- One draw: the 32 bits and the new state (05 R98). -/
def drawStep (s0 s1 : W64) : Nat × W64 × W64 :=
  let s0 := if s0 = 0#64 ∧ s1 = 0#64 then 0x5B1E0C4D92A7F36B#64 else s0
  let x := s0 ^^^ (s0 <<< 23)
  let y := s1
  let n1 := x ^^^ y ^^^ (x >>> 18) ^^^ (y >>> 5)
  let w := rotl64 (y * 0xA3B195F42C6D8E27#64) 29
  ((w >>> 32).toNat, y, n1)

/-- One mixing round of pitch_state (05 R99). -/
def pitchRound (h : W64 × W64 × W64 × W64) (k : W64) : W64 × W64 × W64 × W64 :=
  let (h0, h1, h2, h3) := h
  let h0 := h0 + h1; let h3 := rotl64 (h3 ^^^ h0) 32
  let h2 := h2 + h3; let h1 := rotl64 (h1 ^^^ h2) 24
  let h0 := h0 + h1; let h3 := rotl64 (h3 ^^^ h0) 16
  let h2 := h2 + h3; let h1 := rotl64 (h1 ^^^ h2) 63
  (h0 ^^^ k, h1, h2, h3)

/-- pitch_state: the seeded generator state of a lane (05 R99). -/
def pitchState (seed pdh pdl : W64) (l t : Nat) : W64 × W64 :=
  let h3 := BitVec.ofNat 64 (t * 2 ^ 32 + l * 256 + 0x5A)
  let (h0, h1, h2, h3) := [0x6A1C33E5D0B74F29#64, 0xB2D90E471C65A3F1#64, 0x3F84C2A997E15D0B#64, 0xD5E76B134A09C8F7#64].foldl
    pitchRound (seed, pdh, pdl, h3)
  (h0 ^^^ h2, h1 ^^^ h3)

/-- Integer minimum and maximum of w-bit words. -/
def intMinMax (signed greatest : Bool) (w a b : Nat) : Nat :=
  let x := intOf signed w a
  let y := intOf signed w b
  if greatest then (if x < y then b else a) else (if y < x then b else a)

/-- One step of REDUX and SCAN: op and type codes of 21 R378 (05 R105). -/
def reduxStep (op ty : Nat) (mode : Mode) (ftz : Bool) (a b : Nat) : FRes :=
  if ty < 2 then
    let f := if ty = 0 then fp32 else fp64
    if op = 0 then faddW f mode ftz a b else fminmaxW f (op == 2) ftz a b
  else
    let w := if ty < 4 then 32 else 64
    let signed := ty == 2 || ty == 4
    match op with
    | 0 => ⟨(a + b) % 2 ^ w, 0⟩
    | 1 => ⟨intMinMax signed false w a b, 0⟩
    | 2 => ⟨intMinMax signed true w a b, 0⟩
    | 3 => ⟨a &&& b, 0⟩
    | 4 => ⟨a ||| b, 0⟩
    | _ => ⟨a ^^^ b, 0⟩

/-- The identity of REDUX and SCAN (05 R105). -/
def reduxIdent (op ty : Nat) : Nat :=
  let w := if ty = 0 || ty = 2 || ty = 3 then 32 else 64
  if ty < 2 then
    let f := if ty = 0 then fp32 else fp64
    match op with
    | 0 => 0
    | 1 => f.word false ((2 ^ f.eb - 1) * 2 ^ f.mb)
    | _ => f.word true ((2 ^ f.eb - 1) * 2 ^ f.mb)
  else
    let r := intRange (ty == 2 || ty == 4) w
    match op with
    | 0 => 0
    | 1 => ofInt w r.2
    | 2 => ofInt w r.1
    | 3 => 2 ^ w - 1
    | _ => 0

/-- One level of the adjacent-pair tree with flags (05 R105). -/
def pairLevel (f : Nat → Nat → FRes) : List Nat → List Nat × Nat
  | a :: b :: l =>
    let r := f a b
    let t := pairLevel f l
    (r.bits :: t.1, r.flags ||| t.2)
  | l => (l, 0)

/-- The adjacent-pair tree by fuel: one value remains (05 R105). -/
def pairTree (f : Nat → Nat → FRes) : Nat → List Nat → Nat → List Nat × Nat
  | 0, l, fl => (l, fl)
  | n + 1, l, fl =>
    match l with
    | _ :: _ :: _ => let t := pairLevel f l; pairTree f n t.1 (fl ||| t.2)
    | _ => (l, fl)

/-- One combination of a group-address load or a view on words (08 R163, 09 R177); `add` is the element type's code of 06 R110. -/
def groupStep (op ty : Nat) (a b : Nat) : Nat :=
  if ty = 0 || ty = 1 || ty = 2 || ty = 5 then
    let f := if ty = 5 then fp64 else fp32
    if op = 0 then (faddW f .rne false a b).bits else nanMinmaxW f (op == 2) a b
  else
    let w := if ty = 6 then 64 else 32
    let signed := ty != 4
    match op with
    | 0 => (a + b) % 2 ^ w
    | 1 => intMinMax signed false w a b
    | 2 => intMinMax signed true w a b
    | 3 => a &&& b
    | 4 => a ||| b
    | _ => a ^^^ b

/-- Bytes of a group-address element type (06 R110). -/
def groupWidth (ty : Nat) : Nat := if ty = 1 || ty = 2 then 2 else if ty = 5 || ty = 6 then 8 else 4

/-- A BF16 or FP16 element as FP32, and others as they are (08 R163). -/
def groupIn (ty x : Nat) : Nat :=
  if ty = 1 then (roundF fp32 .rne false (decodeF bf16 x)).bits
  else if ty = 2 then (roundF fp32 .rne false (decodeF fp16 x)).bits else x
/-- The final rounding of a BF16 or FP16 group result (08 R163). -/
def groupOut (ty x : Nat) : Nat :=
  if ty = 1 then (roundF bf16 .rne false (decodeF fp32 x)).bits
  else if ty = 2 then (roundF fp16 .rne false (decodeF fp32 x)).bits else x

/-- The tree over member elements, each with its logical core (08 R162). A group of one member returns its element as it stands, a NaN
that is not canonical too (log 49). -/
def groupTree (op ty : Nat) (ms : List (Nat × Nat)) : Nat :=
  let f : Nat → Nat → FRes := fun a b => ⟨groupStep op ty a b, 0⟩
  let seg : Nat → List Nat := fun s => (pairTree f 12 ((ms.filter (fun p => p.1 / 512 == s)).map (fun p => groupIn ty p.2)) 0).1
  let tops := (List.range 8).flatMap seg
  match ms with
  | [m] => m.2
  | _ => groupOut ty ((pairTree f 4 tops 0).1.headD 0)

/-- The operation of an atomic on old and source words; codes of 08 R148 but CAS. -/
def atomOp (code : Nat) (old src : Nat) : Nat :=
  let w := if code % 2 = 1 then 64 else 32
  let f := if code % 2 = 1 then fp64 else fp32
  match code / 2 with
  | 0 => (old + src) % 2 ^ w
  | 1 => old &&& src
  | 2 => old ||| src
  | 3 => old ^^^ src
  | 4 => intMinMax true false w old src
  | 5 => intMinMax false false w old src
  | 6 => intMinMax true true w old src
  | 7 => intMinMax false true w old src
  | 8 => src
  | 10 => (faddW f .rne false old src).bits
  | 11 => nanMinmaxW f false old src
  | 12 => nanMinmaxW f true old src
  | _ => old

/-- Element bytes of a matrix format per 128-element row (11 R219). -/
def rowBytes (f : Nat) : Nat :=
  match f with
  | 0 => 1024 | 1 => 512 | 2 => 512 | 3 => 256 | 4 => 256 | 9 => 64 | 12 => 64 | 13 => 136 | 14 => 88 | 15 => 56 | _ => 128
/-- Slices of a 128-element row (11 R219). -/
def rowSlices (f : Nat) : Nat := (rowBytes f + 127) / 128
/-- Bytes of a row of `k` elements (05 R88, 11 R219), unpadded. -/
def rowLen (f k : Nat) : Nat :=
  match f with
  | 0 => 8 * k | 1 => 4 * k | 2 => 4 * k | 3 => 2 * k | 4 => 2 * k | 9 => (k + 1) / 2 | 12 => (k + 1) / 2
  | 13 => (k + 31) / 32 * 34 | 14 => (k + 31) / 32 * 22 | 15 => (k + 31) / 32 * 14 | _ => k

/-- Element `k` of a row given as the little-endian number of its bytes (05 R87, R88). -/
def rowElem (f row k : Nat) : FVal :=
  match f with
  | 0 => decodeF fp64 ((row >>> (64 * k)) % 2 ^ 64)
  | 1 => decodeF fp32 ((row >>> (32 * k)) % 2 ^ 32)
  | 2 => decodeF fp19 ((row >>> (32 * k + 13)) % 2 ^ 19)
  | 3 => decodeF bf16 ((row >>> (16 * k)) % 2 ^ 16)
  | 4 => decodeF fp16 ((row >>> (16 * k)) % 2 ^ 16)
  | 5 => decodeF e5m2 ((row >>> (8 * k)) % 256)
  | 6 => decodeF e4m3 ((row >>> (8 * k)) % 256)
  | 7 => decodeF e3m2 ((row >>> (8 * k)) % 64)
  | 8 => decodeF e2m3 ((row >>> (8 * k)) % 64)
  | 9 => decodeF e2m1 ((row >>> (4 * k)) % 16)
  | 10 => FVal.ofInteger (intOf true 8 (row >>> (8 * k)))
  | 11 => FVal.ofInteger (intOf false 8 (row >>> (8 * k)))
  | 12 => FVal.ofInteger (intOf true 4 (row >>> (4 * k)))
  | c => gxElem c ((row >>> (8 * gxSize c * (k / 32))) % 2 ^ (8 * gxSize c)) (k % 32)

/-- group_sum of sixteen exact finite products (05 R101). -/
def groupSum (ps : List FVal) : FRes :=
  match maxLog ps with
  | none => ⟨0, 0⟩
  | some emax =>
    let q := emax - 47
    let t : Int := (ps.map (fun v => match v with
      | .fin s m e => let x : Int := ((roundAt .rz s m e q).1 : Int); if s then -x else x
      | _ => 0)).foldl (· + ·) 0
    if t = 0 then ⟨0, 0⟩ else roundFin fp32 .rne false (decide (t < 0)) t.natAbs q

/-- block_sum of 128 products, each with its flags (05 R101). -/
def blockSum (ps : List FExact) : FRes :=
  let nv := ps.any (fun p => p.2 != 0)
  let vs := ps.map Prod.fst
  if vs.any (· == .nan) then ⟨fp32.cnan, if nv then fNV else 0⟩
  else if vs.any (· == .inf false) && vs.any (· == .inf true) then ⟨fp32.cnan, fNV⟩
  else if vs.any (· == .inf false) then ⟨0x7F800000, 0⟩
  else if vs.any (· == .inf true) then ⟨0xFF800000, 0⟩
  else
    let gs := (List.range 8).map (fun j => groupSum ((vs.drop (16 * j)).take 16))
    let fl := (gs.map FRes.flags).foldl (· ||| ·) 0
    let t := pairTree (faddW fp32 .rne false) 3 (gs.map FRes.bits) 0
    ⟨t.1.headD 0, fl ||| t.2⟩

/-- The FP64 block sum: a fused chain in ascending K (05 R102). -/
def blockSum64 (ps : List (FVal × FVal)) : FRes :=
  ps.foldl (fun acc p =>
    let r := finishF fp64 .rne false (fmaV false p.1 p.2 (decodeF fp64 acc.bits))
    ⟨r.bits, acc.flags ||| r.flags⟩) ⟨0, 0⟩

/-- The exact integer of an integer-format value. -/
def FVal.toInt : FVal → Int
  | .fin s m e => let x : Int := ((m <<< e.toNat : Nat) : Int); if s then -x else x
  | _ => 0

/-- Canonical NaN of a matrix format code, for PAD (05 R90). -/
def matCnan (f : Nat) : Nat :=
  match f with
  | 0 => fp64.cnan | 1 => fp32.cnan | 2 => fp32.cnan | 3 => bf16.cnan | 4 => fp16.cnan | 5 => e5m2.cnan | 6 => e4m3.cnan | _ => 0

/-- One chunk of up to four activations (05 R104). -/
def chunkSum (q : List Nat) : FRes :=
  let add := faddW fp32 .rne false
  match q with
  | [a] => ⟨a, 0⟩
  | [a, b] => add a b
  | [a, b, c] => let x := add a b; let y := add x.bits c; ⟨y.bits, x.flags ||| y.flags⟩
  | [a, b, c, d] => let x := add a b; let y := add c d; let z := add x.bits y.bits; ⟨z.bits, x.flags ||| y.flags ||| z.flags⟩
  | _ => ⟨0, 0⟩

/-- Chunks of four. -/
def chunks4 {α : Type} : Nat → List α → List (List α)
  | 0, _ => []
  | n + 1, l => match l with | [] => [] | l => l.take 4 :: chunks4 n (l.drop 4)

/-- mmav_column: one output column over its value groups (05 R104). -/
def mmavColumn (groups : List (FVal × List Nat)) (act : Nat → Nat) (acc : Nat) : FRes :=
  groups.foldl (fun r g =>
    let sv := (chunks4 g.2.length g.2).foldl (fun s q =>
      let c := chunkSum (q.map act)
      let t := faddW fp32 .rne false s.bits c.bits
      ⟨t.bits, s.flags ||| c.flags ||| t.flags⟩) (⟨0, 0⟩ : FRes)
    let t := finishF fp32 .rne false (fmaV false g.1 (decodeF fp32 sv.bits) (decodeF fp32 r.bits))
    ⟨t.bits, r.flags ||| sv.flags ||| t.flags⟩) ⟨acc, 0⟩

end Sys2Proof.Machine
end

