-- ==== Sys2Proof/Machine/State.lean ====
section
/-! DEFINITION. Everything the manual gives the machine, as plain data (00 to 14, 95), and the state after reset. -/
namespace Sys2Proof.Machine

/-- What a record of group registers belongs to: nothing, a team's group, a task, a cluster's sequencer (07 R127). -/
inductive Kind where
  | idle | root | task | seq
  deriving DecidableEq, Repr

/-- A fault as it is taken: code and class of 13 R248, DETAIL bits 39:0, EPC, FPC, ADDR, the lane, the pedigree, and the
writer's pedigree for RACE. -/
structure Exc where
  code : Nat
  cls : Nat
  detail : Nat
  epc : W64
  fpc : W64
  addr : W64
  lane : Nat
  pdl : W64
  pdh : W64
  writer : Option (W64 × W64)
  deriving DecidableEq, Repr

/-- A member of a group-address load (08 R161): the lane, its position in the group, the logical core, the lane's address. -/
structure MemberRef where
  lane : Nat
  pos : Nat
  lcore : Nat
  addr : W64
  deriving DecidableEq, Repr

/-- Why a split is not ready (02 R42). -/
inductive Wait where
  /-- A push to a full queue or a pop from an empty one (03 R54); queue 0 mqa, 1 mqb, 2 mqo, 3 mqs. -/
  | queue (q : Nat)
  /-- A logical core that is parked or not held (02 R27, 06 R109), with the lane and the address GRP_ABSENT names (13 R248). -/
  | peer (lcore lane : Nat) (addr : W64)
  /-- The sequencer's wait for a team of its launch on a core of its cluster (10 R205). -/
  | host (lcore : Nat)
  /-- A group-address load under way: what the members read so far gave, none for a failed read, and those still to be read
  (07 R145, 08 R165). -/
  | members (got : List (MemberRef × Option Nat)) (left : List MemberRef)
  /-- A sleeping WAIT, which completes when it is woken (07 R146, 22 R404). -/
  | monitor
  /-- A sleeping BBWAIT, which compares PHASE again when it is woken (18 R312). -/
  | phase
  /-- BARW on barrier n for a generation above `gen` (12 R310). -/
  | barrier (n : Nat) (gen : W64)
  /-- CKRES, or CKACQ, on cask n of the team on logical core `lcore` (10 R203). -/
  | cask (lcore n : Nat) (acquire : Bool)
  /-- A full footprint table (07 R143). -/
  | footprint
  /-- A store of `size` bytes at a scratchpad location, until engine operation `op` has read them (07 R144). -/
  | stall (op loc size : Nat)
  /-- A matrix operand, until engine operation `op` has written it (07 R143). -/
  | after (op : Nat)
  /-- JOIN with children outstanding (02 R33). -/
  | join
  /-- No free trap slot: a stop fault that has been raised, none for a report or event that stays due (13 R253). -/
  | slot (e : Option Exc)
  /-- A trap record that waits for a page, its slot held (13 R253). -/
  | record (e : Exc) (slot : Nat)
  /-- ERET's read of its slot that waits for a page (13 R253). -/
  | page (key : Nat)
  deriving DecidableEq, Repr

/-- State of a split-table entry (02 R20). -/
inductive SplitState where
  | ready
  /-- Parked at a convergent instruction (02 R24). -/
  | parked
  /-- Blocked since a package time. -/
  | blocked (why : Wait) (since : Nat)
  deriving DecidableEq, Repr

/-- A repeat in progress (04 R75): iterations in all and done, the REP word and the word it repeats. -/
structure Rep where
  total : Nat
  done : Nat
  ctl : W32
  word : W32
  deriving DecidableEq, Repr

/-- A live split: its table entry 0 to 3, PC, mask and state (02 R20), the repeat in progress (04 R75), whether its next
instruction consumes ctl.repc.ACT (03 R62), the issue opportunities it was passed over, its place in age, and whether it is the one of
its group that issued last in its quadrant (12 R245). -/
structure Split where
  entry : Nat
  pc : W64
  mask : W32
  st : SplitState
  rep : Option Rep
  fresh : Bool
  passed : Nat
  age : Nat
  greedy : Bool
  deriving DecidableEq, Repr

/-- A path on the split stack (02 R21). -/
structure Path where
  pc : W64
  mask : W32
  deriving DecidableEq, Repr

/-- A group's WAIT monitor: the split that armed it, the location, the length of the write history at arming, the fired bit
(07 R146, R147). -/
structure Monitor where
  split : Nat
  loc : Nat
  mark : Nat
  fired : Bool
  deriving DecidableEq, Repr

/-- A fault that waits for its delivery point (13 R251, R252): the class and code of R248, DETAIL, the causing address,
the failing address, the split, the pedigree at the access, for RACE the writer's pedigree, and whether a handler raised it. -/
structure Pend where
  cls : Nat
  code : Nat
  detail : Nat
  fpc : W64
  addr : W64
  split : Nat
  pdl : W64
  pdh : W64
  wl : W64
  wh : W64
  inner : Bool
  deriving DecidableEq, Repr

/-- One recorded access of a single-line region (08 R156, 18 R304): address, bytes, the data of a store, the register of a load. -/
structure RegionAcc where
  store : Bool
  live : Bool
  addr : W64
  size : Nat
  signed : Bool
  data : W64
  reg : Nat
  deriving DecidableEq, Repr

/-- An open region: the line, the ABEG address, its split, the accesses recorded (08 R155). -/
structure Region where
  line : W64
  pc : W64
  split : Nat
  accs : List RegionAcc
  deriving DecidableEq, Repr

/-- A reducer view (09 R176): the reducer, its place in the serial fold order of R178 (2i for segment i, 2i - 1 for child i),
its address, its bytes, and the number its data lies under in memory. -/
structure View where
  red : Nat
  ord : Nat
  va : W64
  size : Nat
  key : Nat
  deriving DecidableEq, Repr

/-- A group, a task or a sequencer: everything 03 R65 names, with its placement; `begun` is whether it has issued its first instruction
(03 R56), `mark` the length of the write history at its last TSRF (10 R201). -/
structure Group where
  gid : Nat
  kind : Kind
  job : Nat
  team : Nat
  grp : Nat
  lcore : Nat
  core : Nat
  slot : Nat
  resident : Bool
  born : Nat
  allot : Nat
  tiles : Nat
  tileBase : Nat
  wbase : Nat
  v : Cells 32
  g : Cells 64
  p1 : W32
  p2 : W32
  p3 : W32
  gp1 : Bool
  gp2 : Bool
  gp3 : Bool
  splits : List Split
  stack : List Path
  pdh : W64
  pdl : W64
  begun : Bool
  cycAcc : Nat
  cycFrom : Nat
  fpmode : W64
  fflags : W64
  lfm : W64
  repc : W64
  tmr : W64
  alarm : W64
  trapvec : W64
  trapinfo : W64
  gtimeout : W64
  off : W32
  children : Nat
  childFlags : W64
  spawned : Nat
  monitor : Option Monitor
  pend : List Pend
  handler : Option (Nat × Nat)
  held : List Nat
  region : Option Region
  holds : List Nat
  holdSplit : Nat
  holdEpc : W64
  holdPc : W64
  reds : List Nat
  views : List View
  childViews : List View
  parent : Nat
  rank : Nat
  stolen : Bool
  done : Bool
  away : Bool
  seqNo : Cells 32
  mark : Nat
  deriving DecidableEq, Repr

/-- A task entry of a deque (02 R29): entry PC, argument, cursors, pedigree, parent, its fpmode and serial rank. -/
structure TaskEntry where
  job : Nat
  team : Nat
  parent : Nat
  rank : Nat
  pc : W64
  arg : W64
  heap : W64
  heapEnd : W64
  log : W64
  logEnd : W64
  pdh : W64
  pdl : W64
  fpmode : W64
  grp : Nat
  lcore : Nat
  stolen : Bool
  deriving DecidableEq, Repr

/-- A team barrier: MASK, the arrived mask, the generation (12 R246). -/
structure TBar where
  mask : BitVec 16
  arrived : BitVec 16
  gen : W64
  deriving DecidableEq, Repr

/-- A launch barrier: COUNT, the arrived count, the generation (12 R246). -/
structure LBar where
  count : BitVec 48
  arrived : BitVec 48
  gen : W64
  deriving DecidableEq, Repr

/-- State of a cask slot (10 R203). -/
inductive SlotState where
  | free | reserved | filled | acquired | staged
  deriving DecidableEq, Repr

/-- A cask (10 R202, R203): geometry, pointers, slots, the failed slots with the ECAUSE each was marked with. -/
structure Cask where
  base : Nat
  slots : Nat
  slotB : Nat
  rp : Nat
  ap : Nat
  st : List SlotState
  failed : List (Nat × Nat)
  deriving DecidableEq, Repr

/-- A team (02 R25): its cores, scratchpad bytes, barriers, casks, and whether it has exited. -/
structure Team where
  job : Nat
  idx : Nat
  lcore : Nat
  core : Nat
  bytes : Nat
  groups : Nat
  live : Nat
  resident : Bool
  bars : List (Nat × TBar)
  casks : List (Nat × Cask)
  born : Nat
  deriving DecidableEq, Repr

/-- What an engine operation does (10 R195 to R200, R208). -/
inductive OpKind where
  /-- CPY: pairs of source and destination, bytes each. -/
  | copy (pairs : List (W64 × W64)) (size : Nat)
  /-- CPYR: pairs with their lane and first sequence number, bytes each, ROP and RTYPE. -/
  | reduce (pairs : List (W64 × W64)) (lanes : List (Nat × Nat)) (size rop rtype : Nat)
  /-- CPYT: record, local address, box index, direction, and the mark of the record cache. -/
  | tile (record loc box : W64) (dir : Nat) (mark : Nat)
  /-- CPYT whose record has been read: its bytes, local address, box index, direction. -/
  | box (rec : List Byte) (loc box : W64) (dir : Nat)
  /-- No operation: the slot of a cask that the sequencer reads (07 R143, 10 R205). -/
  | slot (cask i : Nat)
  deriving DecidableEq, Repr

/-- An engine operation in flight (07 R142, R143): its issuer, the team and offset of its barrier, its footprints as address
ranges, the time and ctl.gtimeout of its issue, the pages whose translation was refused, the elements performed before its arrival, and the
source words a CPYT has read, by row of its box and location (07 R144). -/
structure EngOp where
  id : Nat
  job : Nat
  team : Nat
  gid : Nat
  core : Nat
  kind : OpKind
  bbTeam : Nat
  bbOff : Nat
  task : Bool
  pdh : W64
  pdl : W64
  reads : List (Nat × Nat)
  writes : List (Nat × Nat)
  since : Nat
  limit : Nat
  refused : List Nat
  early : List Nat
  kept : List ((Nat × Nat) × Nat)
  deriving DecidableEq, Repr

/-- An armed triggered operation (10 R207, R208): the descriptor's fields, its staging slots, whether a task armed it, its first
sequence number, whether it has fired, the pages refused, the elements performed before its completion. -/
structure Armed where
  id : Nat
  team : Nat
  gid : Nat
  core : Nat
  desc : W64
  tctr : Nat
  cctr : Nat
  thresh : Nat
  kind : Nat
  rop : Nat
  rtype : Nat
  src : W64
  dst : W64
  bytes : Nat
  stn : Nat
  slots : List Nat
  task : Bool
  sq : Nat
  pdh : W64
  pdl : W64
  fired : Bool
  refused : List Nat
  early : List Nat
  deriving DecidableEq, Repr

/-- A deferred add (09 R180): location, width in bytes, operand, pedigree, lane, sequence number. -/
structure DefAdd where
  loc : Nat
  width : Nat
  operand : W64
  pdh : W64
  pdl : W64
  lane : Nat
  sq : Nat
  deriving DecidableEq, Repr

/-- A DETC partial sum of a team at a location (09 R184). -/
structure Partial where
  team : Nat
  loc : Nat
  width : Nat
  sum : W64
  deriving DecidableEq, Repr

/-- A partial-sum bank (11 R213): tag 0 FP32, 1 FP64, 2 INT32; words keyed row * 512 + word. -/
structure Bank where
  valid : Bool
  tag : Nat
  m : Nat
  n : Nat
  flags : Nat
  words : Cells 32
  deriving DecidableEq, Repr

/-- A slice of 32 elements of 32 bits (03 R53). -/
abbrev Slice := List W32

/-- An engine context (11 R213): A buffer bytes, two banks, accumulator words keyed row * 512 + column, eight flag words,
the four queues (mqa, mqb, mqo, mqs), whole-slice progress of a blocked instruction, whether it is resident, and when time slicing within
its launch last parked it, zero for never (11 R215). -/
structure Engine where
  abuf : Cells 8
  bank0 : Bank
  bank1 : Bank
  acc : Cells 32
  flags : Cells 8
  mqa : List Slice
  mqb : List Slice
  mqo : List Slice
  mqs : List Slice
  progress : Nat
  taken : List Slice
  resident : Bool
  since : Nat
  deriving DecidableEq, Repr

/-- The stage of a started packet (12 R242 to R244, 13 R259). -/
inductive Phase where
  /-- Admitted and waiting for its dependency or its room. -/
  | waiting
  /-- Running. -/
  | running
  /-- Wholly away: its partition image holds it (13 R263). -/
  | swapped
  /-- Ending with a status: strands stopped, issued copies still arriving (13 R259). -/
  | ending (status : Nat)
  deriving DecidableEq, Repr

/-- A remap entry: the physical core of a logical core, none while parked, the team that holds it, and how many of its teams
have exited (02 R27, 06 R109). -/
structure LCore where
  core : Option Nat
  team : Option Nat
  rounds : Nat
  deriving DecidableEq, Repr

/-- A started packet; a launch uses every field (12 R236 to R244): the packet and its queue, when it was taken up and when a launch started
(at its first team), what it has dispatched, the remap
and group tables, launch barriers, trap slots in use, engine counters and armed operations, deferred work, engine contexts,
suspended parents, whether it ends with FAULT whatever follows (09 R183), what its images name (13 R264), the slot 0 record
and LOST counts that wait for a page (13 R253), and the places that records altered by the program name, with their bytes (09 R171). -/
structure Job where
  id : Nat
  queue : Nat
  index : Nat
  pkt : List Byte
  root : W64
  dies : List Nat
  prio : Nat
  phase : Phase
  born : Nat
  start : Nat
  mark : Nat
  nextTeam : Nat
  liveTeams : Nat
  liveSeqs : Nat
  lcores : List (Nat × LCore)
  groupTable : List (List Nat)
  bars : List (Nat × LBar)
  slots : List Nat
  recorded : Bool
  ctrs : Cells 64
  armed : List Armed
  adds : List DefAdd
  partials : List Partial
  races : List (Nat × W64 × W64)
  redDescs : List (Nat × List Byte)
  folds : List ((Nat × Nat) × List View)
  foldElem : Nat
  engines : List (Nat × Engine)
  images : Nat
  cap : Nat
  feat : Bool
  engUse : Nat
  bstUse : Bool
  zero : List Byte
  lost : Nat
  wild : List (Nat × Nat)
  deriving DecidableEq, Repr

/-- A user queue (12 R233, R235, R240): its attributes, T and H, the error state and whether it also keeps packets already read from
starting (12 R235, R239), a waiting DESTROY_QUEUE with its status word, the packet read and not taken up, of a launch packet CAP and the
group table as they were read with it (12 R236), whether H is to be published, its tap and priority, the last moment W restarted, the packets taken up, the doorbells with the write history at each, and
whether its tap goes once the packet has started. -/
structure Queue where
  ring : W64
  size : Nat
  prio : Nat
  dies : List Nat
  root : W64
  headva : W64
  tail : Nat
  head : Nat
  error : Bool
  stopped : Bool
  closing : Option Nat
  packet : Option (Nat × List Byte)
  control : Nat × List (List Nat)
  publish : Bool
  tap : Option (Nat × Nat)
  since : Nat
  started : List Nat
  bells : List (Nat × Nat)
  leaving : Bool
  deriving DecidableEq, Repr

/-- Who waits for a page request (06 R123, R126, 14 R270). -/
inductive Owner where
  | group (gid : Nat)
  | engine (op : Nat)
  | trigger (id : Nat)
  /-- A device access, by the number of its purpose. -/
  | device (key : Nat)
  deriving DecidableEq, Repr

/-- A page request (14 R270): ID, page, root, queue, access mask, whether its record is in the ring, who waits. -/
structure PageReq where
  id : Nat
  page : Nat
  root : W64
  queue : Nat
  access : Nat
  sent : Bool
  owners : List Owner
  deriving DecidableEq, Repr

/-- A write in the history of memory: its first location and the bytes it replaced. -/
structure Write where
  loc : Nat
  old : List Byte
  deriving DecidableEq, Repr

/-- The three parts (00 R1). -/
inductive Part where
  | p9600 | p9400 | p9200
  deriving DecidableEq, Repr

/-- Boot state (14 R273) and the thermal halt (14 R274). -/
inductive Boot where
  | rom | recovery | ready | halted
  deriving DecidableEq, Repr

/-- An invalidation that has completed: root, range of 64 KiB pages, length of the write history then (06 R125). -/
structure Inval where
  root : W64
  base : Nat
  pages : Nat
  mark : Nat
  deriving DecidableEq, Repr

/-- What an image holds (13 R264 KIND). -/
inductive ImageKind where
  | group | team | context | partition
  deriving DecidableEq, Repr

/-- Where an image lies: the kiln of a physical cluster, HBM, or the IMGB region of the launch's arena (13 R263, 00 R3). -/
inductive ImagePlace where
  | kiln (cluster : Nat)
  | hbm
  | imgb
  deriving DecidableEq, Repr

/-- An image (13 R263, R264): its launch, the number of the team, group or context it holds, the fields of its header, and its place. -/
structure Image where
  job : Nat
  team : Nat
  kind : ImageKind
  tout : Nat
  feat : Bool
  eng : Nat
  size : Nat
  place : ImagePlace
  deriving DecidableEq, Repr

/-- Storage whose contents a particle or a worn cell can spoil beyond correction (13 R252): a granule of 8 bytes of global memory, a
team's scratchpad, the registers of a group, the engine storage of a launch. -/
inductive Upset where
  | memory (granule : Nat)
  | scratchpad (job : Nat)
  | registers (gid : Nat)
  | engine (job : Nat)
  deriving DecidableEq, Repr

/-- Who moves next. -/
inductive Act where
  /-- An issue of a quadrant of a core, or of a group. -/
  | quadrant (core quad : Nat)
  | group (gid : Nat) (entry : Nat)
  /-- An event of the device. -/
  | event (i : Instr)
  /-- The next entry of the driver's command ring (14 R269). -/
  | ring
  /-- An engine operation performs one of its elements before it arrives (10 R196). -/
  | element (op k : Nat)
  /-- An agent of another package writes that package's memory (14 R272). -/
  | elsewhere (pa : Nat) (data : List Byte)
  /-- Stored data becomes uncorrectable (13 R252). -/
  | upset (u : Upset)
  /-- The home of a 128-byte line runs out of monitor entries and wakes every waiter on the line (07 R147). -/
  | crowd (line : Nat)
  /-- A launch leaves its whole partition, or comes back to it (01 R18, 13 R263). -/
  | swap (job : Nat)
  /-- Software moves an image whole to another place, or alters its body (13 R264). -/
  | move (job ref : Nat) (place : ImagePlace)
  | alter (job ref : Nat)
  /-- The records of a launch in a device-owned region take any value, once the region has been stored to; the region is named by the byte
  of its size in the arena header (09 R171). -/
  | spoil (job k : Nat)
  deriving DecidableEq, Repr

/-- One turn of the agenda: elapsed nanoseconds and cycles, the packet and group in focus, and the act. -/
structure Turn where
  ns : Nat
  cycles : Nat
  job : Nat
  gid : Nat
  act : Act
  deriving DecidableEq, Repr

/-- The whole package. `cur` is the group in focus, every other group stands in `groups` under its number; `msi` counts the interrupts
sent (14 R270), `refused` the pages refused to a device access, by its key, that it has not met yet, `hot` holds since when a die has been above 115 degrees (14 R274), `poison` the uncorrectable granules of memory with
the length of the write history at that moment (13 R252). -/
structure State where
  time : Nat
  cycles : Nat
  boot : Boot
  part : Part
  kiln : Bool
  tdp : Nat
  pkg : Nat
  measure : List (List Byte)
  recordHash : List Byte
  links : List Nat
  regs : Cells 32
  mem : List Host.Cell
  hist : List Write
  cur : Group
  groups : List (Nat × Group)
  split : Nat
  limm : Option (BitVec 24)
  sel : Nat
  teams : List (Nat × Team)
  jobs : List (Nat × Job)
  ops : List EngOp
  deques : List (Nat × List TaskEntry)
  queues : List (Nat × Queue)
  lastTap : Nat
  quantum : Nat
  nextQuantum : Nat
  commands : List Instr
  reqs : List PageReq
  nextReq : Nat
  msi : Nat
  refused : List (Nat × Nat)
  invals : List Inval
  records : List (Nat × Nat)
  silent : List Nat
  steps : List (Nat × Nat)
  hot : List (Nat × Nat)
  poison : List (Nat × Nat)
  powerStep : Nat
  droop : Nat
  report : List Byte
  hostData : List Byte
  remoteData : List Byte
  images : List Image
  lastIssue : List (Nat × Nat × Nat)
  nextId : Nat
  tick : Nat
  agenda : List Turn
  deriving DecidableEq, Repr

/-- Why the machine stops. -/
inductive Fault where
  /-- Raised by `step` after the thermal halt: the clock is stopped and the device needs a reset (14 R274). Safe: the spec gives no further step. -/
  | clockStopped
  deriving DecidableEq, Repr

/-- Why an instruction has no meaning. -/
inductive Refusal where
  /-- Raised by the arms of Dispatch.lean for an instruction not modelled yet. Safe: nothing is claimed of it. -/
  | notModelled (mnemonic : String)
  deriving DecidableEq, Repr

/-- A record of group registers at its start, every register as 02 R31 and 03 R57 give it. -/
def Group.blank : Group :=
  { gid := 0, kind := .idle, job := 0, team := 0, grp := 0, lcore := 0, core := 0, slot := 0, resident := false, born := 0,
    allot := 32, tiles := 0, tileBase := 0, wbase := 0, v := [], g := [], p1 := 0, p2 := 0, p3 := 0,
    gp1 := false, gp2 := false, gp3 := false,
    splits := [], stack := [], pdh := 0, pdl := 0, begun := false, cycAcc := 0, cycFrom := 0, fpmode := 0, fflags := 0, lfm := 0, repc := 0,
    tmr := 0, alarm := 0, trapvec := 0, trapinfo := 0, gtimeout := 1000, off := 0, children := 0, childFlags := 0,
    spawned := 0, monitor := none, pend := [], handler := none, held := [], region := none, holds := [], holdSplit := 0, holdEpc := 0, holdPc := 0, reds := [], views := [],
    childViews := [], parent := 0, rank := 0, stolen := false, done := false, away := false, seqNo := [], mark := 0 }

/-- An engine context at its start (11 R213). -/
def Engine.start : Engine :=
  { abuf := [], bank0 := ⟨false, 0, 0, 0, 0, []⟩, bank1 := ⟨false, 0, 0, 0, 0, []⟩, acc := [], flags := [],
    mqa := [], mqb := [], mqo := [], mqs := [], progress := 0, taken := [], resident := true, since := 0 }

/-- A packet record with nothing started. -/
def Job.blank : Job :=
  { id := 0, queue := 0, index := 0, pkt := [], root := 0, dies := [], prio := 0, phase := .waiting, born := 0, start := 0, mark := 0,
    nextTeam := 0, liveTeams := 0, liveSeqs := 0, lcores := [], groupTable := [], bars := [], slots := [], recorded := false,
    ctrs := [], armed := [], adds := [], partials := [], races := [], redDescs := [], folds := [],
    foldElem := 0, engines := [], images := 0, cap := 2, feat := false, engUse := 0, bstUse := false, zero := [], lost := 0, wild := [] }

/-- A team record with nothing resident. -/
def Team.blank : Team :=
  { job := 0, idx := 0, lcore := 0, core := 0, bytes := 0, groups := 0, live := 0, resident := false, bars := [], casks := [], born := 0 }

/-- A queue just created (14 R269): T = H = 0. -/
def Queue.blank : Queue :=
  { ring := 0, size := 16, prio := 0, dies := [], root := 0, headva := 0, tail := 0, head := 0, error := false, stopped := false, closing := none,
    packet := none, control := (0, []), publish := false, tap := none, since := 0, started := [], bells := [], leaving := false }

/-- The machine right after reset: nothing queued, nothing resident, the root of trust about to run its ROM (14 R273);
values the manual does not state are those of notes/assumptions/2.md and 3.md. -/
def State.reset : State :=
  { time := 0, cycles := 0, boot := .rom, part := .p9600, kiln := true, tdp := 3600, pkg := 0,
    measure := List.replicate 8 (List.replicate 64 0#8), recordHash := [], links := [], regs := [], mem := [], hist := [],
    cur := Group.blank, groups := [], split := 0, limm := none, sel := 0, teams := [], jobs := [], ops := [], deques := [],
    queues := [], lastTap := 0, quantum := 100, nextQuantum := 100, commands := [], reqs := [], nextReq := 0, msi := 0,
    refused := [], invals := [], records := [], silent := [], steps := [], hot := [], poison := [], powerStep := 0, droop := 0,
    report := [], hostData := [], remoteData := [], images := [], lastIssue := [], nextId := 1, tick := 0, agenda := [] }

end Sys2Proof.Machine
end

