-- ==== Sys2Proof/Machine/Operands.lean ====
section
/-! DEFINITION. Register operands: names, windows, guards, reads and writes (03 R46 to R54, 04 R68 to R70). -/
namespace Sys2Proof.Machine

/-- An operand field of a word. -/
inductive Field where
  | d | a | b
  deriving DecidableEq, Repr

/-- A register operand: its field, whether it names v registers, the first number, and how many it names. -/
structure Operand where
  field : Field
  vec : Bool
  reg : Nat
  width : Nat
  deriving DecidableEq, Repr

/-- Data registers of a lane access of size code `s` (20 R350). -/
def dataRegs (s : BitVec 3) : Nat := if s == 6#3 then 2 else if s == 7#3 then 4 else 1
/-- Data registers of an atomic (08 R149). -/
def atomRegs (c : BitVec 5) : Nat := if c == 19#5 then 4 else if c == 18#5 then 2 else if c.extractLsb' 0 1 == 1#1 then 2 else 1
/-- Registers of a CVT source or destination (19 R332). -/
def cvtRegs (p : BitVec 7) (dst : Bool) : Nat :=
  match cvtPair p with
  | some (s, t) => if cvtWide (if dst then t else s) then 2 else 1
  | none => 1

end Sys2Proof.Machine

namespace Sys2Proof
open Sys2Proof.Machine

/-- The register operands of an instruction, by its entry in 18 to 22; queue, predicate, code and slice fields are none. -/
def Instr.operands : Instr → List Operand
  | .iaddV _ d a b => [⟨.d, true, d.toNat, 1⟩, ⟨.a, true, a.toNat, 1⟩, ⟨.b, true, b.toNat, 1⟩]
  | .isubV _ d a b => [⟨.d, true, d.toNat, 1⟩, ⟨.a, true, a.toNat, 1⟩, ⟨.b, true, b.toNat, 1⟩]
  | .imulV _ d a b => [⟨.d, true, d.toNat, 1⟩, ⟨.a, true, a.toNat, 1⟩, ⟨.b, true, b.toNat, 1⟩]
  | .imulhS32V _ d a b => [⟨.d, true, d.toNat, 1⟩, ⟨.a, true, a.toNat, 1⟩, ⟨.b, true, b.toNat, 1⟩]
  | .imulhZ32V _ d a b => [⟨.d, true, d.toNat, 1⟩, ⟨.a, true, a.toNat, 1⟩, ⟨.b, true, b.toNat, 1⟩]
  | .imadV _ d a b => [⟨.d, true, d.toNat, 1⟩, ⟨.a, true, a.toNat, 1⟩, ⟨.b, true, b.toNat, 1⟩]
  | .iabsV _ d a => [⟨.d, true, d.toNat, 1⟩, ⟨.a, true, a.toNat, 1⟩]
  | .iaddV64 _ d a b => [⟨.d, true, d.toNat, 2⟩, ⟨.a, true, a.toNat, 2⟩, ⟨.b, true, b.toNat, 2⟩]
  | .isubV64 _ d a b => [⟨.d, true, d.toNat, 2⟩, ⟨.a, true, a.toNat, 2⟩, ⟨.b, true, b.toNat, 2⟩]
  | .imulV64 _ d a b => [⟨.d, true, d.toNat, 2⟩, ⟨.a, true, a.toNat, 2⟩, ⟨.b, true, b.toNat, 2⟩]
  | .imulhS64V _ d a b => [⟨.d, true, d.toNat, 2⟩, ⟨.a, true, a.toNat, 2⟩, ⟨.b, true, b.toNat, 2⟩]
  | .imulhZ64V _ d a b => [⟨.d, true, d.toNat, 2⟩, ⟨.a, true, a.toNat, 2⟩, ⟨.b, true, b.toNat, 2⟩]
  | .imadV64 _ d a b => [⟨.d, true, d.toNat, 2⟩, ⟨.a, true, a.toNat, 2⟩, ⟨.b, true, b.toNat, 2⟩]
  | .iabsV64 _ d a => [⟨.d, true, d.toNat, 2⟩, ⟨.a, true, a.toNat, 2⟩]
  | .iaddG32 _ d a b => [⟨.d, false, d.toNat, 1⟩, ⟨.a, false, a.toNat, 1⟩, ⟨.b, false, b.toNat, 1⟩]
  | .isubG32 _ d a b => [⟨.d, false, d.toNat, 1⟩, ⟨.a, false, a.toNat, 1⟩, ⟨.b, false, b.toNat, 1⟩]
  | .imulG32 _ d a b => [⟨.d, false, d.toNat, 1⟩, ⟨.a, false, a.toNat, 1⟩, ⟨.b, false, b.toNat, 1⟩]
  | .imulhS32G _ d a b => [⟨.d, false, d.toNat, 1⟩, ⟨.a, false, a.toNat, 1⟩, ⟨.b, false, b.toNat, 1⟩]
  | .imulhZ32G _ d a b => [⟨.d, false, d.toNat, 1⟩, ⟨.a, false, a.toNat, 1⟩, ⟨.b, false, b.toNat, 1⟩]
  | .imadG32 _ d a b => [⟨.d, false, d.toNat, 1⟩, ⟨.a, false, a.toNat, 1⟩, ⟨.b, false, b.toNat, 1⟩]
  | .iabsG32 _ d a => [⟨.d, false, d.toNat, 1⟩, ⟨.a, false, a.toNat, 1⟩]
  | .iaddG64 _ d a b => [⟨.d, false, d.toNat, 1⟩, ⟨.a, false, a.toNat, 1⟩, ⟨.b, false, b.toNat, 1⟩]
  | .isubG64 _ d a b => [⟨.d, false, d.toNat, 1⟩, ⟨.a, false, a.toNat, 1⟩, ⟨.b, false, b.toNat, 1⟩]
  | .imulG64 _ d a b => [⟨.d, false, d.toNat, 1⟩, ⟨.a, false, a.toNat, 1⟩, ⟨.b, false, b.toNat, 1⟩]
  | .imulhS64G _ d a b => [⟨.d, false, d.toNat, 1⟩, ⟨.a, false, a.toNat, 1⟩, ⟨.b, false, b.toNat, 1⟩]
  | .imulhZ64G _ d a b => [⟨.d, false, d.toNat, 1⟩, ⟨.a, false, a.toNat, 1⟩, ⟨.b, false, b.toNat, 1⟩]
  | .imadG64 _ d a b => [⟨.d, false, d.toNat, 1⟩, ⟨.a, false, a.toNat, 1⟩, ⟨.b, false, b.toNat, 1⟩]
  | .iabsG64 _ d a => [⟨.d, false, d.toNat, 1⟩, ⟨.a, false, a.toNat, 1⟩]
  | .iaddImmV _ d a _ => [⟨.d, true, d.toNat, 1⟩, ⟨.a, true, a.toNat, 1⟩]
  | .iaddImmV64 _ d a _ => [⟨.d, true, d.toNat, 2⟩, ⟨.a, true, a.toNat, 2⟩]
  | .iaddImmG32 _ d a _ => [⟨.d, false, d.toNat, 1⟩, ⟨.a, false, a.toNat, 1⟩]
  | .iaddImmG64 _ d a _ => [⟨.d, false, d.toNat, 1⟩, ⟨.a, false, a.toNat, 1⟩]
  | .imaxV _ w _ d a b => [⟨.d, true, d.toNat, w.toNat + 1⟩, ⟨.a, true, a.toNat, w.toNat + 1⟩, ⟨.b, true, b.toNat, w.toNat + 1⟩]
  | .iminV _ w _ d a b => [⟨.d, true, d.toNat, w.toNat + 1⟩, ⟨.a, true, a.toNat, w.toNat + 1⟩, ⟨.b, true, b.toNat, w.toNat + 1⟩]
  | .imaxG _ _ _ d a b => [⟨.d, false, d.toNat, 1⟩, ⟨.a, false, a.toNat, 1⟩, ⟨.b, false, b.toNat, 1⟩]
  | .iminG _ _ _ d a b => [⟨.d, false, d.toNat, 1⟩, ⟨.a, false, a.toNat, 1⟩, ⟨.b, false, b.toNat, 1⟩]
  | .andV _ w d a b => [⟨.d, true, d.toNat, w.toNat + 1⟩, ⟨.a, true, a.toNat, w.toNat + 1⟩, ⟨.b, true, b.toNat, w.toNat + 1⟩]
  | .orV _ w d a b => [⟨.d, true, d.toNat, w.toNat + 1⟩, ⟨.a, true, a.toNat, w.toNat + 1⟩, ⟨.b, true, b.toNat, w.toNat + 1⟩]
  | .xorV _ w d a b => [⟨.d, true, d.toNat, w.toNat + 1⟩, ⟨.a, true, a.toNat, w.toNat + 1⟩, ⟨.b, true, b.toNat, w.toNat + 1⟩]
  | .andnV _ w d a b => [⟨.d, true, d.toNat, w.toNat + 1⟩, ⟨.a, true, a.toNat, w.toNat + 1⟩, ⟨.b, true, b.toNat, w.toNat + 1⟩]
  | .andG _ _ d a b => [⟨.d, false, d.toNat, 1⟩, ⟨.a, false, a.toNat, 1⟩, ⟨.b, false, b.toNat, 1⟩]
  | .orG _ _ d a b => [⟨.d, false, d.toNat, 1⟩, ⟨.a, false, a.toNat, 1⟩, ⟨.b, false, b.toNat, 1⟩]
  | .xorG _ _ d a b => [⟨.d, false, d.toNat, 1⟩, ⟨.a, false, a.toNat, 1⟩, ⟨.b, false, b.toNat, 1⟩]
  | .andnG _ _ d a b => [⟨.d, false, d.toNat, 1⟩, ⟨.a, false, a.toNat, 1⟩, ⟨.b, false, b.toNat, 1⟩]
  | .shlV _ i d a b => [⟨.d, true, d.toNat, 1⟩, ⟨.a, true, a.toNat, 1⟩] ++ (if i == 1#1 then [] else [⟨.b, true, b.toNat, 1⟩])
  | .shrV _ i d a b => [⟨.d, true, d.toNat, 1⟩, ⟨.a, true, a.toNat, 1⟩] ++ (if i == 1#1 then [] else [⟨.b, true, b.toNat, 1⟩])
  | .sarV _ i d a b => [⟨.d, true, d.toNat, 1⟩, ⟨.a, true, a.toNat, 1⟩] ++ (if i == 1#1 then [] else [⟨.b, true, b.toNat, 1⟩])
  | .rotV _ i d a b => [⟨.d, true, d.toNat, 1⟩, ⟨.a, true, a.toNat, 1⟩] ++ (if i == 1#1 then [] else [⟨.b, true, b.toNat, 1⟩])
  | .shlV64 _ i d a b => [⟨.d, true, d.toNat, 2⟩, ⟨.a, true, a.toNat, 2⟩] ++ (if i == 1#1 then [] else [⟨.b, true, b.toNat, 2⟩])
  | .shrV64 _ i d a b => [⟨.d, true, d.toNat, 2⟩, ⟨.a, true, a.toNat, 2⟩] ++ (if i == 1#1 then [] else [⟨.b, true, b.toNat, 2⟩])
  | .sarV64 _ i d a b => [⟨.d, true, d.toNat, 2⟩, ⟨.a, true, a.toNat, 2⟩] ++ (if i == 1#1 then [] else [⟨.b, true, b.toNat, 2⟩])
  | .rotV64 _ i d a b => [⟨.d, true, d.toNat, 2⟩, ⟨.a, true, a.toNat, 2⟩] ++ (if i == 1#1 then [] else [⟨.b, true, b.toNat, 2⟩])
  | .shlG32 _ i d a b => [⟨.d, false, d.toNat, 1⟩, ⟨.a, false, a.toNat, 1⟩] ++ (if i == 1#1 then [] else [⟨.b, false, b.toNat, 1⟩])
  | .shrG32 _ i d a b => [⟨.d, false, d.toNat, 1⟩, ⟨.a, false, a.toNat, 1⟩] ++ (if i == 1#1 then [] else [⟨.b, false, b.toNat, 1⟩])
  | .sarG32 _ i d a b => [⟨.d, false, d.toNat, 1⟩, ⟨.a, false, a.toNat, 1⟩] ++ (if i == 1#1 then [] else [⟨.b, false, b.toNat, 1⟩])
  | .rotG32 _ i d a b => [⟨.d, false, d.toNat, 1⟩, ⟨.a, false, a.toNat, 1⟩] ++ (if i == 1#1 then [] else [⟨.b, false, b.toNat, 1⟩])
  | .shlG64 _ i d a b => [⟨.d, false, d.toNat, 1⟩, ⟨.a, false, a.toNat, 1⟩] ++ (if i == 1#1 then [] else [⟨.b, false, b.toNat, 1⟩])
  | .shrG64 _ i d a b => [⟨.d, false, d.toNat, 1⟩, ⟨.a, false, a.toNat, 1⟩] ++ (if i == 1#1 then [] else [⟨.b, false, b.toNat, 1⟩])
  | .sarG64 _ i d a b => [⟨.d, false, d.toNat, 1⟩, ⟨.a, false, a.toNat, 1⟩] ++ (if i == 1#1 then [] else [⟨.b, false, b.toNat, 1⟩])
  | .rotG64 _ i d a b => [⟨.d, false, d.toNat, 1⟩, ⟨.a, false, a.toNat, 1⟩] ++ (if i == 1#1 then [] else [⟨.b, false, b.toNat, 1⟩])
  | .clzV _ d a => [⟨.d, true, d.toNat, 1⟩, ⟨.a, true, a.toNat, 1⟩]
  | .clzV64 _ d a => [⟨.d, true, d.toNat, 2⟩, ⟨.a, true, a.toNat, 2⟩]
  | .clzG32 _ d a => [⟨.d, false, d.toNat, 1⟩, ⟨.a, false, a.toNat, 1⟩]
  | .clzG64 _ d a => [⟨.d, false, d.toNat, 1⟩, ⟨.a, false, a.toNat, 1⟩]
  | .popcV _ d a => [⟨.d, true, d.toNat, 1⟩, ⟨.a, true, a.toNat, 1⟩]
  | .popcV64 _ d a => [⟨.d, true, d.toNat, 2⟩, ⟨.a, true, a.toNat, 2⟩]
  | .popcG32 _ d a => [⟨.d, false, d.toNat, 1⟩, ⟨.a, false, a.toNat, 1⟩]
  | .popcG64 _ d a => [⟨.d, false, d.toNat, 1⟩, ⟨.a, false, a.toNat, 1⟩]
  | .brevV _ d a => [⟨.d, true, d.toNat, 1⟩, ⟨.a, true, a.toNat, 1⟩]
  | .brevG _ d a => [⟨.d, false, d.toNat, 1⟩, ⟨.a, false, a.toNat, 1⟩]
  | .bfxZV _ d a b => [⟨.d, true, d.toNat, 1⟩, ⟨.a, true, a.toNat, 1⟩, ⟨.b, true, b.toNat, 1⟩]
  | .bfxSV _ d a b => [⟨.d, true, d.toNat, 1⟩, ⟨.a, true, a.toNat, 1⟩, ⟨.b, true, b.toNat, 1⟩]
  | .bfxZG _ d a b => [⟨.d, false, d.toNat, 1⟩, ⟨.a, false, a.toNat, 1⟩, ⟨.b, false, b.toNat, 1⟩]
  | .bfxSG _ d a b => [⟨.d, false, d.toNat, 1⟩, ⟨.a, false, a.toNat, 1⟩, ⟨.b, false, b.toNat, 1⟩]
  | .bfiV _ d a b => [⟨.d, true, d.toNat, 1⟩, ⟨.a, true, a.toNat, 1⟩, ⟨.b, true, b.toNat, 1⟩]
  | .bfiG _ d a b => [⟨.d, false, d.toNat, 1⟩, ⟨.a, false, a.toNat, 1⟩, ⟨.b, false, b.toNat, 1⟩]
  | .icmpV _ _ w _ a b => [⟨.a, true, a.toNat, w.toNat + 1⟩, ⟨.b, true, b.toNat, w.toNat + 1⟩]
  | .icmpG _ _ _ _ a b => [⟨.a, false, a.toNat, 1⟩, ⟨.b, false, b.toNat, 1⟩]
  | .movV _ d a => [⟨.d, true, d.toNat, 1⟩, ⟨.a, true, a.toNat, 1⟩]
  | .movV64 _ d a => [⟨.d, true, d.toNat, 2⟩, ⟨.a, true, a.toNat, 2⟩]
  | .movG32 _ d a => [⟨.d, false, d.toNat, 1⟩, ⟨.a, false, a.toNat, 1⟩]
  | .movG64 _ d a => [⟨.d, false, d.toNat, 1⟩, ⟨.a, false, a.toNat, 1⟩]
  | .selV _ w _ d a b => [⟨.d, true, d.toNat, w.toNat + 1⟩, ⟨.a, true, a.toNat, w.toNat + 1⟩, ⟨.b, true, b.toNat, w.toNat + 1⟩]
  | .selG _ _ _ d a b => [⟨.d, false, d.toNat, 1⟩, ⟨.a, false, a.toNat, 1⟩, ⟨.b, false, b.toNat, 1⟩]
  | .psetV _ _ _ _ _ => []
  | .psetG _ _ _ _ _ => []
  | .psetNzV _ _ a w => [⟨.a, true, a.toNat, w.toNat + 1⟩]
  | .psetNzG _ _ a _ => [⟨.a, false, a.toNat, 1⟩]
  | .movSpecialV _ d _ => [⟨.d, true, d.toNat, 1⟩]
  | .movSpecialG _ d _ => [⟨.d, false, d.toNat, 1⟩]
  | .moviV _ d _ => [⟨.d, true, d.toNat, 1⟩]
  | .moviG _ d _ => [⟨.d, false, d.toNat, 1⟩]
  | .brxV _ a => [⟨.a, true, a.toNat, 2⟩]
  | .brxG _ a => [⟨.a, false, a.toNat, 1⟩]
  | .retV _ a => [⟨.a, true, a.toNat, 2⟩]
  | .retG _ a => [⟨.a, false, a.toNat, 1⟩]
  | .leaV _ _ d a b => [⟨.d, true, d.toNat, 2⟩, ⟨.a, false, a.toNat, 1⟩, ⟨.b, true, b.toNat, 1⟩]
  | .leaG _ _ d a b => [⟨.d, false, d.toNat, 1⟩, ⟨.a, false, a.toNat, 1⟩, ⟨.b, false, b.toNat, 1⟩]
  | .callV _ _ => [⟨.d, true, 126, 2⟩]
  | .callG _ _ => []
  | .braV _ _ => []
  | .braG _ _ => []
  | .fadd _ d a b => [⟨.d, true, d.toNat, 1⟩, ⟨.a, true, a.toNat, 1⟩, ⟨.b, true, b.toNat, 1⟩]
  | .fsub _ d a b => [⟨.d, true, d.toNat, 1⟩, ⟨.a, true, a.toNat, 1⟩, ⟨.b, true, b.toNat, 1⟩]
  | .fmul _ d a b => [⟨.d, true, d.toNat, 1⟩, ⟨.a, true, a.toNat, 1⟩, ⟨.b, true, b.toNat, 1⟩]
  | .ffma _ d a b => [⟨.d, true, d.toNat, 1⟩, ⟨.a, true, a.toNat, 1⟩, ⟨.b, true, b.toNat, 1⟩]
  | .fdiv _ d a b => [⟨.d, true, d.toNat, 1⟩, ⟨.a, true, a.toNat, 1⟩, ⟨.b, true, b.toNat, 1⟩]
  | .fmin _ d a b => [⟨.d, true, d.toNat, 1⟩, ⟨.a, true, a.toNat, 1⟩, ⟨.b, true, b.toNat, 1⟩]
  | .fmax _ d a b => [⟨.d, true, d.toNat, 1⟩, ⟨.a, true, a.toNat, 1⟩, ⟨.b, true, b.toNat, 1⟩]
  | .faddF64 _ d a b => [⟨.d, true, d.toNat, 2⟩, ⟨.a, true, a.toNat, 2⟩, ⟨.b, true, b.toNat, 2⟩]
  | .fsubF64 _ d a b => [⟨.d, true, d.toNat, 2⟩, ⟨.a, true, a.toNat, 2⟩, ⟨.b, true, b.toNat, 2⟩]
  | .fmulF64 _ d a b => [⟨.d, true, d.toNat, 2⟩, ⟨.a, true, a.toNat, 2⟩, ⟨.b, true, b.toNat, 2⟩]
  | .ffmaF64 _ d a b => [⟨.d, true, d.toNat, 2⟩, ⟨.a, true, a.toNat, 2⟩, ⟨.b, true, b.toNat, 2⟩]
  | .fdivF64 _ d a b => [⟨.d, true, d.toNat, 2⟩, ⟨.a, true, a.toNat, 2⟩, ⟨.b, true, b.toNat, 2⟩]
  | .fminF64 _ d a b => [⟨.d, true, d.toNat, 2⟩, ⟨.a, true, a.toNat, 2⟩, ⟨.b, true, b.toNat, 2⟩]
  | .fmaxF64 _ d a b => [⟨.d, true, d.toNat, 2⟩, ⟨.a, true, a.toNat, 2⟩, ⟨.b, true, b.toNat, 2⟩]
  | .fsqrt _ d a _ => [⟨.d, true, d.toNat, 1⟩, ⟨.a, true, a.toNat, 1⟩]
  | .frcp _ d a _ => [⟨.d, true, d.toNat, 1⟩, ⟨.a, true, a.toNat, 1⟩]
  | .frsq _ d a _ => [⟨.d, true, d.toNat, 1⟩, ⟨.a, true, a.toNat, 1⟩]
  | .fexp2 _ d a _ => [⟨.d, true, d.toNat, 1⟩, ⟨.a, true, a.toNat, 1⟩]
  | .flog2 _ d a _ => [⟨.d, true, d.toNat, 1⟩, ⟨.a, true, a.toNat, 1⟩]
  | .ftrigSinpi _ d a _ => [⟨.d, true, d.toNat, 1⟩, ⟨.a, true, a.toNat, 1⟩]
  | .ftrigCospi _ d a _ => [⟨.d, true, d.toNat, 1⟩, ⟨.a, true, a.toNat, 1⟩]
  | .frnd _ d a _ => [⟨.d, true, d.toNat, 1⟩, ⟨.a, true, a.toNat, 1⟩]
  | .fsqrtF64 _ d a _ => [⟨.d, true, d.toNat, 2⟩, ⟨.a, true, a.toNat, 2⟩]
  | .frndF64 _ d a _ => [⟨.d, true, d.toNat, 2⟩, ⟨.a, true, a.toNat, 2⟩]
  | .fclass _ w d a _ => [⟨.d, true, d.toNat, 1⟩, ⟨.a, true, a.toNat, w.toNat + 1⟩]
  | .hfuse _ _ d a b => [⟨.d, true, d.toNat, 1⟩, ⟨.a, true, a.toNat, 1⟩, ⟨.b, true, b.toNat, 1⟩]
  | .fcmp _ _ w _ a b => [⟨.a, true, a.toNat, w.toNat + 1⟩, ⟨.b, true, b.toNat, w.toNat + 1⟩]
  | .cvt _ _ d a p => [⟨.d, true, d.toNat, cvtRegs p true⟩, ⟨.a, true, a.toNat, cvtRegs p false⟩]
  | .cvtGxEncode _ d a _ _ => [⟨.d, true, d.toNat, 1⟩, ⟨.a, true, a.toNat, 1⟩]
  | .cvtGxDecode _ d a _ => [⟨.d, true, d.toNat, 1⟩, ⟨.a, true, a.toNat, 1⟩]
  | .dp4 _ _ d a b => [⟨.d, true, d.toNat, 1⟩, ⟨.a, true, a.toNat, 1⟩, ⟨.b, true, b.toNat, 1⟩]
  | .rand _ _ d => [⟨.d, true, d.toNat, 1⟩]
  | .pitch _ a => [⟨.a, true, a.toNat, 1⟩]
  | .shfl _ _ d a b => [⟨.d, true, d.toNat, 1⟩, ⟨.a, true, a.toNat, 1⟩, ⟨.b, true, b.toNat, 1⟩]
  | .vote _ d _ k => (if k == 2#7 then [⟨.d, false, d.toNat, 1⟩] else [])
  | .bcast _ d a w => [⟨.d, true, d.toNat, w.toNat + 1⟩, ⟨.a, false, a.toNat, 1⟩]
  | .redux _ d a t _ => [⟨.d, false, d.toNat, 1⟩, ⟨.a, true, a.toNat, if wideType t then 2 else 1⟩]
  | .scan _ d a _ t _ => [⟨.d, true, d.toNat, if wideType t then 2 else 1⟩, ⟨.a, true, a.toNat, if wideType t then 2 else 1⟩]
  | .nzscan _ d a b => [⟨.d, true, d.toNat, 1⟩, ⟨.a, true, a.toNat, 1⟩, ⟨.b, false, b.toNat, 1⟩]
  | .isect _ d a b => [⟨.d, true, d.toNat, 2⟩, ⟨.a, true, a.toNat, 1⟩, ⟨.b, true, b.toNat, 1⟩]
  | .movQueuePush _ _ a => [⟨.a, true, a.toNat, 1⟩]
  | .movQueuePop _ d => [⟨.d, true, d.toNat, 1⟩]
  | .cpy _ d a b => [⟨.d, true, d.toNat, 2⟩, ⟨.a, true, a.toNat, 2⟩, ⟨.b, false, b.toNat, 1⟩]
  | .cpyr _ d a b => [⟨.d, true, d.toNat, 2⟩, ⟨.a, true, a.toNat, 2⟩, ⟨.b, false, b.toNat, 1⟩]
  | .ldV _ s d a b => [⟨.d, true, d.toNat, dataRegs s⟩, ⟨.a, false, a.toNat, 1⟩, ⟨.b, true, b.toNat, 1⟩]
  | .stV _ s d a b => [⟨.d, true, d.toNat, dataRegs s⟩, ⟨.a, false, a.toNat, 1⟩, ⟨.b, true, b.toNat, 1⟩]
  | .ldOrdered _ d a _ s => [⟨.d, true, d.toNat, dataRegs s⟩, ⟨.a, true, a.toNat, 2⟩]
  | .stOrdered _ d a _ s => [⟨.d, true, d.toNat, dataRegs s⟩, ⟨.a, true, a.toNat, 2⟩]
  | .atom _ d a _ c => [⟨.d, true, d.toNat, atomRegs c⟩, ⟨.a, true, a.toNat, 2⟩]
  | .red _ d a _ c => [⟨.d, true, d.toNat, atomRegs c⟩, ⟨.a, true, a.toNat, 2⟩]
  | .ldt _ d a _ _ _ => [⟨.d, false, d.toNat, 1⟩, ⟨.a, false, a.toNat, 1⟩]
  | .stt _ d a _ _ _ => [⟨.d, false, d.toNat, 1⟩, ⟨.a, false, a.toNat, 1⟩]
  | .movSlicePush _ _ a _ _ _ => [⟨.a, false, a.toNat, 1⟩]
  | .movSlicePop _ a _ _ _ => [⟨.a, false, a.toNat, 1⟩]
  | .movSliceToV _ d a _ _ _ => [⟨.d, true, d.toNat, 1⟩, ⟨.a, false, a.toNat, 1⟩]
  | .movVToSlice _ d a _ _ _ => [⟨.d, true, d.toNat, 1⟩, ⟨.a, false, a.toNat, 1⟩]
  | .nop _ => []
  | .exit _ => []
  | .trap _ _ => []
  | .eret _ => []
  | .yield _ => []
  | .fence _ _ => []
  | .wbaseImm _ _ => []
  | .wbaseReg _ a => [⟨.a, false, a.toNat, 1⟩]
  | .qpoll _ _ _ => []
  | .spawn _ d a b => [⟨.d, false, d.toNat, 1⟩, ⟨.a, false, a.toNat, 1⟩, ⟨.b, false, b.toNat, 1⟩]
  | .join _ => []
  | .allocHeap _ d a => [⟨.d, false, d.toNat, 1⟩, ⟨.a, false, a.toNat, 1⟩]
  | .allocLog _ d a => [⟨.d, false, d.toNat, 1⟩, ⟨.a, false, a.toNat, 1⟩]
  | .rdecl _ a _ => [⟨.a, false, a.toNat, 1⟩]
  | .rview _ d _ => [⟨.d, false, d.toNat, 1⟩]
  | .ctlrd _ d _ => [⟨.d, false, d.toNat, 1⟩]
  | .ctlrdFflags _ d => [⟨.d, false, d.toNat, 1⟩]
  | .ctlwr _ a _ => [⟨.a, false, a.toNat, 1⟩]
  | .ctlwrFflags _ a => [⟨.a, false, a.toNat, 1⟩]
  | .ctlwrLfm _ a => [⟨.a, false, a.toNat, 1⟩]
  | .ctlwrRepc _ a => [⟨.a, false, a.toNat, 1⟩]
  | .ctlwrTmr _ a => [⟨.a, false, a.toNat, 1⟩]
  | .ctlwrAlarm _ a => [⟨.a, false, a.toNat, 1⟩]
  | .bara _ d _ => [⟨.d, false, d.toNat, 1⟩]
  | .barw _ a _ => [⟨.a, false, a.toNat, 1⟩]
  | .barm _ a _ => [⟨.a, false, a.toNat, 1⟩]
  | .bbinit _ a b => [⟨.a, false, a.toNat, 1⟩, ⟨.b, false, b.toNat, 1⟩]
  | .bbexp _ a b => [⟨.a, false, a.toNat, 1⟩, ⟨.b, false, b.toNat, 1⟩]
  | .bbarr _ a b => [⟨.a, false, a.toNat, 1⟩, ⟨.b, false, b.toNat, 1⟩]
  | .bbwait _ a b => [⟨.a, false, a.toNat, 1⟩, ⟨.b, false, b.toNat, 1⟩]
  | .ckinit _ a _ => [⟨.a, false, a.toNat, 1⟩]
  | .ckres _ d _ _ => [⟨.d, false, d.toNat, 1⟩]
  | .ckpub _ a _ _ => [⟨.a, false, a.toNat, 1⟩]
  | .ckacq _ d _ _ => [⟨.d, false, d.toNat, 1⟩]
  | .ckrel _ a _ _ => [⟨.a, false, a.toNat, 1⟩]
  | .wait _ a b => [⟨.a, false, a.toNat, 1⟩, ⟨.b, false, b.toNat, 1⟩]
  | .abeg _ a => [⟨.a, false, a.toNat, 1⟩]
  | .acom _ _ => []
  | .cpyt _ d a b => [⟨.d, false, d.toNat, 1⟩, ⟨.a, false, a.toNat, 1⟩, ⟨.b, false, b.toNat, 1⟩]
  | .tsrf _ => []
  | .trig _ _ a => [⟨.a, false, a.toNat, 1⟩]
  | .ldG _ _ d a b => [⟨.d, false, d.toNat, 1⟩, ⟨.a, false, a.toNat, 1⟩, ⟨.b, false, b.toNat, 1⟩]
  | .stG _ _ d a b => [⟨.d, false, d.toNat, 1⟩, ⟨.a, false, a.toNat, 1⟩, ⟨.b, false, b.toNat, 1⟩]
  | .mma _ _ _ _ _ => []
  | .mmag _ _ _ _ _ => []
  | .mmav _ _ _ _ _ => []
  | .msca _ _ _ _ => []
  | .mzero _ _ => []
  | .mdrn _ _ _ _ => []
  | .limm _ => []
  | .rep _ _ _ _ => []
  | .createQueue _ _ _ _ _ _ _ _ _ => []
  | .destroyQueue _ _ _ => []
  | .resetQueue _ _ _ => []
  | .abortQueue _ _ _ => []
  | .setQuantum _ _ _ => []
  | .invalidate _ _ _ _ _ => []
  | .pageResponse _ _ _ _ => []
  | .doorbell _ _ => []
  | .registerWrite _ _ _ => []
  | .attestationRequest _ => []
  | .hostWrite _ _ => []
  | .hostRead _ _ => []
  | .linkTraining _ _ => []
  | .resetBoot _ _ _ _ => []
  | .remoteRequest _ _ _ _ => []
  | .remoteRequestTimeout _ => []
  | .thermalStepChange _ _ => []
  | .powerThrottle _ => []
  | .droopEvent _ _ => []
  | .packetRead _ => []
  | .headPublish _ => []
  | .launchPacket _ => []
  | .copyPacket _ => []
  | .waitSignalPacket _ => []
  | .setSignalPacket _ => []
  | .teamDispatch _ _ => []
  | .taskStart _ => []
  | .taskSteal _ _ => []
  | .timeSlice _ _ _ => []
  | .racking _ _ _ => []
  | .switchOut _ _ => []
  | .restore _ _ _ => []
  | .engineContextSwitch _ _ => []
  | .engineArrival _ => []
  | .triggeredOpComplete _ => []
  | .pageRequest => []
  | .thermalHalt => []
  | .tapRebind => []
  | .waitSignalTimeout => []
  | .completionSignal => []
  | .launchEnd => []
  | .taskCompletionReport => []
  | .joinComplete => []
  | .rootViewFold => []
  | .deferredAddApply => []
  | .trapEntry => []
  | .timer => []
  | .alarm => []
  | .grpAbsent => []

/-- The guard field (04 R68). -/
def Instr.guardOf : Instr → BitVec 2
  | .iaddV q _ _ _ => q
  | .isubV q _ _ _ => q
  | .imulV q _ _ _ => q
  | .imulhS32V q _ _ _ => q
  | .imulhZ32V q _ _ _ => q
  | .imadV q _ _ _ => q
  | .iabsV q _ _ => q
  | .iaddV64 q _ _ _ => q
  | .isubV64 q _ _ _ => q
  | .imulV64 q _ _ _ => q
  | .imulhS64V q _ _ _ => q
  | .imulhZ64V q _ _ _ => q
  | .imadV64 q _ _ _ => q
  | .iabsV64 q _ _ => q
  | .iaddG32 q _ _ _ => q
  | .isubG32 q _ _ _ => q
  | .imulG32 q _ _ _ => q
  | .imulhS32G q _ _ _ => q
  | .imulhZ32G q _ _ _ => q
  | .imadG32 q _ _ _ => q
  | .iabsG32 q _ _ => q
  | .iaddG64 q _ _ _ => q
  | .isubG64 q _ _ _ => q
  | .imulG64 q _ _ _ => q
  | .imulhS64G q _ _ _ => q
  | .imulhZ64G q _ _ _ => q
  | .imadG64 q _ _ _ => q
  | .iabsG64 q _ _ => q
  | .iaddImmV q _ _ _ => q
  | .iaddImmV64 q _ _ _ => q
  | .iaddImmG32 q _ _ _ => q
  | .iaddImmG64 q _ _ _ => q
  | .imaxV q _ _ _ _ _ => q
  | .iminV q _ _ _ _ _ => q
  | .imaxG q _ _ _ _ _ => q
  | .iminG q _ _ _ _ _ => q
  | .andV q _ _ _ _ => q
  | .orV q _ _ _ _ => q
  | .xorV q _ _ _ _ => q
  | .andnV q _ _ _ _ => q
  | .andG q _ _ _ _ => q
  | .orG q _ _ _ _ => q
  | .xorG q _ _ _ _ => q
  | .andnG q _ _ _ _ => q
  | .shlV q _ _ _ _ => q
  | .shrV q _ _ _ _ => q
  | .sarV q _ _ _ _ => q
  | .rotV q _ _ _ _ => q
  | .shlV64 q _ _ _ _ => q
  | .shrV64 q _ _ _ _ => q
  | .sarV64 q _ _ _ _ => q
  | .rotV64 q _ _ _ _ => q
  | .shlG32 q _ _ _ _ => q
  | .shrG32 q _ _ _ _ => q
  | .sarG32 q _ _ _ _ => q
  | .rotG32 q _ _ _ _ => q
  | .shlG64 q _ _ _ _ => q
  | .shrG64 q _ _ _ _ => q
  | .sarG64 q _ _ _ _ => q
  | .rotG64 q _ _ _ _ => q
  | .clzV q _ _ => q
  | .clzV64 q _ _ => q
  | .clzG32 q _ _ => q
  | .clzG64 q _ _ => q
  | .popcV q _ _ => q
  | .popcV64 q _ _ => q
  | .popcG32 q _ _ => q
  | .popcG64 q _ _ => q
  | .brevV q _ _ => q
  | .brevG q _ _ => q
  | .bfxZV q _ _ _ => q
  | .bfxSV q _ _ _ => q
  | .bfxZG q _ _ _ => q
  | .bfxSG q _ _ _ => q
  | .bfiV q _ _ _ => q
  | .bfiG q _ _ _ => q
  | .icmpV q _ _ _ _ _ => q
  | .icmpG q _ _ _ _ _ => q
  | .movV q _ _ => q
  | .movV64 q _ _ => q
  | .movG32 q _ _ => q
  | .movG64 q _ _ => q
  | .selV q _ _ _ _ _ => q
  | .selG q _ _ _ _ _ => q
  | .psetV q _ _ _ _ => q
  | .psetG q _ _ _ _ => q
  | .psetNzV q _ _ _ => q
  | .psetNzG q _ _ _ => q
  | .movSpecialV q _ _ => q
  | .movSpecialG q _ _ => q
  | .moviV q _ _ => q
  | .moviG q _ _ => q
  | .brxV q _ => q
  | .brxG q _ => q
  | .retV q _ => q
  | .retG q _ => q
  | .leaV q _ _ _ _ => q
  | .leaG q _ _ _ _ => q
  | .callV q _ => q
  | .callG q _ => q
  | .braV q _ => q
  | .braG q _ => q
  | .fadd q _ _ _ => q
  | .fsub q _ _ _ => q
  | .fmul q _ _ _ => q
  | .ffma q _ _ _ => q
  | .fdiv q _ _ _ => q
  | .fmin q _ _ _ => q
  | .fmax q _ _ _ => q
  | .faddF64 q _ _ _ => q
  | .fsubF64 q _ _ _ => q
  | .fmulF64 q _ _ _ => q
  | .ffmaF64 q _ _ _ => q
  | .fdivF64 q _ _ _ => q
  | .fminF64 q _ _ _ => q
  | .fmaxF64 q _ _ _ => q
  | .fsqrt q _ _ _ => q
  | .frcp q _ _ _ => q
  | .frsq q _ _ _ => q
  | .fexp2 q _ _ _ => q
  | .flog2 q _ _ _ => q
  | .ftrigSinpi q _ _ _ => q
  | .ftrigCospi q _ _ _ => q
  | .frnd q _ _ _ => q
  | .fsqrtF64 q _ _ _ => q
  | .frndF64 q _ _ _ => q
  | .fclass q _ _ _ _ => q
  | .hfuse q _ _ _ _ => q
  | .fcmp q _ _ _ _ _ => q
  | .cvt q _ _ _ _ => q
  | .cvtGxEncode q _ _ _ _ => q
  | .cvtGxDecode q _ _ _ => q
  | .dp4 q _ _ _ _ => q
  | .rand q _ _ => q
  | .pitch q _ => q
  | .shfl q _ _ _ _ => q
  | .vote q _ _ _ => q
  | .bcast q _ _ _ => q
  | .redux q _ _ _ _ => q
  | .scan q _ _ _ _ _ => q
  | .nzscan q _ _ _ => q
  | .isect q _ _ _ => q
  | .movQueuePush q _ _ => q
  | .movQueuePop q _ => q
  | .cpy q _ _ _ => q
  | .cpyr q _ _ _ => q
  | .ldV q _ _ _ _ => q
  | .stV q _ _ _ _ => q
  | .ldOrdered q _ _ _ _ => q
  | .stOrdered q _ _ _ _ => q
  | .atom q _ _ _ _ => q
  | .red q _ _ _ _ => q
  | .ldt q _ _ _ _ _ => q
  | .stt q _ _ _ _ _ => q
  | .movSlicePush q _ _ _ _ _ => q
  | .movSlicePop q _ _ _ _ => q
  | .movSliceToV q _ _ _ _ _ => q
  | .movVToSlice q _ _ _ _ _ => q
  | .nop q => q
  | .exit q => q
  | .trap q _ => q
  | .eret q => q
  | .yield q => q
  | .fence q _ => q
  | .wbaseImm q _ => q
  | .wbaseReg q _ => q
  | .qpoll q _ _ => q
  | .spawn q _ _ _ => q
  | .join q => q
  | .allocHeap q _ _ => q
  | .allocLog q _ _ => q
  | .rdecl q _ _ => q
  | .rview q _ _ => q
  | .ctlrd q _ _ => q
  | .ctlrdFflags q _ => q
  | .ctlwr q _ _ => q
  | .ctlwrFflags q _ => q
  | .ctlwrLfm q _ => q
  | .ctlwrRepc q _ => q
  | .ctlwrTmr q _ => q
  | .ctlwrAlarm q _ => q
  | .bara q _ _ => q
  | .barw q _ _ => q
  | .barm q _ _ => q
  | .bbinit q _ _ => q
  | .bbexp q _ _ => q
  | .bbarr q _ _ => q
  | .bbwait q _ _ => q
  | .ckinit q _ _ => q
  | .ckres q _ _ _ => q
  | .ckpub q _ _ _ => q
  | .ckacq q _ _ _ => q
  | .ckrel q _ _ _ => q
  | .wait q _ _ => q
  | .abeg q _ => q
  | .acom q _ => q
  | .cpyt q _ _ _ => q
  | .tsrf q => q
  | .trig q _ _ => q
  | .ldG q _ _ _ _ => q
  | .stG q _ _ _ _ => q
  | .mma q _ _ _ _ => q
  | .mmag q _ _ _ _ => q
  | .mmav q _ _ _ _ => q
  | .msca q _ _ _ => q
  | .mzero q _ => q
  | .mdrn q _ _ _ => q
  | .limm _ => 0#2
  | .rep _ _ _ _ => 0#2
  | .createQueue _ _ _ _ _ _ _ _ _ => 0#2
  | .destroyQueue _ _ _ => 0#2
  | .resetQueue _ _ _ => 0#2
  | .abortQueue _ _ _ => 0#2
  | .setQuantum _ _ _ => 0#2
  | .invalidate _ _ _ _ _ => 0#2
  | .pageResponse _ _ _ _ => 0#2
  | .doorbell _ _ => 0#2
  | .registerWrite _ _ _ => 0#2
  | .attestationRequest _ => 0#2
  | .hostWrite _ _ => 0#2
  | .hostRead _ _ => 0#2
  | .linkTraining _ _ => 0#2
  | .resetBoot _ _ _ _ => 0#2
  | .remoteRequest _ _ _ _ => 0#2
  | .remoteRequestTimeout _ => 0#2
  | .thermalStepChange _ _ => 0#2
  | .powerThrottle _ => 0#2
  | .droopEvent _ _ => 0#2
  | .packetRead _ => 0#2
  | .headPublish _ => 0#2
  | .launchPacket _ => 0#2
  | .copyPacket _ => 0#2
  | .waitSignalPacket _ => 0#2
  | .setSignalPacket _ => 0#2
  | .teamDispatch _ _ => 0#2
  | .taskStart _ => 0#2
  | .taskSteal _ _ => 0#2
  | .timeSlice _ _ _ => 0#2
  | .racking _ _ _ => 0#2
  | .switchOut _ _ => 0#2
  | .restore _ _ _ => 0#2
  | .engineContextSwitch _ _ => 0#2
  | .engineArrival _ => 0#2
  | .triggeredOpComplete _ => 0#2
  | .pageRequest => 0#2
  | .thermalHalt => 0#2
  | .tapRebind => 0#2
  | .waitSignalTimeout => 0#2
  | .completionSignal => 0#2
  | .launchEnd => 0#2
  | .taskCompletionReport => 0#2
  | .joinComplete => 0#2
  | .rootViewFold => 0#2
  | .deferredAddApply => 0#2
  | .trapEntry => 0#2
  | .timer => 0#2
  | .alarm => 0#2
  | .grpAbsent => 0#2

/-- The major opcode of an encoded instruction. -/
def Instr.major (i : Instr) : Nat := (majorOf (encode i)).toNat

/-- Lane forms are majors 0x00 to 0x1F (04 R69). -/
def Instr.isLane (i : Instr) : Bool := i.major < 32

end Sys2Proof

namespace Sys2Proof.Machine

/-- The allotment row of vn (03 R46). -/
def Group.row (g : Group) (n : Nat) : Nat := g.wbase + n
/-- Lane `l` of an allotment row. -/
def Group.rowGet (g : Group) (row l : Nat) : W32 := g.v.get (row * 32 + l)
/-- Lane `l` of vn. -/
def Group.vGet (g : Group) (n l : Nat) : W32 := g.rowGet (g.row n) l
/-- Lane `l` of the pair vn, vn+1 (03 R48). -/
def Group.vGet2 (g : Group) (n l : Nat) : W64 := g.vGet (n + 1) l ++ g.vGet n l
/-- `k` registers of lane `l` from vn as one little-endian number. -/
def Group.vGetN (g : Group) (n l : Nat) : Nat → Nat
  | 0 => 0
  | k + 1 => (g.vGet n l).toNat + 2 ^ 32 * Group.vGetN g (n + 1) l k

/-- Writes `f l` to lane `l` of an allotment row for the lanes of a mask. -/
def Cells.writeRow (c : Cells 32) (mask : W32) (row : Nat) (f : Nat → W32) : Cells 32 :=
  (List.range 32).foldl (fun c l => if mask.getLsbD l then c.set (row * 32 + l) (f l) else c) c

/-- Writes vn in the lanes of a mask. -/
def Group.vSet (g : Group) (mask : W32) (n : Nat) (f : Nat → W32) : Group :=
  { g with v := Cells.writeRow g.v mask (g.row n) f }
/-- Writes an allotment row in the lanes of a mask. -/
def Group.rowSet (g : Group) (mask : W32) (row : Nat) (f : Nat → W32) : Group :=
  { g with v := Cells.writeRow g.v mask row f }
/-- Writes the pair vn, vn+1 in the lanes of a mask (03 R48). -/
def Group.vSet2 (g : Group) (mask : W32) (n : Nat) (f : Nat → W64) : Group :=
  { g with v := Cells.writeRow (Cells.writeRow g.v mask (g.row n) (fun l => (f l).extractLsb' 0 32)) mask (g.row (n + 1)) (fun l => (f l).extractLsb' 32 32) }
/-- Writes `k` registers from vn with the words of a number for each lane of a mask. -/
def Group.vSetN (g : Group) (mask : W32) (n : Nat) (f : Nat → Nat) : Nat → Group
  | 0 => g
  | k + 1 => Group.vSetN (g.vSet mask n (fun l => BitVec.ofNat 32 (f l))) mask (n + 1) (fun l => f l / 2 ^ 32) k

/-- Reads gn; g0 is zero (03 R51). -/
def Group.gGet (g : Group) (n : Nat) : W64 := if n = 0 then 0#64 else g.g.get n
/-- Writes gn; a write to g0 is discarded (03 R51). -/
def Group.gSet (g : Group) (n : Nat) (x : W64) : Group :=
  { g with g := if n = 0 then g.g else g.g.set n x }
/-- A 32-bit group result, sign-extended (04 R69). -/
def Group.gSet32 (g : Group) (n : Nat) (x : W32) : Group := g.gSet n (x.signExtend 64)
/-- Bits 31:0 of gn (04 R69). -/
def Group.gGet32 (g : Group) (n : Nat) : W32 := (g.gGet n).extractLsb' 0 32

/-- The lanes where pn is true; p0 reads true (03 R52). -/
def Group.pGet (g : Group) (n : Nat) : W32 :=
  if n = 0 then BitVec.allOnes 32 else if n = 1 then g.p1 else if n = 2 then g.p2 else g.p3
/-- Writes pn in the lanes of a mask; a write to p0 is discarded (03 R52). -/
def Group.pSet (g : Group) (mask : W32) (n : Nat) (x : W32) : Group :=
  { g with
    p1 := if n = 1 then (g.p1 &&& ~~~mask) ||| (x &&& mask) else g.p1
    p2 := if n = 2 then (g.p2 &&& ~~~mask) ||| (x &&& mask) else g.p2
    p3 := if n = 3 then (g.p3 &&& ~~~mask) ||| (x &&& mask) else g.p3 }
/-- Reads gpn; gp0 is true (03 R52). -/
def Group.gpGet (g : Group) (n : Nat) : Bool := if n = 0 then true else if n = 1 then g.gp1 else if n = 2 then g.gp2 else g.gp3
/-- Writes gpn; a write to gp0 is discarded (03 R52). -/
def Group.gpSet (g : Group) (n : Nat) (x : Bool) : Group :=
  { g with
    gp1 := if n = 1 then x else g.gp1
    gp2 := if n = 2 then x else g.gp2
    gp3 := if n = 3 then x else g.gp3 }

/-- The lanes of a predicate function as a mask. -/
def maskOf (f : Nat → Bool) : W32 :=
  BitVec.ofNat 32 ((List.range 32).foldl (fun x l => if f l then x + 2 ^ l else x) 0)
/-- The lanes of a mask, ascending. -/
def lanesOfMask (m : W32) : List Nat := (List.range 32).filter (fun l => m.getLsbD l)

/-- Tile tN: the allotment row and lane of element `l` of slice `x` (03 R49, R50). -/
def Group.sliceAt (g : Group) (tile : Nat) (col : Bool) (x l : Nat) : Nat × Nat :=
  if col then (g.tileBase + 32 * tile + l, x) else (g.tileBase + 32 * tile + x, l)
/-- The slice index (03 R50). -/
def Group.sliceIndex (g : Group) (a k : Nat) : Nat := ((g.gGet a).toNat + k) % 32
/-- Element `l` of a slice. -/
def Group.sliceGet (g : Group) (tile : Nat) (col : Bool) (x l : Nat) : W32 :=
  let p := g.sliceAt tile col x l
  g.rowGet p.1 p.2
/-- Writes the elements of a slice whose lanes are in the mask (03 R50). -/
def Group.sliceSet (g : Group) (mask : W32) (tile : Nat) (col : Bool) (x : Nat) (f : Nat → W32) : Group :=
  { g with v := (List.range 32).foldl (fun c l =>
      if mask.getLsbD l then c.set ((g.sliceAt tile col x l).1 * 32 + (g.sliceAt tile col x l).2) (f l) else c) g.v }

/-- Whether every v register an instruction names lies inside the allotment (03 R47). -/
def Group.windowOk (g : Group) (i : Instr) : Bool :=
  i.operands.all (fun o => !o.vec || decide (g.wbase + o.reg + o.width ≤ g.allot))

/-- The split in a table entry. -/
def Group.splitAt (g : Group) (e : Nat) : Option Split := g.splits.find? (fun p => p.entry == e)
/-- Replaces the split of the same table entry. -/
def Group.putSplit (g : Group) (p : Split) : Group :=
  { g with splits := g.splits.map (fun x => if x.entry = p.entry then p else x) }
/-- Removes the split in a table entry. -/
def Group.dropSplit (g : Group) (e : Nat) : Group := { g with splits := g.splits.filter (fun x => x.entry != e) }

/-- The split in focus; an empty one where the entry is free. -/
def State.sp (s : State) : Split := (s.cur.splitAt s.split).getD ⟨s.split, 0, 0, .ready, none, false, 0, 0, false⟩
/-- M of 18 R303: the split's mask less the lanes switched off and not yet re-enabled by ERET (03 R61). -/
def State.laneMask (s : State) : W32 := s.sp.mask &&& ~~~s.cur.off
/-- active(M) of an instruction guarded by `q` (04 R68, 05 R106). -/
def State.active (s : State) (q : BitVec 2) : W32 := s.laneMask &&& s.cur.pGet q.toNat
/-- The group-wide guard (04 R68). -/
def State.gpGuard (s : State) (q : BitVec 2) : Bool := s.cur.gpGet q.toNat

/-- Replaces the group in focus. -/
def State.setCur (s : State) (g : Group) : State := { s with cur := g }

end Sys2Proof.Machine
end

