-- ==== Sys2Proof/Machine/Flags.lean ====
section
/-! DEFINITION. Flag computations: ctl.fflags, ctl.lfm, ctl.fpmode and the access codes of the control registers
(03 R57 to R64, 19 R329). -/
namespace Sys2Proof.Machine

/-- setflags: ORs flags into ctl.fflags (03 R60, 05 R106). -/
def Group.orFlags (g : Group) (f : Nat) : Group := { g with fflags := g.fflags ||| BitVec.ofNat 64 (f % 64) }

/-- The OR of the flags of the lanes of a mask. -/
def laneFlags (mask : W32) (f : Nat → Nat) : Nat := (lanesOfMask mask).foldl (fun x l => x ||| f l) 0

/-- ctl.fpmode.RM (03 R59). -/
def Group.rm (g : Group) : Mode := modeOfRM (g.fpmode.extractLsb' 0 2).toNat
/-- ctl.fpmode.FTZ (03 R59). -/
def Group.ftz (g : Group) : Bool := g.fpmode.getLsbD 2

/-- A rounding code of 04 R72 but SR. -/
def Group.roundCode (g : Group) (r : Nat) : Mode :=
  match r with
  | 1 => .rne | 2 => .rz | 3 => .ru | 4 => .rd | _ => g.rm

/-- Records lane fault `cause` (1 LANE_SPAD, 2 LANE_ALIGN, 3 LANE_WINDOW) of a lane (03 R61): CAUSE and FLANE keep the first since MASK was zero. -/
def lfmRecord (lfm : W64) (lane cause : Nat) : W64 :=
  let m := lfm ||| BitVec.ofNat 64 (2 ^ lane)
  if lfm.extractLsb' 0 32 = 0#32 then m ||| BitVec.ofNat 64 (cause * 2 ^ 32 + lane * 2 ^ 36) else m

/-- A W1C write of ctl.lfm.MASK; CAUSE and FLANE clear when MASK becomes zero (03 R61). -/
def lfmClear (lfm x : W64) : W64 :=
  let m := lfm.extractLsb' 0 32 &&& ~~~(x.extractLsb' 0 32)
  if m = 0#32 then 0#64 else lfm.extractLsb' 32 32 ++ m

/-- ctl.caps of the part (03 R58). -/
def State.dies (s : State) : Nat := match s.part with | .p9600 => 8 | .p9400 => 6 | .p9200 => 4
/-- B store present (00 R1, R3). -/
def State.bst (s : State) : Bool := s.part != .p9200
/-- Kiln reserved; only with a B store (03 R58). -/
def State.hasKiln (s : State) : Bool := s.bst && s.kiln
/-- Whether only configuration space, the identity block and the mailbox respond: before boot, after a failed signature, with no
UCIe module trained, or after a halt (14 R267, R273, R274). -/
def State.inRecovery (s : State) : Bool := s.boot != .ready || s.links.isEmpty
/-- ctl.caps (03 R58). -/
def State.caps (s : State) : W64 :=
  let d := s.dies
  let ports := if s.part = .p9200 then 18 else 36
  BitVec.ofNat 64 (d + (2 * d) * 2 ^ 4 + (4 * d) * 2 ^ 9 + ports * 2 ^ 15 + (if s.bst then 2 ^ 21 else 0) +
    (if s.hasKiln then 2 ^ 22 else 0) + (if s.bst then 2 ^ 23 else 0) + 4096 * 2 ^ 32)

/-- A control register by its selector (03 R57); reserved fields read zero because no write sets them. -/
def State.ctlGet (s : State) (n : Nat) : W64 :=
  match n with
  | 0 => s.caps
  | 1 => s.cur.fpmode
  | 2 => s.cur.fflags
  | 3 => s.cur.lfm
  | 4 => s.cur.repc
  | 5 => s.cur.tmr
  | 6 => s.cur.alarm
  | 7 => s.cur.trapvec
  | 8 => s.cur.trapinfo
  | _ => s.cur.gtimeout

/-- Writes a control register under the access codes of its fields (19 R329). -/
def Group.ctlSet (g : Group) (n : Nat) (x : W64) : Group :=
  match n with
  | 1 => { g with fpmode := x &&& 7#64 }
  | 2 => { g with fflags := x &&& 63#64 }
  | 3 => { g with lfm := lfmClear g.lfm x }
  | 4 => { g with repc := x, splits := g.splits.map (fun p => { p with fresh := false }) }
  | 5 => { g with tmr := x }
  | 6 => { g with alarm := x }
  | 7 => { g with trapvec := x &&& 0x01FFFFFFFFFFFFFC#64 }
  | 9 => { g with gtimeout := x &&& 0xFFFFFFFF#64 }
  | _ => g

end Sys2Proof.Machine
end

