-- ==== Sys2Proof/Machine/Ops.lean ====
section
/-! DEFINITION. The named operations over memory, translation, page requests, traps and the issue of an instruction
(00 R6, 06, 07, 13). -/
namespace Sys2Proof.Machine
open Host

/-! ## Packets of a job -/

/-- Field of `n` bytes at byte `k` of the packet (12 R236). -/
def Job.field (j : Job) (k n : Nat) : Nat := leNat ((j.pkt.drop k).take n)
def Job.flag (j : Job) (b : Nat) : Bool := (j.field 2 2).testBit b
def Job.cor (j : Job) : Bool := j.flag 0
/-- DETC without DET counts as both (09 R169). -/
def Job.det (j : Job) : Bool := j.flag 1 || j.flag 4
def Job.chk (j : Job) : Bool := j.flag 2
def Job.pre (j : Job) : Bool := j.flag 3
def Job.detc (j : Job) : Bool := j.flag 4
def Job.teamCount (j : Job) : Nat := j.field 4 4
def Job.perTeam (j : Job) : Nat := j.field 8 2
def Job.regs (j : Job) : Nat := j.field 10 2
def Job.scratch (j : Job) : Nat := j.field 12 4
def Job.entry (j : Job) : W64 := BitVec.ofNat 64 (j.field 16 8)
def Job.args (j : Job) : W64 := BitVec.ofNat 64 (j.field 24 8)
def Job.signal (j : Job) : W64 := BitVec.ofNat 64 (j.field 32 8)
def Job.seed (j : Job) : W64 := BitVec.ofNat 64 (j.field 40 8)
def Job.arena (j : Job) : Nat := j.field 48 8
def Job.arenaBytes (j : Job) : Nat := j.field 56 8
def Job.seqEntry (j : Job) : W64 := BitVec.ofNat 64 (j.field 64 8)
def Job.handler (j : Job) : W64 := BitVec.ofNat 64 (j.field 80 8)
def Job.trapArea (j : Job) : Nat := j.field 88 8
def Job.logical (j : Job) : Nat := j.field 96 2
def Job.tileCount (j : Job) : Nat := j.field 98 1 % 16
def Job.tileBase (j : Job) : Nat := 32 * (j.field 98 1 / 16)
def Job.casks (j : Job) : Nat := j.field 99 1
def Job.reducers (j : Job) : Nat := j.field 100 1

/-- The job of the group in focus. -/
def State.job (s : State) : Job := (look s.jobs s.cur.job).getD Job.blank
/-- Replaces a job. -/
def State.putJob (s : State) (j : Job) : State := { s with jobs := put s.jobs j.id j }
/-- The number a team's record stands under. -/
def teamKey (job team : Nat) : Nat := job * 2 ^ 32 + team
/-- A team's record. -/
def State.teamOf (s : State) (job team : Nat) : Team := (look s.teams (teamKey job team)).getD Team.blank
/-- The team of the group in focus. -/
def State.team (s : State) : Team := s.teamOf s.cur.job s.cur.team
/-- Replaces a team. -/
def State.putTeam (s : State) (t : Team) : State := { s with teams := put s.teams (teamKey t.job t.idx) t }
/-- Every group, the one in focus first. -/
def State.allGroups (s : State) : List Group := s.cur :: s.groups.map Prod.snd
/-- A group by number. -/
def State.groupOf (s : State) (gid : Nat) : Option Group := if s.cur.gid = gid then some s.cur else look s.groups gid
/-- Replaces a group wherever it stands. -/
def State.putGroup (s : State) (g : Group) : State :=
  if s.cur.gid = g.gid then { s with cur := g } else { s with groups := put s.groups g.gid g }
/-- Brings a group and one of its splits into focus. -/
def State.focus (s : State) (gid entry : Nat) : State :=
  if s.cur.gid = gid then { s with split := entry, limm := none } else
  match look s.groups gid with
  | none => s
  | some g => { s with cur := g, groups := drop (put s.groups s.cur.gid s.cur) gid, split := entry, limm := none }

/-! ## Choices the manual leaves to the device (00 R5, log 1) -/

/-- One of `n` outcomes; the only one where there is no choice. -/
def State.pick (s : State) (salt n : Nat) : Nat := if n ≤ 1 then 0 else Config.choice (s.tick * 2 ^ 64 + salt) % n

/-! ## Memory -/

/-- The memory keeps its canonical form: locations strictly rising, no zero byte listed. -/
def Memory.wf (m : List Cell) : Bool := Cells.wf m

/-- The byte at a location; a location not listed reads zero (log 2). -/
def State.byteAt (s : State) (loc : Nat) : Byte := Cells.get s.mem loc
/-- `n` bytes from a location. -/
def State.bytesAt (s : State) (loc : Nat) : Nat → List Byte
  | 0 => []
  | n + 1 => s.byteAt loc :: State.bytesAt s (loc + 1) n
/-- `n` little-endian bytes from a location (00 R6). -/
def State.natAt (s : State) (loc n : Nat) : Nat := leNat (s.bytesAt loc n)
/-- Memory with bytes stored from a location up. -/
def memPut (m : List Cell) (loc : Nat) : List Byte → List Cell
  | [] => m
  | b :: bs => memPut (Cells.set m loc b) (loc + 1) bs
/-- Stores bytes, keeping what they replace in the history. -/
def State.store (s : State) (loc : Nat) (bs : List Byte) : State :=
  { s with mem := memPut s.mem loc bs, hist := ⟨loc, s.bytesAt loc bs.length⟩ :: s.hist }
/-- Stores a little-endian number of `n` bytes. -/
def State.storeNat (s : State) (loc n x : Nat) : State := s.store loc (leBytes n x)

/-- Whether a write touched any of the `n` bytes at a location. -/
def Write.touches (w : Write) (loc n : Nat) : Bool := decide (w.loc < loc + n) && decide (loc < w.loc + w.old.length)
/-- The `n` bytes at a location before a write, given those after it. -/
def Write.undo (w : Write) (loc n : Nat) (now : List Byte) : List Byte :=
  (List.range n).map (fun i =>
    if w.loc ≤ loc + i ∧ loc + i < w.loc + w.old.length then w.old.getD (loc + i - w.loc) 0 else now.getD i 0)
/-- The writes since the history had `mark` entries. -/
def State.since (s : State) (mark : Nat) : List Write := s.hist.take (s.hist.length - mark)
/-- Every value the `n` bytes at a location have held since a mark, the present one first. -/
def State.heldSince (s : State) (mark loc n : Nat) : List (List Byte) :=
  let now := s.bytesAt loc n
  let r := (s.since mark).foldl (fun (p : List Byte × List (List Byte)) w =>
    if w.touches loc n then (w.undo loc n p.1, p.2 ++ [w.undo loc n p.1]) else p) (now, [now])
  r.2.eraseDups
/-- One of the values held since a mark (07 R140, 04 R80, 10 R201, 06 R125). -/
def State.someHeld (s : State) (mark loc n : Nat) : List Byte :=
  let l := s.heldSince mark loc n
  l.getD (s.pick loc l.length) []
/-- Whether a write since a mark touched the `n` bytes at a location (07 R146). -/
def State.written (s : State) (mark loc n : Nat) : Bool := (s.since mark).any (fun w => w.touches loc n)

/-- Whether a write covers a granule of 8 bytes. -/
def Write.covers (w : Write) (g : Nat) : Bool := decide (w.loc ≤ 8 * g) && decide (8 * g + 8 ≤ w.loc + w.old.length)
/-- Whether the `n` bytes at a location hold uncorrectable data: a spoiled granule that no later write has replaced whole (13 R252). -/
def State.poisoned (s : State) (loc n : Nat) : Bool :=
  s.poison.any (fun p => decide (8 * p.1 < loc + n) && decide (loc < 8 * p.1 + 8) && !(s.since p.2).any (fun w => w.covers p.1))

/-- The location of a B-store byte of a physical cluster (11 R214). -/
def bstoreLoc (cluster off : Nat) : Nat := 2 ^ 57 + cluster * 2 ^ 25 + off
/-- The location of a scratchpad byte of a team (06 R108). -/
def scratchLoc (job team off : Nat) : Nat := 2 ^ 60 + (job * 2 ^ 32 + team) * 2 ^ 20 + off
/-- The location of a view's byte (09 R176). -/
def viewLoc (key off : Nat) : Nat := 2 ^ 60 + key * 2 ^ 20 + 2 ^ 19 + off

/-! ## Translation (06 R121 to R125) -/

/-- Whether 06 R113 assigns a local physical address: HBM of ctl.caps.DIES dies, host memory or MMIO, by PA bits 43:0 whatever the
package. -/
def State.assigned (s : State) (pa : Nat) : Bool :=
  let x := pa % 2 ^ 44
  decide (x < s.dies * 0x1200000000) || (decide (0x80000000000 ≤ x) && decide (x < 0xC0100000000))

/-- Whether a physical address lies in this package's device MMIO region (06 R113). -/
def State.isMmio (s : State) (pa : Nat) : Bool :=
  pa / 2 ^ 44 == s.pkg && decide (0xC0000000000 ≤ pa % 2 ^ 44) && decide (pa % 2 ^ 44 < 0xC0100000000)

/-- Whether a request to the package of a physical address fails: an ID of 4,608 or above, a package that is absent, or one that has left a
request unanswered, where the device's choice tells (14 R272). -/
def State.farFails (s : State) (pa : Nat) : Bool :=
  let pk := pa / 2 ^ 44
  pk != s.pkg && (decide (4608 ≤ pk) || !Config.present pk || (s.silent.contains pk && s.pick (2 ^ 40 + pk) 2 == 1))

/-! ## Device registers (12 R238, 14 R268) -/

/-- The local MMIO offset of a physical address. -/
def mmioOff (pa : Nat) : Nat := pa % 2 ^ 44 - 0xC0000000000

/-- The numbers under which the identity block shows the part and the boot state. -/
def Part.number : Part → Nat | .p9600 => 0 | .p9400 => 1 | .p9200 => 2
def Boot.number : Boot → Nat | .rom => 0 | .recovery => 1 | .ready => 2 | .halted => 3

/-- A read of the device MMIO region (14 R268, 12 R238). -/
def State.mmioRead (s : State) (off size : Nat) : Nat :=
  if (size != 4 && size != 8) || off % size != 0 then 0
  else if s.inRecovery && decide (0x10000 ≤ off) && !(decide (0x40000 ≤ off) && decide (off < 0x50000)) then 0
  else if 0x40000000 ≤ off ∧ off < 0x80000000 then
    if size != 8 then 0 else
    match look s.queues ((off - 0x40000000) / 0x10000) with
    | none => 0
    | some q =>
      match off % 0x10000 with
      | 8 => q.head
      | 16 => if q.error then 1 else 0
      | _ => 0
  else if off < 0x10000 then (Config.identity off s.part.number s.boot.number s.recordHash s.pkg).toNat % 2 ^ (8 * size)
  else if 0x30000 ≤ off ∧ off < 0x40000 then (Config.monitor s.tick off s.steps s.powerStep s.droop).toNat % 2 ^ (8 * size)
  else if off < 0x50000 then (s.regs.get off).toNat + (if size = 8 then (s.regs.get (off + 4)).toNat * 2 ^ 32 else 0)
  else 0

/-- A doorbell (12 R238): T := max(T, value); above H + SIZE the queue enters the error state. -/
def State.ring (s : State) (n value : Nat) : State :=
  match look s.queues n with
  | none => s
  | some q =>
    let bad : Queue := { q with error := true, stopped := true }
    let good : Queue := { q with tail := max q.tail value, bells := (value, s.hist.length) :: q.bells, since := if q.tail = q.head ∧ q.head < max q.tail value then s.time else q.since }
    { s with queues := put s.queues n (if q.head + q.size < value then bad else good) }

/-- A write of the device MMIO region (14 R268). -/
def State.mmioWrite (s : State) (off size x : Nat) : State :=
  if (size != 4 && size != 8) || off % size != 0 then s
  else if s.inRecovery && !(decide (0x40000 ≤ off) && decide (off < 0x50000)) then s
  else if 0x40000000 ≤ off ∧ off < 0x80000000 then
    (if size = 8 ∧ off % 0x10000 = 0 then s.ring ((off - 0x40000000) / 0x10000) x else s)
  else if (0x10000 ≤ off ∧ off < 0x30000) ∨ (0x40000 ≤ off ∧ off < 0x50000) then
    { s with regs := if size = 8 then (s.regs.set off (BitVec.ofNat 32 x)).set (off + 4) (BitVec.ofNat 32 (x / 2 ^ 32)) else s.regs.set off (BitVec.ofNat 32 x) }
  else s

/-! ## Accesses of the device's own agents: table walks, queue front ends, records, merge engines

They move aligned words of 8 bytes, of 4 for LOST and for a fold of that width; in the MMIO region each acts on a register (14 R268, log 38). -/

/-- What a device's access reads of `n` bytes at a physical address. -/
def State.devNat (s : State) (pa n : Nat) : Nat :=
  if s.isMmio pa then (if n = 4 then s.mmioRead (mmioOff pa) 4 else s.mmioRead (mmioOff pa / 8 * 8) 8 / 2 ^ (8 * (pa % 8)) % 2 ^ (8 * n))
  else s.natAt pa n
/-- The aligned word of 8 bytes at a physical address as a cache may hold it: any value held since a mark. -/
def State.devHeld (s : State) (mark pa : Nat) : List Byte := if s.isMmio pa then leBytes 8 (s.devNat pa 8) else s.someHeld mark pa 8
/-- A device's store of `n` bytes at a physical address. -/
def State.devStore (s : State) (pa n x : Nat) : State := if s.isMmio pa then s.mmioWrite (mmioOff pa) n x else s.storeNat pa n x
/-- A device's store of a record, in words of 8 bytes where registers lie. -/
def State.devPut (s : State) (pa : Nat) (bs : List Byte) : State :=
  if s.isMmio pa then (List.range (bs.length / 8)).foldl (fun t i => t.devStore (pa + 8 * i) 8 (leNat ((bs.drop (8 * i)).take 8))) s
  else s.store pa bs

/-- A page found by a walk: physical address, W, X, attribute. -/
structure Page where
  pa : Nat
  w : Bool
  x : Bool
  attr : Nat
  deriving DecidableEq, Repr

/-- The length of the history when entries for an address were last invalidated (06 R125). -/
def State.walkMark (s : State) (root : W64) (va : Nat) : Nat :=
  s.invals.foldl (fun m v => if v.root = root ∧ v.base ≤ va ∧ va < v.base + v.pages * 2 ^ 16 then max m v.mark else m) 0

/-- The walk from a table: levels given as index shifts (06 R121); `none` is a failure. -/
def State.walk (s : State) (root : W64) (va : Nat) (mmio : Bool) : List (Nat × Nat) → Nat → Option Page
  | [], _ => none
  | (lvl, sh) :: rest, table =>
    let idx := if lvl = 0 then va / 2 ^ 16 % 32 else va / 2 ^ sh % 512
    let e := leNat (s.devHeld (s.walkMark root va) (table + 8 * idx))
    let leaf := e.testBit 1
    let pa := e / 2 ^ 12 % 2 ^ 45 * 2 ^ 12
    let attr := e / 16 % 4
    if s.farFails table || !e.testBit 0 || e / 64 % 64 != 0 || e / 2 ^ 57 != 0 then none
    else if leaf then
      if 3 ≤ lvl || pa % 2 ^ sh != 0 || !s.assigned pa || (attr == 3) != mmio then none
      else some ⟨pa + va % 2 ^ sh, e.testBit 2, e.testBit 3, attr⟩
    else State.walk s root va mmio rest pa

/-- Translation of a virtual address (06 R121, R122): root entry 511 is read only for the MMIO window. -/
def State.translate (s : State) (root : W64) (va : Nat) : Option Page :=
  if va / 2 ^ 48 = 0x1FF ∧ va / 2 ^ 44 % 16 ≠ 4 then none else
  s.walk root va (va / 2 ^ 48 == 0x1FF) [(4, 48), (3, 39), (2, 30), (1, 21), (0, 16)] (root.toNat % 2 ^ 57)

/-- Raises or joins the page request of a page (06 R125, 14 R270); answers its ID. PAGE_REQUEST writes its record to the ring. -/
def State.request (s : State) (page : Nat) (root : W64) (queue access : Nat) (o : Owner) : State × Nat :=
  match s.reqs.find? (fun r => r.page == page && r.root == root) with
  | some r =>
    ({ s with reqs := s.reqs.map (fun x => if x.id = r.id then
        { x with owners := if x.owners.contains o then x.owners else x.owners ++ [o], access := x.access ||| access } else x) }, r.id)
  | none =>
    ({ s with reqs := s.reqs ++ [⟨s.nextReq % 2 ^ 32, page, root, queue, access, false, [o]⟩], nextReq := s.nextReq + 1 }, s.nextReq % 2 ^ 32)

/-- A device access (queue front end, records, merge engine): its page, or the state that waits, or a refusal, the ECAUSE of R192 with
it: 1 the host has refused the page, 7 the page's package does not answer (14 R270, R272, log 38). -/
inductive DevRes where
  | page (p : Page)
  | waits (s : State)
  | refused (s : State) (cause : Nat)

/-- The pages that a waiter's requests under a root name, each with its access mask. -/
def State.asked (s : State) (root : W64) (o : Owner) : List (Nat × Nat) :=
  (s.reqs.filter (fun r => r.root == root && r.owners.contains o)).map (fun r => (r.page, r.access))
/-- Whether requests for pages name a read, or a write, of one: the access waits for the answer and does not walk again (14 R270). -/
def asksFor (l : List (Nat × Nat)) (page : Nat) (write : Bool) : Bool := l.any (fun p => p.1 == page && p.2.testBit (if write then 1 else 0))

/-- Translates a device access; a failure sends a page request under the access's key, and the access waits for its answer: a refusal it
meets once, after any other answer it walks again (12 R235, R239, R244, 13 R253, 09 R179, 14 R270). -/
def State.devPage (s : State) (key : Nat) (root : W64) (queue va : Nat) (write : Bool) : DevRes :=
  let page := va / 2 ^ 16 * 2 ^ 16
  let ask : DevRes := .waits (s.request page root queue (if write then 2 else 1) (.device key)).1
  if s.refused.contains (key, page) then .refused { s with refused := s.refused.filter (· != (key, page)) } 1
  else if asksFor (s.asked root (.device key)) page write then .waits s
  else match (if 0x1FF ≤ va / 2 ^ 48 then none else s.translate root va) with
  | none => ask
  | some p => if write && !p.w then ask else if s.farFails p.pa then .refused s 7 else .page p

/-- The device access of a key that has gone waits for no answer and has met none. -/
def State.forget (s : State) (key : Nat) : State :=
  { s with
    reqs := s.reqs.map (fun r : PageReq => { r with owners := r.owners.filter (· != .device key) })
    refused := s.refused.filter (fun p => p.1 != key) }

/-- Whether an address whose word the device reads or stores is ordinary and in attribute 0 or 1 memory; one that does not translate yet is
looked at when it is used (12 R233, R236, log 27). -/
def State.plainWord (s : State) (root : W64) (va : Nat) : Bool :=
  decide (va / 2 ^ 48 < 0x1FF) && ((s.translate root va).map (fun p => decide (p.attr < 2))).getD true

/-! ## Ending a launch (13 R259) -/

/-- The 64-byte trap record (13 R254). -/
def recordBytes (info : Nat) (epc fpc addr pdl pdh : W64) (tail : List Byte) : List Byte :=
  leBytes 8 info ++ leBytes 8 epc.toNat ++ leBytes 8 fpc.toNat ++ leBytes 8 addr.toNat ++
  leBytes 8 pdl.toNat ++ leBytes 8 pdh.toNat ++ tail

/-- Bytes 48 to 63 of a record that is no RACE (13 R254). -/
def recordTail (lfm : W64) (lcore source lane time : Nat) : List Byte :=
  leBytes 4 (lfm.toNat % 2 ^ 32) ++ leBytes 2 lcore ++ leBytes 1 source ++ leBytes 1 lane ++ leBytes 8 time

/-- INFO and ctl.trapinfo: code, class, DETAIL with RSLOT (13 R248, 03 R64). -/
def trapInfo (code cls detail slot : Nat) : Nat := code + cls * 2 ^ 8 + detail % 2 ^ 40 * 2 ^ 10 + slot * 2 ^ 50

/-- Key of the device's accesses to a trap slot of a job. -/
def keyTrap (job slot : Nat) : Nat := 16 * (job + 2 ^ 64 * slot) + 1
/-- Key of a job's completion signal. -/
def keySignal (job : Nat) : Nat := 16 * job + 2
/-- Key of a job's fold accesses. -/
def keyFold (job : Nat) : Nat := 16 * job + 3
/-- Key of a job's dependency or signal word. -/
def keyDep (job : Nat) : Nat := 16 * job + 4
/-- Key of a job's slot 0 record. -/
def keyRecord (job : Nat) : Nat := 16 * job + 5
/-- Key of a queue's ring reads. -/
def keyRing (q : Nat) : Nat := 16 * q + 9
/-- Key of a queue's head store. -/
def keyHead (q : Nat) : Nat := 16 * q + 10

/-- Stops every strand of a job with a status; armed triggers, deferred adds and unfolded views are discarded (13 R259).
A job that already ends keeps its status. -/
def Job.stop (j : Job) (status : Nat) : Job :=
  match j.phase with
  | .ending _ => j
  | _ => { j with phase := .ending status, armed := j.armed.filter Armed.fired, adds := [], partials := [], folds := [] }

/-- Writes the record of a fault that ends a job into slot 0, or counts it in LOST when slot 0 is taken; where its page fails, or an
earlier one still waits, the write waits in the job (13 R253). -/
def State.slotZero (s : State) (j : Job) (rec : List Byte) : State :=
  if j.recorded then
    if j.zero ≠ [] ∨ j.lost ≠ 0 then s.putJob { j with lost := j.lost + 1 } else
    match s.devPage (keyRecord j.id) j.root j.queue j.trapArea true with
    | .page p => s.devStore (p.pa + 4) 4 (s.devNat (p.pa + 4) 4 + 1)
    | .waits s1 => s1.putJob { j with lost := j.lost + 1 }
    | .refused s1 _ => s1
  else
    match s.devPage (keyRecord j.id) j.root j.queue (j.trapArea + 64) true with
    | .page p => (s.devPut p.pa rec).putJob { j with recorded := true }
    | .waits s1 => s1.putJob { j with recorded := true, zero := rec }
    | .refused s1 _ => s1.putJob { j with recorded := true }

/-- Ends a job on a fault: the record, then the stop (13 R253, R259). -/
def State.endJob (s : State) (id status : Nat) (rec : List Byte) : State :=
  match look s.jobs id with
  | none => s
  | some j =>
    let s1 := s.slotZero j rec
    match look s1.jobs id with
    | none => s1
    | some j1 => s1.putJob (j1.stop status)

/-! ## Taking an exception (13 R253 to R255) -/

/-- Byte 54 of a record (13 R254). -/
def Group.source (g : Group) : Nat := match g.kind with | .task => 1 | .seq => 2 | _ => 0

/-- The record of a fault taken by the group in focus in a slot (13 R254). -/
def State.recordOf (s : State) (e : Exc) (slot : Nat) : List Byte :=
  recordBytes (trapInfo e.code e.cls e.detail slot) e.epc e.fpc e.addr e.pdl e.pdh
    (match e.writer with
     | some (l, h) => leBytes 8 l.toNat ++ leBytes 8 h.toNat
     | none => recordTail s.cur.lfm s.cur.lcore s.cur.source e.lane s.time)

/-- The lowest free trap slot from 1 to CAP - 1 (13 R253). -/
def Job.freeSlot (j : Job) : Option Nat := ((List.range j.cap).drop 1).find? (fun k => !j.slots.contains k)

/-- The split in focus with a new state. -/
def State.setSplit (s : State) (p : Split) : State := s.setCur (s.cur.putSplit p)

/-- Whether a wait is one of an instruction for logical cores; its limit runs from the instruction's issue (02 R27, 08 R165). -/
def Wait.onCores : Wait → Bool
  | .peer _ _ _ => true
  | .host _ => true
  | .members _ _ => true
  | _ => false

/-- Blocks the split in focus; a wait that already runs keeps its start (02 R42, 08 R165). -/
def State.block (s : State) (w : Wait) : State :=
  let since := match s.sp.st with
    | .blocked w' t => if w' = w ∨ (w'.onCores ∧ w.onCores) then t else s.time
    | _ => s.time
  { s.setSplit { s.sp with st := .blocked w since } with tick := s.tick + 1, limm := none }

/-- ctl.repc of an interrupted repeat: LEFT, DONE, ACT (03 R62, 04 R77). -/
def repcOf (n k : Nat) : W64 := BitVec.ofNat 64 ((n - k) % 2 ^ 32 + k % 2 ^ 31 * 2 ^ 32 + 2 ^ 63)

/-- A split whose next instruction does not consume ctl.repc.ACT. -/
def Split.unmark (p : Split) : Split := { p with fresh := false }

/-- The split in focus drops its repeat into ctl.repc, which no other split's next instruction then consumes (03 R62, 04 R77). -/
def State.saveRep (s : State) : State :=
  match s.sp.rep with
  | none => s
  | some r =>
    let t := s.setSplit { s.sp with rep := none }
    t.setCur { t.cur with repc := repcOf r.total r.done, splits := t.cur.splits.map Split.unmark }

/-- A sleeping WAIT or BBWAIT whose monitor a trap removed compares again (07 R147). -/
def Split.awake (p : Split) : Split :=
  match p.st with
  | .blocked .monitor _ => { p with st := .ready }
  | .blocked .phase _ => { p with st := .ready }
  | _ => p

/-- A group without its open region, whose split goes back to the ABEG (08 R158). -/
def Group.leaveRegion (g : Group) : Group :=
  match g.region with
  | some r => { g with region := none, splits := g.splits.map (fun p => if p.entry = r.split then { p with pc := r.pc } else p) }
  | none => g

/-- Handler entry of 13 R255 in the split in focus, its record already written: trapinfo, held splits by the handler mark,
the jump; the monitor and an open region go. -/
def State.enterHandler (s : State) (e : Exc) (slot : Nat) : State :=
  let s1 := s.saveRep
  let s2 := s1.setSplit { s1.sp with pc := s.cur.trapvec &&& 0x01FFFFFFFFFFFFFC#64, st := .ready, fresh := false }
  { s2.setCur { s2.cur with splits := s2.cur.splits.map Split.awake, trapinfo := BitVec.ofNat 64 (trapInfo e.code e.cls e.detail slot), handler := some (s.split, slot), held := (s1.cur.splits.map Split.entry).filter (· != s.split), monitor := none, region := none } with tick := s.tick + 1, limm := none }

/-- Whether a fault of the group in focus ends its launch: a sequencer, no handler entry, or a double fault (11 R212, 13 R255). -/
def State.fatal (s : State) : Bool :=
  s.cur.kind == .seq || (s.cur.trapvec &&& 0x01FFFFFFFFFFFFFC#64) == 0#64 || s.cur.handler.isSome

/-- Writes the record of a fault into its slot, which the split holds, and enters the handler; where the page of the record waits for
the host so does the split, its region discarded, a refusal ends the launch (08 R158, 13 R253, R255). -/
def State.takeIn (s : State) (e : Exc) (slot : Nat) : State :=
  match s.devPage (keyTrap s.cur.job slot) s.job.root s.job.queue (s.job.trapArea + 64 + 64 * slot) true with
  | .waits s1 => (s1.setCur s1.cur.leaveRegion).block (.record e slot)
  | .refused s1 _ => { s1.putJob (s.job.stop 1) with tick := s.tick + 1, limm := none }
  | .page p => (s.devPut p.pa (s.recordOf e slot)).enterHandler e slot

/-- Takes an exception in the split in focus: the launch ends, or the handler starts in the lowest free slot, or the split waits for a
slot, its region discarded, `again` being what it then takes (08 R158, 13 R253, R255). -/
def State.takeOr (s : State) (e : Exc) (again : Option Exc) : State :=
  if s.fatal then
    { s.endJob s.cur.job 1 (s.recordOf e 0) with tick := s.tick + 1, limm := none }
  else
    match s.job.freeSlot with
    | none => (s.setCur s.cur.leaveRegion).block (.slot again)
    | some slot => (s.putJob { s.job with slots := slot :: s.job.slots }).takeIn e slot

/-- Takes a stop fault. -/
def State.take (s : State) (e : Exc) : State := s.takeOr e (some e)

/-- Leaves a handler: the trap slot is freed, ctl.trapinfo is zero, the held splits are released (13 R253, R256). -/
def State.leaveHandler (s : State) : State :=
  match s.cur.handler with
  | none => s
  | some (_, slot) =>
    (s.putJob { s.job with slots := s.job.slots.erase slot }).setCur { s.cur with trapinfo := 0, handler := none, held := [] }

/-- A split none of whose lanes is on ends as at EXIT: its mask becomes empty (13 R256). -/
def endIfOff (off : W32) (p : Split) : Split := if p.mask &&& ~~~off = 0#32 then { p with mask := 0, st := .ready } else p

/-- The return from an exception: the slot freed, ctl.trapinfo zero, the lanes whose MASK bit is clear re-enabled, the held
splits released, the split at EPC, ctl.repc for its next instruction alone to consume; splits without a lane end (13 R256, 03 R61,
R62). -/
def State.resume (s : State) (epc : W64) : State :=
  let s1 := s.leaveHandler
  let s2 := (s1.setCur { s1.cur with splits := s1.cur.splits.map Split.unmark }).setSplit
    { s1.sp with pc := epc, st := .ready, rep := none, fresh := s.cur.repc.getLsbD 63 }
  let off := s2.cur.lfm.extractLsb' 0 32
  { s2.setCur { s2.cur with off := off, splits := s2.cur.splits.map (endIfOff off) } with tick := s.tick + 1, limm := none }

/-- The address of the executing instruction word: under a REP the word after it, under a LIMM the LIMM (04 R74, R77). -/
def State.fpc (s : State) : W64 := if s.sp.rep.isSome then s.sp.pc + 4#64 else s.sp.pc
/-- EPC of a fault of the executing instruction; inside a region the ABEG (08 R158). -/
def State.epc (s : State) : W64 :=
  match s.cur.region with
  | some r => if r.split = s.split then r.pc else s.sp.pc
  | none => s.sp.pc

/-- A precise stop fault of the executing instruction (13 R250). -/
def State.stopFault (s : State) (code detail : Nat) (addr : W64) (lane : Nat) : State :=
  s.take ⟨code, 1, detail, s.epc, s.fpc, addr, lane, s.cur.pdl, s.cur.pdh, none⟩

/-- ILLEGAL_OP with the word in DETAIL (04 R78). -/
def State.illegal (s : State) (word : W32) : State := s.stopFault 0x10 word.toNat 0#64 0xFF

/-- ENGINE_XLATE, ECC_UC and view reports due before the group's next instruction (13 R252). -/
def State.report' (s : State) (code detail : Nat) (addr : W64) : State :=
  s.setCur { s.cur with pend := s.cur.pend ++ [⟨3, code, detail, s.fpc, addr, s.split, s.cur.pdl, s.cur.pdh, 0#64, 0#64, s.cur.handler.isSome⟩] }

/-- The exception of a pending report (13 R251, R254). -/
def Pend.exc (p : Pend) (code : Nat) (epc : W64) : Exc :=
  ⟨code, p.cls, p.detail, epc, p.fpc, p.addr, if p.cls = 2 then p.detail % 32 else 0xFF, p.pdl, p.pdh,
    if p.code = 0x30 then some (p.wl, p.wh) else none⟩

/-- Delivers a report in the split in focus; of the pending reports those of `keep` stay, all of them while the split has to wait for a slot. -/
def State.deliver (s : State) (e : Exc) (keep : List Pend) : State :=
  let t := (s.setCur { s.cur with pend := keep }).takeOr e none
  match t.sp.st with
  | .blocked (.slot _) _ => t.setCur { t.cur with pend := s.cur.pend }
  | _ => t

/-- The RACE or DAB_SPILL_FULL report that JOIN, FENCE, BARA, BARW, BARM and EXIT deliver (09 R183, R187). -/
def State.raceDue (s : State) : Option Pend :=
  if s.cur.handler.isSome then none else
  match s.cur.pend.find? (fun p => p.code == 0x30) with
  | some p => some p
  | none => s.cur.pend.find? (fun p => p.code == 0x31)

/-- Delivers a due RACE or DAB_SPILL_FULL before the instruction, else goes on. -/
def State.atDelivery (s : State) (f : State → State) : State :=
  match s.raceDue with
  | some p => s.deliver (p.exc p.code s.epc) (s.cur.pend.erase p)
  | none => f s

/-! ## Completion of an instruction -/

/-- ctl.repc with ACT consumed (03 R62). -/
def repcDone (x : W64) : W64 := x &&& 0x7FFFFFFFFFFFFFFF#64

/-- Puts the split in focus where its instruction leaves it; a first instruction after ERET or restore has consumed
ctl.repc.ACT (03 R62). -/
def State.leaveAt (s : State) (p : Split) : State :=
  let g := s.cur.putSplit { p with st := .ready, fresh := false }
  { s with
    cur := { g with repc := if s.sp.fresh then repcDone g.repc else g.repc }
    tick := s.tick + 1
    limm := none }

/-- Moves the split in focus past the executing instruction; a REP goes to its next iteration (04 R74, R75). -/
def State.finish (s : State) : State :=
  let p := s.sp
  s.leaveAt (match p.rep with
    | some r => if r.done + 1 < r.total then { p with rep := some { r with done := r.done + 1 } }
        else { p with rep := none, pc := p.pc + 8#64 }
    | none => { p with pc := p.pc + (if s.limm.isSome then 8#64 else 4#64) })

/-- A first instruction after ERET or restore consumes ctl.repc.ACT (03 R62). -/
def State.consume (s : State) : State :=
  if s.sp.fresh then
    let t := s.setSplit { s.sp with fresh := false }
    t.setCur { t.cur with repc := repcDone t.cur.repc }
  else s

/-- Moves the split in focus to a target instead (04 R66). -/
def State.jump (s : State) (t : W64) : State := s.leaveAt { s.sp with pc := t }

/-- The page key of an access mask: 1 read, 2 write, 4 fetch (14 R270). -/
abbrev Miss := Nat × Nat

/-- Suspends the group in focus on failing pages: one request each, nothing performed; inside a region the split goes back to
the ABEG (06 R123, 04 R77, 08 R158). -/
def State.hold (s : State) (misses : List Miss) : State :=
  let s0 := s.saveRep
  let s1 := s0.setSplit { s0.sp with pc := s.epc, st := .ready, fresh := s.sp.rep.isSome || s.sp.fresh }
  let r := misses.foldl (fun (p : State × List Nat) m =>
    let q := p.1.request (m.1 / 2 ^ 16 * 2 ^ 16) s.job.root s.job.queue m.2 (.group s.cur.gid)
    (q.1, if p.2.contains q.2 then p.2 else p.2 ++ [q.2])) (s1, [])
  { r.1.setCur { r.1.cur with holds := r.2, holdSplit := s.split, holdEpc := s.epc, holdPc := s.fpc, region := none } with tick := s.tick + 1, limm := none }

/-! ## Who may execute what (04 R78, R79, 08 R156) -/

/-- The instructions of the sequencer's set in majors 0x30 to 0x3F (04 R79). -/
def seqSystem (i : Instr) : Bool :=
  match i.major with
  | 0x37 | 0x38 | 0x39 | 0x3A | 0x3B | 0x32 | 0x33 => true
  | 0x30 => match i with | .nop _ => true | .exit _ => true | .fence _ _ => true | _ => false
  | 0x34 => match i with | .bbarr _ _ _ => true | .bbwait _ _ _ => true | _ => false
  | 0x35 => match i with
    | .ckres _ _ _ _ => true | .ckpub _ _ _ _ => true | .ckacq _ _ _ _ => true | .ckrel _ _ _ _ => true
    | .wait _ _ _ => true | _ => false
  | _ => false

/-- Specials the sequencer may read: %die, %pkg, %cyc, %time (04 R79). -/
def seqSpecial (i : Instr) : Bool :=
  match i with
  | .movSpecialG _ _ c => c == 5#7 || c == 6#7 || c == 9#7 || c == 10#7
  | _ => true

/-- The sequencer's set (04 R79). -/
def seqAllows (i : Instr) : Bool :=
  (decide (0x20 ≤ i.major) && decide (i.major < 0x30) && seqSpecial i) || seqSystem i

/-- What may stand inside an open region: plain group loads and stores without LIMM or REP, NOP, and ACOM (08 R156). -/
def regionAllows (s : State) (i : Instr) : Bool :=
  s.limm.isNone && s.sp.rep.isNone &&
  match i with
  | .ldG _ _ _ _ _ => true | .stG _ _ _ _ _ => true | .nop _ => true | .acom _ _ => true | _ => false

/-- Whether a cask instruction names no logical core of a cluster, as a group's must (04 R70, 10 R202). -/
def noCaskCore (i : Instr) : Bool :=
  match i with
  | .ckres _ _ c _ => c == 0#3
  | .ckpub _ _ c _ => c == 0#3
  | .ckacq _ _ c _ => c == 0#3
  | .ckrel _ _ c _ => c == 0#3
  | _ => true

/-- The encoding-level rejections of an instruction in its context: fields, agent, region (04 R70, R78, 08 R158). -/
def State.admits (s : State) (i : Instr) : Bool :=
  i.fieldsOk && (if s.cur.kind = .seq then seqAllows i else i.major != 0x39 && noCaskCore i) &&
  (s.cur.region.isNone || regionAllows s i)

/-- Runs a lane form on active(M) (18 R303): ILLEGAL_OP and REGWIN first. -/
def laneForm (i : Instr) (f : W32 → State → State) (s : State) : Outcome State Fault Refusal :=
  .next (
    if !s.admits i then s.illegal (encode i)
    else if !s.cur.windowOk i then s.stopFault 0x11 0 0#64 0xFF
    else f (s.active i.guardOf) s)

/-- A lane form with a condition of its own that is ILLEGAL_OP: of two stop faults the lower code comes first (13 R252). -/
def laneFormIf (bad : Bool) (i : Instr) (f : W32 → State → State) (s : State) : Outcome State Fault Refusal :=
  if bad then .next (s.illegal (encode i)) else laneForm i f s

/-- Runs a group-wide form: ILLEGAL_OP first, nothing under a false guard (03 R52; a delivery point of 09 R187 under a false guard is
not issued and delivers nothing: log 43). -/
def groupForm (i : Instr) (f : State → State) (s : State) : Outcome State Fault Refusal :=
  .next (
    if !s.admits i then s.illegal (encode i)
    else if !s.gpGuard i.guardOf then s.finish
    else f s)

/-- A group-wide form with a condition of its own that is ILLEGAL_OP whatever the guard. -/
def groupFormIf (bad : Bool) (i : Instr) (f : State → State) (s : State) : Outcome State Fault Refusal :=
  if bad then .next (s.illegal (encode i)) else groupForm i f s

/-! ## Convergent instructions (02 R24) -/

/-- Whether every other live split of the group in focus is parked, none on the stack. -/
def State.othersParked (s : State) : Bool :=
  s.cur.stack.isEmpty && s.cur.splits.all (fun p => p.entry == s.split || p.st == .parked)
/-- Whether no parked split has a lower PC than the split in focus. -/
def State.lowestPc (s : State) : Bool :=
  s.cur.splits.all (fun p => decide (s.sp.pc.toNat ≤ p.pc.toNat))
/-- A pending report of one of the table entries `es` becomes one of entry `e`, which holds their lanes now. -/
def Pend.follow (es : List Nat) (e : Nat) (x : Pend) : Pend := if es.contains x.split then { x with split := e } else x

/-- The parked splits at the PC of the split in focus merge into it, their pending reports with them (02 R24). -/
def State.mergeParked (s : State) : State :=
  let same := s.cur.splits.filter (fun p => p.pc == s.sp.pc)
  let m := same.foldl (fun x p => x ||| p.mask) 0#32
  let e := same.foldl (fun x p => min x p.entry) s.split
  let own : Split := { s.sp with entry := e, mask := m, fresh := same.any Split.fresh, greedy := same.any Split.greedy }
  let keep := s.cur.splits.filter (fun p => p.pc != s.sp.pc)
  { s.setCur { s.cur with
      splits := keep ++ [own]
      pend := s.cur.pend.map (Pend.follow (same.map Split.entry) e) } with split := e }

/-- Runs a convergent instruction: the split parks until every live split is parked, then the lowest PC executes once. A split parks and
merges before its guard is looked at (log 43). -/
def convergentForm (i : Instr) (f : State → State) (s : State) : Outcome State Fault Refusal :=
  .next (
    if !s.admits i then s.illegal (encode i)
    else if s.othersParked && s.lowestPc then
      (if !s.mergeParked.gpGuard i.guardOf then s.mergeParked.finish else f s.mergeParked)
    else { s.setSplit { s.sp with st := .parked } with tick := s.tick + 1, limm := none })

/-- A convergent instruction with a condition of its own that is ILLEGAL_OP whatever the guard. -/
def convergentFormIf (bad : Bool) (i : Instr) (f : State → State) (s : State) : Outcome State Fault Refusal :=
  if bad then .next (s.illegal (encode i)) else convergentForm i f s

end Sys2Proof.Machine
end

