-- ==== Sys2Proof/Machine/Elements.lean ====
section
/-! DEFINITION. Tensor shape records, and the elements of which an engine operation is made (10 R196 to R200). -/
namespace Sys2Proof.Machine
open Host

/-- One element: what is read, or the fill written without a read, where it goes, its bytes and alignment, the lane and sequence
number of a reduction, or the row and unit of a box. -/
structure Elem where
  src : Option W64
  fill : Nat
  dst : W64
  n : Nat
  alignS : Bool
  lane : Nat
  sq : Nat
  deriving DecidableEq, Repr

/-! ## Tensor shape records (10 R199, R200) -/

/-- A field of `n` bytes of a record. -/
def recField (b : List Byte) (k n : Nat) : Nat := leNat ((b.drop k).take n)
/-- FMT bits 3:0. -/
def recFmt (b : List Byte) : Nat := recField b 8 1 % 16
def recRank (b : List Byte) : Nat := recField b 9 1
def recPad (b : List Byte) : Nat := recField b 10 1
def recExt (b : List Byte) (i : Nat) : Nat := recField b (12 + 4 * i) 4
/-- STRi, of dimensions 1 to 3. -/
def recStr (b : List Byte) (i : Nat) : Nat := if i = 0 then 0 else recField b (20 + 8 * i) 8
def recBox (b : List Byte) (i : Nat) : Nat := recField b (52 + 2 * i) 2
/-- Box index i of g[b+1]. -/
def boxIndex (k : W64) (i : Nat) : Nat := k.toNat / 2 ^ (16 * i) % 2 ^ 16
/-- Whether a format's elements move in blocks of 32. -/
def isGx (f : Nat) : Bool := decide (13 ≤ f)
/-- Whether a format's elements move in pairs. -/
def isNibble (f : Nat) : Bool := f == 9 || f == 12
/-- Elements of dimension 0 in a unit (10 R200). -/
def unitElems (f : Nat) : Nat := if isGx f then 32 else if isNibble f then 2 else 1
/-- Bytes of a unit. -/
def unitBytes (f : Nat) : Nat := if isGx f then gxSize f else if isNibble f then 1 else rowLen f 1
/-- Whether a format has a NaN (05 R90). -/
def hasNan (f : Nat) : Bool := decide (f ≤ 6) || isGx f
/-- The word PAD writes in a unit: zero or the canonical NaN (05 R90). -/
def padWord (b : List Byte) : Nat := if recPad b = 0 then 0 else if isGx (recFmt b) then 255 else matCnan (recFmt b)

/-- Box bytes, from the fields as read: RANK limited to 1 to 4, each BOX below it to 1 to 256 (10 R200). -/
def boxBytes (b : List Byte) : Nat :=
  let lim := fun i : Nat => min 256 (max 1 (recBox b i))
  let r := min 4 (max 1 (recRank b))
  rowLen (recFmt b) (lim 0) * ((List.range r).drop 1).foldl (fun x i => x * lim i) 1

/-- Validity of a record with a box index (10 R199, 19 R327). -/
def recOk (b : List Byte) (k : W64) : Bool :=
  let f := recFmt b
  let r := recRank b
  let eb := if isGx f then 1 else rowLen f 1
  decide (recField b 8 1 < 16) && decide (1 ≤ r) && decide (r ≤ 4) && decide (recPad b ≤ 1) && recField b 11 1 == 0 && recField b 60 4 == 0 &&
  (List.range 4).all (fun i =>
    if i < r then decide (1 ≤ recExt b i) && decide (1 ≤ recBox b i) && decide (recBox b i ≤ 256)
    else recExt b i == 0 && recStr b i == 0 && recBox b i == 0 && boxIndex k i == 0) &&
  (recPad b == 0 || hasNan f) && decide (boxBytes b ≤ 262144) &&
  recBox b 0 % unitElems f == 0 && recExt b 0 % unitElems f == 0 &&
  recField b 0 8 % eb == 0 && (List.range 4).all (fun i => recStr b i % eb == 0)

/-- The units of a box: dense offset, tensor address, whether inside (10 R200). -/
def boxUnits (b : List Byte) (k : W64) : List (Nat × W64 × Bool) :=
  let f := recFmt b
  let r := recRank b
  let box := fun i : Nat => if i < r then recBox b i else 1
  let units := recBox b 0 / unitElems f
  let rows := (List.range (box 3)).flatMap (fun c3 => (List.range (box 2)).flatMap (fun c2 => (List.range (box 1)).map (fun c1 => (c1, c2, c3))))
  rows.zipIdx.flatMap (fun p =>
    let t := fun i : Nat => boxIndex k i * box i + (match i with | 1 => p.1.1 | 2 => p.1.2.1 | _ => p.1.2.2)
    let inRow := (List.range r).all (fun i => i == 0 || decide (t i < recExt b i))
    let off := ((List.range r).drop 1).foldl (fun x i => x + t i * recStr b i) (recField b 0 8)
    (List.range units).map (fun u =>
      let t0 := boxIndex k 0 * recBox b 0 + u * unitElems f
      ((p.2 * units + u) * unitBytes f, BitVec.ofNat 64 (off + t0 / unitElems f * unitBytes f), inRow && decide (t0 < recExt b 0))))

/-- The pieces of `n` bytes that go from one address to another, as offset and length, each within an aligned word of 4 bytes on both sides
(07 R144). -/
def wordPieces (x y n : Nat) : List (Nat × Nat) :=
  let cuts := (List.range n).filter (fun i => i == 0 || (x + i) % 4 == 0 || (y + i) % 4 == 0)
  (cuts.zip (cuts.drop 1 ++ [n])).map (fun p => (p.1, p.2 - p.1))

/-- The elements of a CPYT, the pieces of its units; each carries the row of the box and the number of its unit (10 R200). -/
def boxElems (b : List Byte) (k loc : W64) (dir : Nat) : List Elem :=
  let f := recFmt b
  (boxUnits b k).flatMap (fun u =>
    let la := loc + BitVec.ofNat 64 u.1
    let i := u.1 / unitBytes f
    let row := i / (recBox b 0 / unitElems f)
    (wordPieces la.toNat u.2.1.toNat (unitBytes f)).flatMap (fun p =>
      let x := la + BitVec.ofNat 64 p.1
      let y := u.2.1 + BitVec.ofNat 64 p.1
      if dir = 0 then [⟨if u.2.2 then some y else none, padWord b / 2 ^ (8 * p.1) % 2 ^ (8 * p.2), x, p.2, true, row, i⟩]
      else if u.2.2 then [⟨some x, 0, y, p.2, true, row, i⟩] else []))

/-! ## The elements of an operation (10 R196 to R200) -/

/-- The elements of a lane of CPY or CPYR: pieces of `w` bytes, both addresses aligned to the lane's SIZE (10 R196, R197, log 20). -/
def laneElems (src dst : W64) (size w lane sq : Nat) : List Elem :=
  (List.range (size / w)).map (fun i => ⟨some (src + BitVec.ofNat 64 (i * w)), 0, dst + BitVec.ofNat 64 (i * w), w,
    src.toNat % size == 0 && dst.toNat % size == 0, lane, sq + i⟩)

/-- The elements of an operation, in a fixed order; none of a CPYT whose record has not been read. -/
def EngOp.elems (o : EngOp) : List Elem :=
  match o.kind with
  | .copy ps size => ps.flatMap (fun p => laneElems p.1 p.2 size 4 0 0)
  | .reduce ps ls size _ rtype => (ps.zip ls).flatMap (fun p => laneElems p.1.1 p.1.2 size (groupWidth rtype) p.2.1 p.2.2)
  | .box b loc k dir => boxElems b k loc dir
  | _ => []

end Sys2Proof.Machine
end

