-- ==== Sys2Proof/Machine/Access.lean ====
section
/-! DEFINITION. Where an access goes: windows, checks in the order of 06 R115, targets, group-address loads, race filter,
deferred adds, and the lane and group forms of a memory access (06 R107 to R123, 08 R148 to R166, 09 R180 to R188). -/
namespace Sys2Proof.Machine
open Host

/-- Kinds of access (20 R352, 22 R396, 08 R151). -/
inductive Acc where
  | load | loadAcq | loadInv | store | storeRel | atomic | atomicF | monitor
  deriving DecidableEq, Repr

def Acc.isStore : Acc → Bool | .store => true | .storeRel => true | _ => false
def Acc.isLoad : Acc → Bool | .load => true | .loadAcq => true | .loadInv => true | _ => false
def Acc.isAtomic : Acc → Bool | .atomic => true | .atomicF => true | .monitor => true | _ => false
def Acc.plain : Acc → Bool | .load => true | .store => true | _ => false
/-- Whether the leaf must carry W (06 R122); WAIT only reads. -/
def Acc.needsW : Acc → Bool | .store => true | .storeRel => true | .atomic => true | .atomicF => true | _ => false

/-- What one checked access reaches. -/
inductive Target where
  /-- Memory at a location; `scratch` for scratchpads and views; attribute and address kept for the race filter and order. -/
  | mem (loc attr : Nat) (scratch : Bool)
  /-- A device register of this package at an MMIO offset (06 R112). -/
  | mmio (pa : Nat)
  /-- A group-address reduction: group, op, type, offset (06 R107). -/
  | reduction (grp op ty off : Nat)
  /-- A lane-class condition, or a stop fault when the code is below 0x20 (13 R248). -/
  | bad (code : Nat)
  /-- A logical core that is not held now (06 R109). -/
  | waits (lcore : Nat)
  /-- A failed translation: page address and access mask (06 R123). -/
  | miss (va access : Nat)
  /-- A package that is absent or whose request failed (14 R272), or uncorrectable data of global memory (13 R252). -/
  | dead
  /-- Uncorrectable data of a scratchpad (13 R252). -/
  | upset
  deriving DecidableEq, Repr

/-- The current segment's fold position of a strand: 2 * spawns since the last JOIN (09 R178). -/
def Group.seg (g : Group) : Nat := 2 * g.spawned
/-- A size of the arena header, by its byte (09 R170). The header is read where the size is used, and a size whose word no longer
translates, or lies in a package that does not answer, is zero (log 44). -/
def State.arenaSize (s : State) (j : Job) (k : Nat) : Nat :=
  if j.arena = 0 then 0 else
  match s.translate j.root (j.arena + k) with
  | some p => if s.farFails p.pa then 0 else s.devNat p.pa 8
  | none => 0

/-- The start of a device-owned region of the arena, by the byte of its size in the header (09 R170, R171). -/
def State.ownedStart (s : State) (j : Job) (k : Nat) : Nat :=
  ([16, 24, 32, 40, 48].filter (fun i => decide (i < k))).foldl (fun x i => x + s.arenaSize j i) (j.arena + 64)

/-- Whether a view's address lies in the own window. -/
def View.inWindow (v : View) : Bool := v.va.toNat / 2 ^ 48 == 0x1FF
/-- The view of the current segment of a group that an access at an address goes to, the nearest that begins at or below it: past S of the
own window every address, in the view region those of the view's place, its SIZE in whole blocks of 64 bytes. From the SIZE on the access
is one past the view (09 R176, 21 R385, log 17). -/
def Group.viewAt (g : Group) (va : Nat) : Option View :=
  let own := va / 2 ^ 44 == 0x1FF0
  (g.views.filter (fun w => w.ord == g.seg && w.va != 0#64 && w.inWindow == own && decide (w.va.toNat ≤ va) &&
    (own || decide (va < w.va.toNat + roundUp w.size 64)))).foldl (fun x w => match x with
    | none => some w
    | some y => if y.va.toNat < w.va.toNat then some w else some y) none

/-- The alignment fault of an access kind (06 R115). -/
def Acc.alignCode (k : Acc) : Nat := if k.isAtomic then 0x17 else 0x22
/-- The rejection by space of an access kind (06 R110, R112, 08 R151). -/
def Acc.spaceCode (k : Acc) : Nat := if k.isAtomic then 0x15 else 0x23

/-- What an access to a scratchpad or to a view meets before its place is looked at (06 R108, R114, 08 R151, 21 R385). -/
def Acc.spadCode (k : Acc) (off size : Nat) : Option Nat :=
  if k = .loadInv then some 0x23 else if k = .atomicF then some 0x16 else if off % size != 0 then some k.alignCode else none

/-- An access through a view address: past its SIZE, or inside the view, where spoilt bytes are what they are in a scratchpad, or in global
memory for a view of the view region (13 R252, 21 R385). -/
def State.viewTarget (s : State) (k : Acc) (w : View) (va size : Nat) : Target :=
  let loc := viewLoc w.key (va - w.va.toNat)
  if w.va.toNat + w.size < va + size then .bad 0x21
  else if w.inWindow && (k.isLoad || k.isAtomic) && s.poisoned loc size then .upset
  else if !w.inWindow && k.isLoad && s.poisoned loc size then .dead
  else .mem loc 0 true

/-- An access inside a scratchpad of a team, or inside a view of the accessor (06 R108, R114, 02 R32). A task's own-window access outside
its views meets alignment before R32's LANE_WINDOW (log 15). -/
def State.scratchTarget (s : State) (k : Acc) (va off size job team bytes : Nat) (own : Bool) : Target :=
  match k.spadCode off size with
  | some c => .bad c
  | none =>
    if own && s.cur.kind == .task || decide (bytes < off + size) then
      match (if own then s.cur.viewAt va else none) with
      | some w => s.viewTarget k w va size
      | none => .bad (if own && s.cur.kind == .task then 0x23 else 0x21)
    else if (k.isLoad || k.isAtomic) && s.poisoned (scratchLoc job team off) size then .upset
    else .mem (scratchLoc job team off) 0 true

/-- The remap entry of a logical core of a job (02 R27). -/
def Job.lcoreOf (j : Job) (lc : Nat) : LCore := (look j.lcores lc).getD ⟨none, none, 0⟩
/-- Whether every team assigned to a logical core has exited (06 R109): none holds it and no later one remains. -/
def Job.lcoreDone (j : Job) (lc : Nat) : Bool :=
  (j.lcoreOf lc).team.isNone && decide (j.teamCount ≤ lc + j.logical * (j.lcoreOf lc).rounds)

/-- The peer window (06 R109). An access beyond S of a core that is parked waits, its range is checked once the core is resident: the model's
choice (log 15). -/
def State.peerTarget (s : State) (k : Acc) (va size : Nat) : Target :=
  let lc := va / 2 ^ 32 % 2 ^ 12
  let off := va % 2 ^ 19
  let l := s.job.lcoreOf lc
  if va / 2 ^ 19 % 2 ^ 13 != 0 || decide (s.job.logical ≤ lc) then .bad 0x23
  else if s.cur.kind == .root && s.cur.lcore == lc then
    s.scratchTarget k (0x1FF * 2 ^ 48 + off) off size s.cur.job s.cur.team s.team.bytes true
  else if s.job.lcoreDone lc then .bad 0x23
  else match l.team, l.core with
    | some t, some _ => s.scratchTarget k va off size s.cur.job t (s.teamOf s.cur.job t).bytes false
    | _, _ => match k.spadCode off size with | some c => .bad c | none => .waits lc

/-- Whether an op and type code pair is legal for a group load of `size` bytes (06 R110). -/
def groupLegal (op ty size : Nat) : Bool :=
  decide (op < 6) && decide (ty < 7) && (decide (op < 3) || ty == 3 || ty == 4 || ty == 6) && size == groupWidth ty

/-- What lies at the home of a translated address: a device register, memory, or what a load finds uncorrectable or a failed request
(06 R113, 13 R252, 14 R268, R272). -/
def State.homeTarget (s : State) (k : Acc) (p : Page) (size : Nat) : Target :=
  if s.isMmio p.pa then .mmio p.pa
  else if s.farFails p.pa || (k.isLoad && s.poisoned p.pa size) then .dead
  else .mem p.pa p.attr false

/-- An address that is translated: its page, or what its translation comes to (06 R122, R123). -/
def State.walked (s : State) (k : Acc) (va : Nat) (f : Page → Target) : Target :=
  match s.translate s.job.root va with
  | none => .miss va (if k.needsW then 2 else 1)
  | some p => if k.needsW && !p.w then .miss va 2 else f p

/-- The window region (06 R107). -/
def State.windowTarget (s : State) (k : Acc) (va size : Nat) : Target :=
  match va / 2 ^ 44 % 16 with
  | 0 =>
    if va / 2 ^ 19 % 2 ^ 25 != 0 then .bad 0x23
    else if s.cur.kind == .seq then
      (if k = .monitor then .bad 0x15 else
       let l := s.job.lcoreOf (8 * s.cur.grp)
       match l.team, l.core with
       | some t, some _ => s.scratchTarget k va (va % 2 ^ 19) size s.cur.job t (s.teamOf s.cur.job t).bytes false
       | _, _ => if s.job.lcoreDone (8 * s.cur.grp) then .bad 0x23 else
         match k.spadCode (va % 2 ^ 19) size with | some c => .bad c | none => .waits (8 * s.cur.grp))
    else s.scratchTarget k va (va % 2 ^ 19) size s.cur.job s.cur.team s.team.bytes true
  | 1 => s.peerTarget k va size
  | 2 =>
    if va / 2 ^ 19 % 32 != 0 then .bad 0x23
    else if k.isAtomic then .bad 0x15
    else if k.isStore || k = .loadInv then .bad 0x23
    else
      let grp := va / 2 ^ 32 % 2 ^ 12
      let op := va / 2 ^ 28 % 16
      let ty := va / 2 ^ 24 % 16
      if decide (s.job.groupTable.length ≤ grp) || !groupLegal op ty size then .bad 0x23
      else if va % size != 0 then .bad 0x22 else .reduction grp op ty (va % 2 ^ 19)
  | 3 => if va / 2 ^ 25 % 2 ^ 7 != 0 then .bad 0x23 else .bad k.spaceCode
  | 4 =>
    if k.isAtomic then .bad 0x15
    else if !k.plain then .bad 0x23
    else if (size != 4 && size != 8) || va % size != 0 then .bad 0x22
    else s.walked k va (fun p => s.homeTarget k p size)
  | _ => .bad 0x23

/-- An ordinary address (06 R107, R113, R119, R122, 14 R272); one of a view in the view region is translated too, and reaches the view (21
R385). -/
def State.ordinaryTarget (s : State) (k : Acc) (va size : Nat) : Target :=
  match s.cur.viewAt va with
  | some w =>
    (match k.spadCode va size, s.viewTarget k w va size with
     | some c, _ => .bad c
     | none, .bad c => .bad c
     | none, t => s.walked k va (fun p => if s.farFails p.pa then .dead else t))
  | none =>
    if va % size != 0 then .bad k.alignCode else
    s.walked k va (fun p => if k.isAtomic && decide (2 ≤ p.attr) then .bad 0x15 else s.homeTarget k p size)

/-- The target of one access of `size` bytes at an address, by the first failing check of 06 R115. -/
def State.target (s : State) (k : Acc) (ea : W64) (size : Nat) : Target :=
  let va := ea.toNat
  if va / 2 ^ 57 != 0 then .bad 0x23
  else if va / 2 ^ 48 = 0x1FF then s.windowTarget k va size
  else s.ordinaryTarget k va size

/-! ## Members of a group-address load (08 R161 to R165) -/

/-- What reading one member gives: the element, a failed read, or an absent core. -/
inductive Member where
  | elem (x : Nat)
  | failed
  | absent
  deriving DecidableEq, Repr

/-- Reads member `lc` at an offset (08 R161, R165). -/
def State.member (s : State) (lc off size : Nat) : Member :=
  let l := s.job.lcoreOf lc
  if s.job.lcoreDone lc then .failed
  else match l.team, l.core with
    | some t, some _ =>
      let loc := scratchLoc s.cur.job t off
      if decide ((s.teamOf s.cur.job t).bytes < off + size) || s.poisoned loc size then .failed else .elem (s.natAt loc size)
    | _, _ => .absent

/-- What reading a member of a group-address load gives: the element of the address's type at its offset. -/
def State.readMember (s : State) (r : MemberRef) : Member :=
  s.member r.lcore (r.addr.toNat % 2 ^ 19) (groupWidth (r.addr.toNat / 2 ^ 24 % 16))

/-! ## The race filter (09 R185 to R188) -/

/-- Decodes one rank of a pedigree from its bits, given as a number of `n` bits: value and bits left (02 R37, R38). -/
def pedRank (root : Bool) (x n : Nat) : Option (Nat × Nat) :=
  if n = 0 then none
  else if !x.testBit (n - 1) then (if n < 3 then none else some (bitsOf x (n - 2) (n - 3), n - 3))
  else if !x.testBit (n - 2) then (if n < 7 then none else some (4 + bitsOf x (n - 3) (n - 7), n - 7))
  else if !x.testBit (n - 3) then (if n < 13 then none else some (36 + bitsOf x (n - 4) (n - 13), n - 13))
  else
    let w := if root then 32 else 20
    if n < 3 + w then none else some (1060 + bitsOf x (n - 4) (n - 3 - w), n - 3 - w)

/-- The elements of a pedigree's bits, by fuel. -/
def pedElems : Nat → Bool → Nat → Nat → List (Nat × Nat)
  | 0, _, _, _ => []
  | f + 1, root, x, n =>
    match pedRank root x n with
    | none => []
    | some (a, n1) =>
      match pedRank root x n1 with
      | none => []
      | some (b, n2) => (a, b) :: pedElems f false x n2

/-- The elements of %pdh:%pdl (02 R37). -/
def pedigree (pdh pdl : W64) : List (Nat × Nat) :=
  let l := (pdh >>> 56).toNat
  let all := pdh.toNat % 2 ^ 56 * 2 ^ 64 + pdl.toNat
  pedElems 21 true (all / 2 ^ (120 - l)) l

/-- The code of one rank: bits and value (02 R37, R38); `none` past the largest value. -/
def rankCode (root : Bool) (v : Nat) : Option (Nat × Nat) :=
  if v < 4 then some (3, v)
  else if v < 36 then some (7, 2 ^ 6 + (v - 4))
  else if v < 1060 then some (13, 6 * 2 ^ 10 + (v - 36))
  else if root then (if v < 1060 + 2 ^ 32 then some (35, 7 * 2 ^ 32 + (v - 1060)) else none)
  else if v < 1060 + 2 ^ 20 then some (23, 7 * 2 ^ 20 + (v - 1060)) else none

/-- The bits of a list of elements: length and number. -/
def pedBits : Bool → List (Nat × Nat) → Option (Nat × Nat)
  | _, [] => some (0, 0)
  | root, (a, b) :: l =>
    match rankCode root a, rankCode root b, pedBits false l with
    | some (n, x), some (m, y), some (k, z) => some (n + m + k, (x * 2 ^ m + y) * 2 ^ k + z)
    | _, _, _ => none

/-- The %pdh:%pdl of a list of elements; `none` where R40 fails (02 R37, R40). -/
def pedEncode (l : List (Nat × Nat)) : Option (W64 × W64) :=
  match pedBits true l with
  | some (n, x) =>
    if 120 < n then none else
    let y := x * 2 ^ (120 - n) + n * 2 ^ 120
    some (BitVec.ofNat 64 (y / 2 ^ 64), BitVec.ofNat 64 y)
  | none => none

/-- Whether two strands are logically parallel (02 R41), by their elements after the root. -/
def parallelFrom : List (Nat × Nat) → List (Nat × Nat) → Bool
  | [], _ => false
  | _, [] => false
  | a :: as, b :: bs =>
    if a = b then parallelFrom as bs
    else
      let aFirst := decide (a.1 < b.1) || (a.1 == b.1 && decide (a.2 < b.2))
      a.1 == b.1 && !(if aFirst then as else bs).isEmpty

/-- Logical parallelism of two pedigrees (02 R41). A sequencer has the pedigree zero, which is parallel to none (log 45). -/
def parallel (ah al bh bl : W64) : Bool :=
  match pedigree ah al, pedigree bh bl with
  | a :: as, b :: bs => if a = b then parallelFrom as bs else true
  | _, _ => false

/-- Whether an access is checked: CHK, plain, ordinary attribute 0 in this package's HBM, no view (09 R185). -/
def State.checked (s : State) (k : Acc) (t : Target) : Bool :=
  match t with
  | .mem loc 0 false => s.job.chk && k.plain && loc / 2 ^ 44 == s.pkg && decide (loc % 2 ^ 44 < s.dies * 0x1200000000)
  | _ => false

/-- Whether a device-owned region has been stored to since the launch was taken up. The device's records stand in the job here and not
in the arena's bytes, so such a store is a program's, and the records it altered hold any value (09 R171, log 41). -/
def State.spoilt (s : State) (j : Job) (k : Nat) : Bool :=
  let n := s.arenaSize j k
  let lo := s.ownedStart j k
  n != 0 && (List.range ((lo + n - 1) / 2 ^ 16 - lo / 2 ^ 16 + 1)).any (fun i =>
    let a := max lo ((lo / 2 ^ 16 + i) * 2 ^ 16)
    let b := min (lo + n) ((lo / 2 ^ 16 + i + 1) * 2 ^ 16)
    match s.translate j.root a with
    | some p => s.written j.mark p.pa (b - a)
    | none => false)

/-- The recorded writer of a location's granule that is parallel to the strand (09 R186). -/
def State.rival (s : State) (loc : Nat) : Option (W64 × W64) :=
  match look s.job.races (loc / 8) with
  | some (h, l) => if parallel h l s.cur.pdh s.cur.pdl then some (h, l) else none
  | none => none

/-- Queues RACE, or counts a further race of the group (09 R187). -/
def State.race (s : State) (store : Bool) (loc : Nat) (addr : W64) (w : W64 × W64) : State :=
  if s.cur.pend.any (fun p => p.code == 0x30) then
    s.setCur { s.cur with pend := s.cur.pend.map (fun p =>
      if p.code = 0x30 then { p with detail := p.detail % 2 + 2 * min 65535 (p.detail / 2 + 1) } else p) }
  else
    s.setCur { s.cur with pend := s.cur.pend ++
      [⟨3, 0x30, if store then 1 else 0, s.fpc, BitVec.ofNat 64 (addr.toNat - loc % 8), s.split, s.cur.pdl, s.cur.pdh, w.2, w.1, s.cur.handler.isSome⟩] }

/-- Queues DAB_SPILL_FULL (09 R183, R186) and marks the launch to end with FAULT. -/
def State.spillFull (s : State) (detail : Nat) (addr : W64) : State :=
  let s1 := s.report' 0x31 detail addr
  s1.putJob { s1.job with feat := true }

/-- Whether `n` entries of a job beyond a full arena region have room on the chip: of any capacity, a choice of the device (09 R183, log 1). -/
def State.onChip (s : State) (job n : Nat) : Bool := s.pick (2 ^ 50 + job * 2 ^ 20 + n) 2 == 0

/-- Records the writer of a granule in the arena or on the chip (09 R183, R186). -/
def State.recordWriter (s : State) (loc : Nat) (addr : W64) : State :=
  let j := s.job
  if (look j.races (loc / 8)).isNone && decide (s.arenaSize j 32 < 32 * (j.races.length + 1)) && !s.onChip j.id j.races.length then s.spillFull 1 addr
  else s.putJob { j with races := put j.races (loc / 8) (s.cur.pdh, s.cur.pdl) }

/-! ## Stores of program accesses -/

/-- A checked store of at most 8 bytes: performed and recorded, or discarded with RACE (09 R186). -/
def State.storeGranule (s : State) (loc : Nat) (addr : W64) (bs : List Byte) : State :=
  match s.rival loc with
  | some w => s.race true loc addr w
  | none => (s.store loc bs).recordWriter loc addr

/-- Performs a program store at a target: the race filter first, granule by granule, so that of 16 bytes two granules may race and count
as two (09 R186, R187, 06 R119, log 45); MMIO stores act on the device (12 R238). -/
def State.storeTo (s : State) (k : Acc) (t : Target) (addr : W64) (bs : List Byte) : State :=
  match t with
  | .mem loc _ _ =>
    if s.checked k t then
      (if bs.length ≤ 8 then s.storeGranule loc addr bs
       else (s.storeGranule loc addr (bs.take 8)).storeGranule (loc + 8) (addr + 8#64) (bs.drop 8))
    else s.store loc bs
  | .mmio pa => s.mmioWrite (mmioOff pa) bs.length (leNat bs)
  | _ => s

/-- The race check of a load's granule (09 R186). -/
def State.loadGranule (s : State) (loc : Nat) (addr : W64) : State :=
  match s.rival loc with
  | some w => s.race false loc addr w
  | none => s

/-- What LD.INV may return: a value held since the launch started, of 16 bytes each half its own (07 R140, 06 R119). -/
def State.invAt (s : State) (loc size : Nat) : Nat :=
  if size ≤ 8 then leNat (s.someHeld s.job.mark loc size)
  else leNat (s.someHeld s.job.mark loc 8 ++ s.someHeld s.job.mark (loc + 8) 8)

/-- The value a program load reads at a target, `red` for a group-address one, and the state after its race check (20 R354). -/
def State.loadFrom (s : State) (k : Acc) (t : Target) (addr : W64) (size red : Nat) : State × Nat :=
  match t with
  | .mem loc attr _ =>
    let x := if k = .loadInv && decide (attr < 2) then s.invAt loc size else s.natAt loc size
    if s.checked k t then
      (if size ≤ 8 then s.loadGranule loc addr else (s.loadGranule loc addr).loadGranule (loc + 8) (addr + 8#64), x)
    else (s, x)
  | .mmio pa => (s, s.mmioRead (mmioOff pa) size)
  | .reduction _ _ _ _ => (s, red)
  | _ => (s, 0)

/-! ## The gate of an instruction's accesses (06 R115, R123, 08 R152, R165) -/

/-- One lane's access: the lane, its address, its target. -/
structure LaneAcc where
  lane : Nat
  addr : W64
  tgt : Target
  deriving DecidableEq, Repr

/-- GRP_ABSENT or GRP_FAULT DETAIL (13 R248). -/
def grpDetail (lane pos lc : Nat) : Nat := lane + pos % 2 ^ 10 * 2 ^ 5 + lc * 2 ^ 15

/-- The instruction after the one in execution. -/
def State.nextPc (s : State) : W64 := s.sp.pc + (if s.limm.isSome || s.sp.rep.isSome then 8#64 else 4#64)

/-- The record of uncorrectable contents that no instruction of a strand has met: EPC and FPC are not stated (13 R252, R254, log 50). -/
def State.upsetRecord (s : State) (detail : Nat) (g : Group) (source : Nat) : List Byte :=
  recordBytes (trapInfo 0x33 3 detail 0) (Config.anyValue s.tick 0) (Config.anyValue s.tick 1) 0#64 g.pdl g.pdh
    (recordTail g.lfm g.lcore source 0xFF s.time)

/-- An access of the group in focus finds uncorrectable data in a scratchpad: the launch ends (13 R252, log 50). -/
def State.spadUpset (s : State) (addr : W64) : State :=
  { s.endJob s.cur.job 1 (recordBytes (trapInfo 0x33 3 1 0) s.nextPc s.fpc addr s.cur.pdl s.cur.pdh
      (recordTail s.cur.lfm s.cur.lcore s.cur.source 0xFF s.time)) with tick := s.tick + 1, limm := none }

/-- What keeps an instruction's accesses from being performed, if anything: the hold, the lowest lane's stop fault, a peer's core that
is not there, uncorrectable data of a scratchpad (08 R152, 06 R109, 13 R252). -/
def State.gate (s : State) (l : List LaneAcc) : Option State :=
  let misses := l.filterMap (fun a => match a.tgt with | .miss va m => some (va, m) | _ => none)
  if !misses.isEmpty then some (s.hold misses) else
  match l.find? (fun a => match a.tgt with | .bad c => decide (c < 0x20) | _ => false) with
  | some a => some (s.stopFault (match a.tgt with | .bad c => c | _ => 0) a.lane a.addr a.lane)
  | none =>
    match l.find? (fun a => match a.tgt with | .waits _ => true | _ => false) with
    | some a => some (s.block (.peer (match a.tgt with | .waits c => c | _ => 0) a.lane a.addr))
    | none => (l.find? (fun a => a.tgt == .upset)).map (fun a => s.spadUpset a.addr)

/-- The members that the group-address loads of an instruction read, by lane and position (08 R161). -/
def State.memberRefs (s : State) (l : List LaneAcc) : List MemberRef :=
  l.flatMap (fun a => match a.tgt with
    | .reduction grp _ _ _ => (s.job.groupTable.getD grp []).zipIdx.map (fun p => ⟨a.lane, p.2, p.1, a.addr⟩)
    | _ => [])

/-- The reads a group-address load has already made in the split in focus (07 R145). -/
def State.kept (s : State) : List (MemberRef × Option Nat) :=
  match s.sp.st with | .blocked (.members got _) _ => got | _ => []

/-- The members of a list not read yet. -/
def unread (got : List (MemberRef × Option Nat)) (l : List MemberRef) : List MemberRef := l.filter (fun r => got.all (fun g => g.1 != r))

/-- The reads of members made so far and some more: of those that are there now all, or one (07 R145, log 1). -/
def State.readSome (s : State) (got : List (MemberRef × Option Nat)) (l : List MemberRef) : List (MemberRef × Option Nat) :=
  let here := (unread got l).filterMap (fun r => match s.readMember r with
    | .elem x => some (r, some x)
    | .failed => some (r, none)
    | .absent => none)
  let k := s.pick (2 ^ 36) (here.length + 1)
  got ++ (if k = 0 then here else (here.drop (k - 1)).take 1)

/-- The first member of a list whose read failed. -/
def failedRef (got : List (MemberRef × Option Nat)) (l : List MemberRef) : Option MemberRef :=
  l.find? (fun r => got.any (fun g => g.1 == r && g.2.isNone))
/-- Of the members read so far the lowest lane's first whose read failed (08 R165). -/
def lowestFailed (got : List (MemberRef × Option Nat)) : Option MemberRef :=
  ((got.filter (fun g => g.2.isNone)).map Prod.fst).foldl (fun x r => match x with
    | none => some r
    | some y => if r.lane < y.lane ∨ (r.lane = y.lane ∧ r.pos < y.pos) then some r else some y) none

/-- The element a member gave. -/
def elemOf (got : List (MemberRef × Option Nat)) (r : MemberRef) : Nat :=
  (((got.find? (fun g => g.1 == r)).bind Prod.snd)).getD 0

/-- Reads the members of an instruction's group-address loads: the elements once all are read, else the state that waits, or GRP_FAULT
where a read failed (07 R145, 08 R165). -/
def State.gather (s : State) (l : List LaneAcc) : Except State (List (MemberRef × Option Nat)) :=
  let all := s.memberRefs l
  let got := s.readSome s.kept all
  if !(unread got all).isEmpty then .error (s.block (.members got (unread got all)))
  else match failedRef got all with
    | some r => .error (s.stopFault 0x1A (grpDetail r.lane r.pos r.lcore) r.addr r.lane)
    | none => .ok got

/-- The reduction of one lane's members, combined by the tree of their positions (08 R162). -/
def State.reduced (s : State) (got : List (MemberRef × Option Nat)) (a : LaneAcc) : Nat :=
  match a.tgt with
  | .reduction _ op ty _ => groupTree op ty ((s.memberRefs [a]).map (fun r => (r.lcore, elemOf got r)))
  | _ => 0

/-- Records the lane faults of an instruction in ascending lane order: ctl.lfm, the lanes off, one pending report (03 R61, 13 R251). -/
def State.laneFaults (s : State) (l : List LaneAcc) : State :=
  l.foldl (fun s a => match a.tgt with
    | .bad c =>
      s.setCur { s.cur with
        lfm := lfmRecord s.cur.lfm a.lane (c - 0x20)
        off := s.cur.off ||| BitVec.ofNat 32 (2 ^ a.lane)
        pend := s.cur.pend ++ [⟨2, c, a.lane, s.fpc, a.addr, s.split, s.cur.pdl, s.cur.pdh, 0#64, 0#64, s.cur.handler.isSome⟩] }
    | _ => s) s

/-- The lanes a bad or dead access leaves out of the destination write; a dead lane is written with zero. -/
def LaneAcc.performed (a : LaneAcc) : Bool := match a.tgt with | .bad _ => false | _ => true
def LaneAcc.isDead (a : LaneAcc) : Bool := match a.tgt with | .dead => true | _ => false

/-- The record of a store or RED to another package that is lost: the launch ends with FAULT (14 R272). -/
def State.lostStore (s : State) (addr : W64) : State :=
  s.endJob s.cur.job 1 (recordBytes (trapInfo 0x33 3 3 0) 0#64 s.fpc addr s.cur.pdl s.cur.pdh
    (recordTail s.cur.lfm s.cur.lcore s.cur.source 0xFF s.time))

/-- The part of a range of addresses that lies in `n` bytes at an address: its offset there and its length, nothing where they do not
meet. -/
def clip (r : Nat × Nat) (base n : Nat) : List (Nat × Nat) :=
  let lo := max r.1 base
  let hi := min (r.1 + r.2) (base + n)
  if lo < hi then [(lo - base, hi - lo)] else []

/-- The scratchpad locations, as starts and lengths, that a range of addresses covers for an engine operation: the scratchpad of its
team in the own window, those of the teams that hold logical cores in the peer window, and views in the own window (07 R143, R144). -/
def State.spadRanges (s : State) (o : EngOp) (r : Nat × Nat) : List (Nat × Nat) :=
  let spad := fun (t base : Nat) => (clip r base (2 ^ 19)).map (fun x => (scratchLoc o.job t x.1, x.2))
  let vs := ((s.groupOf o.gid).map (fun g => g.views.filter (fun w => w.ord == g.seg && w.inWindow))).getD []
  (if o.task then [] else spad o.team (0x1FF0 * 2 ^ 44)) ++
  ((look s.jobs o.job).getD Job.blank).lcores.flatMap (fun p => (p.2.team.map (fun t => spad t (0x1FF1 * 2 ^ 44 + p.1 * 2 ^ 32))).getD []) ++
  vs.flatMap (fun w => (clip r w.va.toNat w.size).map (fun x => (viewLoc w.key x.1, x.2)))

/-- Whether an engine operation may hold up the stores of the group in focus: its team's, a task's own; a sequencer is of no team
(07 R144). -/
def State.stalledBy (s : State) (o : EngOp) : Bool :=
  s.cur.kind != .seq && o.job == s.cur.job && o.team == s.cur.team && (o.gid == s.cur.gid || (s.cur.kind == .root && !o.task))

/-- Whether a range of addresses covers, for an engine operation, some of `n` bytes of scratchpad. -/
def State.covers (s : State) (o : EngOp) (loc n : Nat) (r : Nat × Nat) : Bool :=
  (s.spadRanges o r).any (fun x => decide (loc < x.1 + x.2) && decide (x.1 < loc + n))
/-- Whether an engine operation whose read footprint covers some of `n` bytes of scratchpad has still to read them: until it has performed
each element that reads any of them; bytes that no element reads it has read once it arrives (07 R144). -/
def State.stillReads (s : State) (o : EngOp) (loc n : Nat) : Bool :=
  let l := o.elems.zipIdx.filter (fun p => (p.1.src.map (fun a => s.covers o loc n (a.toNat, p.1.n))).getD false)
  o.reads.any (s.covers o loc n) && (l.isEmpty || l.any (fun p => !o.early.contains p.2))

/-- The footprint stall of a store or atomic to scratchpad: the wait for the operation that still reads the place (07 R144). -/
def State.stallOn (s : State) (l : List LaneAcc) (size : Nat) : Option Wait :=
  l.findSome? (fun a => match a.tgt with
    | .mem loc _ true => (s.ops.find? (fun o => s.stalledBy o && s.stillReads o loc size)).map (fun o => .stall o.id loc size)
    | _ => none)

/-- The checked accesses of the lanes of a mask. -/
def State.laneAccs (s : State) (k : Acc) (mask : W32) (size : Nat) (addr : Nat → W64) : List LaneAcc :=
  (lanesOfMask mask).map (fun l => ⟨l, addr l, s.target k (addr l) size⟩)

/-- Reads of the lanes in ascending order: the states after the race checks, the values by lane. -/
def State.readLanes (s : State) (k : Acc) (size : Nat) (got : List (MemberRef × Option Nat)) (l : List LaneAcc) :
    State × List (Nat × Nat) :=
  l.foldl (fun p a => if a.performed then
      let r := p.1.loadFrom k a.tgt a.addr size (s.reduced got a)
      (r.1, p.2 ++ [(a.lane, r.2)])
    else p) (s, [])

/-- A lane load: gate, members, reads, faults, the destination written by `put`, completion (20 R351). -/
def State.laneLoad (s : State) (k : Acc) (mask : W32) (size : Nat) (addr : Nat → W64) (put : Group → W32 → (Nat → Nat) → Group) : State :=
  let l := s.laneAccs k mask size addr
  match s.gate l with
  | some s1 => s1
  | none =>
    match s.gather l with
    | .error s1 => s1
    | .ok got =>
    let r := s.readLanes k size got l
    let ok := maskOf (fun i => l.any (fun a => a.lane == i && a.performed))
    let s1 := r.1.setCur (put r.1.cur ok (fun i => (look r.2 i).getD 0))
    let s2 := s1.laneFaults l
    let s3 := match l.find? LaneAcc.isDead with
      | some a => s2.report' 0x33 0 a.addr
      | none => s2
    s3.finish

/-- A lane store: gate, footprint stall, stores in ascending lane order, faults, completion (22 R395). -/
def State.laneStore (s : State) (k : Acc) (mask : W32) (size : Nat) (addr : Nat → W64) (data : Nat → Nat) : State :=
  let l := s.laneAccs k mask size addr
  match s.gate l with
  | some s1 => s1
  | none =>
    match s.stallOn l size with
    | some w => s.block w
    | none =>
      let s1 := l.foldl (fun t a => if a.isDead then t.lostStore a.addr else
        if a.performed then t.storeTo k a.tgt a.addr (leBytes size (data a.lane)) else t) s
      (s1.laneFaults l).finish

/-- The single access of a group-wide form, every lane condition a stop fault (20 R353). -/
def State.groupAcc (s : State) (k : Acc) (ea : W64) (size : Nat) : LaneAcc :=
  ⟨0, ea, match s.target k ea size with | .bad c => .bad c | t => t⟩

/-- The gate of a group-wide access: lane-class codes are stop faults with DETAIL lane 0 (20 R353, 13 R251). -/
def State.groupGate (s : State) (a : LaneAcc) : Option State :=
  match a.tgt with
  | .bad c => some (s.stopFault c 0 a.addr 0)
  | _ => s.gate [a]

/-- A group-wide load (20 R351, R353). -/
def State.groupLoad (s : State) (k : Acc) (ea : W64) (size : Nat) (put : Group → Nat → Group) : State :=
  let a := s.groupAcc k ea size
  match s.groupGate a with
  | some s1 => s1
  | none =>
    match s.gather [a] with
    | .error s1 => s1
    | .ok got =>
    let r := s.loadFrom k a.tgt ea size (s.reduced got a)
    let s1 := r.1.setCur (put r.1.cur r.2)
    (if a.isDead then s1.report' 0x33 0 ea else s1).finish

/-- A group-wide store (22 R395, 20 R353). -/
def State.groupStore (s : State) (k : Acc) (ea : W64) (size : Nat) (data : Nat) : State :=
  let a := s.groupAcc k ea size
  match s.groupGate a with
  | some s1 => s1
  | none =>
    match s.stallOn [a] size with
    | some w => s.block w
    | none => (if a.isDead then s.lostStore ea else s.storeTo k a.tgt ea (leBytes size data)).finish

end Sys2Proof.Machine
end

