-- ==== Sys2Proof/Machine/Forms.lean ====
section
/-! DEFINITION. The shapes the register instructions share: which operands are read and which register is written
(04 R69, 18 R303, R307, 20 R345). -/
namespace Sys2Proof.Machine
open Host

/-- Writes a lane word computed per lane. -/
def laneWrite (d : BitVec 7) (f : Nat → W32) (m : W32) (s : State) : State := (s.setCur (s.cur.vSet m d.toNat f)).finish
/-- Writes a lane pair computed per lane. -/
def laneWrite2 (d : BitVec 7) (f : Nat → W64) (m : W32) (s : State) : State := (s.setCur (s.cur.vSet2 m d.toNat f)).finish
/-- vd := f(va). -/
def lane1 (d a : BitVec 7) (f : W32 → W32) (m : W32) (s : State) : State := laneWrite d (fun l => f (s.cur.vGet a.toNat l)) m s
/-- vd := f(va, vb). -/
def lane2 (d a b : BitVec 7) (f : W32 → W32 → W32) (m : W32) (s : State) : State :=
  laneWrite d (fun l => f (s.cur.vGet a.toNat l) (s.cur.vGet b.toNat l)) m s
/-- vd := f(va, vb, vd). -/
def lane3 (d a b : BitVec 7) (f : W32 → W32 → W32 → W32) (m : W32) (s : State) : State :=
  laneWrite d (fun l => f (s.cur.vGet a.toNat l) (s.cur.vGet b.toNat l) (s.cur.vGet d.toNat l)) m s
/-- pair d := f(pair a). -/
def pair1 (d a : BitVec 7) (f : W64 → W64) (m : W32) (s : State) : State := laneWrite2 d (fun l => f (s.cur.vGet2 a.toNat l)) m s
/-- pair d := f(pair a, pair b). -/
def pair2 (d a b : BitVec 7) (f : W64 → W64 → W64) (m : W32) (s : State) : State :=
  laneWrite2 d (fun l => f (s.cur.vGet2 a.toNat l) (s.cur.vGet2 b.toNat l)) m s
/-- pair d := f(pair a, pair b, pair d). -/
def pair3 (d a b : BitVec 7) (f : W64 → W64 → W64 → W64) (m : W32) (s : State) : State :=
  laneWrite2 d (fun l => f (s.cur.vGet2 a.toNat l) (s.cur.vGet2 b.toNat l) (s.cur.vGet2 d.toNat l)) m s
/-- g[d] := x. -/
def groupWrite (d : BitVec 7) (x : W64) (s : State) : State := (s.setCur (s.cur.gSet d.toNat x)).finish
/-- g[d] := sext(x, 64) (04 R69). -/
def groupWrite32 (d : BitVec 7) (x : W32) (s : State) : State := (s.setCur (s.cur.gSet32 d.toNat x)).finish
/-- g[d] := f(g[a]). -/
def group1 (d a : BitVec 7) (f : W64 → W64) (s : State) : State := groupWrite d (f (s.cur.gGet a.toNat)) s
/-- g[d] := f(g[a], g[b]). -/
def group2 (d a b : BitVec 7) (f : W64 → W64 → W64) (s : State) : State := groupWrite d (f (s.cur.gGet a.toNat) (s.cur.gGet b.toNat)) s
/-- g[d] := f(g[a], g[b], g[d]). -/
def group3 (d a b : BitVec 7) (f : W64 → W64 → W64 → W64) (s : State) : State :=
  groupWrite d (f (s.cur.gGet a.toNat) (s.cur.gGet b.toNat) (s.cur.gGet d.toNat)) s
/-- g[d] := sext(f(low word of g[a])). -/
def word1 (d a : BitVec 7) (f : W32 → W32) (s : State) : State := groupWrite32 d (f (s.cur.gGet32 a.toNat)) s
/-- g[d] := sext(f(low words of g[a], g[b])). -/
def word2 (d a b : BitVec 7) (f : W32 → W32 → W32) (s : State) : State :=
  groupWrite32 d (f (s.cur.gGet32 a.toNat) (s.cur.gGet32 b.toNat)) s
/-- g[d] := sext(f(low words of g[a], g[b], g[d])). -/
def word3 (d a b : BitVec 7) (f : W32 → W32 → W32 → W32) (s : State) : State :=
  groupWrite32 d (f (s.cur.gGet32 a.toNat) (s.cur.gGet32 b.toNat) (s.cur.gGet32 d.toNat)) s

/-- Writes predicate pd in the active lanes (03 R52). -/
def predWrite (d : Nat) (f : Nat → Bool) (m : W32) (s : State) : State := (s.setCur (s.cur.pSet m d (maskOf f))).finish
/-- Writes gpd (03 R52). -/
def gpredWrite (d : Nat) (x : Bool) (s : State) : State := (s.setCur (s.cur.gpSet d x)).finish

/-- Writes lane words and ORs the flags of the active lanes into ctl.fflags (03 R60). -/
def laneFloat (d : BitVec 7) (f : Nat → FRes) (m : W32) (s : State) : State :=
  (s.setCur ((s.cur.vSet m d.toNat (fun l => BitVec.ofNat 32 (f l).bits)).orFlags (laneFlags m (fun l => (f l).flags)))).finish
/-- Writes lane pairs and ORs the flags of the active lanes into ctl.fflags (03 R60). -/
def laneFloat2 (d : BitVec 7) (f : Nat → FRes) (m : W32) (s : State) : State :=
  (s.setCur ((s.cur.vSet2 m d.toNat (fun l => BitVec.ofNat 64 (f l).bits)).orFlags (laneFlags m (fun l => (f l).flags)))).finish

/-- The combined immediate of a LIMM and `w` own bits, sign-extended from its top bit; alone the own bits (04 R74, 20 R357). -/
def State.immediate (s : State) {w : Nat} (own : BitVec w) : W64 :=
  match s.limm with
  | some h => (h ++ own).signExtend 64
  | none => own.signExtend 64
/-- The byte displacement of a LIMM before a load or store (04 R74). -/
def State.displacement (s : State) : W64 :=
  match s.limm with
  | some h => h.signExtend 64
  | none => 0#64

end Sys2Proof.Machine
end

