-- ==== Sys2Proof/Machine/Atomic.lean ====
section
/-! DEFINITION. ATOM and RED, with deferred adds and team partial sums (08 R148 to R154, 09 R180 to R184, 18 R308, 21 R376). -/
namespace Sys2Proof.Machine
open Host

/-- Bytes of an operation code (08 R148). -/
def atomWidth (c : BitVec 5) : Nat := if c.getLsbD 0 then 8 else 4
/-- The access kind of an operation code: floating-point ones are rejected by scratchpads (08 R151). -/
def atomKind (c : BitVec 5) : Acc := if 20 ≤ c.toNat then .atomicF else .atomic

/-- What an atomic writes, given the old value and the lane's data; none when a CAS does not match (08 R149). -/
def Group.atomNew (g : Group) (c : BitVec 5) (d : BitVec 7) (old l : Nat) : Option Nat :=
  match c.toNat with
  | 18 => if old = (g.vGet d.toNat l).toNat then some (g.vGet (d.toNat + 1) l).toNat else none
  | 19 => if old = (g.vGet2 d.toNat l).toNat then some (g.vGet2 (d.toNat + 2) l).toNat else none
  | n => some (atomOp n old (if c.getLsbD 0 then (g.vGet2 d.toNat l).toNat else (g.vGet d.toNat l).toNat))

/-- One lane of an atomic: one indivisible access; the old value collects (08 R149). At a device register it reads the register and
changes nothing (log 38). -/
def atomLane (g : Group) (c : BitVec 5) (d : BitVec 7) (p : State × List (Nat × Nat)) (a : LaneAcc) : State × List (Nat × Nat) :=
  match a.tgt with
  | .mem loc _ _ =>
    let old := p.1.natAt loc (atomWidth c)
    (match g.atomNew c d old a.lane with
     | some x => p.1.storeNat loc (atomWidth c) x
     | none => p.1, p.2 ++ [(a.lane, old)])
  | .mmio pa => (p.1, p.2 ++ [(a.lane, p.1.mmioRead (mmioOff pa) (atomWidth c))])
  | _ => p

/-- ATOM (18 R308, R309). Lanes that name one location are performed in ascending lane order (log 48). -/
def execAtom (q : BitVec 2) (d a : BitVec 7) (o c : BitVec 5) (s : State) : Outcome State Fault Refusal :=
  laneForm (.atom q d a o c) (fun m s =>
    let l := s.laneAccs (atomKind c) m (atomWidth c) (s.cur.vGet2 a.toNat)
    match s.gate l with
    | some s1 => s1
    | none =>
      match s.stallOn l (atomWidth c) with
      | some w => s.block w
      | none =>
        let p := l.foldl (atomLane s.cur c d) (s, [])
        let ok := maskOf (fun i => l.any (fun x => x.lane == i && x.performed))
        let val := fun i => (look p.2 i).getD 0
        let s1 := p.1.setCur (if c.getLsbD 0 then p.1.cur.vSet2 ok d.toNat (fun i => BitVec.ofNat 64 (val i))
          else p.1.cur.vSet ok d.toNat (fun i => BitVec.ofNat 32 (val i)))
        let s2 := s1.laneFaults l
        (match l.find? LaneAcc.isDead with
         | some x => s2.report' 0x33 0 x.addr
         | none => s2).finish) s

/-- Room for one more entry of the deferred-add region: 48 bytes each, or on the chip (09 R183). -/
def State.dabRoom (s : State) (j : Job) : Bool :=
  decide (48 * (j.adds.length + j.partials.length + 1) ≤ s.arenaSize j 24) || s.onChip j.id (j.adds.length + j.partials.length)

/-- Appends an entry to a job's deferred-add buffer; none where it has no room (09 R180, R183). -/
def State.appendAdd (s : State) (j : Job) (a : DefAdd) : Option State :=
  if s.dabRoom j then some (s.putJob { j with adds := j.adds ++ [a] }) else none

/-- Appends a deferred add of the group in focus, or drops it with DAB_SPILL_FULL (09 R180, R183). -/
def State.deferAdd (s : State) (loc width : Nat) (x : W64) (lane : Nat) (addr : W64) : State :=
  let sq := (s.cur.seqNo.get lane).toNat
  let s1 := s.setCur { s.cur with seqNo := s.cur.seqNo.set lane (BitVec.ofNat 32 (sq + 1)) }
  (s1.appendAdd s1.job ⟨loc, width, x, s.cur.pdh, s.cur.pdl, lane, sq⟩).getD (s1.spillFull 0 addr)

/-- Adds to a team's partial sum at a location; a new one starts at -0; none where it has no room (09 R183, R184). -/
def State.appendPartial (s : State) (j : Job) (team loc width : Nat) (x : W64) : Option State :=
  let f := if width = 8 then fp64 else fp32
  let here := fun p : Partial => p.team == team && p.loc == loc && p.width == width
  if j.partials.any here then
    some (s.putJob { j with partials := j.partials.map (fun p =>
      if here p then { p with sum := BitVec.ofNat 64 (faddW f .rne false p.sum.toNat x.toNat).bits } else p) })
  else if s.dabRoom j then
    some (s.putJob { j with partials := j.partials ++ [⟨team, loc, width,
      BitVec.ofNat 64 (faddW f .rne false (f.word true 0) x.toNat).bits⟩] })
  else none

/-- A partial-sum update of the group in focus, or DAB_SPILL_FULL (09 R184). -/
def State.partialAdd (s : State) (team loc width : Nat) (x : W64) (addr : W64) : State :=
  (s.appendPartial s.job team loc width x).getD (s.spillFull 0 addr)

/-- The team whose partial sums a pedigree's updates go to: the index in its root element (09 R184). -/
def rootTeam (pdh pdl : W64) : Nat := ((pedigree pdh pdl).headD (0, 0)).2

/-- One lane of a RED (21 R377). -/
def redLane (g : Group) (c : BitVec 5) (d : BitVec 7) (s : State) (a : LaneAcc) : State :=
  let w := atomWidth c
  let src : W64 := if c.getLsbD 0 then g.vGet2 d.toNat a.lane else (g.vGet d.toNat a.lane).zeroExtend 64
  match a.tgt with
  | .mem loc attr scratch =>
    if (c = 20#5 ∨ c = 21#5) ∧ !scratch ∧ attr < 2 ∧ s.job.det then
      (if s.job.detc then s.partialAdd (rootTeam g.pdh g.pdl) loc w src a.addr else s.deferAdd loc w src a.lane a.addr)
    else s.storeNat loc w (atomOp c.toNat (s.natAt loc w) src.toNat)
  | .dead => s.lostStore a.addr
  | _ => s

/-- RED, lanes in ascending order (21 R376, R377, log 48). -/
def execRed (q : BitVec 2) (d a : BitVec 7) (o c : BitVec 5) (s : State) : Outcome State Fault Refusal :=
  laneForm (.red q d a o c) (fun m s =>
    let l := s.laneAccs (atomKind c) m (atomWidth c) (s.cur.vGet2 a.toNat)
    match s.gate l with
    | some s1 => s1
    | none =>
      match s.stallOn l (atomWidth c) with
      | some w => s.block w
      | none => ((l.foldl (redLane s.cur c d) s).laneFaults l).finish) s

end Sys2Proof.Machine
end

