-- ==== Sys2Proof/Machine/Issue.lean ====
section
/-! DEFINITION. Which split issues, what is due at an instruction boundary, and the fetch of the word
(02 R22, 04 R74 to R80, 12 R245, 13 R252, R255). -/
namespace Sys2Proof.Machine
open Host

/-! ## What a split waits for (02 R42) -/

/-- The engine context of a logical cluster of a job. -/
def Job.engine (j : Job) (cluster : Nat) : Engine := (look j.engines cluster).getD Engine.start
/-- The logical cluster of a group or sequencer (11 R211). -/
def Group.cluster (g : Group) : Nat := if g.kind = .seq then g.grp else g.lcore / 8
/-- A queue of an engine context by its number: 0 mqa, 1 mqb, 2 mqo, 3 mqs. -/
def Engine.queue (e : Engine) (q : Nat) : List Slice :=
  match q with | 0 => e.mqa | 1 => e.mqb | 2 => e.mqo | _ => e.mqs
/-- The generation of barrier `n` of a group (12 R246): team barriers below 16, launch barriers above. -/
def State.barGen (s : State) (g : Group) (n : Nat) : W64 :=
  if n < 16 then ((look (s.teamOf g.job g.team).bars n).map TBar.gen).getD 0#64
  else ((look ((look s.jobs g.job).getD Job.blank).bars (n - 16)).map LBar.gen).getD 0#64

/-- Whether a logical core is held, or all its teams have exited (06 R109). -/
def Job.coreThere (j : Job) (lc : Nat) : Bool := ((j.lcoreOf lc).team.isSome && (j.lcoreOf lc).core.isSome) || j.lcoreDone lc

/-- Whether no page request of the device's access `key` is outstanding. -/
def State.unasked (s : State) (key : Nat) : Bool := s.reqs.all (fun r => !r.owners.contains (.device key))

/-- The team whose cask a wait of a group names: its own, of a sequencer the one on the logical core (10 R204, R205). -/
def Job.caskTeam (j : Job) (g : Group) (lc : Nat) : Option Nat :=
  if g.kind = .seq then ((j.lcoreOf lc).core.bind (fun _ => (j.lcoreOf lc).team)) else some g.team

/-- Whether the monitor that a split of a group sleeps on has fired, has moved to another split, or is gone (07 R146, R147, 22 R405). -/
def State.monitorFired (s : State) (g : Group) (entry : Nat) : Bool :=
  match g.monitor with
  | some m => m.fired || m.split != entry || s.written m.mark m.loc 8
  | none => true

/-- Whether what a blocked split waits for has come. -/
def State.wakes (s : State) (g : Group) (entry : Nat) (w : Wait) : Bool :=
  let j := (look s.jobs g.job).getD Job.blank
  match w with
  | .queue q =>
    let l := ((j.engine g.cluster).queue q).length
    if (q == 2) == (g.kind == .seq) then decide (l < 16) else l != 0
  | .peer lc _ _ => j.coreThere lc
  | .host lc => (j.lcoreOf lc).team.isSome && (j.lcoreOf lc).core.isSome
  | .members _ left => left.any (fun r => j.coreThere r.lcore)
  | .monitor => s.monitorFired g entry
  | .phase => s.monitorFired g entry
  | .barrier n gen => decide (gen.toNat < (s.barGen g n).toNat)
  | .cask lc n acq =>
    match (j.caskTeam g lc).bind (fun t => look (s.teamOf g.job t).casks n) with
    | some c => if acq then c.st.getD c.ap .free == .filled else c.st.getD c.rp .free == .free
    | none => true
  | .footprint => decide ((s.ops.filter (fun o => o.core == g.core)).length < 16)
  | .stall op loc n => s.ops.all (fun o => o.id != op || !s.stillReads o loc n)
  | .after op => s.ops.all (fun o => o.id != op)
  | .join => g.children == 0
  | .slot _ => j.freeSlot.isSome
  | .record _ slot => s.unasked (keyTrap g.job slot)
  | .page key => s.unasked key

/-! ## Splits of a group (02 R20 to R22) -/

/-- Whether the instruction of a wait is executed again from its start once what it waits for has come. A WAIT that has slept completes
instead, a JOIN ends by its own event, and a fault or a return on its way has been raised. -/
def Wait.again : Wait → Bool
  | .queue _ => true
  | .peer _ _ _ => true
  | .host _ => true
  | .members _ _ => true
  | .phase => true
  | .barrier _ _ => true
  | .cask _ _ _ => true
  | .footprint => true
  | .stall _ _ _ => true
  | .after _ => true
  | _ => false

/-- Whether a split is ready, or ready again to execute the instruction it was blocked in (02 R22). -/
def State.readyAgain (s : State) (g : Group) (p : Split) : Bool :=
  match p.st with
  | .ready => true
  | .parked => false
  | .blocked w _ => w.again && s.wakes g p.entry w

/-- Whether two splits of a group are ready at one PC and merge. Of a REP both must owe the same iterations (04 R75, log 12). -/
def State.mergeable (s : State) (g : Group) (q p : Split) : Bool :=
  s.readyAgain g q && s.readyAgain g p && q.pc == p.pc && q.rep == p.rep

/-- The state of a merged split: ready, with the reads that a group-address load of either has made (07 R145). -/
def SplitState.join : SplitState → SplitState → SplitState
  | .blocked (.members g l) t, .blocked (.members h m) u => .blocked (.members (g ++ h) (l ++ m)) (min t u)
  | .blocked (.members g l) t, _ => .blocked (.members g l) t
  | _, .blocked (.members g l) t => .blocked (.members g l) t
  | _, _ => .ready

/-- Two splits merged: the union of the masks in the lower entry (02 R22); the larger count of opportunities passed over and the older
age (log 12). -/
def Split.join (q p : Split) : Split :=
  { q with
    entry := min q.entry p.entry, mask := q.mask ||| p.mask, st := q.st.join p.st, fresh := q.fresh || p.fresh
    passed := max q.passed p.passed, age := min q.age p.age, greedy := q.greedy || p.greedy }

/-- Adds a split of a group to a list, merged into a ready one at the same PC (02 R22). -/
def State.absorb (s : State) (g : Group) (l : List Split) (p : Split) : List Split :=
  if l.any (fun q => s.mergeable g q p) then l.map (fun q => if s.mergeable g q p then q.join p else q) else l ++ [p]

/-- The entry of `new` that holds the lanes of table entry `e` of `old` after merging. -/
def followIn (old new : List Split) (e : Nat) : Nat :=
  if new.any (fun q => q.entry == e) then e else
  match old.find? (fun p => p.entry == e) with
  | none => e
  | some p => ((new.find? (fun q => q.pc == p.pc && q.mask &&& p.mask == p.mask)).map Split.entry).getD e

/-- The ready splits of a group merged, their pending reports with them (02 R22). -/
def State.merge (s : State) (g : Group) : Group :=
  let l := g.splits.foldl (s.absorb g) []
  { g with splits := l, pend := g.pend.map (fun x => { x with split := followIn g.splits l x.split }) }

/-- The lowest free entry of a split table; the manual does not say which of several a stacked path takes (log 12). -/
def freeEntry (l : List Split) : Nat := ((List.range 4).find? (fun e => l.all (fun p => p.entry != e))).getD 4

/-- Moves the top path of the split stack into a free entry of the table (02 R21). -/
def Group.popPath (g : Group) : Group :=
  match g.stack with
  | [] => g
  | top :: rest =>
    if g.splits.length < 4 then
      { g with splits := g.splits ++ [⟨freeEntry g.splits, top.pc, top.mask, .ready, none, false, 0, g.born, false⟩], stack := rest }
    else g

/-- Merges ready splits and moves stacked paths into free entries (02 R21, R22). -/
def State.settleGo (s : State) : Nat → Group → Group
  | 0, g => g
  | n + 1, g =>
    let g1 := s.merge g
    if g1.stack.isEmpty || decide (4 ≤ g1.splits.length) then g1 else State.settleGo s n g1.popPath

/-- The split table before an issue selection; under a handler nothing merges (02 R22), in a region the other splits are not ready (08 R156). -/
def State.settle (s : State) (g : Group) : Group := if g.handler.isSome || g.region.isSome then g else s.settleGo 17 g

/-! ## Readiness (02 R42) -/

/-- Cycles a group has been resident since its first instruction (03 R56). -/
def State.cycOf (s : State) (g : Group) : Nat := g.cycAcc + (if g.resident && g.begun then s.cycles - g.cycFrom else 0)
/-- A group at the issue of an instruction: with its first %cyc starts to count (03 R56). -/
def Group.starts (g : Group) (cycles : Nat) : Group := if g.begun then g else { g with begun := true, cycFrom := cycles }
/-- TIMER is due (03 R63); inside a handler it stays pending (13 R255). -/
def State.timerDue (s : State) (g : Group) : Bool := g.handler.isNone && g.tmr != 0#64 && decide (g.tmr.toNat ≤ s.cycOf g)
/-- ALARM is due (03 R63, 13 R255). -/
def State.alarmDue (s : State) (g : Group) : Bool := g.handler.isNone && g.alarm != 0#64 && decide (g.alarm.toNat ≤ s.time)

/-- Whether a parked split is the one that issues its convergent instruction (02 R24). -/
def Group.convergesAt (g : Group) (p : Split) : Bool :=
  g.stack.isEmpty && g.splits.all (fun q => q.st == .parked &&
    (decide (p.pc.toNat < q.pc.toNat) || (p.pc == q.pc && decide (p.entry ≤ q.entry))))

/-- Whether a wait on a logical core has passed ctl.gtimeout (03 R64, 13 R266). -/
def State.timedOut (s : State) (g : Group) (p : Split) : Bool :=
  match p.st with
  | .blocked w t => w.onCores && g.gtimeout != 0#64 && decide (t + 1000 * g.gtimeout.toNat < s.time)
  | _ => false

/-- Whether a split can issue. -/
def State.ripe (s : State) (g : Group) (p : Split) : Bool :=
  match p.st with
  | .ready => true
  | .parked => g.convergesAt p
  | .blocked w _ => s.wakes g p.entry w || s.timedOut g p

/-- Whether a group's splits may issue at all: running launch, resident, not held on a page (06 R123, 13 R259). -/
def State.live (s : State) (g : Group) : Bool :=
  g.kind != .idle && g.resident && !g.done && g.holds.isEmpty &&
  (match (look s.jobs g.job).map Job.phase with | some .running => true | _ => false)

/-- The first asynchronous report due before the group's next instruction; RACE and DAB_SPILL_FULL of adds and records
wait for their instruction (09 R183, R187). -/
def Group.asyncDue (g : Group) : Option Pend :=
  match g.pend.find? (fun p => p.code == 0x31 && p.detail == 2) with
  | some p => some p
  | none => match g.pend.find? (fun p => p.code == 0x32) with
    | some p => some p
    | none => g.pend.find? (fun p => p.code == 0x33)

/-- Whether a table entry is the only one of its group that may issue: in a handler the splits not held (13 R255), in an open region its
own split (08 R156), before a report that comes ahead of the group's next instruction the split that raised it (13 R252, R255). -/
def Group.mayIssue (g : Group) (e : Nat) : Bool :=
  !(g.handler.isSome && g.held.contains e) &&
  (match g.region with | some x => x.split == e | none => true) &&
  (match (if g.handler.isSome then none else g.asyncDue) with
   | some p => p.split == e || g.splits.all (fun q => q.entry != p.split)
   | none => true)

/-- The splits of a group that can issue; with none ready, a due TIMER or ALARM takes that of an open region, whose return is the ABEG, or
the lowest entry (08 R158, 13 R255). -/
def State.canIssue (s : State) (g : Group) : List Split :=
  if !s.live g then [] else
  let r := g.splits.filter (fun p => g.mayIssue p.entry && s.ripe g p)
  if r.isEmpty && (s.timerDue g || s.alarmDue g) then
    (match g.region with
     | some x => g.splits.filter (fun p => p.entry == x.split)
     | none => g.splits.filter (fun p => g.splits.all (fun q => decide (p.entry ≤ q.entry))))
  else r

/-! ## Reports due at a boundary (13 R251, R252) -/

/-- Whether a lane report is one a split delivers: its own, or of a split that has ended, whose entry reads 4. -/
def Pend.laneOf (e : Nat) (x : Pend) : Bool := x.cls == 2 && (x.split == e || x.split == 4)

/-- The lane report due in a split that raised one: not inside a repeat nor before its resumption, deferred while all of the group are
LANE_SPAD (13 R251, R255). -/
def Group.laneDue (g : Group) (p : Split) : Option Pend :=
  let l := g.pend.filter (fun x => x.cls == 2)
  if p.rep.isSome || (p.fresh && g.repc.getLsbD 63) then none
  else if g.handler.isSome then l.find? (fun x => x.inner && Pend.laneOf p.entry x)
  else if l.all (fun x => x.code == 0x21 && !x.inner) then none
  else l.find? (Pend.laneOf p.entry)

/-! ## Fetch (06 R124, 04 R80) -/

/-- The word instruction fetch returns at a virtual address; none when the translation fails. In the window region only the MMIO window is
translated, and an X leaf there gives the words of device registers; a fetch from another window fails, and so does one from a package that
does not answer (log 47). -/
def State.fetch (s : State) (va : Nat) : Option W32 :=
  if va / 2 ^ 57 != 0 then none else
  match s.translate s.job.root va with
  | none => none
  | some p =>
    if !p.x || s.farFails p.pa then none
    else if s.isMmio p.pa then some (BitVec.ofNat 32 (s.mmioRead (mmioOff p.pa) 4))
    else some (BitVec.ofNat 32 (leNat (s.someHeld s.job.mark p.pa 4)))

/-- Whether the split in focus is the group's last (19 R335). -/
def State.lastSplit (s : State) : Bool := decide (s.cur.splits.length ≤ 1) && s.cur.stack.isEmpty

/-- Whether an instruction of the split in focus is one that delivers RACE and DAB_SPILL_FULL and issues now (09 R187). -/
def State.delivers (s : State) (i : Instr) : Bool :=
  s.admits i && s.gpGuard i.guardOf &&
  match i with
  | .fence _ _ => true
  | .exit _ => s.lastSplit
  | .join _ => s.othersParked && s.lowestPc
  | .bara _ _ _ => s.othersParked && s.lowestPc
  | .barw _ _ _ => s.othersParked && s.lowestPc
  | .barm _ _ _ => s.othersParked && s.lowestPc
  | _ => false

/-- Whether the next instruction of the split in focus is such a delivery point. -/
def State.atPoint (s : State) : Bool :=
  if s.sp.mask = 0#32 then s.lastSplit
  else s.sp.rep.isNone && (match (s.fetch s.sp.pc.toNat).map decodeWord with | some (.ok i) => s.delivers i | _ => false)

/-- The report due in the split in focus: asynchronous before lane, the lower code first (13 R252). -/
def State.reportDue (s : State) : Option Pend :=
  if s.cur.handler.isSome then s.cur.laneDue s.sp else
  match (if s.raceDue.isSome && s.atPoint then s.raceDue else none) with
  | some p => some p
  | none => match s.cur.asyncDue with
    | some p => some p
    | none => s.cur.laneDue s.sp

/-- The event that comes before the next instruction of the split in focus: stop, the lower code first, then asynchronous, then lane
(13 R252). -/
def State.due (s : State) : Option Instr :=
  if (match s.sp.st with | .blocked w _ => s.timedOut s.cur s.sp && !s.wakes s.cur s.split w | _ => false) then some .grpAbsent
  else if s.timerDue s.cur then some .timer
  else if s.alarmDue s.cur then some .alarm
  else if s.reportDue.isSome then some .trapEntry
  else none

/-! ## The iterations of a repeat (04 R75) -/

/-- The step of a stride code (04 R75). -/
def strideOf (c : Nat) : Int := match c with | 0 => 1 | 1 => 2 | 2 => 4 | 3 => 8 | 4 => 16 | 5 => 32 | 6 => -1 | _ => -2

/-- Bits of a field of a word advanced by a step, modulo 128. -/
def advanceField (w : Nat) (lo : Nat) (step : Int) : Nat :=
  let f := w / 2 ^ lo % 128
  w - f * 2 ^ lo + (((f : Int) + step) % 128).toNat * 2 ^ lo

/-- Whether a word is of format B: its d and a fields stand three bits higher (04 R67, R81). -/
def isFormatB (w : Nat) : Bool := let m := w / 2 ^ 26; m == 0x0A || m == 0x0B || m == 0x0C || m == 0x2A || m == 0x2B || m == 0x2C

/-- The word of iteration `i` of a repeat: each field of the mask advanced (04 R75). -/
def Rep.wordAt (r : Rep) (i : Nat) : W32 :=
  let c := r.ctl.toNat
  let step := strideOf (c / 2 ^ 12 % 8) * i
  let w := r.word.toNat
  let dAt := if isFormatB w then 17 else 14
  let aAt := if isFormatB w then 10 else 7
  let w := if c.testBit 17 then advanceField w dAt step else w
  let w := if c.testBit 16 then advanceField w aAt step else w
  BitVec.ofNat 32 (if c.testBit 15 then advanceField w 0 step else w)

/-- What an issue comes to: an instruction to execute, or a state that already says all. -/
inductive Ready where
  | run (i : Instr) (s : State)
  | done (s : State)

/-- A word fetched for the split in focus: its instruction, or ILLEGAL_OP (04 R78). -/
def State.decoded (s : State) (w : W32) : Ready :=
  match decodeWord w with
  | .ok i => .run i s
  | .error _ => .done (s.illegal w)

/-- The word at an address for the split in focus, or the hold of its page (06 R124). -/
def State.fetchDecode (s : State) (va : W64) : Ready :=
  match s.fetch va.toNat with
  | some w => s.decoded w
  | none => .done (s.hold [(va.toNat, 4)])

/-- A stop fault that the split in focus has raised and not entered yet: it waits for a slot, or holds one whose record waits for its page
(13 R253). -/
def State.entering (s : State) : Option State :=
  match s.sp.st with
  | .blocked (.record e slot) _ => some (s.takeIn e slot)
  | .blocked (.slot (some e)) _ => some (s.take e)
  | _ => none

/-- The issue of the split in focus: the fault it is entering, what is due, else EXIT for a split that ended at ERET, else the iteration of
its repeat, else the word at its PC. -/
def State.issue (s : State) : Ready :=
  match s.entering with
  | some t => .done t
  | none =>
    match s.due with
    | some i => .run i s
    | none =>
      if s.sp.mask = 0#32 then .run (.exit 0#2) s else
      match s.sp.rep with
      | some r => s.decoded (r.wordAt r.done)
      | none => s.fetchDecode s.sp.pc

/-- The instruction behind a LIMM (04 R74). -/
def State.partner (s : State) : Ready := s.fetchDecode (s.sp.pc + 4#64)

/-! ## Selection (12 R245) -/

/-- Nothing issues: only the counter of choices moves. -/
def State.idle (s : State) : State := { s with tick := s.tick + 1 }

/-- Brings a split into focus after the table settled, and issues it. -/
def State.issueSplit (s : State) (gid entry : Nat) : Ready :=
  if (s.groupOf gid).isNone then .done s.idle else
  let s1 := s.focus gid entry
  let s2 := s1.setCur (s1.settle s1.cur)
  let l := s2.canIssue s2.cur
  match (if l.any (fun p => p.entry == entry) then some entry else l.head?.map Split.entry) with
  | none => .done s2.idle
  | some e => State.issue { s2.setCur (s2.cur.starts s2.cycles) with split := e }

/-- Whether a group may issue from a quadrant of a core (12 R245). -/
def Group.inQuadrant (g : Group) (core quad : Nat) : Bool :=
  (g.kind == .root || g.kind == .task) && g.core == core && g.slot % 4 == quad

/-- The ready splits of a quadrant, with their groups. -/
def State.quadrantSplits (s : State) (core quad : Nat) : List (Group × Split) :=
  (s.allGroups.filter (fun g => g.inQuadrant core quad)).flatMap (fun g => (s.canIssue g).map (fun p => (g, p)))

/-- The first element that `better` prefers to all before it. -/
def bestOf {α : Type} (better : α → α → Bool) : List α → Option α
  | [] => none
  | x :: l => match bestOf better l with
    | none => some x
    | some y => if better y x then some y else some x

/-- The choice of a quadrant (12 R245). Of splits of two groups with one dispatch time and one table entry it takes the first in the order of
`State.allGroups`: the model's choice (log 12). -/
def State.quadrantPick (s : State) (core quad : Nat) : Option (Group × Split) :=
  let l := s.quadrantSplits core quad
  let old := l.filter (fun x => decide (64 ≤ x.2.passed))
  let prio := fun x : Group × Split => ((look s.jobs x.1.job).getD Job.blank).prio
  let best := l.foldl (fun m x => min m (prio x)) 8
  let top := l.filter (fun x => prio x == best)
  match bestOf (fun y x => decide (x.2.passed < y.2.passed) || (x.2.passed == y.2.passed &&
      (decide (y.1.slot < x.1.slot) || (y.1.slot == x.1.slot && decide (y.2.entry < x.2.entry))))) old with
  | some x => some x
  | none =>
    match (look s.lastIssue (4 * core + quad)).bind (fun p => top.find? (fun x => x.1.gid == p.1 && x.2.greedy)) with
    | some x => some x
    | none => bestOf (fun y x => decide (y.2.age < x.2.age) || (y.2.age == x.2.age && decide (y.2.entry < x.2.entry))) top

/-- Records a choice: the split issued last now, every other ready split of the quadrant was passed over (12 R245). -/
def State.passOver (s : State) (core quad gid entry : Nat) : State :=
  let l := s.quadrantSplits core quad
  let upd := fun g : Group => { g with splits := g.splits.map (fun p =>
    let chosen := g.gid == gid && p.entry == entry
    let waited := l.any (fun x => x.1.gid == g.gid && x.2.entry == p.entry)
    { p with
      passed := if chosen then 0 else if waited then p.passed + 1 else p.passed
      greedy := if g.gid = gid then chosen else p.greedy }) }
  { s with cur := upd s.cur, groups := s.groups.map (fun p => (p.1, upd p.2)), lastIssue := put s.lastIssue (4 * core + quad) (gid, entry) }

/-- The groups of a quadrant with their tables settled, as before each issue selection (02 R21, R22). -/
def State.settleQuadrant (s : State) (core quad : Nat) : State :=
  let f := fun g : Group => if g.inQuadrant core quad && s.live g then s.settle g else g
  { s with cur := f s.cur, groups := s.groups.map (fun p => (p.1, f p.2)) }

/-- The issue of a quadrant in a cycle. -/
def State.issueQuadrant (s0 : State) (core quad : Nat) : Ready :=
  let s := s0.settleQuadrant core quad
  match s.quadrantPick core quad with
  | none => .done s.idle
  | some x => (s.passOver core quad x.1.gid x.2.entry).issueSplit x.1.gid x.2.entry

/-- Events of agents other than the strands: what a turn of the agenda may name. TRAP_ENTRY, TIMER, ALARM and GRP_ABSENT come of an
issue (13 R252, R255). -/
def isDeviceEvent : Instr → Bool
  | .createQueue _ _ _ _ _ _ _ _ _ => true | .destroyQueue _ _ _ => true | .resetQueue _ _ _ => true | .abortQueue _ _ _ => true
  | .setQuantum _ _ _ => true | .invalidate _ _ _ _ _ => true | .pageResponse _ _ _ _ => true | .doorbell _ _ => true
  | .registerWrite _ _ _ => true | .attestationRequest _ => true | .hostWrite _ _ => true | .hostRead _ _ => true
  | .linkTraining _ _ => true | .resetBoot _ _ _ _ => true | .remoteRequest _ _ _ _ => true | .remoteRequestTimeout _ => true
  | .thermalStepChange _ _ => true | .powerThrottle _ => true | .droopEvent _ _ => true | .packetRead _ => true
  | .headPublish _ => true | .launchPacket _ => true | .copyPacket _ => true | .waitSignalPacket _ => true
  | .setSignalPacket _ => true | .teamDispatch _ _ => true | .taskStart _ => true | .taskSteal _ _ => true
  | .timeSlice _ _ _ => true | .racking _ _ _ => true | .switchOut _ _ => true | .restore _ _ _ => true
  | .engineContextSwitch _ _ => true | .engineArrival _ => true | .triggeredOpComplete _ => true | .pageRequest => true
  | .thermalHalt => true | .tapRebind => true | .waitSignalTimeout => true | .completionSignal => true | .launchEnd => true
  | .taskCompletionReport => true | .joinComplete => true | .rootViewFold => true | .deferredAddApply => true
  | _ => false

end Sys2Proof.Machine
end

