-- ==== Sys2Proof/Machine/Barrier.lean ====
section
/-! DEFINITION. The barrier network: BARA, BARW, BARM (12 R246, R247, 18 R310, R311). -/
namespace Sys2Proof.Machine
open Host

/-- The initial MASK: every group of the team (12 R246). -/
def fullMask (groups : Nat) : BitVec 16 := BitVec.ofNat 16 (2 ^ groups - 1)
/-- A team barrier of a team (12 R246). -/
def Team.bar (t : Team) (n : Nat) : TBar := (look t.bars n).getD ⟨fullMask t.groups, 0, 0⟩
/-- A launch barrier of a job (12 R246). -/
def Job.bar (j : Job) (n : Nat) : LBar := (look j.bars n).getD ⟨0, 0, 0⟩
/-- Completes a phase when every group of MASK has arrived (12 R246). -/
def TBar.settle (b : TBar) : TBar := if b.mask &&& ~~~b.arrived = 0#16 then { b with gen := b.gen + 1#64, arrived := 0 } else b
/-- An arrival of a group (12 R246). -/
def TBar.arrive (b : TBar) (g : Nat) : TBar := TBar.settle { b with arrived := b.arrived ||| BitVec.ofNat 16 (2 ^ g) }
/-- An arrival on a launch barrier (12 R246). -/
def LBar.arrive (b : LBar) : LBar :=
  if b.arrived + 1#48 = b.count then { b with gen := b.gen + 1#64, arrived := 0 } else { b with arrived := b.arrived + 1#48 }
/-- What the exit of a group does to a team barrier with it in MASK: it arrives, unless it has, and leaves MASK, its arrival standing
until the phase completes (12 R246). -/
def TBar.leave (b : TBar) (g : Nat) : TBar :=
  let bit := BitVec.ofNat 16 (2 ^ g)
  if b.mask &&& bit = 0#16 then b else
  let b1 := if b.arrived &&& bit = 0#16 then b.arrive g else b
  { b1 with mask := b1.mask &&& ~~~bit }

/-- BAR_MEMBER with its cause (12 R247). -/
def State.barMember (s : State) (cause : Nat) : State := s.stopFault 0x18 cause 0#64 0xFF

/-- BARA: the first failing cause in the order 6, 1, 2, 5, else the arrival (18 R310). -/
def State.bara (s : State) (d n : BitVec 7) : State :=
  let k := n.toNat
  if k < 16 then
    let b := s.team.bar k
    let bit := BitVec.ofNat 16 (2 ^ s.cur.grp)
    if s.cur.kind ≠ .root then s.barMember 6
    else if b.mask &&& bit = 0#16 then s.barMember 1
    else if b.arrived &&& bit ≠ 0#16 then s.barMember 2
    else ((s.putTeam { s.team with bars := put s.team.bars k (b.arrive s.cur.grp) }).setCur (s.cur.gSet d.toNat b.gen)).finish
  else
    let b := s.job.bar (k - 16)
    if b.count = 0#48 then s.barMember 5
    else ((s.putJob { s.job with bars := put s.job.bars (k - 16) b.arrive }).setCur (s.cur.gSet d.toNat b.gen)).finish

/-- BARA (12 R247). -/
def execBara (q : BitVec 2) (d n : BitVec 7) (s : State) : Outcome State Fault Refusal :=
  convergentForm (.bara q d n) (fun s => s.atDelivery (fun s => s.bara d n)) s

/-- BARW: waits until the generation exceeds g[a], unsigned (12 R247, 18 R310). -/
def execBarw (q : BitVec 2) (a n : BitVec 7) (s : State) : Outcome State Fault Refusal :=
  convergentForm (.barw q a n) (fun s => s.atDelivery (fun s =>
    if n.toNat < 16 ∧ s.cur.kind ≠ .root then s.barMember 6
    else if (s.cur.gGet a.toNat).toNat < (s.barGen s.cur n.toNat).toNat then s.finish
    else s.block (.barrier n.toNat (s.cur.gGet a.toNat)))) s

/-- BARM: the causes in the order 6, 4, 3, else the new membership (18 R310). -/
def State.barm (s : State) (a n : BitVec 7) : State :=
  let k := n.toNat
  let x := (s.cur.gGet a.toNat).toNat
  if k < 16 then
    if s.cur.kind ≠ .root then s.barMember 6
    else if x = 0 ∨ 2 ^ s.team.groups ≤ x then s.barMember 4
    else if (s.team.bar k).arrived ≠ 0#16 then s.barMember 3
    else (s.putTeam { s.team with bars := put s.team.bars k { s.team.bar k with mask := BitVec.ofNat 16 x } }).finish
  else
    if x = 0 ∨ 2 ^ 48 ≤ x then s.barMember 4
    else if (s.job.bar (k - 16)).arrived ≠ 0#48 then s.barMember 3
    else (s.putJob { s.job with bars := put s.job.bars (k - 16) { s.job.bar (k - 16) with count := BitVec.ofNat 48 x } }).finish

/-- BARM (12 R247). -/
def execBarm (q : BitVec 2) (a n : BitVec 7) (s : State) : Outcome State Fault Refusal :=
  convergentForm (.barm q a n) (fun s => s.atDelivery (fun s => s.barm a n)) s

end Sys2Proof.Machine
end

