-- ==== Sys2Proof/Machine/Bits.lean ====
section
/-! DEFINITION. Bit counts, reversal and fields: CLZ, POPC, BREV, BFX, BFI (18 R315, R319, 19 R325, 21 R370). -/
namespace Sys2Proof.Machine
open Host

/-- Leading zeros of a word (19 R325). -/
def leadingZeros {w : Nat} (x : BitVec w) : Nat := if x = 0#w then w else w - 1 - Nat.log2 x.toNat
/-- Set bits of a word (21 R370). -/
def popCount {w : Nat} (x : BitVec w) : Nat := ((List.range w).filter (fun i => x.getLsbD i)).length
/-- Position of a bit field: bits 7:0 of xb, at most 32 (18 R315). -/
def fieldPos (b : W32) : Nat := min (b.extractLsb' 0 8).toNat 32
/-- Length of a bit field: bits 15:8 of xb, within the word (18 R315). -/
def fieldLen (b : W32) : Nat := min (b.extractLsb' 8 8).toNat (32 - fieldPos b)
/-- BFX (18 R315). -/
def bfx (signed : Bool) (a b : W32) : W32 :=
  let n := fieldLen b
  let r := (a.toNat >>> fieldPos b) % 2 ^ n
  if n = 0 then 0#32 else if signed ∧ r.testBit (n - 1) then BitVec.ofNat 32 (r + 2 ^ 32 - 2 ^ n) else BitVec.ofNat 32 r
/-- BFI (18 R315). -/
def bfi (a b d : W32) : W32 :=
  let mask := BitVec.ofNat 32 ((2 ^ fieldLen b - 1) * 2 ^ fieldPos b)
  (d &&& ~~~mask) ||| ((a <<< fieldPos b) &&& mask)

/-- CLZ, 32-bit lane form (19 R325). -/
def execClzV (q : BitVec 2) (d a : BitVec 7) (s : State) : Outcome State Fault Refusal :=
  laneForm (.clzV q d a) (lane1 d a (fun x => BitVec.ofNat 32 (leadingZeros x))) s

/-- CLZ.64, lane form, zero-extended to the pair (19 R325). -/
def execClzV64 (q : BitVec 2) (d a : BitVec 7) (s : State) : Outcome State Fault Refusal :=
  laneForm (.clzV64 q d a) (pair1 d a (fun x => BitVec.ofNat 64 (leadingZeros x))) s

/-- CLZ.B32, group form (19 R325). -/
def execClzG32 (q : BitVec 2) (d a : BitVec 7) (s : State) : Outcome State Fault Refusal :=
  groupForm (.clzG32 q d a) (word1 d a (fun x => BitVec.ofNat 32 (leadingZeros x))) s

/-- CLZ, 64-bit group form (19 R325). -/
def execClzG64 (q : BitVec 2) (d a : BitVec 7) (s : State) : Outcome State Fault Refusal :=
  groupForm (.clzG64 q d a) (group1 d a (fun x => BitVec.ofNat 64 (leadingZeros x))) s

/-- POPC, 32-bit lane form (21 R370). -/
def execPopcV (q : BitVec 2) (d a : BitVec 7) (s : State) : Outcome State Fault Refusal :=
  laneForm (.popcV q d a) (lane1 d a (fun x => BitVec.ofNat 32 (popCount x))) s

/-- POPC.64, lane form, zero-extended to the pair (21 R370). -/
def execPopcV64 (q : BitVec 2) (d a : BitVec 7) (s : State) : Outcome State Fault Refusal :=
  laneForm (.popcV64 q d a) (pair1 d a (fun x => BitVec.ofNat 64 (popCount x))) s

/-- POPC.B32, group form (21 R370). -/
def execPopcG32 (q : BitVec 2) (d a : BitVec 7) (s : State) : Outcome State Fault Refusal :=
  groupForm (.popcG32 q d a) (word1 d a (fun x => BitVec.ofNat 32 (popCount x))) s

/-- POPC, 64-bit group form (21 R370). -/
def execPopcG64 (q : BitVec 2) (d a : BitVec 7) (s : State) : Outcome State Fault Refusal :=
  groupForm (.popcG64 q d a) (group1 d a (fun x => BitVec.ofNat 64 (popCount x))) s

/-- BREV, lane form (18 R319). -/
def execBrevV (q : BitVec 2) (d a : BitVec 7) (s : State) : Outcome State Fault Refusal :=
  laneForm (.brevV q d a) (lane1 d a BitVec.reverse) s

/-- BREV, group form (18 R319). -/
def execBrevG (q : BitVec 2) (d a : BitVec 7) (s : State) : Outcome State Fault Refusal :=
  groupForm (.brevG q d a) (word1 d a BitVec.reverse) s

/-- BFX.Z, lane form (18 R315). -/
def execBfxZV (q : BitVec 2) (d a b : BitVec 7) (s : State) : Outcome State Fault Refusal :=
  laneForm (.bfxZV q d a b) (lane2 d a b (bfx false)) s

/-- BFX.Z, group form (18 R315). -/
def execBfxZG (q : BitVec 2) (d a b : BitVec 7) (s : State) : Outcome State Fault Refusal :=
  groupForm (.bfxZG q d a b) (word2 d a b (bfx false)) s

/-- BFX.S, lane form (18 R315). -/
def execBfxSV (q : BitVec 2) (d a b : BitVec 7) (s : State) : Outcome State Fault Refusal :=
  laneForm (.bfxSV q d a b) (lane2 d a b (bfx true)) s

/-- BFX.S, group form (18 R315). -/
def execBfxSG (q : BitVec 2) (d a b : BitVec 7) (s : State) : Outcome State Fault Refusal :=
  groupForm (.bfxSG q d a b) (word2 d a b (bfx true)) s

/-- BFI, lane form; vd is a source (18 R315). -/
def execBfiV (q : BitVec 2) (d a b : BitVec 7) (s : State) : Outcome State Fault Refusal :=
  laneForm (.bfiV q d a b) (lane3 d a b bfi) s

/-- BFI, group form; g[d] is a source (18 R315). -/
def execBfiG (q : BitVec 2) (d a b : BitVec 7) (s : State) : Outcome State Fault Refusal :=
  groupForm (.bfiG q d a b) (word3 d a b bfi) s

end Sys2Proof.Machine
end

