-- ==== Sys2Proof/Machine/Branch.lean ====
section
/-! DEFINITION. Control flow: BRA, CALL, BRX, RET and divergence (02 R20, R21, 18 R316 to R321, 19 R322, 21 R382). -/
namespace Sys2Proof.Machine
open Host

/-- The address of the executing word; behind a LIMM the word after it (18 R316). -/
def State.here (s : State) : W64 := if s.limm.isSome then s.sp.pc + 4#64 else s.sp.pc
/-- A branch target with bits 63:57 set or in the window region (18 R318). -/
def badTarget (t : W64) : Bool := t.toNat / 2 ^ 57 != 0 || t.toNat / 2 ^ 48 == 0x1FF
/-- The target of a signed word offset, behind a LIMM the 48-bit one (18 R316, 04 R74). -/
def State.offsetTarget (s : State) (i : BitVec 24) : W64 := s.here + s.immediate i * 4#64

/-- Adds an address to an ascending list without repeats. -/
def insertAddr (x : W64) : List W64 → List W64
  | [] => [x]
  | y :: l => if x = y then y :: l else if x.toNat < y.toNat then x :: y :: l else y :: insertAddr x l

/-- The paths of a branch, by ascending target: one per distinct target (02 R20). -/
def pathsOf (lanes : List Nat) (dest : Nat → W64) : List Path :=
  (lanes.foldl (fun l x => insertAddr (dest x) l) []).map (fun t => ⟨t, maskOf (fun l => lanes.contains l && dest l == t)⟩)

/-- Free entries of the split table, ascending: paths in ascending PC order take the lowest first. The manual gives the order of the paths
and not which of several free entries each takes (log 12). -/
def Group.freeEntries (g : Group) : List Nat := (List.range 4).filter (fun e => g.splits.all (fun p => p.entry != e))

/-- Places the paths of a divergent branch: the lowest in the diverging entry with the switched-off lanes, the next in the free
entries, the rest on the stack (02 R20, R21). -/
def State.place (s : State) (first : Path) (rest : List Path) : State :=
  let free := s.cur.freeEntries
  let own : Split := { s.sp with pc := first.pc, mask := first.mask ||| (s.sp.mask &&& ~~~s.laneMask), st := .ready }
  let fresh := (free.zip rest).map (fun p => (⟨p.1, p.2.pc, p.2.mask, .ready, none, false, 0, s.sp.age, false⟩ : Split))
  let g := s.cur.putSplit own
  (s.setCur { g with splits := g.splits ++ fresh, stack := rest.drop free.length ++ g.stack }).jump first.pc

/-- A lane branch: lanes of `chk` have their targets checked, then one path per distinct target of M (18 R317, R321). `link`
is what CALL writes before it branches. -/
def State.branch (s : State) (word : W32) (chk : W32) (dest : Nat → W64) (link : Group → Group) : State :=
  match (lanesOfMask chk).find? (fun l => badTarget (dest l)) with
  | some l => s.stopFault 0x10 word.toNat (dest l) 0xFF
  | none =>
    match pathsOf (lanesOfMask s.laneMask) dest with
    | [] => s.finish
    | [p] => (s.setCur (link s.cur)).jump p.pc
    | p :: rest =>
      if 16 < s.cur.stack.length + (rest.length - s.cur.freeEntries.length) then s.stopFault 0x12 0 0#64 0xFF
      else (s.setCur (link s.cur)).place p rest

/-- A group-wide branch to a checked target (18 R317, R318). -/
def State.goto (s : State) (word : W32) (t : W64) (link : Group → Group) : State :=
  if badTarget t then s.stopFault 0x10 word.toNat t 0xFF else (s.setCur (link s.cur)).jump t

/-- BRA, lane form (18 R317). -/
def execBraV (q : BitVec 2) (i : BitVec 24) (s : State) : Outcome State Fault Refusal :=
  laneForm (.braV q i) (fun m s =>
    s.branch (encode (.braV q i)) m (fun l => if m.getLsbD l then s.offsetTarget i else s.here + 4#64) id) s

/-- BRA, group form (18 R317). -/
def execBraG (q : BitVec 2) (i : BitVec 24) (s : State) : Outcome State Fault Refusal :=
  groupForm (.braG q i) (fun s => s.goto (encode (.braG q i)) (s.offsetTarget i) id) s

/-- CALL, lane form: the link in v126 and v127 of the taken lanes (19 R322). -/
def execCallV (q : BitVec 2) (i : BitVec 24) (s : State) : Outcome State Fault Refusal :=
  laneForm (.callV q i) (fun m s =>
    s.branch (encode (.callV q i)) m (fun l => if m.getLsbD l then s.offsetTarget i else s.here + 4#64)
      (fun g => g.vSet2 m 126 (fun _ => s.here + 4#64))) s

/-- CALL, group form: the link in g95 (19 R322). -/
def execCallG (q : BitVec 2) (i : BitVec 24) (s : State) : Outcome State Fault Refusal :=
  groupForm (.callG q i) (fun s => s.goto (encode (.callG q i)) (s.offsetTarget i) (fun g => g.gSet 95 (s.here + 4#64))) s

/-- The target a lane of BRX or RET names, low two bits ignored (04 R66). -/
def State.laneTarget (s : State) (m : W32) (a : BitVec 7) (l : Nat) : W64 :=
  if m.getLsbD l then s.cur.vGet2 a.toNat l &&& 0xFFFFFFFFFFFFFFFC#64 else s.sp.pc + 4#64

/-- BRX, lane form (18 R321). -/
def execBrxV (q : BitVec 2) (a : BitVec 7) (s : State) : Outcome State Fault Refusal :=
  laneForm (.brxV q a) (fun m s => s.branch (encode (.brxV q a)) s.laneMask (s.laneTarget m a) id) s

/-- BRX, group form (18 R321). -/
def execBrxG (q : BitVec 2) (a : BitVec 7) (s : State) : Outcome State Fault Refusal :=
  groupForm (.brxG q a) (fun s => s.goto (encode (.brxG q a)) (s.cur.gGet a.toNat &&& 0xFFFFFFFFFFFFFFFC#64) id) s

/-- RET, lane form: as BRX (21 R382). -/
def execRetV (q : BitVec 2) (a : BitVec 7) (s : State) : Outcome State Fault Refusal :=
  laneForm (.retV q a) (fun m s => s.branch (encode (.retV q a)) s.laneMask (s.laneTarget m a) id) s

/-- RET, group form: as BRX (21 R382). -/
def execRetG (q : BitVec 2) (a : BitVec 7) (s : State) : Outcome State Fault Refusal :=
  groupForm (.retG q a) (fun s => s.goto (encode (.retG q a)) (s.cur.gGet a.toNat &&& 0xFFFFFFFFFFFFFFFC#64) id) s

end Sys2Proof.Machine
end

