-- ==== Sys2Proof/Machine/ByteBarrier.lean ====
section
/-! DEFINITION. Byte barriers, casks and WAIT (07 R146, R147, 10 R192 to R194, R202 to R205, 18 R312, R313, 19 R323,
22 R404, R405). -/
namespace Sys2Proof.Machine
open Host

/-! ## The barrier word (10 R192, R193) -/

/-- EXP. -/
def bbExp (w : Nat) : Nat := bitsOf w 27 0
/-- ERR. -/
def bbErr (w : Nat) : Bool := w.testBit 28
/-- ECAUSE. -/
def bbCause (w : Nat) : Nat := bitsOf w 31 29
/-- ARR. -/
def bbArr (w : Nat) : Nat := bitsOf w 59 32
/-- PHASE. -/
def bbPhase (w : Nat) : Nat := bitsOf w 63 63
/-- The word of its fields; bits 62:60 as they were. -/
def bbWord (exp err cause arr rsv phase : Nat) : Nat :=
  exp + err * 2 ^ 28 + cause * 2 ^ 29 + arr * 2 ^ 32 + rsv * 2 ^ 60 + phase * 2 ^ 63
/-- The greatest count. -/
def bbMax : Nat := 2 ^ 28 - 1

/-- bb_update (10 R193). -/
def bbUpdateWord (w dexp darr cause : Nat) : Nat :=
  let e0 := bbExp w + dexp
  let a0 := bbArr w + darr
  let sat := decide (bbMax < e0) || decide (bbMax < a0)
  let e := min e0 bbMax
  let a := min a0 bbMax
  let c := if sat then 6 else cause
  let mark := decide (c ≠ 0) && !bbErr w
  let err := if mark || bbErr w then 1 else 0
  let ec := if mark then c else bbCause w
  if e ≠ 0 ∧ e ≤ a then bbWord 0 err ec (a - e) (bitsOf w 62 60) (1 - bbPhase w)
  else bbWord e err ec a (bitsOf w 62 60) (bbPhase w)

/-- A RESERVED slot whose barrier completed a phase becomes FILLED, failed where ERR is set (10 R203). -/
def Cask.fill (c : Cask) (off w : Nat) : Cask :=
  let i := (off - c.base) / 8
  if off < c.base ∨ (off - c.base) % 8 ≠ 0 ∨ c.slots ≤ i ∨ c.st.getD i .free ≠ .reserved then c
  else { c with st := c.st.set i .filled, failed := if bbErr w then (i, bbCause w) :: c.failed else c.failed }

/-- A bb_update on the word at an offset of a team's scratchpad, with the slot it fills (10 R193, R203). -/
def State.bbUpdate (s : State) (job team off dexp darr cause : Nat) : State :=
  let loc := scratchLoc job team off
  let w := s.natAt loc 8
  let n := bbUpdateWord w dexp darr cause
  let s1 := s.storeNat loc 8 n
  if bbPhase w = bbPhase n then s1 else
  let t := s1.teamOf job team
  s1.putTeam { t with casks := t.casks.map (fun p => (p.1, p.2.fill off n)) }

/-! ## The address of a barrier (10 R194) -/

/-- What a barrier address comes to: an offset of a team's scratchpad, a stop fault, a core that is not held. -/
inductive BbRef where
  | at (team off : Nat)
  | bad (code : Nat)
  | waits (lcore : Nat)
  deriving DecidableEq, Repr

/-- The last check: the word lies below the team's S. -/
def State.bbAt (s : State) (team off : Nat) : BbRef :=
  if (s.teamOf s.cur.job team).bytes < off + 8 then .bad 0x21 else .at team off

/-- The barrier an address names, by the first failing check of R194. -/
def State.bbRef (s : State) (va : Nat) : BbRef :=
  let win := va / 2 ^ 44 % 16
  if va / 2 ^ 57 ≠ 0 then .bad 0x23
  else if va / 2 ^ 48 ≠ 0x1FF ∨ 1 < win ∨ (win = 0 ∧ s.cur.kind = .seq) then .bad 0x15
  else if va % 8 ≠ 0 then .bad 0x17
  else if win = 0 then
    (if va / 2 ^ 19 % 2 ^ 25 ≠ 0 ∨ s.cur.kind = .task then .bad 0x23 else s.bbAt s.cur.team (va % 2 ^ 19))
  else
    let lc := va / 2 ^ 32 % 2 ^ 12
    if va / 2 ^ 19 % 2 ^ 13 ≠ 0 ∨ s.job.logical ≤ lc ∨ s.job.lcoreDone lc then .bad 0x23
    else match (s.job.lcoreOf lc).team, (s.job.lcoreOf lc).core with
    | some t, some _ => s.bbAt t (va % 2 ^ 19)
    | _, _ => .waits lc

/-- Runs `f` on the barrier an address names, or takes the fault, or waits. -/
def State.withBarrier (s : State) (va : W64) (f : Nat → Nat → State → State) : State :=
  match s.bbRef va.toNat with
  | .at team off => f team off s
  | .bad c => s.stopFault c 0 va 0
  | .waits lc => s.block (.peer lc 0 va)

/-- Runs `f` on a barrier word that the instruction reads; uncorrectable data there ends the launch (13 R252). -/
def State.onWord (s : State) (va : W64) (team off : Nat) (f : State → State) : State :=
  if s.poisoned (scratchLoc s.cur.job team off) 8 then s.spadUpset va else f s

/-- BBINIT: the word written whole; it completes no phase (10 R194). -/
def execBbinit (q : BitVec 2) (a b : BitVec 7) (s : State) : Outcome State Fault Refusal :=
  groupForm (.bbinit q a b) (fun s => s.withBarrier (s.cur.gGet a.toNat) (fun team off s =>
    (s.storeNat (scratchLoc s.cur.job team off) 8 (min (s.cur.gGet b.toNat).toNat bbMax)).finish)) s

/-- BBEXP (10 R194). -/
def execBbexp (q : BitVec 2) (a b : BitVec 7) (s : State) : Outcome State Fault Refusal :=
  groupForm (.bbexp q a b) (fun s => s.withBarrier (s.cur.gGet a.toNat) (fun team off s =>
    s.onWord (s.cur.gGet a.toNat) team off (fun s => (s.bbUpdate s.cur.job team off (s.cur.gGet b.toNat).toNat 0 0).finish))) s

/-- BBARR (10 R194). -/
def execBbarr (q : BitVec 2) (a b : BitVec 7) (s : State) : Outcome State Fault Refusal :=
  groupForm (.bbarr q a b) (fun s => s.withBarrier (s.cur.gGet a.toNat) (fun team off s =>
    s.onWord (s.cur.gGet a.toNat) team off (fun s => (s.bbUpdate s.cur.job team off 0 (s.cur.gGet b.toNat).toNat 0).finish))) s

/-! ## Sleeping on a word (07 R146, R147) -/

/-- Arms the group's monitor on a word for the split in focus and sleeps. -/
def State.sleepOn (s : State) (w : Wait) (loc : Nat) : State :=
  (s.setCur { s.cur with monitor := some ⟨s.split, loc, s.hist.length, false⟩ }).block w

/-- Whether a split sleeps on its group's monitor. -/
def Split.asleep (p : Split) : Bool := match p.st with | .blocked .monitor _ => true | .blocked .phase _ => true | _ => false

/-- Removes the monitor that an instruction of the split in focus armed; one that starts afresh moves the monitor and so ends
any other wait of the group (22 R405). -/
def State.disarm (s : State) : State :=
  if s.sp.asleep && (match s.cur.monitor with | some m => m.split != s.split | none => true) then s
  else s.setCur { s.cur with monitor := none }

/-- BBWAIT: sleeps while PHASE is bit 0 of g[b]; ERR is reported before the next instruction (18 R312, R313). -/
def execBbwait (q : BitVec 2) (a b : BitVec 7) (s : State) : Outcome State Fault Refusal :=
  groupForm (.bbwait q a b) (fun s => s.withBarrier (s.cur.gGet a.toNat) (fun team off s =>
    s.onWord (s.cur.gGet a.toNat) team off (fun s =>
      let w := s.natAt (scratchLoc s.cur.job team off) 8
      if bbPhase w = (s.cur.gGet b.toNat).toNat % 2 then s.sleepOn .phase (scratchLoc s.cur.job team off)
      else
        let s1 := s.disarm
        (if bbErr w then s1.report' 0x32 (bbCause w) (s.cur.gGet a.toNat) else s1).finish))) s

/-- Whether the split in focus sleeps in a WAIT, which its re-issue completes. -/
def State.sleeping (s : State) : Bool := match s.sp.st with | .blocked .monitor _ => true | _ => false

/-- WAIT: one that slept and has been woken completes, whatever has become of the word's place; on a device register, which has no
monitor, it completes at once (22 R404, R405, log 38). -/
def execWait (q : BitVec 2) (a b : BitVec 7) (s : State) : Outcome State Fault Refusal :=
  groupForm (.wait q a b) (fun s =>
    if s.sleeping then s.disarm.finish else
    let ea := s.cur.gGet a.toNat
    let x := s.groupAcc .monitor ea 8
    match s.groupGate x with
    | some s1 => s1
    | none =>
      match x.tgt with
      | .mem loc _ _ =>
        if s.natAt loc 8 ≠ (s.cur.gGet b.toNat).toNat then s.disarm.finish else s.sleepOn .monitor loc
      | .mmio _ => s.disarm.finish
      | _ => (s.disarm.report' 0x33 0 ea).finish) s

/-! ## Casks (10 R202 to R205, 19 R323) -/

/-- BASE of a geometry. -/
def ckBase (x : Nat) : Nat := bitsOf x 18 0
/-- The slot count of a geometry. -/
def ckSlots (x : Nat) : Nat := bitsOf x 26 19 + 1
/-- Slot bytes of a geometry. -/
def ckBytes (x : Nat) : Nat := bitsOf x 44 27
/-- The offset of a cask's slot data (10 R202). -/
def ckData (base slots : Nat) : Nat := base + roundUp (8 * slots) 64
/-- The checks of CKINIT (10 R202). -/
def ckGeometryOk (x bytes : Nat) : Bool :=
  decide (x < 2 ^ 45) && ckBase x % 64 == 0 && ckBytes x % 64 == 0 && decide (64 ≤ ckBytes x) && decide (ckBytes x ≤ 262080) &&
  decide (ckData (ckBase x) (ckSlots x) + ckSlots x * ckBytes x ≤ bytes)

/-- LANE_SPAD of a cask instruction, a stop (10 R204). -/
def State.caskFail (s : State) : State := s.stopFault 0x21 0 0#64 0

/-- Replaces a cask of a team of the job. -/
def State.putCask (s : State) (team n : Nat) (k : Cask) : State :=
  let t := s.teamOf s.cur.job team
  s.putTeam { t with casks := put t.casks n k }

/-- CKINIT (10 R202, 19 R323). A slot that the sequencer holds keeps its footprint entry until a CKPUB or CKREL of its number (log 25). -/
def State.ckinit (s : State) (a : BitVec 7) (n : Nat) : State :=
  let x := (s.cur.gGet a.toNat).toNat
  let staged : Bool := match look s.team.casks n with | some c => c.st.contains .staged | none => false
  if s.cur.kind = .task ∨ s.job.casks ≤ n ∨ !ckGeometryOk x s.team.bytes ∨ staged then s.caskFail
  else
    let s1 := (List.range (ckSlots x)).foldl (fun t i => t.storeNat (scratchLoc s.cur.job s.cur.team (ckBase x + 8 * i)) 8 0) s
    (s1.putCask s.cur.team n ⟨ckBase x, ckSlots x, ckBytes x, 0, 0, List.replicate (ckSlots x) .free, []⟩).finish

/-- CKINIT. -/
def execCkinit (q : BitVec 2) (a : BitVec 7) (n : BitVec 4) (s : State) : Outcome State Fault Refusal :=
  groupForm (.ckinit q a n) (fun s => s.ckinit a n.toNat) s

/-- Runs `f` on the team and cask an instruction names: the executing team's, or for the sequencer that of core `c` of its
cluster (10 R204, R205). -/
def State.withCask (s : State) (c n : Nat) (f : Nat → Cask → State → State) : State :=
  let go := fun team : Nat =>
    if s.job.casks ≤ n then s.caskFail else
    match look (s.teamOf s.cur.job team).casks n with
    | none => s.caskFail
    | some k => f team k s
  match s.cur.kind with
  | .seq =>
    let lc := 8 * s.cur.grp + c
    (match (s.job.lcoreOf lc).team, (s.job.lcoreOf lc).core with
     | some t, some _ => go t
     | _, _ => s.block (.host lc))
  | .task => s.caskFail
  | _ => go s.cur.team

/-- CKRES (10 R203). -/
def execCkres (q : BitVec 2) (d : BitVec 7) (c : BitVec 3) (n : BitVec 4) (s : State) : Outcome State Fault Refusal :=
  groupForm (.ckres q d c n) (fun s => s.withCask c.toNat n.toNat (fun team k s =>
    if k.st.getD k.rp .free ≠ .free then s.block (.cask (s.teamOf s.cur.job team).lcore n.toNat false)
    else
      let s1 := s.storeNat (scratchLoc s.cur.job team (k.base + 8 * k.rp)) 8 0
      let k1 : Cask := { k with st := k.st.set k.rp .reserved, rp := (k.rp + 1) % k.slots, failed := k.failed.filter (fun p => p.1 != k.rp) }
      let s2 := s1.putCask team n.toNat k1
      (s2.setCur (s2.cur.gSet d.toNat (BitVec.ofNat 64 k.rp))).finish)) s

/-! ### Footprints (07 R143) -/

/-- Whether two lists of ranges meet. -/
def rangesMeet (a b : List (Nat × Nat)) : Bool :=
  a.any (fun x => b.any (fun y => decide (x.1 < y.1 + y.2) && decide (y.1 < x.1 + x.2)))
/-- Whether two operations belong to one team; a task is its own (07 R128, R143). -/
def EngOp.sameTeam (a b : EngOp) : Bool :=
  a.job == b.job && a.team == b.team && a.task == b.task && (!a.task || a.gid == b.gid)
/-- Whether an operation must follow an earlier one of its team (07 R143). -/
def EngOp.follows (n e : EngOp) : Bool :=
  n.sameTeam e && (rangesMeet n.reads e.writes || rangesMeet n.writes e.reads || rangesMeet n.writes e.writes)
/-- The operations before one in issue order. -/
def opsBefore (l : List EngOp) (id : Nat) : List EngOp := l.takeWhile (fun o => o.id != id)

/-- The footprint entry of a slot the sequencer took, or its end when the slot has been consumed (07 R143, 10 R205). -/
def State.slotEntry (s : State) (team n i : Nat) (k : Cask) (on : Bool) : State :=
  let keep := s.ops.filter (fun o => !(o.job == s.cur.job && o.team == team && o.kind == .slot n i))
  if on && s.cur.kind == .seq then
    let lo := 0x1FF0 * 2 ^ 44 + ckData k.base k.slots + i * k.slotB
    { s with
      ops := keep ++ [⟨s.nextId, s.cur.job, team, s.cur.gid, (s.teamOf s.cur.job team).core, .slot n i, team, 0, false,
        s.cur.pdh, s.cur.pdl, [(lo, k.slotB)], [], s.time, 0, [], [], []⟩]
      nextId := s.nextId + 1 }
  else { s with ops := keep }

/-- Moves slot g[a] from one state to another, else LANE_SPAD (10 R203, R204). -/
def State.ckMove (s : State) (team n : Nat) (k : Cask) (a : BitVec 7) (old new : SlotState) : State :=
  let i := (s.cur.gGet a.toNat).toNat
  if k.slots ≤ i ∨ k.st.getD i .free ≠ old then s.caskFail
  else ((s.slotEntry team n i k false).putCask team n { k with st := k.st.set i new }).finish

/-- CKPUB (10 R203). -/
def execCkpub (q : BitVec 2) (a : BitVec 7) (c : BitVec 3) (n : BitVec 4) (s : State) : Outcome State Fault Refusal :=
  groupForm (.ckpub q a c n) (fun s => s.withCask c.toNat n.toNat (fun team k s =>
    s.ckMove team n.toNat k a .reserved .filled)) s

/-- CKREL (10 R203). -/
def execCkrel (q : BitVec 2) (a : BitVec 7) (c : BitVec 3) (n : BitVec 4) (s : State) : Outcome State Fault Refusal :=
  groupForm (.ckrel q a c n) (fun s => s.withCask c.toNat n.toNat (fun team k s =>
    s.ckMove team n.toNat k a .acquired .free)) s

/-- The address a record gives for the barrier of a slot: in the own window, for the sequencer in the peer window. -/
def State.slotAddr (s : State) (team : Nat) (k : Cask) (i : Nat) : W64 :=
  let off := k.base + 8 * i
  BitVec.ofNat 64 (if s.cur.kind = .seq then 0x1FF1 * 2 ^ 44 + (s.teamOf s.cur.job team).lcore * 2 ^ 32 + off else 0x1FF0 * 2 ^ 44 + off)

/-- CKACQ: a failed slot is reported before the next instruction (10 R203). -/
def execCkacq (q : BitVec 2) (d : BitVec 7) (c : BitVec 3) (n : BitVec 4) (s : State) : Outcome State Fault Refusal :=
  groupForm (.ckacq q d c n) (fun s => s.withCask c.toNat n.toNat (fun team k s =>
    if k.st.getD k.ap .free ≠ .filled then s.block (.cask (s.teamOf s.cur.job team).lcore n.toNat true)
    else
      let s1 := (s.slotEntry team n.toNat k.ap k true).putCask team n.toNat { k with st := k.st.set k.ap .acquired, ap := (k.ap + 1) % k.slots }
      let s2 := s1.setCur (s1.cur.gSet d.toNat (BitVec.ofNat 64 k.ap))
      (match look k.failed k.ap with
       | some cause => s2.report' 0x32 cause (s.slotAddr team k k.ap)
       | none => s2).finish)) s

end Sys2Proof.Machine
end

