-- ==== Sys2Proof/Machine/Compare.lean ====
section
/-! DEFINITION. Comparisons and predicates: ICMP, FCMP, PSET, SEL, VOTE (19 R342, 20 R347, 21 R371, 22 R390, R403). -/
namespace Sys2Proof.Machine
open Host

/-- The truth of ICMP (20 R347). -/
def icmp {w : Nat} (fn : BitVec 3) (a b : BitVec w) : Bool :=
  match fn.toNat with
  | 0 => a == b
  | 1 => a != b
  | 2 => a.slt b
  | 3 => !a.slt b
  | 4 => a.ult b
  | _ => !a.ult b
/-- PSET.AND, OR, XOR, ANDN, NOT on masks or bits (21 R371). -/
def psetOp {w : Nat} (fn : BitVec 3) (a b : BitVec w) : BitVec w :=
  match fn.toNat with
  | 0 => a &&& b
  | 1 => a ||| b
  | 2 => a ^^^ b
  | 3 => a &&& ~~~b
  | _ => ~~~a

/-- ICMP, lane form (20 R347). -/
def execIcmpV (q : BitVec 2) (f : BitVec 3) (w : BitVec 1) (p : BitVec 2) (a b : BitVec 7) (s : State) : Outcome State Fault Refusal :=
  laneForm (.icmpV q f w p a b) (fun m s => predWrite p.toNat (fun l => if w = 1#1 then icmp f (s.cur.vGet2 a.toNat l) (s.cur.vGet2 b.toNat l) else icmp f (s.cur.vGet a.toNat l) (s.cur.vGet b.toNat l)) m s) s

/-- ICMP, group form (20 R347). -/
def execIcmpG (q : BitVec 2) (f : BitVec 3) (w : BitVec 1) (p : BitVec 2) (a b : BitVec 7) (s : State) : Outcome State Fault Refusal :=
  groupForm (.icmpG q f w p a b) (fun s => gpredWrite p.toNat (if w = 1#1 then icmp f (s.cur.gGet a.toNat) (s.cur.gGet b.toNat) else icmp f (s.cur.gGet32 a.toNat) (s.cur.gGet32 b.toNat)) s) s

/-- FCMP of one lane: truth and flags (19 R342). -/
def State.fcmpLane (s : State) (f : BitVec 3) (w : BitVec 1) (a b : BitVec 7) (l : Nat) : Bool × Nat :=
  if w = 1#1 then fcmpW fp64 s.cur.ftz f.toNat (s.cur.vGet2 a.toNat l).toNat (s.cur.vGet2 b.toNat l).toNat
  else fcmpW fp32 s.cur.ftz f.toNat (s.cur.vGet a.toNat l).toNat (s.cur.vGet b.toNat l).toNat

/-- FCMP; NV where its row says (19 R342). -/
def execFcmp (q : BitVec 2) (f : BitVec 3) (w : BitVec 1) (p : BitVec 2) (a b : BitVec 7) (s : State) : Outcome State Fault Refusal :=
  laneForm (.fcmp q f w p a b) (fun m s => predWrite p.toNat (fun l => (s.fcmpLane f w a b l).1) m (s.setCur (s.cur.orFlags (laneFlags m (fun l => (s.fcmpLane f w a b l).2))))) s

/-- PSET.AND, OR, XOR, ANDN, NOT in the active lanes (21 R371). -/
def execPsetV (q : BitVec 2) (f : BitVec 3) (d a b : BitVec 2) (s : State) : Outcome State Fault Refusal :=
  laneForm (.psetV q f d a b) (fun m s => predWrite d.toNat (fun l => (psetOp f (s.cur.pGet a.toNat) (s.cur.pGet b.toNat)).getLsbD l) m s) s

/-- PSET.AND, OR, XOR, ANDN, NOT of group predicates (21 R371). -/
def execPsetG (q : BitVec 2) (f : BitVec 3) (d a b : BitVec 2) (s : State) : Outcome State Fault Refusal :=
  groupForm (.psetG q f d a b) (fun s => gpredWrite d.toNat ((psetOp f (BitVec.ofBool (s.cur.gpGet a.toNat)) (BitVec.ofBool (s.cur.gpGet b.toNat))).getLsbD 0) s) s

/-- PSET.NZ, lane form (21 R371). -/
def execPsetNzV (q : BitVec 2) (d : BitVec 2) (a : BitVec 7) (w : BitVec 1) (s : State) : Outcome State Fault Refusal :=
  laneForm (.psetNzV q d a w) (fun m s => predWrite d.toNat (fun l => if w = 1#1 then s.cur.vGet2 a.toNat l != 0#64 else s.cur.vGet a.toNat l != 0#32) m s) s

/-- PSET.NZ, group form (21 R371). -/
def execPsetNzG (q : BitVec 2) (d : BitVec 2) (a : BitVec 7) (w : BitVec 1) (s : State) : Outcome State Fault Refusal :=
  groupForm (.psetNzG q d a w) (fun s => gpredWrite d.toNat (if w = 1#1 then s.cur.gGet a.toNat != 0#64 else s.cur.gGet32 a.toNat != 0#32) s) s

/-- SEL, lane form; the selecting predicate is read per lane (22 R390). -/
def execSelV (q : BitVec 2) (w : BitVec 1) (p : BitVec 2) (d a b : BitVec 7) (s : State) : Outcome State Fault Refusal :=
  laneForm (.selV q w p d a b) (fun m s => if w = 1#1 then laneWrite2 d (fun l => if (s.cur.pGet p.toNat).getLsbD l then s.cur.vGet2 a.toNat l else s.cur.vGet2 b.toNat l) m s else laneWrite d (fun l => if (s.cur.pGet p.toNat).getLsbD l then s.cur.vGet a.toNat l else s.cur.vGet b.toNat l) m s) s

/-- SEL, group form (22 R390). -/
def execSelG (q : BitVec 2) (w : BitVec 1) (p : BitVec 2) (d a b : BitVec 7) (s : State) : Outcome State Fault Refusal :=
  groupForm (.selG q w p d a b) (fun s => if w = 1#1 then groupWrite d (s.cur.gGet (if s.cur.gpGet p.toNat then a.toNat else b.toNat)) s else groupWrite32 d (s.cur.gGet32 (if s.cur.gpGet p.toNat then a.toNat else b.toNat)) s) s

/-- VOTE.ANY, ALL, BALLOT over active(M) (22 R403). -/
def execVote (q : BitVec 2) (d : BitVec 7) (p : BitVec 2) (k : BitVec 7) (s : State) : Outcome State Fault Refusal :=
  laneForm (.vote q d p k) (fun m s =>
    let x := m &&& s.cur.pGet p.toNat
    if k = 0#7 then gpredWrite d.toNat (x != 0#32) s
    else if k = 1#7 then gpredWrite d.toNat (x == m) s
    else groupWrite d (x.zeroExtend 64) s) s

end Sys2Proof.Machine
end

