-- ==== Sys2Proof/Machine/Convert.lean ====
section
/-! DEFINITION. Conversions and the lane generator: CVT, GX forms, DP4, RAND, PITCH (05 R97 to R99, 19 R331 to R334, 21 R369, R374). -/
namespace Sys2Proof.Machine
open Host

/-- The generator state of a lane: rows A-4 to A-1 (05 R97). -/
def Group.genGet (g : Group) (l : Nat) : W64 × W64 :=
  (g.rowGet (g.allot - 3) l ++ g.rowGet (g.allot - 4) l, g.rowGet (g.allot - 1) l ++ g.rowGet (g.allot - 2) l)
/-- Writes the generator states of the lanes of a mask (05 R97). -/
def Group.genSet (g : Group) (m : W32) (f : Nat → W64 × W64) : Group :=
  let g := g.rowSet m (g.allot - 4) (fun l => (f l).1.extractLsb' 0 32)
  let g := g.rowSet m (g.allot - 3) (fun l => (f l).1.extractLsb' 32 32)
  let g := g.rowSet m (g.allot - 2) (fun l => (f l).2.extractLsb' 0 32)
  g.rowSet m (g.allot - 1) (fun l => (f l).2.extractLsb' 32 32)
/-- The 32 bits a lane's next draw returns (05 R98). -/
def Group.drawOf (g : Group) (l : Nat) : Nat := (drawStep (g.genGet l).1 (g.genGet l).2).1
/-- Every lane of a mask takes one draw (05 R98). -/
def Group.advance (g : Group) (m : W32) : Group := g.genSet m (fun l => (drawStep (g.genGet l).1 (g.genGet l).2).2)

/-- CVT of one lane (19 R332). -/
def Group.cvtLane (g : Group) (r : BitVec 3) (a p : BitVec 7) (l : Nat) : FRes :=
  match cvtPair p with
  | none => ⟨0, 0⟩
  | some (src, dst) =>
    let x := if cvtWide src then (g.vGet2 a.toNat l).toNat else (g.vGet a.toNat l).toNat
    cvtW src dst (if r = 5#3 then .sr (g.drawOf l) else g.roundCode r.toNat) g.ftz x
/-- The source lanes of a GX encode, inactive ones as +0 (19 R333). -/
def Group.gxSource (g : Group) (m : W32) (a : BitVec 7) (sr : Bool) : List (FVal × Mode) :=
  (List.range 32).map (fun l =>
    if m.getLsbD l then (decodeF fp32 (g.vGet a.toNat l).toNat, if sr then .sr (g.drawOf l) else .rne) else (.fin false 0 0, .rne))
/-- The block a GX decode reads: lanes 0 to w-1 whatever their activity (19 R333). -/
def Group.gxBlock (g : Group) (a : BitVec 7) (c : Nat) : Nat :=
  (List.range (gxLanes c)).foldl (fun x l => x + (g.vGet a.toNat l).toNat * 2 ^ (32 * l)) 0 % 2 ^ (8 * gxSize c)
/-- The FP32 word of a decoded GX element (05 R94). -/
def gxWord (x : FVal) : Nat := (roundF fp32 .rne false x).bits
/-- The sum DP4 adds (19 R334). -/
def dp4Sum (signed : Bool) (a b : W32) : Int :=
  ((List.range 4).map (fun k => intOf signed 8 (a.extractLsb' (8 * k) 8).toNat * intOf signed 8 (b.extractLsb' (8 * k) 8).toNat)).sum

/-- CVT: under SR every active lane takes one draw (19 R332). -/
def execCvt (q : BitVec 2) (r : BitVec 3) (d a p : BitVec 7) (s : State) : Outcome State Fault Refusal :=
  laneForm (.cvt q r d a p) (fun m s =>
    let g := if r = 5#3 then s.cur.advance m else s.cur
    let f := fun l => s.cur.cvtLane r a p l
    let wide := match cvtPair p with | some (_, t) => cvtWide t | none => false
    if wide then laneFloat2 d f m (s.setCur g) else laneFloat d f m (s.setCur g)) s

/-- CVT.GXn.F32: the block over the whole group; nothing without an active lane (19 R333). -/
def execCvtGxEncode (q : BitVec 2) (d a : BitVec 7) (r : BitVec 1) (c : BitVec 4) (s : State) : Outcome State Fault Refusal :=
  laneForm (.cvtGxEncode q d a r c) (fun m s =>
    if m = 0#32 then s.finish else
    let r' := gxEncode c.toNat (s.cur.gxSource m a (r == 1#1))
    let g := if r = 1#1 then s.cur.advance m else s.cur
    let w := m &&& BitVec.ofNat 32 (2 ^ gxLanes c.toNat - 1)
    ((s.setCur ((g.vSet w d.toNat (fun l => BitVec.ofNat 32 (r'.1 >>> (32 * l)))).orFlags r'.2))).finish) s

/-- CVT.F32.GXn: element i to lane i (19 R333). -/
def execCvtGxDecode (q : BitVec 2) (d a : BitVec 7) (c : BitVec 4) (s : State) : Outcome State Fault Refusal :=
  laneForm (.cvtGxDecode q d a c) (fun m s => laneWrite d (fun l => BitVec.ofNat 32 (gxWord (gxElem c.toNat (s.cur.gxBlock a c.toNat) l))) m s) s

/-- DP4.S8, or DP4.Z8 when z is 1 (19 R334). -/
def execDp4 (q : BitVec 2) (z : BitVec 1) (d a b : BitVec 7) (s : State) : Outcome State Fault Refusal :=
  laneForm (.dp4 q z d a b) (lane3 d a b (fun x y v => v + BitVec.ofInt 32 (dp4Sum (z == 0#1) x y))) s

/-- RAND, or RAND.F32 when f is 1 (21 R374). -/
def execRand (q : BitVec 2) (f : BitVec 1) (d : BitVec 7) (s : State) : Outcome State Fault Refusal :=
  laneForm (.rand q f d) (fun m s => laneWrite d (fun l =>
      let w := s.cur.drawOf l
      BitVec.ofNat 32 (if f = 1#1 then (roundF fp32 .rne false (.fin false (w / 256) (-24))).bits else w)) m (s.setCur (s.cur.advance m))) s

/-- PITCH (05 R99, 21 R369). -/
def execPitch (q : BitVec 2) (a : BitVec 7) (s : State) : Outcome State Fault Refusal :=
  laneForm (.pitch q a) (fun m s =>
    (s.setCur (s.cur.genSet m (fun l => pitchState s.job.seed s.cur.pdh s.cur.pdl l ((s.cur.vGet a.toNat l).toNat % 2 ^ 16)))).finish) s

end Sys2Proof.Machine
end

