-- ==== Sys2Proof/Machine/Cross.lean ====
section
/-! DEFINITION. Cross-lane operations: SHFL, REDUX, SCAN, NZSCAN, ISECT (20 R348, 21 R367, R378, R379, 22 R388 to R391). -/
namespace Sys2Proof.Machine
open Host

/-- The source lane of SHFL (22 R391). -/
def shflSource (mode : BitVec 2) (l c : Nat) : Option Nat :=
  match mode.toNat with
  | 0 => some c
  | 1 => if c ≤ l then some (l - c) else none
  | 2 => if l + c < 32 then some (l + c) else none
  | _ => some (l ^^^ c)
/-- The value of lane `l` of a REDUX or SCAN source. -/
def Group.reduxIn (g : Group) (t : BitVec 3) (a : BitVec 7) (l : Nat) : Nat :=
  if wideType t then (g.vGet2 a.toNat l).toNat else (g.vGet a.toNat l).toNat
/-- The inclusive results of SCAN over the participating lanes, and the flags of each combination (22 R389). -/
def scanGo (f : Nat → Nat → FRes) (r : Nat) : List Nat → List (Nat × Nat)
  | [] => []
  | x :: l => let c := f r x; (c.bits, c.flags) :: scanGo f c.bits l
/-- SCAN: one result per participating lane, and the flags of the combinations performed (22 R389). -/
def scanList (f : Nat → Nat → FRes) (ident : Nat) (exclusive : Bool) (xs : List Nat) : List Nat × Nat :=
  match xs with
  | [] => ([], 0)
  | x :: l =>
    let steps := scanGo f x (if exclusive then l.dropLast else l)
    let fl := steps.foldl (fun y p => y ||| p.2) 0
    if exclusive then ((ident :: (x :: steps.map Prod.fst)).take xs.length, fl) else (x :: steps.map Prod.fst, fl)
/-- The index list of NZSCAN (21 R367). -/
def nzList (f row : Nat) : List Nat :=
  let hit := (List.range 128).filter (fun k => match rowElem f row k with | .fin _ m _ => m != 0 | _ => true)
  hit ++ List.replicate (128 - hit.length) 255
/-- The A row NZSCAN reads, bytes of inactive lanes as zero (21 R367). -/
def Group.nzRow (g : Group) (m : W32) (a : BitVec 7) (slices : Nat) : Nat :=
  (List.range slices).foldl (fun x s => x + (lanesOfMask m).foldl (fun y l => y + (g.vGet (a.toNat + s) l).toNat * 2 ^ (32 * l)) 0 * 2 ^ (1024 * s)) 0
/-- The matches of ISECT: list positions paired in entry order, each of B used once (20 R348). -/
def isectGo (bs : List Nat) : List (Nat × Nat) → List Nat → List (Nat × Nat)
  | [], _ => []
  | (i, x) :: l, used =>
    match (bs.zipIdx.find? (fun p => p.1 == x && !used.contains p.2)) with
    | some (_, j) => (i, j) :: isectGo bs l (j :: used)
    | none => isectGo bs l used
/-- ISECT: the pairs, advA and advB (20 R348). -/
def isectLists (as bs : List Nat) : List (Nat × Nat) × Nat × Nat :=
  if as.isEmpty || bs.isEmpty then ([], 0, 0) else
  let lim := min (as.foldl max 0) (bs.foldl max 0)
  (isectGo bs (as.zipIdx.map (fun p => (p.2, p.1))) [], (as.filter (· ≤ lim)).length, (bs.filter (· ≤ lim)).length)

/-- SHFL (22 R391). -/
def execShfl (q : BitVec 2) (md : BitVec 2) (d a b : BitVec 7) (s : State) : Outcome State Fault Refusal :=
  laneForm (.shfl q md d a b) (fun m s => laneWrite d (fun l =>
      match shflSource md l ((s.cur.vGet b.toNat l).extractLsb' 0 5).toNat with
      | some src => if m.getLsbD src then s.cur.vGet a.toNat src else s.cur.vGet a.toNat l
      | none => s.cur.vGet a.toNat l) m s) s

/-- REDUX: the adjacent-pair tree, or the identity with no lane (21 R379). -/
def execRedux (q : BitVec 2) (d a : BitVec 7) (t o : BitVec 3) (s : State) : Outcome State Fault Refusal :=
  laneForm (.redux q d a t o) (fun m s =>
    let xs := (lanesOfMask m).map (s.cur.reduxIn t a)
    let r := pairTree (reduxStep o.toNat t.toNat s.cur.rm s.cur.ftz) 6 xs 0
    let x := if xs.isEmpty then reduxIdent o.toNat t.toNat else r.1.headD 0
    let s1 := s.setCur (s.cur.orFlags r.2)
    if wideType t then groupWrite d (BitVec.ofNat 64 x) s1 else groupWrite32 d (BitVec.ofNat 32 x) s1) s

/-- SCAN, exclusive when x is 1 (22 R389). -/
def execScan (q : BitVec 2) (d a : BitVec 7) (x : BitVec 1) (t o : BitVec 3) (s : State) : Outcome State Fault Refusal :=
  laneForm (.scan q d a x t o) (fun m s =>
    let ls := lanesOfMask m
    let r := scanList (reduxStep o.toNat t.toNat s.cur.rm s.cur.ftz) (reduxIdent o.toNat t.toNat) (x == 1#1) (ls.map (s.cur.reduxIn t a))
    let val := fun l => ((ls.zip r.1).find? (fun p => p.1 == l)).map Prod.snd |>.getD 0
    let s1 := s.setCur (s.cur.orFlags r.2)
    if wideType t then laneWrite2 d (fun l => BitVec.ofNat 64 (val l)) m s1 else laneWrite d (fun l => BitVec.ofNat 32 (val l)) m s1) s

/-- NZSCAN of the row of a format code, the operand checks done (21 R367). -/
def nzscanRow (d a : BitVec 7) (f : Nat) (m : W32) (s : State) : State :=
  let out := nzList f (s.cur.nzRow m a (rowSlices f))
  laneWrite d (fun l => BitVec.ofNat 32 (leNat ((out.drop (4 * l)).take 4 |>.map (BitVec.ofNat 8)))) m s

/-- NZSCAN: nonzero bits 63:4 of g[b] are ILLEGAL_OP; a source row past the allotment REGWIN (21 R367). -/
def execNzscan (q : BitVec 2) (d a b : BitVec 7) (s : State) : Outcome State Fault Refusal :=
  laneFormIf (decide (16 ≤ (s.cur.gGet b.toNat).toNat)) (.nzscan q d a b) (fun m s =>
    let f := (s.cur.gGet b.toNat).toNat
    if s.cur.allot < s.cur.wbase + a.toNat + rowSlices f ∨ 128 < a.toNat + rowSlices f then s.stopFault 0x11 0 0#64 0xFF
    else nzscanRow d a f m s) s

/-- ISECT: the lists end at their first end mark (20 R348). -/
def execIsect (q : BitVec 2) (d a b : BitVec 7) (s : State) : Outcome State Fault Refusal :=
  laneForm (.isect q d a b) (fun m s =>
    let ls := lanesOfMask m
    let cut := fun r : BitVec 7 => (ls.map (fun l => (s.cur.vGet r.toNat l).toNat)).takeWhile (· != 0xFFFFFFFF)
    let r := isectLists (cut a) (cut b)
    let summary := r.1.length * 2 ^ 16 + r.2.2 * 2 ^ 8 + r.2.1
    laneWrite2 d (fun l =>
      let k := ls.idxOf l
      let w := match r.1[k]? with
        | some (i, j) => (ls.getD j 0) * 256 + ls.getD i 0
        | none => 0xFFFFFFFF
      BitVec.ofNat 64 (summary * 2 ^ 32 + w)) m s) s

end Sys2Proof.Machine
end

