-- ==== Sys2Proof/Machine/Tasks.lean ====
section
/-! DEFINITION. Tasks: pedigree changes, SPAWN, JOIN, ALLOC, reducers, and the end of a group
(02 R29 to R40, 09 R172 to R179, 18 R306, 19 R335, 20 R349, 21 R375, R384, 22 R392). -/
namespace Sys2Proof.Machine
open Host

/-! ## Pedigrees (02 R39, R40) -/

/-- The largest sync count or spawn index below the root (02 R40). -/
def rankMax : Nat := 1049635
/-- The strand's elements, with (0,0) appended when it holds only the root element (02 R39). -/
def withLast (l : List (Nat × Nat)) : List (Nat × Nat) := if l.length ≤ 1 then l ++ [(0, 0)] else l
/-- The pedigree of the child and of the strand after SPAWN; none where R40 fails (02 R39, R40). -/
def spawnPedigree (pdh pdl : W64) : Option ((W64 × W64) × (W64 × W64)) :=
  let l := withLast (pedigree pdh pdl)
  let e := l.getLastD (0, 0)
  if rankMax < e.2 + 1 then none else
  match pedEncode (l ++ [(0, 0)]), pedEncode (l.dropLast ++ [(e.1, e.2 + 1)]) with
  | some c, some p => some (c, p)
  | _, _ => none
/-- The pedigree after JOIN; none where R40 fails (02 R39, R40). -/
def joinPedigree (pdh pdl : W64) : Option (W64 × W64) :=
  let l := withLast (pedigree pdh pdl)
  let e := l.getLastD (0, 0)
  if rankMax < e.1 + 1 then none else pedEncode (l.dropLast ++ [(e.1 + 1, 0)])

/-! ## Budgets and the deque (02 R35, 09 R174) -/

/-- Spilled entries of a launch: those of a deque beyond the newest 256 (02 R35). -/
def State.spilled (s : State) (job : Nat) : Nat :=
  (s.deques.map (fun d => ((d.2.drop 256).filter (fun e => e.job == job)).length)).foldl (· + ·) 0
/-- The deque of a core, newest entry first. -/
def State.deque (s : State) (core : Nat) : List TaskEntry := (look s.deques core).getD []
/-- Whether the core's deque takes one more entry: the oldest on-chip entry may have to spill (02 R35). -/
def State.dequeRoom (s : State) (core : Nat) : Bool :=
  match (s.deque core)[255]? with
  | none => true
  | some e =>
    match look s.jobs e.job with
    | some j => decide (128 * (s.spilled e.job + 1) ≤ s.arenaSize j 16)
    | none => true

/-- SPAWN (22 R393). -/
def State.spawn (s : State) (word : W32) (d a b : BitVec 7) : State :=
  let g := s.cur
  let pc := g.gGet a.toNat &&& 0xFFFFFFFFFFFFFFFC#64
  if pc.toNat / 2 ^ 57 ≠ 0 ∨ pc.toNat / 2 ^ 48 = 0x1FF then s.illegal word else
  match spawnPedigree g.pdh g.pdl with
  | none => s.stopFault 0x13 0 0#64 0xFF
  | some (c, p) =>
    let x := (g.gGet d.toNat).toNat
    let hb := roundUp (x % 2 ^ 32) 64
    let lb := roundUp (x / 2 ^ 32) 64
    let hc := roundUp (g.gGet 91).toNat 64
    let lc := roundUp (g.gGet 93).toNat 64
    if (g.gGet 92).toNat < hc + hb then s.stopFault 0x14 0 0#64 0xFF
    else if (g.gGet 94).toNat < lc + lb then s.stopFault 0x14 1 0#64 0xFF
    else if !s.dequeRoom g.core then s.stopFault 0x14 2 0#64 0xFF
    else
      let e : TaskEntry := ⟨g.job, g.team, g.gid, g.spawned + 1, pc, g.gGet b.toNat, BitVec.ofNat 64 hc, BitVec.ofNat 64 (hc + hb),
        BitVec.ofNat 64 lc, BitVec.ofNat 64 (lc + lb), c.1, c.2, g.fpmode, g.grp, g.lcore, false⟩
      let g1 := (g.gSet 91 (BitVec.ofNat 64 (hc + hb))).gSet 93 (BitVec.ofNat 64 (lc + lb))
      ({ s with deques := put s.deques g.core (e :: s.deque g.core) }.setCur
        { g1 with pdh := p.1, pdl := p.2, children := g.children + 1, spawned := g.spawned + 1, seqNo := [] }).finish

/-- SPAWN (22 R392). -/
def execSpawn (q : BitVec 2) (d a b : BitVec 7) (s : State) : Outcome State Fault Refusal :=
  convergentForm (.spawn q d a b) (fun s => s.spawn (encode (.spawn q d a b)) d a b) s

/-! ## ALLOC (09 R173, 18 R306) -/

/-- ALLOC.HEAP (09 R173). -/
def State.allocHeap (s : State) (d a : BitVec 7) : State :=
  let size := (s.cur.gGet a.toNat).toNat
  let n := roundUp size 16
  let c := s.cur.gGet 91
  if 2 ^ 32 ≤ size ∨ (s.cur.gGet 92).toNat < c.toNat + n then s.stopFault 0x14 0 0#64 0xFF
  else (s.setCur ((s.cur.gSet 91 (c + BitVec.ofNat 64 n)).gSet d.toNat c)).finish

/-- ALLOC.HEAP. -/
def execAllocHeap (q : BitVec 2) (d a : BitVec 7) (s : State) : Outcome State Fault Refusal :=
  convergentForm (.allocHeap q d a) (fun s => s.allocHeap d a) s

/-- ALLOC.LOG: the pedigree stamp is two plain group stores, whose faults are ALLOC's (09 R173, 18 R306). -/
def State.allocLog (s : State) (d a : BitVec 7) : State :=
  let size := (s.cur.gGet a.toNat).toNat
  let n := roundUp size 16 + 16
  let c := s.cur.gGet 93
  if 2 ^ 32 ≤ size ∨ (s.cur.gGet 94).toNat < c.toNat + n then s.stopFault 0x14 1 0#64 0xFF
  else
    let l := [s.groupAcc .store c 8, s.groupAcc .store (c + 8#64) 8]
    match l.find? (fun x => match x.tgt with | .bad _ => true | _ => false) with
    | some x => s.stopFault (match x.tgt with | .bad k => k | _ => 0) 0 x.addr 0
    | none =>
      match s.gate l with
      | some s1 => s1
      | none =>
        match s.stallOn l 8 with
        | some w => s.block w
        | none =>
          let s1 := (l.zip [s.cur.pdl, s.cur.pdh]).foldl (fun t x =>
            if x.1.isDead then t.lostStore x.1.addr else t.storeTo .store x.1.tgt x.1.addr (leBytes 8 x.2.toNat)) s
          (s1.setCur ((s1.cur.gSet 93 (c + BitVec.ofNat 64 n)).gSet d.toNat (c + 16#64))).finish

/-- ALLOC.LOG. -/
def execAllocLog (q : BitVec 2) (d a : BitVec 7) (s : State) : Outcome State Fault Refusal :=
  convergentForm (.allocLog q d a) (fun s => s.allocLog d a) s

/-! ## Reducers (09 R175 to R178) -/

/-- The fields of a reducer descriptor: BASE, SIZE, OP, TYPE. -/
def redBase (b : List Byte) : Nat := leNat (b.take 8)
def redSize (b : List Byte) : Nat := leNat ((b.drop 8).take 2)
def redOp (b : List Byte) : Nat := leNat ((b.drop 10).take 1)
def redType (b : List Byte) : Nat := leNat ((b.drop 11).take 1)
/-- The table of R175. -/
def redDescOk (b : List Byte) : Bool :=
  let ty := redType b
  let w := groupWidth ty
  (ty == 0 || ty == 3 || ty == 5 || ty == 6) && decide (redOp b < 6) && (decide (redOp b < 3) || ty == 3 || ty == 6) &&
  redSize b % w == 0 && decide (w ≤ redSize b) && decide (redSize b ≤ 4096) &&
  redBase b != 0 && redBase b % w == 0 && leNat ((b.drop 12).take 4) == 0

/-- RDECL (09 R175). A descriptor that cannot be read, on uncorrectable data or in a package that does not answer, is ILLEGAL_OP as a
descriptor that breaks the table is (log 50). -/
def State.rdecl (s : State) (word : W32) (a n : BitVec 7) : State :=
  let va := s.cur.gGet a.toNat
  if s.cur.kind ≠ .root ∨ s.job.reducers ≤ n.toNat ∨ va.toNat % 16 ≠ 0 ∨ 0x1FF ≤ va.toNat / 2 ^ 48 then s.illegal word
  else
    let l := s.groupAcc .load va 16
    match s.gate [l] with
    | some s1 => s1
    | none =>
      match l.tgt with
      | .mem loc attr _ =>
        let b := s.bytesAt loc 16
        let same := match look s.job.redDescs n.toNat with | some x => x == b | none => true
        if 2 ≤ attr ∨ !redDescOk b ∨ !same then s.illegal word
        else
          let s1 := s.putJob { s.job with redDescs := put s.job.redDescs n.toNat b }
          (s1.setCur { s1.cur with reds := if s1.cur.reds.contains n.toNat then s1.cur.reds else s1.cur.reds ++ [n.toNat] }).finish
      | _ => s.illegal word

/-- RDECL (21 R375); by a task ILLEGAL_OP whatever its guard. -/
def execRdecl (q : BitVec 2) (a n : BitVec 7) (s : State) : Outcome State Fault Refusal :=
  convergentFormIf (s.cur.kind == .task) (.rdecl q a n) (fun s => s.rdecl (encode (.rdecl q a n)) a n) s

/-- Whether the group, or the root group a task descends from, has declared a reducer (09 R176). -/
def State.declared (s : State) (n : Nat) : Bool :=
  s.allGroups.any (fun g => g.kind == .root && g.job == s.cur.job && g.team == s.cur.team && g.grp == s.cur.grp && g.reds.contains n)

/-- The identity of an op and type (09 R176). -/
def viewIdent (op ty : Nat) : Nat :=
  if op = 0 then (if ty = 0 then fp32.word true 0 else if ty = 5 then fp64.word true 0 else 0)
  else reduxIdent op (if ty = 0 then 0 else if ty = 5 then 1 else if ty = 3 then 2 else 4)

/-- The views a group holds: of its segments, and those its ended children have reported (09 R178). -/
def Group.allViews (g : Group) : List View := g.views ++ g.childViews
/-- Bytes of views held by a group. -/
def Group.viewBytes (g : Group) : Nat := g.allViews.foldl (fun x v => x + v.size) 0
/-- Scratchpad bytes of some views. -/
def windowBytesOf (l : List View) : Nat := (l.filter View.inWindow).foldl (fun x v => x + roundUp v.size 64) 0
/-- Scratchpad bytes of a group's views. -/
def Group.windowBytes (g : Group) : Nat := windowBytesOf g.allViews
/-- Scratchpad bytes of the views that root groups of a team have left, which wait there to be folded (09 R179). -/
def Job.foldBytes (j : Job) (team : Nat) : Nat := (j.folds.filter (fun f => f.1.1 == team)).foldl (fun x f => x + windowBytesOf f.2) 0
/-- The own-window offset a new view of the segment takes: past S and the segment's views. -/
def State.viewOffset (s : State) : Nat :=
  (s.cur.views.filter (fun v => v.ord == s.cur.seg && v.inWindow)).foldl (fun x v => max x (roundUp (v.va.toNat % 2 ^ 19 + v.size) 64))
    (roundUp s.job.scratch 64)
/-- Whether a group's views take scratchpad of a core: it is resident there, or it is a root group suspended at JOIN whose team is there
(02 R25, R33). -/
def State.holdsViews (s : State) (g : Group) (core : Nat) : Bool :=
  if g.kind == .root && !g.resident then (s.teamOf g.job g.team).resident && (s.teamOf g.job g.team).core == core
  else g.resident && g.core == core
/-- Scratchpad bytes in use on a core: teams, the views their groups have left, and views of strands (02 R25, 09 R179). -/
def State.scratchUsed (s : State) (core : Nat) : Nat :=
  (s.teams.filter (fun t => t.2.resident && t.2.core == core)).foldl (fun x t =>
    x + t.2.bytes + (((look s.jobs t.2.job).map (fun j => j.foldBytes t.2.idx)).getD 0)) 0 +
  (s.allGroups.filter (fun g => s.holdsViews g core)).foldl (fun x g => x + g.windowBytes) 0
/-- Start of the view region (09 R170, R171). -/
def State.viewRegion (s : State) (j : Job) : Nat := s.ownedStart j 40
/-- The live views of a job: of its strands, and of root groups that have exited and are not folded. -/
def State.liveViews (s : State) (j : Job) : List View :=
  (s.allGroups.filter (fun g => g.job == j.id)).flatMap Group.allViews ++ j.folds.flatMap Prod.snd
/-- Whether `size` bytes at an address of the view region touch no live view of the job. -/
def viewFree (l : List View) (at' size : Nat) : Bool :=
  l.all (fun v => v.inWindow || decide (v.va.toNat + roundUp v.size 64 ≤ at') || decide (at' + size ≤ v.va.toNat))
/-- The lowest place of the view region for `size` more bytes (09 R171, R176). -/
def State.regionPlace (s : State) (j : Job) (size : Nat) : Option Nat :=
  let l := s.liveViews j
  let start := s.viewRegion j
  ((start :: (l.filter (fun v => !v.inWindow)).map (fun v => v.va.toNat + roundUp v.size 64)).filter (fun a =>
    decide (start ≤ a) && decide (a + roundUp size 64 ≤ start + s.arenaSize j 40) && viewFree l a (roundUp size 64))).foldl
    (fun x a => match x with | none => some a | some y => some (min y a)) none

/-- The place of `size` bytes in the own window, where the window and the core have room (02 R25, 09 R176). -/
def State.windowPlace (s : State) (size : Nat) : Option Nat :=
  let off := s.viewOffset
  if off + size ≤ 2 ^ 19 ∧ s.scratchUsed s.cur.core + roundUp size 64 ≤ 2 ^ 19 then some (0x1FF * 2 ^ 48 + off) else none

/-- Where a new view goes: the own window or the view region, the device's choice where both have room (09 R176). -/
def State.viewPlace (s : State) (size : Nat) : Option Nat :=
  match s.windowPlace size, s.regionPlace s.job size with
  | some w, some r => some (if s.pick 1 2 == 0 then w else r)
  | some w, none => some w
  | none, r => r

/-- A folded view takes a place of its own in the segment that begins, since views of different segments may have had one address; where
there is room for none it has no address before an RVIEW finds one, and the merge engine holds its bytes meanwhile (09 R176, log 17). -/
def State.placeFold (s : State) (v : View) : State :=
  let va := match (if v.inWindow then s.windowPlace v.size else none) with
    | some w => w
    | none => (s.regionPlace s.job v.size).getD 0
  s.setCur { s.cur with views := s.cur.views ++ [{ v with va := BitVec.ofNat 64 va }] }

/-- A view for which there is no place: RVIEW has no effect and the report comes at once; in a handler it stays pending until after ERET
(09 R176, 13 R255). -/
def State.noPlace (s : State) : State :=
  let s1 := s.putJob { s.job with feat := true }
  if s.cur.handler.isSome then (s1.report' 0x31 2 0#64).finish
  else s1.take ⟨0x31, 3, 2, s.epc, s.fpc, 0#64, 0xFF, s.cur.pdl, s.cur.pdh, none⟩

/-- A new view of reducer `n` at an address, filled with the identity (09 R176). -/
def State.newView (s : State) (n va : Nat) : State :=
  let b := (look s.job.redDescs n).getD []
  let w := groupWidth (redType b)
  let fill := (List.replicate (redSize b / w) (leBytes w (viewIdent (redOp b) (redType b)))).flatten
  let s1 := { s.store (viewLoc s.nextId 0) fill with nextId := s.nextId + 1 }
  s1.setCur { s1.cur with views := s1.cur.views ++ [⟨n, s1.cur.seg, BitVec.ofNat 64 va, redSize b, s.nextId⟩] }

/-- The view of a number takes an address (09 R176). -/
def Group.moveView (g : Group) (key va : Nat) : Group :=
  { g with views := g.views.map (fun v => if v.key = key then { v with va := BitVec.ofNat 64 va } else v) }

/-- RVIEW: the address of the segment's view, which is created where there is none and placed where it has no address (09 R176). -/
def State.rview (s : State) (word : W32) (d n : BitVec 7) : State :=
  if s.job.reducers ≤ n.toNat ∨ !s.declared n.toNat then s.illegal word else
  let own := s.cur.views.find? (fun v => v.red == n.toNat && v.ord == s.cur.seg)
  match own.filter (fun v => v.va != 0#64) with
  | some v => (s.setCur (s.cur.gSet d.toNat v.va)).finish
  | none =>
    match s.viewPlace (redSize ((look s.job.redDescs n.toNat).getD [])) with
    | none => s.noPlace
    | some va =>
      let s1 := match own with
        | some v => s.setCur (s.cur.moveView v.key va)
        | none => s.newView n.toNat va
      (s1.setCur (s1.cur.gSet d.toNat (BitVec.ofNat 64 va))).finish

/-- RVIEW (21 R384). -/
def execRview (q : BitVec 2) (d n : BitVec 7) (s : State) : Outcome State Fault Refusal :=
  convergentForm (.rview q d n) (fun s => s.rview (encode (.rview q d n)) d n) s

/-- combine(left, right) of two words of a reducer (09 R177). -/
def combine (b : List Byte) (x y : Nat) : Nat := groupStep (redOp b) (redType b) x y
/-- Combines a later view into an earlier one, element by element (09 R177). -/
def State.combineViews (s : State) (b : List Byte) (left right : View) : State :=
  let w := groupWidth (redType b)
  (List.range (redSize b / w)).foldl (fun t k =>
    t.storeNat (viewLoc left.key (k * w)) w (combine b (t.natAt (viewLoc left.key (k * w)) w) (t.natAt (viewLoc right.key (k * w)) w))) s

/-- Inserts a view by fold order. -/
def insertView (v : View) : List View → List View
  | [] => [v]
  | x :: l => if v.ord < x.ord then v :: x :: l else x :: insertView v l

/-- The fold of one reducer over its views in serial-elision order (09 R178). -/
def State.foldOne (s : State) (n : Nat) (vs : List View) : State × List View :=
  match (vs.filter (fun v => v.red == n)).foldl (fun l v => insertView v l) [] with
  | [] => (s, [])
  | v :: rest =>
    let b := (look s.job.redDescs n).getD []
    (rest.foldl (fun t r => t.combineViews b v r) s, [{ v with ord := 0 }])

/-- The fold of every reducer of the strand (09 R178). -/
def State.joinMerge (s : State) : State × List View :=
  let vs := s.cur.views ++ s.cur.childViews
  (List.range 16).foldl (fun p n => let r := p.1.foldOne n vs; (r.1, p.2 ++ r.2)) (s, [])

/-- The effects of a completed JOIN (02 R33, 20 R349). -/
def State.joined (s : State) (p : W64 × W64) : State :=
  let r := s.joinMerge
  r.2.foldl State.placeFold (r.1.setCur { r.1.cur with
    fflags := r.1.cur.fflags ||| r.1.cur.childFlags
    childFlags := 0, views := [], childViews := [], spawned := 0, pdh := p.1, pdl := p.2, seqNo := [] })

/-- Whether the merge of the strand's views would read spoilt bytes of a scratchpad (13 R252). -/
def State.mergeUpset (s : State) : Bool :=
  s.cur.allViews.any (fun v => v.inWindow && decide (1 < (s.cur.allViews.filter (fun x => x.red == v.red)).length) &&
    s.poisoned (viewLoc v.key 0) v.size)

/-- JOIN up to its completion: PDG_OVF, the wait, else what follows; spoilt bytes of a scratchpad end the launch (13 R252, 20 R349). -/
def State.joinThen (s : State) (f : State → State) : State :=
  match joinPedigree s.cur.pdh s.cur.pdl with
  | none => s.stopFault 0x13 1 0#64 0xFF
  | some p => if s.cur.children ≠ 0 then s.block .join else if s.mergeUpset then s.spadUpset 0#64 else f (s.joined p)

/-- JOIN (20 R349). -/
def execJoin (q : BitVec 2) (s : State) : Outcome State Fault Refusal :=
  convergentForm (.join q) (fun s => s.atDelivery (fun s => s.joinThen State.finish)) s

/-! ## The end of a group (02 R34, 10 R210, 12 R246, 19 R335) -/

/-- An engine operation of a team that has not arrived (10 R210). -/
def EngOp.inFlight (o : EngOp) (job team : Nat) : Bool :=
  o.job == job && o.team == team && !o.task && (match o.kind with | .slot _ _ => false | _ => true)

/-- Whether an operation moves data for a job. -/
def EngOp.moves (o : EngOp) (job : Nat) : Bool := o.job == job && (match o.kind with | .slot _ _ => false | _ => true)

/-- A team whose groups have ended and whose engine operations have arrived ends: its logical core is free (02 R26, 10 R210). It does not wait for
triggered operations that have fired: the model's choice (log 21). -/
def State.teamEnd (s : State) (job team : Nat) : State :=
  let t := s.teamOf job team
  if t.live ≠ 0 ∨ s.ops.any (fun o => o.inFlight job team) ∨ (look s.teams (teamKey job team)).isNone then s else
  match look s.jobs job with
  | none => { s with teams := drop s.teams (teamKey job team) }
  | some j =>
    let l := j.lcoreOf t.lcore
    { s with teams := drop s.teams (teamKey job team), ops := s.ops.filter (fun o => !(o.job == job && o.team == team && !o.task)) }.putJob
      { j with liveTeams := j.liveTeams - 1, lcores := put j.lcores t.lcore { l with team := none, rounds := team / max 1 j.logical + 1 } }

/-- Hands a task's completion to its parent (02 R33, R34, 09 R178). -/
def State.reportTo (s : State) (t : Group) : State :=
  match (s.groupOf t.parent).filter (fun p => p.job == t.job) with
  | none => s
  | some p => s.putGroup { p with
      children := p.children - 1
      childFlags := p.childFlags ||| t.fflags
      childViews := p.childViews ++ t.views.map (fun v => { v with ord := 2 * t.rank - 1 }) }

/-- The group in focus leaves its slot for good. -/
def State.vacate (s : State) : State := { s with cur := Group.blank, split := 0, limm := none, tick := s.tick + 1 }

/-- The group, task or sequencer in focus ends (19 R335). -/
def State.endGroup (s : State) : State :=
  let g := s.cur
  match g.kind with
  | .task => if g.stolen then
      { s.setCur { g with done := true, resident := false, splits := [] } with tick := s.tick + 1, limm := none }
    else (s.reportTo g).vacate
  | .seq => (s.putJob { s.job with liveSeqs := s.job.liveSeqs - 1 }).vacate
  | _ =>
    let t := s.team
    let bars := (List.range 16).map (fun n => (n, (t.bar n).leave g.grp))
    let s1 := s.putTeam { t with bars := bars, live := t.live - 1 }
    let s2 := s1.putJob { s1.job with folds := if g.views.isEmpty then s1.job.folds else s1.job.folds ++ [((g.team, g.grp), g.views)] }
    s2.vacate.teamEnd g.job g.team

/-- The lane reports a final EXIT still owes (13 R251). -/
def Group.laneOwed (g : Group) : Option Pend := g.pend.find? (fun p => p.cls == 2)

/-- The delivered code of a lane report: ctl.lfm.CAUSE, or its own once the program has cleared ctl.lfm (13 R251). -/
def Group.laneCode (g : Group) (p : Pend) : Nat :=
  let c := (g.lfm.extractLsb' 32 4).toNat
  if c = 0 then p.code else 0x20 + c
/-- Delivers as one trap the lane reports of the split in focus and of splits that have ended, in the group's last split all of them
(13 R251, R255, log 18). -/
def State.deliverLane (s : State) (p : Pend) : State :=
  s.deliver (p.exc (s.cur.laneCode p) s.epc) (s.cur.pend.filter (fun x => !(Pend.laneOf s.split x || (s.lastSplit && x.cls == 2))))

/-- The end of a group's last split: the lane reports that waited, else the end of the group. A handler's split has left the handler by
then (13 R251, 19 R335). -/
def State.exitLast (s : State) : State :=
  let t := s.leaveHandler
  match t.cur.laneOwed with
  | some p => t.deliverLane p
  | none => t.endGroup

/-- A report whose split has ended (13 R251). -/
def Pend.orphan (e : Nat) (x : Pend) : Pend := if x.split = e then { x with split := 4 } else x

/-- EXIT (19 R335). -/
def State.exit (s : State) : State :=
  if s.lastSplit then
    s.leaveHandler.atDelivery (fun _ => if s.cur.children = 0 ∧ s.cur.spawned = 0 then s.exitLast else s.joinThen State.exitLast)
  else
    let s1 := s.consume.leaveHandler
    let g := s1.cur.dropSplit s.split
    { s1.setCur { g with pend := g.pend.map (Pend.orphan s.split) }.popPath with tick := s.tick + 1, limm := none }

/-- EXIT (19 R335). -/
def execExit (q : BitVec 2) (s : State) : Outcome State Fault Refusal := groupForm (.exit q) State.exit s

end Sys2Proof.Machine
end

