-- ==== Sys2Proof/Machine/Engine.lean ====
section
/-! DEFINITION. The copy engines: CPY, CPYR, CPYT, TSRF and TRIG at issue, and the arrival and completion of what they start
(07 R142 to R144, 10 R190 to R201, R206 to R210, 19 R326 to R328, 22 R400 to R402). -/
namespace Sys2Proof.Machine
open Host

/-! ## Where an engine's access goes (06 R111, R126, 10 R195) -/

/-- Who an engine works for: its job, team, group and cluster, whether a task issued it, whether a wait on a parked core is past
its limit, whether the launch is ending, so that nothing is restored any more, the pages refused, and those asked for with their access mask. -/
structure Mover where
  job : Nat
  team : Nat
  gid : Nat
  cluster : Option Nat
  task : Bool
  late : Bool
  ended : Bool
  refused : List Nat
  asked : List (Nat × Nat)
  deriving DecidableEq, Repr

/-- The spaces a side of an operation may lie in (10 R195). -/
structure Spaces where
  ordinary : Bool
  device : Bool
  own : Bool
  peer : Bool
  bstore : Bool
  deriving DecidableEq, Repr

/-- CPY source and destination. -/
def Spaces.copy : Spaces := ⟨true, true, true, true, true⟩
/-- CPYR source. -/
def Spaces.reduceSrc : Spaces := ⟨false, false, true, false, false⟩
/-- CPYR destination. -/
def Spaces.reduceDst : Spaces := ⟨true, false, false, false, false⟩
/-- CPYT tensor side. -/
def Spaces.tensor : Spaces := ⟨true, true, false, false, false⟩
/-- CPYT local side. -/
def Spaces.dense : Spaces := ⟨false, false, true, true, true⟩
/-- Destination of a signal write (10 R208). -/
def Spaces.signal : Spaces := ⟨true, false, true, true, false⟩
/-- Either side of a copy packet (12 R237). -/
def Spaces.packet : Spaces := ⟨true, true, false, false, true⟩

/-- What an engine's access reaches: memory or a device register, with the attribute of the page, an ECAUSE, a failed translation, a parked
core. -/
inductive EngTarget where
  | mem (loc attr : Nat) (scratch : Bool)
  | mmio (pa attr : Nat)
  | err (cause : Nat)
  | miss (page access : Nat)
  | parked
  deriving DecidableEq, Repr

/-- An access inside a team's scratchpad (10 R192, R210). -/
def State.engScratch (s : State) (m : Mover) (team off align n : Nat) : EngTarget :=
  if off % align ≠ 0 then .err 3 else
  match look s.teams (teamKey m.job team) with
  | none => .err 4
  | some t =>
    if !t.resident && !m.ended then (if m.late then .err 4 else .parked)
    else if t.bytes < off + n then .err 4 else .mem (scratchLoc m.job team off) 0 true

/-- An ordinary address of an engine: its page, or a refusal, which is ECAUSE 1, or the page request it waits for (06 R126, 10 R192). -/
def State.engWalk (s : State) (m : Mover) (write : Bool) (va : Nat) (f : Page → EngTarget) : EngTarget :=
  let page := va / 2 ^ 16 * 2 ^ 16
  let miss := EngTarget.miss page (if write then 2 else 1)
  if m.refused.contains page then .err 1
  else if asksFor m.asked page write then miss
  else match s.translate ((look s.jobs m.job).getD Job.blank).root va with
  | none => miss
  | some p => if write && !p.w then miss else f p

/-- The target of an engine's access of `n` bytes at an address aligned to `align`; a view of the view region is translated too (21 R385). -/
def State.engTarget (s : State) (m : Mover) (sp : Spaces) (write : Bool) (ea : W64) (align n : Nat) : EngTarget :=
  let va := ea.toNat
  let j := (look s.jobs m.job).getD Job.blank
  if va / 2 ^ 57 ≠ 0 then .err 2 else
  match (if va / 2 ^ 48 = 0x1FF ∧ va / 2 ^ 44 % 16 ≠ 0 then none else (s.groupOf m.gid).bind (fun g => g.viewAt va)) with
  | some w =>
    if (if va / 2 ^ 48 = 0x1FF then !sp.own else !sp.ordinary) then .err 2
    else if va % align ≠ 0 then .err 3
    else if w.va.toNat + w.size < va + n then .err 4
    else if w.inWindow then .mem (viewLoc w.key (va - w.va.toNat)) 0 true
    else s.engWalk m write va (fun p => if s.farFails p.pa then .err 7 else .mem (viewLoc w.key (va - w.va.toNat)) 0 true)
  | none =>
  if va / 2 ^ 48 = 0x1FF then
    match va / 2 ^ 44 % 16 with
    | 0 => if !sp.own || va / 2 ^ 19 % 2 ^ 25 != 0 || m.task then .err 2 else s.engScratch m m.team (va % 2 ^ 19) align n
    | 1 =>
      let lc := va / 2 ^ 32 % 2 ^ 12
      if !sp.peer || va / 2 ^ 19 % 2 ^ 13 != 0 || decide (j.logical ≤ lc) || j.lcoreDone lc then .err 2
      else if va % align ≠ 0 then .err 3
      else match (j.lcoreOf lc).team, (j.lcoreOf lc).core.isSome || m.ended with
      | some t, true => s.engScratch m t (va % 2 ^ 19) align n
      | _, _ => if m.late || m.ended then .err 4 else .parked
    | 3 =>
      let c := va / 2 ^ 32 % 2 ^ 12
      let k := if c = 0xFFF then m.cluster else some c
      let off := va % 2 ^ 25
      (match k with
       | none => .err 2
       | some k =>
         if !sp.bstore || va / 2 ^ 25 % 2 ^ 7 != 0 || decide (12 * s.dies ≤ k) || !s.bst || (s.hasKiln && decide (0x1800000 ≤ off)) then .err 2
         else if va % align ≠ 0 then .err 3 else .mem (bstoreLoc k off) 0 true)
    | _ => .err 2
  else if !sp.ordinary then .err 2
  else if va % align ≠ 0 then .err 3
  else
    s.engWalk m write va (fun p =>
      if p.attr = 3 ∨ (p.attr = 2 ∧ !sp.device) then .err 2
      else if s.farFails p.pa then .err 7
      else if s.isMmio p.pa then .mmio p.pa p.attr
      else .mem p.pa p.attr false)

/-- The target of an engine's read: uncorrectable data is ECAUSE 7 (10 R192, 13 R252). -/
def State.engRead (s : State) (m : Mover) (sp : Spaces) (ea : W64) (align n : Nat) : EngTarget :=
  match s.engTarget m sp false ea align n with
  | .mem loc attr scratch => if s.poisoned loc n then .err 7 else .mem loc attr scratch
  | t => t

/-! ## Elements with their targets (10 R196 to R200) -/

/-- An element with its targets. -/
structure Aimed where
  elem : Elem
  src : EngTarget
  dst : EngTarget
  deriving DecidableEq, Repr

/-- Aims an element: both sides are checked, a misaligned lane by its own rule (10 R196). Of one address that fails two checks the cause of its
space or range comes before ECAUSE 3: the model's choice (log 20). -/
def State.aim (s : State) (m : Mover) (spS spD : Spaces) (e : Elem) : Aimed :=
  ⟨e, match e.src with
    | none => .mem 0 0 false
    | some a => if e.alignS then s.engRead m spS a 1 e.n else (match s.engTarget m spS false a 1 e.n with | .err c => .err c | _ => .err 3),
   if e.alignS then s.engTarget m spD true e.dst 1 e.n else (match s.engTarget m spD true e.dst 1 e.n with | .err c => .err c | _ => .err 3)⟩

/-- The cause of an element's error, zero for none. -/
def Aimed.cause (a : Aimed) : Nat :=
  match a.src, a.dst with
  | .err c, _ => c
  | _, .err c => c
  | _, _ => 0

/-- An order the device chooses: elements drawn one at a time. -/
def State.shuffle {α : Type} (s : State) (salt : Nat) : Nat → List α → List α
  | 0, l => l
  | n + 1, l =>
    let i := s.pick (salt + n) l.length
    match l[i]? with
    | none => l
    | some x => x :: State.shuffle s salt n (l.eraseIdx i)

/-- What a list of elements waits for: page requests, or a parked core. -/
def State.engWaits (s : State) (root : W64) (queue : Nat) (o : Owner) (l : List Aimed) : Option State :=
  let misses := l.flatMap (fun a => (match a.src with | .miss p x => [(p, x)] | _ => []) ++ (match a.dst with | .miss p x => [(p, x)] | _ => []))
  if !misses.isEmpty then some (misses.foldl (fun t m => (t.request m.1 root queue (m.2 ||| 8) o).1) s)
  else if l.any (fun a => a.src == .parked || a.dst == .parked) then some s
  else none

/-- What an element moves: what its source holds, or the fill. -/
def State.readElem (s : State) (a : Aimed) : Nat :=
  match a.elem.src, a.src with
  | some _, .mem l _ _ => s.natAt l a.elem.n
  | some _, .mmio pa _ => s.mmioRead (mmioOff pa) a.elem.n
  | _, _ => a.elem.fill

/-- How an operation performs an element: the state, the value moved, the target, the element. -/
abbrev Perform := State → Nat → EngTarget → Elem → State

/-- Performs one element by `f`, given the state before the operation; after an error elsewhere it may be left out (10 R198). -/
def moveOne (s0 : State) (bad : Bool) (f : Perform) (p : State × Nat) (a : Aimed) : State × Nat :=
  if a.cause ≠ 0 ∨ (bad ∧ s0.pick (2 ^ 33 + p.2) 2 = 0) then (p.1, p.2 + 1)
  else (f p.1 (if s0.pick (2 ^ 34 + p.2) 2 = 0 then s0.readElem a else p.1.readElem a) a.dst a.elem, p.2 + 1)

/-- Performs the elements, in an order of the device's choice or as listed; the state and the cause of the first error met
(09 R184, 10 R196, R198). -/
def State.moveAll (s : State) (listed : Bool) (l : List Aimed) (f : Perform) : State × Nat :=
  let o := if listed then l else s.shuffle (2 ^ 35) l.length l
  let bad := o.any (fun a => a.cause != 0)
  ((o.foldl (moveOne s bad f) (s, 0)).1, ((o.find? (fun a => a.cause != 0)).map Aimed.cause).getD 0)

/-- A copied element. -/
def copyElem (t : State) (x : Nat) (dst : EngTarget) (e : Elem) : State :=
  match dst with
  | .mem loc _ _ => t.storeNat loc e.n x
  | .mmio pa _ => t.mmioWrite (mmioOff pa) e.n x
  | _ => t

/-- A copied element of a 6-bit format: bits 7:6 of the byte are written as zero (05 R88). -/
def copySix (t : State) (x : Nat) (dst : EngTarget) (e : Elem) : State := copyElem t (x % 64) dst e

/-- Reports DAB_SPILL_FULL to a group by number and marks its launch (09 R183). -/
def State.spillAt (s : State) (jid gid : Nat) (addr : W64) : State :=
  let s1 := match s.groupOf gid with
    | some g => s.putGroup { g with pend := g.pend ++ [⟨3, 0x31, 0, (g.splits.headD ⟨0, 0, 0, .ready, none, false, 0, 0, false⟩).pc, addr, 0, g.pdl, g.pdh, 0#64, 0#64, g.handler.isSome⟩] }
    | none => s
  match look s1.jobs jid with
  | some j => s1.putJob { j with feat := true }
  | none => s1

/-- A reduced element: one atomic at the destination's home; float adds are deferred under DET (10 R197, 09 R180, R184). An add to a view of the
strand, in the view region too, takes place at once: the model's choice (log 17). -/
def reduceElem (jid gid rop rtype : Nat) (pdh pdl : W64) (t : State) (x : Nat) (dst : EngTarget) (e : Elem) : State :=
  let j := (look t.jobs jid).getD Job.blank
  match dst with
  | .mem loc attr scratch =>
    if rop = 0 ∧ (rtype = 0 ∨ rtype = 5) ∧ j.det ∧ !scratch ∧ attr < 2 then
      (if j.detc then t.appendPartial j (rootTeam pdh pdl) loc e.n (BitVec.ofNat 64 x)
       else t.appendAdd j ⟨loc, e.n, BitVec.ofNat 64 x, pdh, pdl, e.lane, e.sq⟩).getD (t.spillAt jid gid e.dst)
    else t.storeNat loc e.n (groupStep rop rtype (t.natAt loc e.n) x)
  | _ => t

/-- Whether the elements of a reduction go to partial sums, whose lanes arrive in ascending order (09 R184). -/
def Job.sums (j : Job) (rop rtype : Nat) : Bool := j.detc && rop == 0 && (rtype == 0 || rtype == 5)

/-! ## The completion operand (10 R191) -/

/-- BBOFF. -/
def coOff (x : Nat) : Nat := bitsOf x 18 0
/-- Bytes a lane moves. -/
def coBytes (x : Nat) : Nat := 4 * 2 ^ bitsOf x 20 19
/-- ROP. -/
def coRop (x : Nat) : Nat := bitsOf x 23 21
/-- RTYPE. -/
def coType (x : Nat) : Nat := bitsOf x 26 24
/-- DIR. -/
def coDir (x : Nat) : Nat := bitsOf x 27 27
/-- PBB. -/
def coPeer (x : Nat) : Bool := x.testBit 28
/-- PLC. -/
def coCore (x : Nat) : Nat := bitsOf x 40 29
/-- The fields every engine instruction checks. -/
def coOk (x : Nat) : Bool := decide (x < 2 ^ 41) && (coPeer x || coCore x == 0)
/-- CPY's use of the operand. -/
def coCpyOk (x : Nat) : Bool := coOk x && bitsOf x 20 19 != 3 && coRop x == 0 && coType x == 0 && coDir x == 0
/-- Whether an operation and type of a reduction are assigned and agree. -/
def ropOk (rop ty : Nat) : Bool :=
  decide (rop ≤ 4) && (ty == 0 || ty == 3 || ty == 4 || ty == 5 || ty == 6) && !(decide (3 ≤ rop) && (ty == 0 || ty == 5))
/-- CPYR's use of the operand. -/
def coCpyrOk (x : Nat) : Bool :=
  coOk x && bitsOf x 20 19 != 3 && ropOk (coRop x) (coType x) && decide (groupWidth (coType x) ≤ coBytes x) && coDir x == 0
/-- CPYT's use of the operand. -/
def coCpytOk (x : Nat) : Bool := coOk x && bitsOf x 26 19 == 0

/-- The address of the barrier a completion operand names. -/
def coAddr (x : Nat) : W64 :=
  BitVec.ofNat 64 (if coPeer x then 0x1FF1 * 2 ^ 44 + coCore x * 2 ^ 32 + coOff x else 0x1FF0 * 2 ^ 44 + coOff x)

/-- The barrier of an engine instruction: the checks of R194, then LANE_WINDOW for a task's own barrier (19 R326). -/
def State.coRef (s : State) (x : Nat) : BbRef :=
  if s.cur.kind = .task ∧ !coPeer x then
    (if coOff x % 8 ≠ 0 then .bad 0x17 else if s.team.bytes < coOff x + 8 then .bad 0x21 else .bad 0x23)
  else s.bbRef (coAddr x).toNat

/-- Runs `f` on the barrier of a completion operand. -/
def State.withCompletion (s : State) (x : Nat) (f : Nat → Nat → State) : State :=
  match s.coRef x with
  | .at team off => f team off
  | .bad c => s.stopFault c 0 (coAddr x) 0
  | .waits lc => s.block (.peer lc 0 (coAddr x))

/-! ## Footprints and issue (07 R143) -/

/-- A range of addresses rounded outward to granules of 32 bytes: start and length. -/
def granules (lo hi : Nat) : Nat × Nat := (lo / 32 * 32, (hi + 31) / 32 * 32 - lo / 32 * 32)
/-- The bounding range of accesses of `n` bytes. -/
def boundOf (l : List W64) (n : Nat) : Nat × Nat :=
  match l with
  | [] => (0, 0)
  | a :: r => granules (r.foldl (fun x b => min x b.toNat) a.toNat) (r.foldl (fun x b => max x (b.toNat + n)) (a.toNat + n))

/-- Whether the core's footprint table has an entry free (07 R143). -/
def State.footRoom (s : State) : Bool := decide ((s.ops.filter (fun o => o.core == s.cur.core)).length < 16)

/-- Whether an operation names the B-store window (13 R264). -/
def OpKind.usesB : OpKind → Bool
  | .copy ps _ => ps.any (fun p => p.1.toNat / 2 ^ 44 == 0x1FF3 || p.2.toNat / 2 ^ 44 == 0x1FF3)
  | .tile _ loc _ _ _ => loc.toNat / 2 ^ 44 == 0x1FF3
  | _ => false

/-- Starts an engine operation of the instruction in focus and completes the instruction (07 R142). -/
def State.launchOp (s : State) (k : OpKind) (team off : Nat) (reads writes : List (Nat × Nat)) : State :=
  let o : EngOp := ⟨s.nextId, s.cur.job, s.cur.team, s.cur.gid, s.cur.core, k, team, off, s.cur.kind == .task,
    s.cur.pdh, s.cur.pdl, reads, writes, s.time, s.cur.gtimeout.toNat, [], [], []⟩
  ({ s with ops := s.ops ++ [o], nextId := s.nextId + 1 }.putJob { s.job with bstUse := s.job.bstUse || k.usesB }).finish

/-- The lanes' addresses in a pair. -/
def State.lanePairs (s : State) (d a : BitVec 7) (m : W32) : List (W64 × W64) :=
  (lanesOfMask m).map (fun l => (s.cur.vGet2 a.toNat l, s.cur.vGet2 d.toNat l))

/-- CPY at issue (19 R326, R327). -/
def execCpy (q : BitVec 2) (d a b : BitVec 7) (s : State) : Outcome State Fault Refusal :=
  laneFormIf (!coCpyOk (s.cur.gGet b.toNat).toNat) (.cpy q d a b) (fun m s =>
    let x := (s.cur.gGet b.toNat).toNat
    s.withCompletion x (fun team off =>
      if m = 0#32 then s.onWord (coAddr x) team off (fun s => (s.bbUpdate s.cur.job team off 0 0 0).finish)
      else if !s.footRoom then s.block .footprint
      else
        let ps := s.lanePairs d a m
        s.launchOp (.copy ps (coBytes x)) team off [boundOf (ps.map Prod.fst) (coBytes x)] [boundOf (ps.map Prod.snd) (coBytes x)])) s

/-- Whether float adds of an operation are deferred (09 R180). -/
def Job.defers (j : Job) (rop rtype : Nat) : Bool := j.det && !j.detc && rop == 0 && (rtype == 0 || rtype == 5)

/-- CPYR at issue: the lanes' sequence numbers are taken here (09 R180, 19 R326, R327). -/
def execCpyr (q : BitVec 2) (d a b : BitVec 7) (s : State) : Outcome State Fault Refusal :=
  laneFormIf (!coCpyrOk (s.cur.gGet b.toNat).toNat) (.cpyr q d a b) (fun m s =>
    let x := (s.cur.gGet b.toNat).toNat
    s.withCompletion x (fun team off =>
      if m = 0#32 then s.onWord (coAddr x) team off (fun s => (s.bbUpdate s.cur.job team off 0 0 0).finish)
      else if !s.footRoom then s.block .footprint
      else
        let ps := s.lanePairs d a m
        let ls := (lanesOfMask m).map (fun l => (l, (s.cur.seqNo.get l).toNat))
        let n := coBytes x / groupWidth (coType x)
        let sq := if s.job.defers (coRop x) (coType x) then
          ls.foldl (fun c l => c.set l.1 (BitVec.ofNat 32 (l.2 + n))) s.cur.seqNo else s.cur.seqNo
        (s.setCur { s.cur with seqNo := sq }).launchOp (.reduce ps ls (coBytes x) (coRop x) (coType x)) team off
          [boundOf (ps.map Prod.fst) (coBytes x)] [boundOf (ps.map Prod.snd) (coBytes x)])) s

/-! ## CPYT and TSRF at issue (10 R199 to R201) -/

/-- The record as the engine finds it at issue, for the footprint; none where it cannot be read then. -/
def State.recordNow (s : State) (rec : W64) : Option (List Byte) :=
  match s.translate s.job.root rec.toNat with
  | some p => if rec.toNat % 64 = 0 ∧ rec.toNat / 2 ^ 48 < 0x1FF ∧ p.attr = 0 ∧ !s.isMmio p.pa then some (s.bytesAt p.pa 64) else none
  | none => none

/-- The tensor range of a box; every ordinary address where the record tells none. -/
def State.boxRange (s : State) (rec k : W64) : (Nat × Nat) × Nat :=
  match s.recordNow rec with
  | some b => if recOk b k then (boundOf (((boxUnits b k).filter (fun u => u.2.2)).map (fun u => u.2.1)) (unitBytes (recFmt b)), boxBytes b)
      else ((0, 0x1FF * 2 ^ 48), 262144)
  | none => ((0, 0x1FF * 2 ^ 48), 262144)

/-- The mark a record is read under: the latest of the launch's start, the core's last TSRF and the group's own, which goes with the
group when it moves to another core (10 R201). -/
def State.recordMark (s : State) : Nat := max (max s.job.mark s.cur.mark) ((look s.records s.cur.core).getD 0)

/-- CPYT at issue (19 R326, R327). -/
def execCpyt (q : BitVec 2) (d a b : BitVec 7) (s : State) : Outcome State Fault Refusal :=
  groupForm (.cpyt q d a b) (fun s =>
    let x := (s.cur.gGet b.toNat).toNat
    if !coCpytOk x then s.illegal (encode (.cpyt q d a b)) else
    s.withCompletion x (fun team off =>
      if !s.footRoom then s.block .footprint
      else
        let loc := s.cur.gGet d.toNat
        let rcd := s.cur.gGet a.toNat
        let k := s.cur.gGet (b.toNat + 1)
        let r := s.boxRange rcd k
        let dense := granules loc.toNat (loc.toNat + r.2)
        s.launchOp (.tile rcd loc k (coDir x) s.recordMark) team off
          [if coDir x = 0 then r.1 else dense] [if coDir x = 0 then dense else r.1])) s

/-- TSRF: the core's record cache is invalidated, and no CPYT of the group reads an older word (10 R201, 22 R402). -/
def execTsrf (q : BitVec 2) (s : State) : Outcome State Fault Refusal :=
  groupForm (.tsrf q) (fun s =>
    { s.setCur { s.cur with mark := s.hist.length } with records := put s.records s.cur.core s.hist.length }.finish) s

/-! ## Arrival (10 R193, R196 to R201) -/

/-- Whether a launch is ending: nothing of it is restored any more (13 R259). -/
def State.jobOver (s : State) (job : Nat) : Bool :=
  match (look s.jobs job).map Job.phase with | some (.ending _) => true | _ => false

/-- Who an engine operation works for. -/
def State.opMover (s : State) (o : EngOp) : Mover :=
  ⟨o.job, o.team, o.gid, some (o.core / 8), o.task, o.limit != 0 && decide (o.since + 1000 * o.limit < s.time), s.jobOver o.job, o.refused,
    s.asked ((look s.jobs o.job).getD Job.blank).root (.engine o.id)⟩

/-- The record a CPYT uses: each word any value held since the mark (10 R201), device registers as a read of 64 bytes finds them, zero
(14 R268); an ECAUSE where it cannot be read. -/
def State.record (s : State) (m : Mover) (rec : W64) (mark : Nat) : EngTarget × List Byte :=
  let t := s.engRead m ⟨true, false, false, false, false⟩ rec 64 64
  match t with
  | .mem loc 0 _ => (t, (List.range 8).flatMap (fun i => s.someHeld mark (loc + 8 * i) 8))
  | .mem _ _ _ => (.err 2, [])
  | .mmio pa 0 => (.mem pa 0 false, leBytes 64 (s.mmioRead (mmioOff pa) 64))
  | .mmio _ _ => (.err 2, [])
  | _ => (t, [])

/-- The elements of an operation with their targets. -/
def State.opElems (s : State) (o : EngOp) : List Aimed :=
  let m := s.opMover o
  o.elems.map (match o.kind with
    | .reduce _ _ _ _ _ => s.aim m .reduceSrc .reduceDst
    | .box _ _ _ dir => if dir = 0 then s.aim m .tensor .dense else s.aim m .dense .tensor
    | _ => s.aim m .copy .copy)
/-- How an operation performs an element. -/
def EngOp.perform (o : EngOp) : Perform :=
  match o.kind with
  | .reduce _ _ _ rop rtype => reduceElem o.job o.gid rop rtype o.pdh o.pdl
  | .box b _ _ _ => if recFmt b = 7 ∨ recFmt b = 8 then copySix else copyElem
  | _ => copyElem
/-- The bytes an operation arrives with. -/
def EngOp.bytes (o : EngOp) : Nat :=
  match o.kind with
  | .copy ps size => size * ps.length
  | .reduce ps _ size _ _ => size * ps.length
  | .box b _ _ _ => boxBytes b
  | _ => 0
/-- Whether an operation's elements go to partial sums (09 R184). -/
def State.opSums (s : State) (o : EngOp) : Bool :=
  match o.kind with
  | .reduce _ _ _ rop rtype => ((look s.jobs o.job).getD Job.blank).sums rop rtype
  | _ => false

/-- The elements of a list that have not been performed. -/
def leftOf (early : List Nat) (l : List Aimed) : List Aimed := (l.zipIdx.filter (fun p => !early.contains p.2)).map Prod.fst

/-- Removes an operation that arrived, with its bytes at its barrier; an exited team's barrier discards them, a spoilt word of a barrier ends
the launch (10 R193, R210, 13 R252). -/
def State.arrive (s : State) (o : EngOp) (bytes cause : Nat) : State :=
  let s1 := { s with ops := s.ops.filter (fun x => x.id != o.id), tick := s.tick + 1 }
  let s2 := if (look s1.teams (teamKey o.job o.bbTeam)).isNone then s1
    else if s1.poisoned (scratchLoc o.job o.bbTeam o.bbOff) 8 then s1.endJob o.job 1 (s1.upsetRecord 1 Group.blank 3)
    else s1.bbUpdate o.job o.bbTeam o.bbOff 0 bytes cause
  s2.teamEnd o.job o.team

/-! ### The words of a CPYT (07 R144, 20 R354)

A unit may lie across words of 4 bytes and share them with its neighbours; each word is read once for a row of the box, and written whole. -/

/-- An element whose source word has been read carries what was read then. -/
def keptElem (kept : List ((Nat × Nat) × Nat)) (a : Aimed) : Aimed :=
  match a.elem.src, a.src with
  | some _, .mem l _ _ =>
    (match (if l % 4 + a.elem.n ≤ 4 then kept.lookup (a.elem.lane, l / 4) else none) with
     | some x => ⟨{ a.elem with src := none, fill := x / 2 ^ (8 * (l % 4)) % 2 ^ (8 * a.elem.n) }, .mem 0 0 false, a.dst⟩
     | none => a)
  | _, _ => a
/-- Whether two elements write one word. -/
def Aimed.meets (a b : Aimed) : Bool :=
  match a.dst, b.dst with | .mem x _ _, .mem y _ _ => x / 4 == y / 4 | _, _ => false
/-- The words that elements read now, as they stand. -/
def State.readWords (s : State) (g : List Aimed) : List ((Nat × Nat) × Nat) :=
  g.filterMap (fun a => match a.elem.src, a.src with
    | some _, .mem l _ _ => some ((a.elem.lane, l / 4), s.natAt (l / 4 * 4) 4)
    | _, _ => none)
/-- The elements of a CPYT that are performed with element `k`: those left that write its word. -/
def EngOp.wordOf (o : EngOp) (l : List Aimed) (k : Nat) : List (Aimed × Nat) :=
  let word := l[k]?
  l.zipIdx.filter (fun p => (p.2 == k || (word.map p.1.meets).getD false) && !o.early.contains p.2)
/-- A CPYT performs the word that element `k` writes, as one write of the word. -/
def State.boxWord (s : State) (o : EngOp) (l : List Aimed) (k : Nat) : State × EngOp :=
  let g := (o.wordOf l k).map (fun p => (keptElem o.kept p.1, p.2))
  let t := (s.shuffle (2 ^ 37) g.length (g.map Prod.fst)).foldl (fun t a => o.perform t (s.readElem a) a.dst a.elem) s
  let t1 := match (l[k]?).map Aimed.dst with
    | some (.mem x _ _) => { t with hist := ⟨x / 4 * 4, s.bytesAt (x / 4 * 4) 4⟩ :: s.hist }
    | _ => t
  (t1, { o with early := g.map Prod.snd ++ o.early, kept := o.kept ++ s.readWords (g.map Prod.fst) })
/-- The elements of a CPYT that an error leaves unperformed: those of each unit that meets one, and of any other unit the device's choice
(10 R198). -/
def State.boxSkips (s : State) (l : List (Aimed × Nat)) : List Nat :=
  let bad := (l.filter (fun p => p.1.cause != 0)).map (fun p => p.1.elem.sq)
  if bad.isEmpty then [] else
    (l.filter (fun p => bad.contains p.1.elem.sq || s.pick (2 ^ 33 + p.1.elem.sq) 2 == 0)).map Prod.snd
/-- The elements of a CPYT that have not been performed, with their numbers. -/
def State.boxLeft (s : State) (o : EngOp) : List (Aimed × Nat) :=
  (s.opElems o).zipIdx.filterMap (fun p => if o.early.contains p.2 then none else some (keptElem o.kept p.1, p.2))
/-- Performs the words of a CPYT that are left, in an order of the device's choice; the state and the cause of the first error met. -/
def State.boxAll (s : State) (o : EngOp) : State × Nat :=
  let l := s.boxLeft o
  let r := s.shuffle (2 ^ 35) l.length l
  let o1 : EngOp := { o with early := s.boxSkips l ++ o.early }
  let all := s.opElems o
  ((r.foldl (fun (p : State × EngOp) x => if p.2.early.contains x.2 then p else p.1.boxWord p.2 all x.2) (s, o1)).1,
    ((r.find? (fun x => x.1.cause != 0)).map (fun x => x.1.cause)).getD 0)

/-- The elements of an operation that are left, a CPYT's with what it has read already. -/
def State.opLeft (s : State) (o : EngOp) : List Aimed := (leftOf o.early (s.opElems o)).map (keptElem o.kept)

/-- Performs the elements of an operation that are left and arrives, or waits. -/
def State.arriveAll (s : State) (o : EngOp) : State :=
  let j := (look s.jobs o.job).getD Job.blank
  let l := s.opLeft o
  match s.engWaits j.root j.queue (.engine o.id) l with
  | some s1 => s1.idle
  | none =>
    let r := match o.kind with
      | .box _ _ _ _ => s.boxAll o
      | _ => s.moveAll (s.opSums o) l o.perform
    r.1.arrive o o.bytes r.2

/-- Whether an operation may move anything: every earlier operation it must follow has arrived (07 R143). That it then moves nothing at all and
does not arrive, where the rule orders the overlap alone, is the model's choice (log 20). -/
def State.opTurn (s : State) (o : EngOp) : Bool := !(opsBefore s.ops o.id).any o.follows
/-- Whether the team of an operation's barrier is parked, and will be restored (10 R210, 13 R259). -/
def State.opAway (s : State) (o : EngOp) : Bool :=
  !s.jobOver o.job && (match look s.teams (teamKey o.job o.bbTeam) with | some t => !t.resident | none => false)

/-- The arrival of an operation (10 R193): only once every earlier operation it must follow has arrived and its barrier's team is resident. Of a
CPYT with an invalid record and a misaligned local address it reports ECAUSE 5: the model's choice (log 23). -/
def State.engineArrival (s : State) (id : Nat) : State :=
  match s.ops.find? (fun o => o.id == id) with
  | none => s.idle
  | some o =>
    if !s.opTurn o || s.opAway o then s.idle else
    match o.kind with
    | .slot _ _ => s.idle
    | .tile rec loc k dir mark =>
      let j := (look s.jobs o.job).getD Job.blank
      (match s.record (s.opMover o) rec mark with
       | (.mem _ _ _, b) =>
         if !recOk b k then s.arrive o (boxBytes b) 5
         else if loc.toNat % 16 ≠ 0 then s.arrive o (boxBytes b) 3
         else s.arriveAll { o with kind := .box b loc k dir }
       | (.err c, _) => s.arrive o (s.pick 3 (2 ^ 28)) c
       | (.miss p a, _) => ((s.request p j.root j.queue (a ||| 8) (.engine o.id)).1).idle
       | _ => s.idle)
    | _ => s.arriveAll o

/-- Replaces an operation in flight. -/
def State.putOp (s : State) (o : EngOp) : State := { s with ops := s.ops.map (fun x => if x.id = o.id then o else x) }

/-- Whether an element can be performed now. -/
def Aimed.free (a : Aimed) : Bool :=
  (match a.src with | .mem _ _ _ => true | .mmio _ _ => true | _ => false) && (match a.dst with | .mem _ _ _ => true | .mmio _ _ => true | _ => false)

/-- An operation performs element `k` before it arrives, a CPYT first reads its record: the elements move at different moments, so another
agent may see some old and some new (07 R144, 10 R196, 11 R226). Elements of partial sums move in their order, at the arrival; a CPYT performs
whole words, of units that meet no error. -/
def State.opElement (s : State) (o : EngOp) (k : Nat) : State :=
  if !s.opTurn o || s.opSums o || o.early.contains k then s.idle else
  match o.kind with
  | .tile rec loc box dir mark =>
    (match s.record (s.opMover o) rec mark with
     | (.mem _ _ _, b) => if recOk b box && loc.toNat % 16 == 0 then (s.putOp { o with kind := .box b loc box dir }).idle else s.idle
     | _ => s.idle)
  | .box _ _ _ _ =>
    let l := s.opElems o
    let g := (o.wordOf l k).map (fun p => keptElem o.kept p.1)
    if g.isEmpty || !g.all Aimed.free || (s.boxLeft o).any (fun p => p.1.cause != 0 && g.any (fun a => a.elem.sq == p.1.elem.sq)) then s.idle
    else let r := s.boxWord o l k; (r.1.putOp r.2).idle
  | _ =>
    match (s.opElems o)[k]? with
    | some a => if a.free then ((o.perform s (s.readElem a) a.dst a.elem).putOp { o with early := k :: o.early }).idle else s.idle
    | none => s.idle

/-- ENGINE_ARRIVAL (10 R193). -/
def execEngineArrival (op : Nat) (s : State) : Outcome State Fault Refusal := .next (s.engineArrival op)

/-! ## Triggered operations (10 R206 to R208, 22 R400) -/

/-- The engine of a counter ID. -/
def ctrEngine (c : Nat) : Nat := bitsOf c 10 6
/-- The key of a counter of this package. -/
def ctrKey (c : Nat) : Nat := bitsOf c 10 0
/-- Whether a counter ID names this package (10 R206). -/
def State.ctrHere (s : State) (c : Nat) : Bool := bitsOf c 23 11 == 0x1FFF || bitsOf c 23 11 == s.pkg
/-- Whether a counter ID is legal: an engine of the part, and on this package one of the partition (10 R206, R207). -/
def State.ctrOk (s : State) (c : Nat) : Bool :=
  bitsOf c 31 24 == 0 && decide (ctrEngine c < 4 * s.dies) && (!s.ctrHere c || s.job.dies.contains (ctrEngine c / 4))

/-- The armed form of a 64-byte descriptor. -/
def State.armedOf (s : State) (desc : W64) (b : List Byte) (slots : List Nat) : Armed :=
  ⟨s.nextId, s.cur.team, s.cur.gid, s.cur.core, desc, recField b 0 4, recField b 4 4, recField b 8 8, recField b 16 1,
    recField b 17 1, recField b 18 1, BitVec.ofNat 64 (recField b 24 8), BitVec.ofNat 64 (recField b 32 8), recField b 40 8, recField b 19 1,
    slots,
    s.cur.kind == .task, (s.cur.seqNo.get 0).toNat, s.cur.pdh, s.cur.pdl, false, [], []⟩

/-- Whether an address lies on another package: the page of its first byte, as it translates at the arming; one that does not translate counts
as local. Both are the model's choice (10 R207, log 21). -/
def State.farAddr (s : State) (va : W64) : Bool :=
  if 0x1FF ≤ va.toNat / 2 ^ 48 then false else
  match s.translate s.job.root va.toNat with
  | some p => p.pa / 2 ^ 44 != s.pkg
  | none => false

/-- Whether a descriptor keeps the table of R207 and R206. -/
def State.descOk (s : State) (b : List Byte) : Bool :=
  let a := s.armedOf 0#64 b []
  let sts := recField b 20 1
  s.ctrOk a.tctr && s.ctrHere a.tctr && (a.cctr == 0xFFFFFFFF || s.ctrOk a.cctr) && decide (a.kind ≤ 3) && decide (a.stn ≤ 15) && decide (sts ≤ 16) &&
  recField b 21 3 == 0 && recField b 48 16 == 0 &&
  (if a.kind ≤ 1 then
     a.bytes % 4 == 0 && decide (4 ≤ a.bytes) && decide (a.bytes < 2 ^ 28) &&
     (a.kind == 0 || (ropOk a.rop a.rtype && a.bytes % groupWidth a.rtype == 0)) &&
     (sts != 0 || !(s.farAddr a.src || s.farAddr a.dst))
   else sts == 0 && (a.kind == 3 || s.ctrOk (a.dst.toNat % 2 ^ 32)))

/-- Operations whose counter has reached the threshold fire (10 R208). -/
def Job.fire (j : Job) : Job :=
  { j with armed := j.armed.map (fun a => if a.thresh ≤ (j.ctrs.get (ctrKey a.tctr)).toNat then { a with fired := true } else a) }

/-- Pending entries of an engine (10 R208). -/
def State.pendingOn (s : State) (engine : Nat) : Nat :=
  (s.jobs.map (fun p => (p.2.armed.filter (fun a => !a.fired && ctrEngine a.tctr == engine)).length)).foldl (· + ·) 0

/-- The `n` slots from RP (10 R208). -/
def Cask.nextSlots (c : Cask) (n : Nat) : List Nat := (List.range n).map (fun i => (c.rp + i) % c.slots)

/-- Arms a legal descriptor, all or nothing (10 R208). -/
def State.arm (s : State) (gp : Nat) (desc : W64) (b : List Byte) : State :=
  let n := recField b 20 1
  let stn := recField b 19 1
  let cask := (look s.team.casks stn).getD ⟨0, 1, 0, 0, 0, [], []⟩
  let slots := if n = 0 then [] else cask.nextSlots n
  if (n ≠ 0 ∧ (cask.slots < n ∨ slots.any (fun i => cask.st.getD i .reserved != .free))) ∨ 256 ≤ s.pendingOn (ctrEngine (recField b 0 4)) then
    (s.setCur (s.cur.gpSet gp false)).finish
  else
    let a := s.armedOf desc b slots
    let s1 := if n = 0 then s else s.putCask s.cur.team stn
      { cask with st := slots.foldl (fun l i => l.set i .staged) cask.st, rp := (cask.rp + n) % cask.slots }
    let j := s1.job
    let s2 := { s1 with nextId := s1.nextId + 1 }.putJob ({ j with armed := j.armed ++ [a], bstUse := j.bstUse || a.src.toNat / 2 ^ 44 == 0x1FF3 || a.dst.toNat / 2 ^ 44 == 0x1FF3, engUse := max j.engUse (ctrEngine a.tctr + 1) }.fire)
    let sq := if a.kind = 1 ∧ j.defers a.rop a.rtype then
      s2.cur.seqNo.set 0 (BitVec.ofNat 32 (a.sq + a.bytes / groupWidth a.rtype)) else s2.cur.seqNo
    let g := s2.cur.gpSet gp true
    (s2.setCur { g with seqNo := sq }).finish

/-- TRIG on a descriptor that has been read (22 R400). -/
def State.trigDesc (s : State) (gp : Nat) (desc : W64) (b : List Byte) : State :=
  if !s.descOk b then (s.report' 0x32 5 desc).finish
  else if recField b 20 1 ≠ 0 ∧ (s.cur.kind = .task ∨ s.job.casks ≤ recField b 19 1 ∨ (look s.team.casks (recField b 19 1)).isNone) then s.caskFail
  else s.arm gp desc b

/-- The read of a descriptor: of one that is not aligned, which breaks R207, the first and the last byte. -/
def State.descAccs (s : State) (va : W64) : List LaneAcc :=
  if va.toNat % 64 = 0 then [s.groupAcc .load va 64] else [s.groupAcc .load va 1, s.groupAcc .load (va + 63#64) 1]

/-- TRIG: the faults of the descriptor's read come before what breaks R206 or R207 (22 R400). -/
def execTrig (q p : BitVec 2) (a : BitVec 7) (s : State) : Outcome State Fault Refusal :=
  groupForm (.trig q p a) (fun s =>
    let va := s.cur.gGet a.toNat
    if ¬(va.toNat / 2 ^ 48 < 0x1FF ∨ va.toNat / 2 ^ 44 = 0x1FF0) then (s.report' 0x32 5 va).finish
    else
      let l := s.descAccs va
      match l.findSome? (fun x => match x.tgt with | .bad c => some c | _ => none) with
      | some c => s.stopFault c 0 va 0
      | none =>
        match s.gate l with
        | some s1 => s1
        | none =>
          if l.any LaneAcc.isDead then (s.report' 0x32 7 va).finish else
          match l with
          | [x] => (match x.tgt with | .mem loc 0 _ => s.trigDesc p.toNat va (s.bytesAt loc 64) | _ => (s.report' 0x32 5 va).finish)
          | _ => (s.report' 0x32 5 va).finish) s

/-- Who a fired operation works for; it waits for a parked team without a limit, as long as the launch runs (10 R210, 13 R259). -/
def State.armedMover (s : State) (job : Nat) (a : Armed) : Mover := ⟨job, a.team, a.gid, some (a.core / 8), a.task, false, s.jobOver job, a.refused,
  s.asked ((look s.jobs job).getD Job.blank).root (.trigger a.id)⟩

/-- Adds to a counter and fires what reaches its threshold; another package's counter is that package's own. No increment by another package
arrives here: the model's choice (10 R208, logs 21, 33). -/
def State.ctrAdd (s : State) (job c : Nat) (x : W64) : State :=
  match look s.jobs job with
  | some j => if s.ctrHere c then s.putJob ({ j with ctrs := j.ctrs.set (ctrKey c) (j.ctrs.get (ctrKey c) + x), engUse := max j.engUse (ctrEngine c + 1) }.fire) else s
  | none => s

/-- Completes a fired operation: its slots are freed, CCTR counts, an error ends the launch and its record names the descriptor
(10 R208, 13 R259). -/
def State.completeArmed (s : State) (job : Nat) (a : Armed) (cause : Nat) : State :=
  let t := s.teamOf job a.team
  let s1 := if (look s.teams (teamKey job a.team)).isNone ∨ a.slots = [] then s else
    s.putTeam { t with casks := t.casks.map (fun p =>
      if p.1 = a.stn then (p.1, { p.2 with st := a.slots.foldl (fun l i => l.set i .free) p.2.st }) else p) }
  match look s1.jobs job with
  | none => s1
  | some j =>
    let s2 := s1.putJob { j with armed := j.armed.filter (fun x => x.id != a.id) }
    let s3 := if a.cctr = 0xFFFFFFFF then s2 else s2.ctrAdd job a.cctr 1#64
    let s4 := if cause = 0 then s3 else
      s3.endJob job 1 (recordBytes (trapInfo 0x32 3 cause 0) 0#64 0#64 a.desc a.pdl a.pdh (recordTail 0#64 0 3 0xFF s.time))
    { s4 with tick := s4.tick + 1 }

/-- The pieces of a copy or reduce copy of a fired operation, both addresses aligned to a piece: 4 bytes, or the width of RTYPE
(10 R208, log 21). -/
def Armed.pieces (a : Armed) (w : Nat) : List Elem :=
  (List.range (a.bytes / w)).map (fun i => ⟨some (a.src + BitVec.ofNat 64 (i * w)), 0, a.dst + BitVec.ofNat 64 (i * w), w,
    a.src.toNat % w == 0 && a.dst.toNat % w == 0, 0, a.sq + i⟩)

/-- The elements of a fired operation with their targets (10 R208). -/
def State.armedElems (s : State) (job : Nat) (a : Armed) : List Aimed :=
  let m := s.armedMover job a
  match a.kind with
  | 0 => (a.pieces 4).map (s.aim m .copy .copy)
  | 1 => (a.pieces (groupWidth a.rtype)).map (s.aim m .reduceSrc .reduceDst)
  | 2 => []
  | _ => [s.aim m .copy .signal ⟨none, a.src.toNat, a.dst, 8, a.dst.toNat % 8 == 0, 0, 0⟩]
/-- How a fired operation performs an element. -/
def Armed.perform (job : Nat) (a : Armed) : Perform :=
  if a.kind = 1 then reduceElem job a.gid a.rop a.rtype a.pdh a.pdl else copyElem
/-- Whether a fired operation's elements go to partial sums (09 R184). -/
def Armed.sums (j : Job) (a : Armed) : Bool := a.kind == 1 && j.sums a.rop a.rtype

/-- Whether a fired operation waits for its team (10 R210). -/
def State.armedAway (s : State) (job : Nat) (a : Armed) : Bool :=
  !a.slots.isEmpty && !s.jobOver job && (match look s.teams (teamKey job a.team) with | some t => !t.resident | none => false)

/-- A fired operation performs the elements that are left and completes, or waits (10 R208). -/
def State.triggered (s : State) (j : Job) (a : Armed) : State :=
  if s.armedAway j.id a then s.idle
  else if a.kind = 2 then (s.ctrAdd j.id (a.dst.toNat % 2 ^ 32) a.src).completeArmed j.id a 0
  else
    let l := leftOf a.early (s.armedElems j.id a)
    match s.engWaits j.root j.queue (.trigger a.id) l with
    | some s1 => s1.idle
    | none => let r := s.moveAll (a.sums j) l (a.perform j.id); r.1.completeArmed j.id a r.2

/-- A fired operation performs element `k` before it completes. -/
def State.armedElement (s : State) (j : Job) (a : Armed) (k : Nat) : State :=
  if s.armedAway j.id a || a.sums j || a.early.contains k then s.idle else
  match (s.armedElems j.id a)[k]? with
  | none => s.idle
  | some x =>
    if !x.free then s.idle else
    let t := a.perform j.id s (s.readElem x) x.dst x.elem
    match look t.jobs j.id with
    | none => t.idle
    | some j1 => (t.putJob { j1 with armed := j1.armed.map (fun y => if y.id = a.id then { y with early := k :: y.early } else y) }).idle

/-- A fired operation by its number, with its job. -/
def State.firedOp (s : State) (k : Nat) : Option (Job × Armed) :=
  s.jobs.findSome? (fun p => (p.2.armed.find? (fun a => a.id == k && a.fired)).map (fun a => (p.2, a)))

/-- An element of an operation in flight, or of a fired one, moves ahead of the rest. -/
def State.element (s : State) (op k : Nat) : State :=
  match s.ops.find? (fun o => o.id == op), s.firedOp op with
  | some o, _ => s.opElement o k
  | none, some (j, a) => s.armedElement j a k
  | none, none => s.idle

/-- TRIGGERED_OP_COMPLETE (10 R208). -/
def execTriggeredOpComplete (k : Nat) (s : State) : Outcome State Fault Refusal :=
  .next (
    match s.firedOp k with
    | none => s.idle
    | some (j, a) => s.triggered j a)

end Sys2Proof.Machine
end

