-- ==== Sys2Proof/Machine/Driver.lean ====
section
/-! DEFINITION. The driver's commands and page requests (14 R269, R270). -/
namespace Sys2Proof.Machine
open Host

/-! ## Memory and the rings of the driver (14 R268 to R270) -/

/-- Whether a physical address lies in this package's HBM or host memory (06 R113). -/
def State.isMemory (s : State) (pa : Nat) : Bool := pa / 2 ^ 44 == s.pkg && s.assigned pa && !s.isMmio pa

/-- A 64-bit driver register at an MMIO offset. -/
def State.reg64 (s : State) (off : Nat) : Nat := (s.regs.get off).toNat + (s.regs.get (off + 4)).toNat * 2 ^ 32
/-- Sets it. -/
def State.setReg64 (s : State) (off x : Nat) : State :=
  { s with regs := (s.regs.set off (BitVec.ofNat 32 x)).set (off + 4) (BitVec.ofNat 32 (x / 2 ^ 32)) }

/-- The ring whose registers base, size, head and tail follow each other from an MMIO offset (log 39). -/
def State.ringBase (s : State) (r : Nat) : Nat := s.reg64 r
def State.ringSize (s : State) (r : Nat) : Nat := s.reg64 (r + 8)
def State.ringHead (s : State) (r : Nat) : Nat := s.reg64 (r + 16)
def State.ringTail (s : State) (r : Nat) : Nat := s.reg64 (r + 24)
/-- The driver's command ring and the page-request ring. -/
def commandRing : Nat := 0x10000
def requestRing : Nat := 0x20000

/-! ## Queue attributes (12 R233, R234) -/

/-- Whether a set of dies is a partition of the part (12 R234). -/
def State.isPartition (s : State) (ds : List Nat) : Bool :=
  ds.all (fun d => decide (d < s.dies)) &&
  (ds == List.range s.dies ||
   match ds with
   | [_] => true
   | [a, b] => a % 2 == 0 && b == a + 1
   | [a, b, c, d] => a % 4 == 0 && b == a + 1 && c == a + 2 && d == a + 3
   | _ => false)

/-- Whether a number is a power of two from 16 to 65,536 (12 R233). -/
def ringSizeOk (n : Nat) : Bool := (List.range 17).any (fun k => decide (4 ≤ k) && n == 2 ^ k)

/-- The limits of R233 on a new queue's attributes; a table root is a page of 4 KiB (06 R121). A HEADVA that does not translate yet is
looked at when it is used (12 R239, log 27). -/
def State.attrsOk (s : State) (q : Nat) (ring : W64) (size prio : Nat) (dies : List Nat) (root headva : W64) : Bool :=
  decide (q < 16384) && (look s.queues q).isNone && ring.toNat % 4096 == 0 && ringSizeOk size && decide (prio ≤ 7) &&
  s.isPartition dies && root.toNat % 4096 == 0 && headva.toNat % 8 == 0 && s.plainWord root headva.toNat

/-! ## Ends of launches from outside -/

/-- Ends a job without a record (14 R269, R274). -/
def State.stopJob (s : State) (id status : Nat) : State :=
  match look s.jobs id with
  | some j => s.putJob (j.stop status)
  | none => s

/-- Whether a packet has started: a launch at the dispatch of its first team (12 R242). -/
def Job.begun (j : Job) : Bool :=
  j.field 0 1 != 1 || decide (0 < j.nextTeam) || (match j.phase with | .ending _ => true | _ => false)

/-- The strands of a job that ends stop: groups, tasks, sequencers, deque entries and images go (13 R259). -/
def State.clearStrands (s : State) (id : Nat) : State :=
  let s1 : State := { s with
    groups := s.groups.filter (fun p => p.2.job != id || p.2.kind == .idle)
    deques := s.deques.map (fun d => (d.1, d.2.filter (fun e => e.job != id)))
    images := s.images.filter (fun m => m.job != id) }
  if s.cur.job = id ∧ s.cur.kind ≠ .idle then { s1 with cur := Group.blank, split := 0, limm := none } else s1

/-- A launch that was accepted and has not started goes, with its sequencer contexts (14 R269). -/
def State.discardJob (s : State) (id : Nat) : State :=
  let t := s.clearStrands id
  { t with jobs := drop t.jobs id, ops := t.ops.filter (fun o => o.job != id) }

/-- Whether a packet of a number has started. -/
def State.hasBegun (s : State) (id : Nat) : Bool := ((look s.jobs id).map Job.begun).getD true

/-- A queue under DESTROY_QUEUE: no further packet starts, what has not started is dropped (14 R269). -/
def State.closeQueue (s : State) (n st : Nat) (q : Queue) : State :=
  (q.started.filter (fun id => !s.hasBegun id)).foldl State.discardJob
    { s with queues := put s.queues n { q with closing := some st, packet := none, started := q.started.filter s.hasBegun } }

/-! ## Page requests (06 R123 to R126, 14 R270) -/

/-- A group no longer waits for a request. -/
def Group.unhold (g : Group) (id : Nat) : Group := { g with holds := g.holds.filter (· != id) }

/-- Every group released from a request. -/
def State.unholdAll (s : State) (id : Nat) : State :=
  { s with cur := s.cur.unhold id, groups := s.groups.map (fun p => (p.1, p.2.unhold id)) }

/-- A refused page reaches one waiter: a group's launch ends with a HOLD_XLATE record, an engine meets its error, a device access
is refused (06 R122, R126, 13 R249). -/
def State.refuse (s : State) (page : Nat) (o : Owner) : State :=
  match o with
  | .group gid =>
    match s.groupOf gid with
    | none => s
    | some g =>
      s.endJob g.job 1 (recordBytes (trapInfo 0x01 0 0 0) g.holdEpc g.holdPc (BitVec.ofNat 64 page) g.pdl g.pdh
        (recordTail g.lfm g.lcore g.source 0xFF s.time))
  | .engine op => { s with ops := s.ops.map (fun x => if x.id = op then { x with refused := x.refused ++ [page] } else x) }
  | .trigger id => { s with jobs := s.jobs.map (fun p => (p.1, { p.2 with
      armed := p.2.armed.map (fun a => if a.id = id then { a with refused := a.refused ++ [page] } else a) })) }
  | .device key => { s with refused := s.refused ++ [(key, page)] }

/-- Answers a page request: the waiters walk again with the new entry, or are refused (14 R270). -/
def State.respond (s : State) (r : PageReq) (answer : Nat) : State :=
  let s0 : State := { s with reqs := s.reqs.filter (fun x => x.id != r.id) }
  let s1 := s0.unholdAll r.id
  if answer = 0 then { s1 with invals := s1.invals ++ [⟨r.root, r.page, 1, s.hist.length⟩] }
  else r.owners.foldl (fun t o => t.refuse r.page o) s1

/-- The 32 bytes of a request's record (14 R270, log 39). -/
def PageReq.bytes (r : PageReq) : List Byte :=
  let b := Config.requestRecord r.page r.root.toNat r.queue r.access r.id
  (List.range 32).map (fun i => b.getD i 0)

/-- A request's record goes to the ring, the tail moves, an interrupt follows. -/
def State.sendRequest (s : State) (r : PageReq) : State :=
  let t := s.ringTail requestRing
  let s1 := (s.store (s.ringBase requestRing + 32 * (t % s.ringSize requestRing)) r.bytes).setReg64 (requestRing + 24) (t + 1)
  { s1 with reqs := s1.reqs.map (fun x : PageReq => if x.id = r.id then { x with sent := true } else x), msi := s1.msi + 1 }

/-- Whether the page-request ring has an entry free, and lies in memory. -/
def State.requestRoom (s : State) : Bool :=
  decide (s.ringTail requestRing < s.ringHead requestRing + s.ringSize requestRing) &&
  (let a := s.ringBase requestRing + 32 * (s.ringTail requestRing % s.ringSize requestRing)
   s.isMemory a && s.isMemory (a + 31))

/-- PAGE_REQUEST: the oldest request held in the device goes to the ring while it has an entry free (14 R270). -/
def execPageRequest (s : State) : Outcome State Fault Refusal :=
  .next (
    match s.reqs.find? (fun r => !r.sent) with
    | none => s.idle
    | some r => if s.requestRoom then (s.sendRequest r).idle else s.idle)

/-! ## The command ring (14 R269) -/

/-- The status word of a command: its virtual address. -/
def cmdStatus : Instr → Nat
  | .createQueue _ _ _ _ _ _ _ st _ => st
  | .destroyQueue _ st _ => st
  | .resetQueue _ st _ => st
  | .abortQueue _ st _ => st
  | .setQuantum _ st _ => st
  | .invalidate _ _ _ st _ => st
  | .pageResponse _ _ st _ => st
  | _ => 0

/-- Whether a command carries a nonzero reserved byte. -/
def cmdReserved : Instr → Bool
  | .createQueue _ _ _ _ _ _ _ _ r => r
  | .destroyQueue _ _ r => r
  | .resetQueue _ _ r => r
  | .abortQueue _ _ r => r
  | .setQuantum _ _ r => r
  | .invalidate _ _ _ _ r => r
  | .pageResponse _ _ _ r => r
  | _ => true

/-- The front end's accesses for the queue that last had a number are over. -/
def State.forgetQueue (s : State) (q : Nat) : State := ((s.forget (keyRing q)).forget (keyRing q + 2)).forget (keyHead q)

/-- The effect of a command that is not malformed; none for a malformed one. -/
def State.command (s : State) : Instr → Option State
  | .createQueue q ring size prio dies root headva _ _ =>
    if s.attrsOk q ring size prio dies root headva then
      some { s.forgetQueue q with queues := put s.queues q { Queue.blank with ring, size, prio, dies, root, headva, since := s.time } }
    else none
  | .destroyQueue q st _ => (look s.queues q).map (fun x => s.closeQueue q st x)
  | .resetQueue q _ _ => (look s.queues q).map (fun x =>
      { s.forget (keyRing q) with queues := put s.queues q { x with error := false, stopped := false, tail := x.head, bells := [] } })
  | .abortQueue q _ _ => (look s.queues q).map (fun x => x.started.foldl (fun t id =>
      match look t.jobs id with
      | some j => if j.field 0 1 = 1 ∧ j.begun then t.stopJob id 4 else t
      | none => t) s)
  | .setQuantum us _ _ => if 10 ≤ us ∧ us ≤ 1000 then some { s with nextQuantum := us } else none
  | .invalidate root va pages _ _ =>
    some { s with invals := s.invals ++ [⟨root, va.toNat / 2 ^ 16 * 2 ^ 16, pages, s.hist.length⟩] }
  | .pageResponse id answer _ _ =>
    match s.reqs.find? (fun r => r.id == id && r.sent) with
    | some r => if answer ≤ 1 then some (s.respond r answer) else none
    | none => none
  | _ => none

/-- Whether a queue under DESTROY_QUEUE still has started packets. -/
def State.closingBusy (s : State) : Instr → Bool
  | .destroyQueue q _ _ => ((look s.queues q).map (fun x => !x.started.isEmpty)).getD false
  | _ => false

/-- Stores a status word at a virtual address of the driver's, which the driver's own translation takes to a place of a package that
answers (14 R269, R272, log 39). -/
def State.putStatus (s : State) (va status : Nat) : State :=
  let pa := Config.driverPa va
  if s.assigned pa && !s.farFails pa then s.devStore pa 8 status else s

/-- The end of a command: a destroyed queue is gone, the status word is stored. -/
def State.cmdDone (s : State) (i : Instr) (status : Nat) : State :=
  let s1 := match i with
    | .destroyQueue q _ _ => if status = 0 then { s with queues := drop s.queues q } else s
    | _ => s
  s1.putStatus (cmdStatus i) status

/-- Executes a command: malformed in the recovery state or with a reserved byte; one that cannot complete yet goes to the head of the
waiting commands. -/
def State.runCommand (s : State) (i : Instr) : State :=
  match (if s.inRecovery || cmdReserved i then none else s.command i) with
  | none => s.cmdDone i 1
  | some t => if t.closingBusy i then { t with commands := i :: t.commands } else t.cmdDone i 0

/-- Commands that wait behind a DESTROY_QUEUE, in ring order, by fuel. -/
def State.drainCommands : Nat → State → State
  | 0, s => s
  | n + 1, s =>
    match s.commands with
    | [] => s
    | i :: rest => if s.closingBusy i then s else State.drainCommands n ({ s with commands := rest }.runCommand i)

/-- The command an entry of the ring holds: the opcode in byte 0, the status word's address in bytes 8 to 15, the operands where the
driver and the device have agreed on them; bytes 1 to 7 are reserved (14 R269, log 39). -/
def commandOf (e : List Byte) : Option Instr :=
  let st := leNat ((e.drop 8).take 8)
  let rsv := leNat ((e.drop 1).take 7) != 0 || Config.cmdReserved e
  let f := fun k => Config.cmdField k e
  let w := fun k => BitVec.ofNat 64 (f k)
  match leNat (e.take 1) with
  | 1 => some (.createQueue (f 0) (w 1) (f 2) (f 3) ((List.range 8).filter (fun d => (f 4).testBit d)) (w 5) (w 6) st rsv)
  | 2 => some (.destroyQueue (f 0) st rsv)
  | 3 => some (.resetQueue (f 0) st rsv)
  | 4 => some (.abortQueue (f 0) st rsv)
  | 5 => some (.setQuantum (f 0) st rsv)
  | 6 => some (.invalidate (w 0) (w 1) (f 2) st rsv)
  | 7 => some (.pageResponse (f 0) (f 1) st rsv)
  | _ => none

/-- The next entry of the command ring, once the one before it has completed; an opcode of no command is malformed (14 R269). -/
def State.nextCommand (s : State) : State :=
  let h := s.ringHead commandRing
  let a := s.ringBase commandRing + 64 * (h % s.ringSize commandRing)
  if !s.commands.isEmpty || h == s.ringTail commandRing || s.ringSize commandRing == 0 || !s.isMemory a || !s.isMemory (a + 63) then s.idle
  else
    let e := s.bytesAt a 64
    let s1 := s.setReg64 (commandRing + 16) (h + 1)
    (match commandOf e with
     | some i => s1.runCommand i
     | none => s1.putStatus (leNat ((e.drop 8).take 8)) 1).idle

/-- A command as the device meets it in the ring: each completes before the next starts. -/
def State.submit (s : State) (i : Instr) : State :=
  (if s.commands.isEmpty then s.runCommand i else { s with commands := s.commands ++ [i] }).idle

/-- CREATE_QUEUE. -/
def execCreateQueue (q : Nat) (ring : W64) (size prio : Nat) (dies : List Nat) (root headva : W64) (status : Nat) (rsv : Bool) (s : State) :
    Outcome State Fault Refusal := .next (s.submit (.createQueue q ring size prio dies root headva status rsv))
/-- DESTROY_QUEUE. -/
def execDestroyQueue (q status : Nat) (rsv : Bool) (s : State) : Outcome State Fault Refusal := .next (s.submit (.destroyQueue q status rsv))
/-- RESET_QUEUE. -/
def execResetQueue (q status : Nat) (rsv : Bool) (s : State) : Outcome State Fault Refusal := .next (s.submit (.resetQueue q status rsv))
/-- ABORT_QUEUE. -/
def execAbortQueue (q status : Nat) (rsv : Bool) (s : State) : Outcome State Fault Refusal := .next (s.submit (.abortQueue q status rsv))
/-- SET_QUANTUM. -/
def execSetQuantum (us status : Nat) (rsv : Bool) (s : State) : Outcome State Fault Refusal := .next (s.submit (.setQuantum us status rsv))
/-- INVALIDATE. -/
def execInvalidate (root va : W64) (pages status : Nat) (rsv : Bool) (s : State) : Outcome State Fault Refusal :=
  .next (s.submit (.invalidate root va pages status rsv))
/-- PAGE_RESPONSE. -/
def execPageResponse (id answer status : Nat) (rsv : Bool) (s : State) : Outcome State Fault Refusal :=
  .next (s.submit (.pageResponse id answer status rsv))

end Sys2Proof.Machine
end

