-- ==== Sys2Proof/Machine/FloatOps.lean ====
section
/-! DEFINITION. Floating point of the lanes: FADD to FMAX, FSQRT to FCLASS, HFUSE (19 R337 to R341, 20 R343). -/
namespace Sys2Proof.Machine
open Host

/-- A lane FP32 operation on va and vb. -/
def lanef2 (d a b : BitVec 7) (f : Nat → Nat → FRes) (m : W32) (s : State) : State :=
  laneFloat d (fun l => f (s.cur.vGet a.toNat l).toNat (s.cur.vGet b.toNat l).toNat) m s
/-- A lane FP64 operation on pairs a and b. -/
def pairf2 (d a b : BitVec 7) (f : Nat → Nat → FRes) (m : W32) (s : State) : State :=
  laneFloat2 d (fun l => f (s.cur.vGet2 a.toNat l).toNat (s.cur.vGet2 b.toNat l).toNat) m s
/-- round_fmt(F, f(x), mode) of one operand after FTZ on the input (19 R340). -/
def fun1W (f : Fmt) (g : FVal → FExact) (mode : Mode) (ftz : Bool) (x : Nat) : FRes := finishF f mode ftz (g (decodeIn f ftz x))
/-- A single-source FP32 operation (19 R340). -/
def lanef1 (d a r : BitVec 7) (g : FVal → FExact) (m : W32) (s : State) : State :=
  laneFloat d (fun l => fun1W fp32 g (s.cur.roundCode r.toNat) s.cur.ftz (s.cur.vGet a.toNat l).toNat) m s
/-- One half of HFUSE: x * y + z in the element format (20 R343). -/
def hfuseHalf (f : Fmt) (g : Group) (a b d : W32) (h : Nat) : FRes :=
  ffmaW f g.rm g.ftz (a.extractLsb' (16 * h) 16).toNat (b.extractLsb' (16 * h) 16).toNat (d.extractLsb' (16 * h) 16).toNat
/-- HFUSE of one lane: both halves, flags of both (20 R343). -/
def hfuseLane (f : Fmt) (g : Group) (a b d : W32) : FRes :=
  let lo := hfuseHalf f g a b d 0
  let hi := hfuseHalf f g a b d 1
  ⟨lo.bits + 2 ^ 16 * hi.bits, lo.flags ||| hi.flags⟩

/-- FADD (19 R337). -/
def execFadd (q : BitVec 2) (d a b : BitVec 7) (s : State) : Outcome State Fault Refusal :=
  laneForm (.fadd q d a b) (fun m s => lanef2 d a b (faddW fp32 s.cur.rm s.cur.ftz) m s) s

/-- FADD.F64 (19 R337). -/
def execFaddF64 (q : BitVec 2) (d a b : BitVec 7) (s : State) : Outcome State Fault Refusal :=
  laneForm (.faddF64 q d a b) (fun m s => pairf2 d a b (faddW fp64 s.cur.rm s.cur.ftz) m s) s

/-- FSUB (19 R337). -/
def execFsub (q : BitVec 2) (d a b : BitVec 7) (s : State) : Outcome State Fault Refusal :=
  laneForm (.fsub q d a b) (fun m s => lanef2 d a b (fsubW fp32 s.cur.rm s.cur.ftz) m s) s

/-- FSUB.F64 (19 R337). -/
def execFsubF64 (q : BitVec 2) (d a b : BitVec 7) (s : State) : Outcome State Fault Refusal :=
  laneForm (.fsubF64 q d a b) (fun m s => pairf2 d a b (fsubW fp64 s.cur.rm s.cur.ftz) m s) s

/-- FMUL (19 R337). -/
def execFmul (q : BitVec 2) (d a b : BitVec 7) (s : State) : Outcome State Fault Refusal :=
  laneForm (.fmul q d a b) (fun m s => lanef2 d a b (fmulW fp32 s.cur.rm s.cur.ftz) m s) s

/-- FMUL.F64 (19 R337). -/
def execFmulF64 (q : BitVec 2) (d a b : BitVec 7) (s : State) : Outcome State Fault Refusal :=
  laneForm (.fmulF64 q d a b) (fun m s => pairf2 d a b (fmulW fp64 s.cur.rm s.cur.ftz) m s) s

/-- FDIV (19 R337). -/
def execFdiv (q : BitVec 2) (d a b : BitVec 7) (s : State) : Outcome State Fault Refusal :=
  laneForm (.fdiv q d a b) (fun m s => lanef2 d a b (fdivW fp32 s.cur.rm s.cur.ftz) m s) s

/-- FDIV.F64 (19 R337). -/
def execFdivF64 (q : BitVec 2) (d a b : BitVec 7) (s : State) : Outcome State Fault Refusal :=
  laneForm (.fdivF64 q d a b) (fun m s => pairf2 d a b (fdivW fp64 s.cur.rm s.cur.ftz) m s) s

/-- FFMA: va * vb + vd, one rounding (19 R337). -/
def execFfma (q : BitVec 2) (d a b : BitVec 7) (s : State) : Outcome State Fault Refusal :=
  laneForm (.ffma q d a b) (fun m s => laneFloat d (fun l => ffmaW fp32 s.cur.rm s.cur.ftz (s.cur.vGet a.toNat l).toNat (s.cur.vGet b.toNat l).toNat (s.cur.vGet d.toNat l).toNat) m s) s

/-- FFMA.F64 (19 R337). -/
def execFfmaF64 (q : BitVec 2) (d a b : BitVec 7) (s : State) : Outcome State Fault Refusal :=
  laneForm (.ffmaF64 q d a b) (fun m s => laneFloat2 d (fun l => ffmaW fp64 s.cur.rm s.cur.ftz (s.cur.vGet2 a.toNat l).toNat (s.cur.vGet2 b.toNat l).toNat (s.cur.vGet2 d.toNat l).toNat) m s) s

/-- FMIN (19 R338). -/
def execFmin (q : BitVec 2) (d a b : BitVec 7) (s : State) : Outcome State Fault Refusal :=
  laneForm (.fmin q d a b) (fun m s => lanef2 d a b (fminmaxW fp32 false s.cur.ftz) m s) s

/-- FMIN.F64 (19 R338). -/
def execFminF64 (q : BitVec 2) (d a b : BitVec 7) (s : State) : Outcome State Fault Refusal :=
  laneForm (.fminF64 q d a b) (fun m s => pairf2 d a b (fminmaxW fp64 false s.cur.ftz) m s) s

/-- FMAX (19 R338). -/
def execFmax (q : BitVec 2) (d a b : BitVec 7) (s : State) : Outcome State Fault Refusal :=
  laneForm (.fmax q d a b) (fun m s => lanef2 d a b (fminmaxW fp32 true s.cur.ftz) m s) s

/-- FMAX.F64 (19 R338). -/
def execFmaxF64 (q : BitVec 2) (d a b : BitVec 7) (s : State) : Outcome State Fault Refusal :=
  laneForm (.fmaxF64 q d a b) (fun m s => pairf2 d a b (fminmaxW fp64 true s.cur.ftz) m s) s

/-- FSQRT (19 R340). -/
def execFsqrt (q : BitVec 2) (d a r : BitVec 7) (s : State) : Outcome State Fault Refusal :=
  laneForm (.fsqrt q d a r) (lanef1 d a r sqrtV) s

/-- FRCP (19 R340). -/
def execFrcp (q : BitVec 2) (d a r : BitVec 7) (s : State) : Outcome State Fault Refusal :=
  laneForm (.frcp q d a r) (lanef1 d a r rcpV) s

/-- FRSQ (19 R340). -/
def execFrsq (q : BitVec 2) (d a r : BitVec 7) (s : State) : Outcome State Fault Refusal :=
  laneForm (.frsq q d a r) (lanef1 d a r rsqV) s

/-- FEXP2 (19 R340). -/
def execFexp2 (q : BitVec 2) (d a r : BitVec 7) (s : State) : Outcome State Fault Refusal :=
  laneForm (.fexp2 q d a r) (lanef1 d a r exp2V) s

/-- FLOG2 (19 R340). -/
def execFlog2 (q : BitVec 2) (d a r : BitVec 7) (s : State) : Outcome State Fault Refusal :=
  laneForm (.flog2 q d a r) (lanef1 d a r log2V) s

/-- FTRIGSINPI (19 R340). -/
def execFtrigSinpi (q : BitVec 2) (d a r : BitVec 7) (s : State) : Outcome State Fault Refusal :=
  laneForm (.ftrigSinpi q d a r) (lanef1 d a r sinpiV) s

/-- FTRIGCOSPI (19 R340). -/
def execFtrigCospi (q : BitVec 2) (d a r : BitVec 7) (s : State) : Outcome State Fault Refusal :=
  laneForm (.ftrigCospi q d a r) (lanef1 d a r cospiV) s

/-- FSQRT.F64 (19 R340). -/
def execFsqrtF64 (q : BitVec 2) (d a r : BitVec 7) (s : State) : Outcome State Fault Refusal :=
  laneForm (.fsqrtF64 q d a r) (fun m s => laneFloat2 d (fun l => fun1W fp64 sqrtV (s.cur.roundCode r.toNat) s.cur.ftz (s.cur.vGet2 a.toNat l).toNat) m s) s

/-- FRND (19 R341). -/
def execFrnd (q : BitVec 2) (d a r : BitVec 7) (s : State) : Outcome State Fault Refusal :=
  laneForm (.frnd q d a r) (fun m s => laneFloat d (fun l => frndW fp32 (s.cur.roundCode r.toNat) s.cur.ftz (s.cur.vGet a.toNat l).toNat) m s) s

/-- FRND.F64 (19 R341). -/
def execFrndF64 (q : BitVec 2) (d a r : BitVec 7) (s : State) : Outcome State Fault Refusal :=
  laneForm (.frndF64 q d a r) (fun m s => laneFloat2 d (fun l => frndW fp64 (s.cur.roundCode r.toNat) s.cur.ftz (s.cur.vGet2 a.toNat l).toNat) m s) s

/-- FCLASS; w selects the F64 source (19 R341). -/
def execFclass (q : BitVec 2) (w : BitVec 1) (d a r : BitVec 7) (s : State) : Outcome State Fault Refusal :=
  laneForm (.fclass q w d a r) (fun m s => laneWrite d (fun l => BitVec.ofNat 32 (if w = 1#1 then fclassW fp64 (s.cur.vGet2 a.toNat l).toNat else fclassW fp32 (s.cur.vGet a.toNat l).toNat)) m s) s

/-- HFUSE.F16, or HFUSE.BF16 when h is 1 (20 R343). -/
def execHfuse (q : BitVec 2) (h : BitVec 1) (d a b : BitVec 7) (s : State) : Outcome State Fault Refusal :=
  laneForm (.hfuse q h d a b) (fun m s => laneFloat d (fun l => hfuseLane (if h = 1#1 then bf16 else fp16) s.cur (s.cur.vGet a.toNat l) (s.cur.vGet b.toNat l) (s.cur.vGet d.toNat l)) m s) s

end Sys2Proof.Machine
end

