-- ==== Sys2Proof/Machine/IntArith.lean ====
section
/-! DEFINITION. Integer arithmetic: IADD, ISUB, IMUL, IMULH, IMAD, IABS, IMAX, IMIN (20 R344 to R346). -/
namespace Sys2Proof.Machine
open Host

/-- Bits 2W-1:W of the signed product (20 R344). -/
def mulhS {w : Nat} (a b : BitVec w) : BitVec w := BitVec.ofInt w (a.toInt * b.toInt / (2 ^ w : Nat))
/-- Bits 2W-1:W of the unsigned product (20 R344). -/
def mulhZ {w : Nat} (a b : BitVec w) : BitVec w := BitVec.ofNat w (a.toNat * b.toNat / 2 ^ w)
/-- IABS: the magnitude, saturated (20 R345). -/
def absSat {w : Nat} (a : BitVec w) : BitVec w := if a = BitVec.intMin w then BitVec.intMax w else if a.msb then -a else a
/-- SAT where IABS saturates (20 R345). -/
def absFlag {w : Nat} (a : BitVec w) : Nat := if a = BitVec.intMin w then fSAT else 0
/-- The larger or smaller of two words, signed or unsigned (20 R346). -/
def minMax {w : Nat} (signed greatest : Bool) (a b : BitVec w) : BitVec w :=
  let less := if signed then a.slt b else a.ult b
  if greatest then (if less then b else a) else (if less then a else b)

/-- IADD: xa + xb mod 2^32 (20 R344). -/
def execIaddV (q : BitVec 2) (d a b : BitVec 7) (s : State) : Outcome State Fault Refusal :=
  laneForm (.iaddV q d a b) (lane2 d a b (· + ·)) s

/-- ISUB: xa - xb mod 2^32 (20 R344). -/
def execIsubV (q : BitVec 2) (d a b : BitVec 7) (s : State) : Outcome State Fault Refusal :=
  laneForm (.isubV q d a b) (lane2 d a b (· - ·)) s

/-- IMUL: xa * xb mod 2^32 (20 R344). -/
def execImulV (q : BitVec 2) (d a b : BitVec 7) (s : State) : Outcome State Fault Refusal :=
  laneForm (.imulV q d a b) (lane2 d a b (· * ·)) s

/-- IMULH.S32: the high half of the signed product (20 R344). -/
def execImulhS32V (q : BitVec 2) (d a b : BitVec 7) (s : State) : Outcome State Fault Refusal :=
  laneForm (.imulhS32V q d a b) (lane2 d a b mulhS) s

/-- IMULH.Z32: the high half of the unsigned product (20 R344). -/
def execImulhZ32V (q : BitVec 2) (d a b : BitVec 7) (s : State) : Outcome State Fault Refusal :=
  laneForm (.imulhZ32V q d a b) (lane2 d a b mulhZ) s

/-- IMAD: xa * xb + xd mod 2^32 (20 R344). -/
def execImadV (q : BitVec 2) (d a b : BitVec 7) (s : State) : Outcome State Fault Refusal :=
  laneForm (.imadV q d a b) (lane3 d a b (fun x y z => x * y + z)) s

/-- IADD: xa + xb mod 2^64 (20 R344). -/
def execIaddV64 (q : BitVec 2) (d a b : BitVec 7) (s : State) : Outcome State Fault Refusal :=
  laneForm (.iaddV64 q d a b) (pair2 d a b (· + ·)) s

/-- ISUB: xa - xb mod 2^64 (20 R344). -/
def execIsubV64 (q : BitVec 2) (d a b : BitVec 7) (s : State) : Outcome State Fault Refusal :=
  laneForm (.isubV64 q d a b) (pair2 d a b (· - ·)) s

/-- IMUL: xa * xb mod 2^64 (20 R344). -/
def execImulV64 (q : BitVec 2) (d a b : BitVec 7) (s : State) : Outcome State Fault Refusal :=
  laneForm (.imulV64 q d a b) (pair2 d a b (· * ·)) s

/-- IMULH.S64: the high half of the signed product (20 R344). -/
def execImulhS64V (q : BitVec 2) (d a b : BitVec 7) (s : State) : Outcome State Fault Refusal :=
  laneForm (.imulhS64V q d a b) (pair2 d a b mulhS) s

/-- IMULH.Z64: the high half of the unsigned product (20 R344). -/
def execImulhZ64V (q : BitVec 2) (d a b : BitVec 7) (s : State) : Outcome State Fault Refusal :=
  laneForm (.imulhZ64V q d a b) (pair2 d a b mulhZ) s

/-- IMAD: xa * xb + xd mod 2^64 (20 R344). -/
def execImadV64 (q : BitVec 2) (d a b : BitVec 7) (s : State) : Outcome State Fault Refusal :=
  laneForm (.imadV64 q d a b) (pair3 d a b (fun x y z => x * y + z)) s

/-- IADD: xa + xb mod 2^32 (20 R344). -/
def execIaddG32 (q : BitVec 2) (d a b : BitVec 7) (s : State) : Outcome State Fault Refusal :=
  groupForm (.iaddG32 q d a b) (word2 d a b (· + ·)) s

/-- ISUB: xa - xb mod 2^32 (20 R344). -/
def execIsubG32 (q : BitVec 2) (d a b : BitVec 7) (s : State) : Outcome State Fault Refusal :=
  groupForm (.isubG32 q d a b) (word2 d a b (· - ·)) s

/-- IMUL: xa * xb mod 2^32 (20 R344). -/
def execImulG32 (q : BitVec 2) (d a b : BitVec 7) (s : State) : Outcome State Fault Refusal :=
  groupForm (.imulG32 q d a b) (word2 d a b (· * ·)) s

/-- IMULH.S32: the high half of the signed product (20 R344). -/
def execImulhS32G (q : BitVec 2) (d a b : BitVec 7) (s : State) : Outcome State Fault Refusal :=
  groupForm (.imulhS32G q d a b) (word2 d a b mulhS) s

/-- IMULH.Z32: the high half of the unsigned product (20 R344). -/
def execImulhZ32G (q : BitVec 2) (d a b : BitVec 7) (s : State) : Outcome State Fault Refusal :=
  groupForm (.imulhZ32G q d a b) (word2 d a b mulhZ) s

/-- IMAD: xa * xb + xd mod 2^32 (20 R344). -/
def execImadG32 (q : BitVec 2) (d a b : BitVec 7) (s : State) : Outcome State Fault Refusal :=
  groupForm (.imadG32 q d a b) (word3 d a b (fun x y z => x * y + z)) s

/-- IADD: xa + xb mod 2^64 (20 R344). -/
def execIaddG64 (q : BitVec 2) (d a b : BitVec 7) (s : State) : Outcome State Fault Refusal :=
  groupForm (.iaddG64 q d a b) (group2 d a b (· + ·)) s

/-- ISUB: xa - xb mod 2^64 (20 R344). -/
def execIsubG64 (q : BitVec 2) (d a b : BitVec 7) (s : State) : Outcome State Fault Refusal :=
  groupForm (.isubG64 q d a b) (group2 d a b (· - ·)) s

/-- IMUL: xa * xb mod 2^64 (20 R344). -/
def execImulG64 (q : BitVec 2) (d a b : BitVec 7) (s : State) : Outcome State Fault Refusal :=
  groupForm (.imulG64 q d a b) (group2 d a b (· * ·)) s

/-- IMULH.S64: the high half of the signed product (20 R344). -/
def execImulhS64G (q : BitVec 2) (d a b : BitVec 7) (s : State) : Outcome State Fault Refusal :=
  groupForm (.imulhS64G q d a b) (group2 d a b mulhS) s

/-- IMULH.Z64: the high half of the unsigned product (20 R344). -/
def execImulhZ64G (q : BitVec 2) (d a b : BitVec 7) (s : State) : Outcome State Fault Refusal :=
  groupForm (.imulhZ64G q d a b) (group2 d a b mulhZ) s

/-- IMAD: xa * xb + xd mod 2^64 (20 R344). -/
def execImadG64 (q : BitVec 2) (d a b : BitVec 7) (s : State) : Outcome State Fault Refusal :=
  groupForm (.imadG64 q d a b) (group3 d a b (fun x y z => x * y + z)) s

/-- IABS, 32-bit lane form; SAT where it saturates (20 R345). -/
def execIabsV (q : BitVec 2) (d a : BitVec 7) (s : State) : Outcome State Fault Refusal :=
  laneForm (.iabsV q d a) (fun m s => laneFloat d (fun l => ⟨(absSat (s.cur.vGet a.toNat l)).toNat, absFlag (s.cur.vGet a.toNat l)⟩) m s) s

/-- IABS, 64-bit lane form; SAT where it saturates (20 R345). -/
def execIabsV64 (q : BitVec 2) (d a : BitVec 7) (s : State) : Outcome State Fault Refusal :=
  laneForm (.iabsV64 q d a) (fun m s => laneFloat2 d (fun l => ⟨(absSat (s.cur.vGet2 a.toNat l)).toNat, absFlag (s.cur.vGet2 a.toNat l)⟩) m s) s

/-- IABS, 32-bit group form; SAT where it saturates (20 R345). -/
def execIabsG32 (q : BitVec 2) (d a : BitVec 7) (s : State) : Outcome State Fault Refusal :=
  groupForm (.iabsG32 q d a) (fun s => word1 d a absSat (s.setCur (s.cur.orFlags (absFlag (s.cur.gGet32 a.toNat))))) s

/-- IABS, 64-bit group form; SAT where it saturates (20 R345). -/
def execIabsG64 (q : BitVec 2) (d a : BitVec 7) (s : State) : Outcome State Fault Refusal :=
  groupForm (.iabsG64 q d a) (fun s => group1 d a absSat (s.setCur (s.cur.orFlags (absFlag (s.cur.gGet a.toNat))))) s

/-- IADD vd, va, imm (20 R345). -/
def execIaddImmV (q : BitVec 2) (d a : BitVec 7) (i : BitVec 10) (s : State) : Outcome State Fault Refusal :=
  laneForm (.iaddImmV q d a i) (fun m s => lane1 d a (fun x => x + (s.immediate i).extractLsb' 0 32) m s) s

/-- IADD.64 vd, va, imm (20 R345). -/
def execIaddImmV64 (q : BitVec 2) (d a : BitVec 7) (i : BitVec 10) (s : State) : Outcome State Fault Refusal :=
  laneForm (.iaddImmV64 q d a i) (fun m s => pair1 d a (fun x => x + s.immediate i) m s) s

/-- IADD.B32 gd, ga, imm (20 R345). -/
def execIaddImmG32 (q : BitVec 2) (d a : BitVec 7) (i : BitVec 10) (s : State) : Outcome State Fault Refusal :=
  groupForm (.iaddImmG32 q d a i) (fun s => word1 d a (fun x => x + (s.immediate i).extractLsb' 0 32) s) s

/-- IADD gd, ga, imm (20 R345). -/
def execIaddImmG64 (q : BitVec 2) (d a : BitVec 7) (i : BitVec 10) (s : State) : Outcome State Fault Refusal :=
  groupForm (.iaddImmG64 q d a i) (fun s => group1 d a (fun x => x + s.immediate i) s) s

/-- IMAX: width from w, signed when sg is 0 (20 R346). -/
def execImaxV (q : BitVec 2) (w sg : BitVec 1) (d a b : BitVec 7) (s : State) : Outcome State Fault Refusal :=
  laneForm (.imaxV q w sg d a b) (if w = 1#1 then pair2 d a b (minMax (sg == 0#1) true) else lane2 d a b (minMax (sg == 0#1) true)) s

/-- IMAX: width from w, signed when sg is 0 (20 R346). -/
def execImaxG (q : BitVec 2) (w sg : BitVec 1) (d a b : BitVec 7) (s : State) : Outcome State Fault Refusal :=
  groupForm (.imaxG q w sg d a b) (if w = 1#1 then group2 d a b (minMax (sg == 0#1) true) else word2 d a b (minMax (sg == 0#1) true)) s

/-- IMIN: width from w, signed when sg is 0 (20 R346). -/
def execIminV (q : BitVec 2) (w sg : BitVec 1) (d a b : BitVec 7) (s : State) : Outcome State Fault Refusal :=
  laneForm (.iminV q w sg d a b) (if w = 1#1 then pair2 d a b (minMax (sg == 0#1) false) else lane2 d a b (minMax (sg == 0#1) false)) s

/-- IMIN: width from w, signed when sg is 0 (20 R346). -/
def execIminG (q : BitVec 2) (w sg : BitVec 1) (d a b : BitVec 7) (s : State) : Outcome State Fault Refusal :=
  groupForm (.iminG q w sg d a b) (if w = 1#1 then group2 d a b (minMax (sg == 0#1) false) else word2 d a b (minMax (sg == 0#1) false)) s

end Sys2Proof.Machine
end

