-- ==== Sys2Proof/Machine/LoadStore.lean ====
section
/-! DEFINITION. Loads and stores: LD and ST in their three encodings, LDT, STT, and the single-line region
(08 R155 to R158, 18 R304, 20 R350 to R355, 22 R394 to R398). -/
namespace Sys2Proof.Machine
open Host

/-- Bytes of a size code (20 R350, 22 R394). -/
def accBytes (c : BitVec 3) : Nat := match c.toNat with | 0 => 1 | 1 => 1 | 2 => 2 | 3 => 2 | 6 => 8 | 7 => 16 | _ => 4
/-- The kind of a load by its ordering code (04 R71). -/
def loadKind (o : BitVec 5) : Acc := if o = 0#5 then .load else if o = 19#5 then .loadInv else .loadAcq
/-- The kind of a store by its ordering code (04 R71). -/
def storeKind (o : BitVec 5) : Acc := if o = 0#5 then .store else .storeRel

/-- Writes the loaded values to vd, extended by the size code (20 R350). -/
def Group.putLoad (c : BitVec 3) (d : BitVec 7) (g : Group) (m : W32) (x : Nat → Nat) : Group :=
  match c.toNat with
  | 1 => g.vSet m d.toNat (fun l => (BitVec.ofNat 8 (x l)).signExtend 32)
  | 3 => g.vSet m d.toNat (fun l => (BitVec.ofNat 16 (x l)).signExtend 32)
  | 6 => g.vSet2 m d.toNat (fun l => BitVec.ofNat 64 (x l))
  | 7 => g.vSetN m d.toNat x 4
  | _ => g.vSet m d.toNat (fun l => BitVec.ofNat 32 (x l))
/-- The data a lane stores under a size code (22 R394). -/
def Group.storeData (g : Group) (c : BitVec 3) (d : BitVec 7) (l : Nat) : Nat :=
  match c.toNat with
  | 6 => (g.vGet2 d.toNat l).toNat
  | 7 => g.vGetN d.toNat l 4
  | _ => (g.vGet d.toNat l).toNat
/-- A group load's value, extended by the size code (20 R350). -/
def groupExtend (c : BitVec 3) (x : Nat) : W64 :=
  match c.toNat with
  | 1 => (BitVec.ofNat 8 x).signExtend 64
  | 3 => (BitVec.ofNat 16 x).signExtend 64
  | 5 => (BitVec.ofNat 32 x).signExtend 64
  | _ => BitVec.ofNat 64 x

/-- The address of lane `l` in [ga+vb], with a LIMM's displacement (20 R350). -/
def State.laneAddr (s : State) (a b : BitVec 7) (l : Nat) : W64 :=
  s.cur.gGet a.toNat + (s.cur.vGet b.toNat l).zeroExtend 64 + s.displacement
/-- The address of [ga+gb], with a LIMM's displacement (20 R350). -/
def State.groupAddr (s : State) (a b : BitVec 7) : W64 := s.cur.gGet a.toNat + s.cur.gGet b.toNat + s.displacement

/-- LD.size vd, [ga+vb] (20 R350, R351). -/
def execLdV (q : BitVec 2) (c : BitVec 3) (d a b : BitVec 7) (s : State) : Outcome State Fault Refusal :=
  laneForm (.ldV q c d a b) (fun m s => s.laneLoad .load m (accBytes c) (s.laneAddr a b) (Group.putLoad c d)) s

/-- ST.size [ga+vb], vd (22 R394, R395). -/
def execStV (q : BitVec 2) (c : BitVec 3) (d a b : BitVec 7) (s : State) : Outcome State Fault Refusal :=
  laneForm (.stV q c d a b) (fun m s => s.laneStore .store m (accBytes c) (s.laneAddr a b) (s.cur.storeData c d)) s

/-- LD.order.size vd, [va] (20 R350, R354). -/
def execLdOrdered (q : BitVec 2) (d a : BitVec 7) (o : BitVec 5) (c : BitVec 3) (s : State) : Outcome State Fault Refusal :=
  laneForm (.ldOrdered q d a o c) (fun m s =>
    s.laneLoad (loadKind o) m (accBytes c) (s.cur.vGet2 a.toNat) (Group.putLoad c d)) s

/-- ST.order.size [va], vd (22 R394, R397). -/
def execStOrdered (q : BitVec 2) (d a : BitVec 7) (o : BitVec 5) (c : BitVec 3) (s : State) : Outcome State Fault Refusal :=
  laneForm (.stOrdered q d a o c) (fun m s =>
    s.laneStore (storeKind o) m (accBytes c) (s.cur.vGet2 a.toNat) (s.cur.storeData c d)) s

/-- A tile named at or above the declared count is REGWIN (03 R49). -/
def tileForm (t : BitVec 3) (f : W32 → State → State) (m : W32) (s : State) : State :=
  if s.cur.tiles ≤ t.toNat then s.stopFault 0x11 0 0#64 0xFF else f m s

/-- LDT: element l of the slice from base + 4l (20 R355). -/
def execLdt (q : BitVec 2) (d a : BitVec 7) (t : BitVec 3) (r : BitVec 1) (k : BitVec 3) (s : State) : Outcome State Fault Refusal :=
  laneForm (.ldt q d a t r k) (tileForm t (fun m s =>
    let x := s.cur.sliceIndex a.toNat k.toNat
    s.laneLoad .load m 4 (fun l => s.cur.gGet d.toNat + BitVec.ofNat 64 (4 * l))
      (fun g ok f => g.sliceSet ok t.toNat (r == 1#1) x (fun l => BitVec.ofNat 32 (f l))))) s

/-- STT: element l of the slice to base + 4l (22 R398). -/
def execStt (q : BitVec 2) (d a : BitVec 7) (t : BitVec 3) (r : BitVec 1) (k : BitVec 3) (s : State) : Outcome State Fault Refusal :=
  laneForm (.stt q d a t r k) (tileForm t (fun m s =>
    let x := s.cur.sliceIndex a.toNat k.toNat
    s.laneStore .store m 4 (fun l => s.cur.gGet d.toNat + BitVec.ofNat 64 (4 * l))
      (fun l => (s.cur.sliceGet t.toNat (r == 1#1) x l).toNat))) s

/-! ## Regions (08 R155 to R158) -/

/-- Appends an access to the open region, a guarded-false one as an entry without effect (18 R304). -/
def State.regionAdd (s : State) (r : Region) (word : W32) (live : Bool) (e : RegionAcc) : State :=
  if r.accs.length = 8 then s.illegal word
  else if live ∧ (e.addr.toNat / 128 ≠ r.line.toNat / 128 ∨ e.addr.toNat % e.size ≠ 0) then s.illegal word
  else (s.setCur { s.cur with region := some { r with accs := r.accs ++ [{ e with live := live }] } }).finish

/-- A group load or store: recorded while a region is open, performed otherwise (08 R156). -/
def memoryForm (i : Instr) (e : State → RegionAcc) (f : State → State) (s : State) : Outcome State Fault Refusal :=
  .next (
    if !s.admits i then s.illegal (encode i)
    else match s.cur.region with
    | some r => s.regionAdd r (encode i) (s.gpGuard i.guardOf) (e s)
    | none => if !s.gpGuard i.guardOf then s.finish else f s)

/-- Whether a size code sign-extends (20 R350). -/
def signedSize (c : BitVec 3) : Bool := c == 1#3 || c == 3#3 || c == 5#3

/-- LD.size gd, [ga+gb] (20 R350, R353). -/
def execLdG (q : BitVec 2) (c : BitVec 3) (d a b : BitVec 7) (s : State) : Outcome State Fault Refusal :=
  memoryForm (.ldG q c d a b)
    (fun s => ⟨false, true, s.groupAddr a b, accBytes c, signedSize c, 0#64, d.toNat⟩)
    (fun s => s.groupLoad .load (s.groupAddr a b) (accBytes c) (fun g x => g.gSet d.toNat (groupExtend c x))) s

/-- ST.size [ga+gb], gd (22 R394). -/
def execStG (q : BitVec 2) (c : BitVec 3) (d a b : BitVec 7) (s : State) : Outcome State Fault Refusal :=
  memoryForm (.stG q c d a b)
    (fun s => ⟨true, true, s.groupAddr a b, accBytes c, false, s.cur.gGet d.toNat, 0⟩)
    (fun s => s.groupStore .store (s.groupAddr a b) (accBytes c) (s.cur.gGet d.toNat).toNat) s

/-- Whether an address lies in a window other than the own and peer scratchpads (18 R304). -/
def otherWindow (va : Nat) : Bool := va / 2 ^ 48 == 0x1FF && decide (2 ≤ va / 2 ^ 44 % 16)

/-- ABEG (18 R304). -/
def execAbeg (q : BitVec 2) (a : BitVec 7) (s : State) : Outcome State Fault Refusal :=
  groupForm (.abeg q a) (fun s =>
    let line := s.cur.gGet a.toNat
    if line.toNat % 128 ≠ 0 then s.stopFault 0x17 0 line 0
    else if otherWindow line.toNat then s.stopFault 0x15 0 line 0
    else
      let s1 := s.finish
      s1.setCur { s1.cur with region := some ⟨line, s.sp.pc, s.split, []⟩ }) s

/-- The recorded accesses of a region that are performed, with their targets. -/
def State.regionAims (s : State) (r : Region) : List (RegionAcc × Target) :=
  (r.accs.filter RegionAcc.live).map (fun e => (e, s.target (if e.store then .atomic else .monitor) e.addr e.size))

/-- The checked accesses of a region, its line first (18 R304). A line with address bits 63:57 or must-be-zero window bits set meets its
fault here and not at the ABEG, and an empty region checks no scratchpad line (log 46). -/
def State.regionAccs (s : State) (r : Region) : List LaneAcc :=
  let l := s.regionAims r
  let w := l.any (fun x => x.1.store)
  let line : List LaneAcc := if r.line.toNat / 2 ^ 48 = 0x1FF then [] else [⟨0, r.line, s.target (if w then .atomic else .monitor) r.line 1⟩]
  line ++ l.map (fun x => ⟨0, x.1.addr, x.2⟩)

/-- The value a region's load gives its register (20 R350). -/
def RegionAcc.value (e : RegionAcc) (x : Nat) : W64 := if e.signed then BitVec.ofInt 64 (intOf true (8 * e.size) x) else BitVec.ofNat 64 x

/-- Performs one recorded access; loads collect their register and value, zero with a report where the data is uncorrectable or its
package does not answer (13 R252, 14 R272, 18 R304). An access of a device register is performed as a plain one (log 38). -/
def regionStep (p : State × List (Nat × W64)) (x : RegionAcc × Target) : State × List (Nat × W64) :=
  let e := x.1
  match x.2 with
  | .mem loc _ _ =>
    if e.store then (p.1.storeNat loc e.size e.data.toNat, p.2)
    else if p.1.poisoned loc e.size then (p.1.report' 0x33 0 e.addr, p.2 ++ [(e.reg, 0#64)])
    else (p.1, p.2 ++ [(e.reg, e.value (p.1.natAt loc e.size))])
  | .mmio pa =>
    if e.store then (p.1.mmioWrite (mmioOff pa) e.size (e.data.toNat % 2 ^ (8 * e.size)), p.2)
    else (p.1, p.2 ++ [(e.reg, e.value (p.1.mmioRead (mmioOff pa) e.size))])
  | _ => if e.store then (p.1.lostStore e.addr, p.2) else (p.1.report' 0x33 0 e.addr, p.2 ++ [(e.reg, 0#64)])

/-- ACOM: the recorded accesses in order with nothing between, then the loads' destinations (08 R157, 18 R304). -/
def execAcom (q : BitVec 2) (o : BitVec 7) (s : State) : Outcome State Fault Refusal :=
  groupForm (.acom q o) (fun s =>
    match s.cur.region with
    | none => s.illegal (encode (.acom q o))
    | some r =>
      let l := s.regionAccs r
      match l.find? (fun a => match a.tgt with | .bad _ => true | _ => false) with
      | some a => s.stopFault (match a.tgt with | .bad c => c | _ => 0) 0 a.addr 0
      | none =>
        match s.gate l with
        | some s1 => s1
        | none =>
          match ((s.regionAims r).filter (fun x => x.1.store)).findSome? (fun x => s.stallOn [⟨0, x.1.addr, x.2⟩] x.1.size) with
          | some w => s.block w
          | none =>
            let p := (s.regionAims r).foldl regionStep (s, [])
            let g := p.2.foldl (fun g x => g.gSet x.1 x.2) p.1.cur
            (p.1.setCur { g with region := none }).finish) s

end Sys2Proof.Machine
end

