-- ==== Sys2Proof/Machine/Logic.lean ====
section
/-! DEFINITION. Bitwise operations: AND, OR, XOR, ANDN (18 R307, 21 R368, 22 R407). -/
namespace Sys2Proof.Machine
open Host

/-- AND, lane form: words, or pairs when w is 1 (18 R307). -/
def execAndV (q : BitVec 2) (w : BitVec 1) (d a b : BitVec 7) (s : State) : Outcome State Fault Refusal :=
  laneForm (.andV q w d a b) (if w = 1#1 then pair2 d a b (· &&& ·) else lane2 d a b (· &&& ·)) s

/-- AND, group form: 64 bits when w is 1 (18 R307). -/
def execAndG (q : BitVec 2) (w : BitVec 1) (d a b : BitVec 7) (s : State) : Outcome State Fault Refusal :=
  groupForm (.andG q w d a b) (if w = 1#1 then group2 d a b (· &&& ·) else word2 d a b (· &&& ·)) s

/-- OR, lane form: words, or pairs when w is 1 (21 R368). -/
def execOrV (q : BitVec 2) (w : BitVec 1) (d a b : BitVec 7) (s : State) : Outcome State Fault Refusal :=
  laneForm (.orV q w d a b) (if w = 1#1 then pair2 d a b (· ||| ·) else lane2 d a b (· ||| ·)) s

/-- OR, group form: 64 bits when w is 1 (21 R368). -/
def execOrG (q : BitVec 2) (w : BitVec 1) (d a b : BitVec 7) (s : State) : Outcome State Fault Refusal :=
  groupForm (.orG q w d a b) (if w = 1#1 then group2 d a b (· ||| ·) else word2 d a b (· ||| ·)) s

/-- XOR, lane form: words, or pairs when w is 1 (22 R407). -/
def execXorV (q : BitVec 2) (w : BitVec 1) (d a b : BitVec 7) (s : State) : Outcome State Fault Refusal :=
  laneForm (.xorV q w d a b) (if w = 1#1 then pair2 d a b (· ^^^ ·) else lane2 d a b (· ^^^ ·)) s

/-- XOR, group form: 64 bits when w is 1 (22 R407). -/
def execXorG (q : BitVec 2) (w : BitVec 1) (d a b : BitVec 7) (s : State) : Outcome State Fault Refusal :=
  groupForm (.xorG q w d a b) (if w = 1#1 then group2 d a b (· ^^^ ·) else word2 d a b (· ^^^ ·)) s

/-- ANDN, lane form: words, or pairs when w is 1 (18 R307). -/
def execAndnV (q : BitVec 2) (w : BitVec 1) (d a b : BitVec 7) (s : State) : Outcome State Fault Refusal :=
  laneForm (.andnV q w d a b) (if w = 1#1 then pair2 d a b (fun x y => x &&& ~~~y) else lane2 d a b (fun x y => x &&& ~~~y)) s

/-- ANDN, group form: 64 bits when w is 1 (18 R307). -/
def execAndnG (q : BitVec 2) (w : BitVec 1) (d a b : BitVec 7) (s : State) : Outcome State Fault Refusal :=
  groupForm (.andnG q w d a b) (if w = 1#1 then group2 d a b (fun x y => x &&& ~~~y) else word2 d a b (fun x y => x &&& ~~~y)) s

end Sys2Proof.Machine
end

