-- ==== Sys2Proof/Machine/QueueMove.lean ====
section
/-! DEFINITION. Queue moves, slice copies and QPOLL (03 R49 to R55, 21 R362 to R364, R372, R373). -/
namespace Sys2Proof.Machine
open Host

/-- Replaces a queue of an engine context. -/
def Engine.setQueue (e : Engine) (q : Nat) (l : List Slice) : Engine :=
  match q with | 0 => { e with mqa := l } | 1 => { e with mqb := l } | 2 => { e with mqo := l } | _ => { e with mqs := l }
/-- Replaces the engine context of the group's cluster. -/
def State.putEngine (s : State) (e : Engine) : State :=
  s.putJob { s.job with engines := put s.job.engines s.cur.cluster e }
/-- Marks the use of the B store for the image header (13 R264 FEAT bit 0). -/
def State.markBst (s : State) (use : Bool) : State := if use then s.putJob { s.job with bstUse := true } else s
/-- The engine context of the cluster of the group in focus. -/
def State.engine (s : State) : Engine := s.job.engine s.cur.cluster
/-- Queue moves and QPOLL belong to groups of teams in a launch with a sequencer entry (21 R362, R372). -/
def State.queuesAllowed (s : State) : Bool := s.cur.kind == .root && s.job.seqEntry != 0#64
/-- The queue number of a register 96 to 99. -/
def queueOf (r : BitVec 7) : Nat := r.toNat - 96

/-- A push of one slice; with no active lane nothing happens (21 R364). -/
def State.push (s : State) (i : Instr) (r : BitVec 7) (m : W32) (f : Nat → W32) : State :=
  if !s.queuesAllowed then s.illegal (encode i)
  else if m = 0#32 then s.finish
  else
    let l := s.engine.queue (queueOf r)
    if 16 ≤ l.length then s.block (.queue (queueOf r))
    else (s.putEngine (s.engine.setQueue (queueOf r)
      (l ++ [(List.range 32).map (fun k => if m.getLsbD k then f k else 0#32)]))).finish

/-- A pop of one slice of mqo (21 R364). -/
def State.pop (s : State) (i : Instr) (m : W32) (write : Group → (Nat → W32) → Group) : State :=
  if !s.queuesAllowed then s.illegal (encode i)
  else if m = 0#32 then s.finish
  else
    match s.engine.mqo with
    | [] => s.block (.queue 2)
    | x :: rest =>
      let s1 := s.putEngine { s.engine with mqo := rest }
      (s1.setCur (write s1.cur (fun l => x.getD l 0#32))).finish

/-- MOV mq, va (21 R364). -/
def execMovQueuePush (q : BitVec 2) (d a : BitVec 7) (s : State) : Outcome State Fault Refusal :=
  laneFormIf (!s.queuesAllowed) (.movQueuePush q d a) (fun m s => s.push (.movQueuePush q d a) d m (s.cur.vGet a.toNat)) s

/-- MOV vd, mqo (21 R364). -/
def execMovQueuePop (q : BitVec 2) (d : BitVec 7) (s : State) : Outcome State Fault Refusal :=
  laneFormIf (!s.queuesAllowed) (.movQueuePop q d) (fun m s => s.pop (.movQueuePop q d) m (fun g f => g.vSet m d.toNat f)) s

/-- MOV mq, slice (21 R364). -/
def execMovSlicePush (q : BitVec 2) (d a : BitVec 7) (t : BitVec 3) (r : BitVec 1) (k : BitVec 3) (s : State) : Outcome State Fault Refusal :=
  laneFormIf (!s.queuesAllowed) (.movSlicePush q d a t r k) (tileForm t (fun m s =>
    let x := s.cur.sliceIndex a.toNat k.toNat
    s.push (.movSlicePush q d a t r k) d m (s.cur.sliceGet t.toNat (r == 1#1) x))) s

/-- MOV slice, mqo (21 R364). -/
def execMovSlicePop (q : BitVec 2) (a : BitVec 7) (t : BitVec 3) (r : BitVec 1) (k : BitVec 3) (s : State) : Outcome State Fault Refusal :=
  laneFormIf (!s.queuesAllowed) (.movSlicePop q a t r k) (tileForm t (fun m s =>
    let x := s.cur.sliceIndex a.toNat k.toNat
    s.pop (.movSlicePop q a t r k) m (fun g f => g.sliceSet m t.toNat (r == 1#1) x f))) s

/-- MOV vd, slice (21 R363). -/
def execMovSliceToV (q : BitVec 2) (d a : BitVec 7) (t : BitVec 3) (r : BitVec 1) (k : BitVec 3) (s : State) : Outcome State Fault Refusal :=
  laneForm (.movSliceToV q d a t r k) (tileForm t (fun m s =>
    laneWrite d (s.cur.sliceGet t.toNat (r == 1#1) (s.cur.sliceIndex a.toNat k.toNat)) m s)) s

/-- MOV slice, vd (21 R363). -/
def execMovVToSlice (q : BitVec 2) (d a : BitVec 7) (t : BitVec 3) (r : BitVec 1) (k : BitVec 3) (s : State) : Outcome State Fault Refusal :=
  laneForm (.movVToSlice q d a t r k) (tileForm t (fun m s =>
    (s.setCur (s.cur.sliceSet m t.toNat (r == 1#1) (s.cur.sliceIndex a.toNat k.toNat) (s.cur.vGet d.toNat))).finish)) s

/-- QPOLL; outside the groups that have queues every one is ILLEGAL_OP, its guard not looked at (11 R211, 21 R373). -/
def execQpoll (q p : BitVec 2) (a : BitVec 7) (s : State) : Outcome State Fault Refusal :=
  groupFormIf (!s.queuesAllowed) (.qpoll q p a) (fun s =>
    let n := (s.engine.queue (queueOf a)).length
    gpredWrite p.toNat (if queueOf a = 2 then n != 0 else decide (n < 16)) s) s

end Sys2Proof.Machine
end

