-- ==== Sys2Proof/Machine/Matrix.lean ====
section
/-! DEFINITION. The six matrix instructions of the sequencer (11 R216 to R232, 21 R358 to R361). -/
namespace Sys2Proof.Machine
open Host

/-! ## Descriptors (11 R218) -/

/-- M of a descriptor. -/
def mdM (d : Nat) : Nat := bitsOf d 4 0 + 1
/-- N of a descriptor. -/
def mdN (d : Nat) : Nat := bitsOf d 13 5 + 1
/-- K of an MMA or MMAG descriptor. -/
def mdK (d : Nat) : Nat := bitsOf d 20 14 + 1
/-- ASRC. -/
def mdA (d : Nat) : Nat := bitsOf d 22 21
/-- BSRC. -/
def mdB (d : Nat) : Nat := bitsOf d 23 23
/-- BLOC. -/
def mdLoc (d : Nat) : Nat := bitsOf d 39 24
/-- The A-buffer base in bytes. -/
def mdBase (d : Nat) : Nat := bitsOf d 47 40 * 1024
/-- KV. -/
def mdKV (d : Nat) : Nat := bitsOf d 63 48
/-- The slice limit (11 R220). -/
def State.sliceLimit (s : State) : Nat := if s.hasKiln then 49152 else 65536

/-- The descriptor checks of MMA and MMAG (21 R359). -/
def State.mmaOk (s : State) (fa fb dreg d : Nat) (list : Bool) : Bool :=
  mdKV d == 0 && mdA d != 3 && (mdA d != 2 || dreg != 95) && (fa != 0 || decide (mdN d ≤ 256)) &&
  decide (mdBase d + 128 * rowSlices fa * mdM d + (if list then 128 else 0) ≤ 262144) &&
  mdLoc d % 16 == 0 && decide (mdLoc d + rowBytes fb ≤ s.sliceLimit) && (mdB d == 1 || s.bst)

/-- VG_LIMIT; the word index keeps its 14 bits (11 R229). -/
def State.vgLimit (s : State) (cause col word : Nat) : State :=
  s.stopFault 0x1B (col * 2 ^ 10 + word % 2 ^ 14 * 2 ^ 19 + cause * 2 ^ 33) 0#64 0xFF

/-! ## Slices, rows and the stores (11 R213, R219, R220) -/

/-- The bytes of slices, lane by lane. -/
def sliceBytes (l : List Slice) : List Byte := l.flatMap (fun sl => sl.flatMap (fun w => leBytes 4 w.toNat))
/-- The slices of bytes, padded with zero bytes, by count. -/
def toSlices : Nat → List Byte → List Slice
  | 0, _ => []
  | n + 1, b => (List.range 32).map (fun l => BitVec.ofNat 32 (leNat ((b.drop (4 * l)).take 4))) :: toSlices n (b.drop 128)

/-- Writes bytes into the A buffer. -/
def Engine.abufPut (e : Engine) (off : Nat) (bs : List Byte) : Engine := { e with abuf := memPut e.abuf off bs }
/-- Bytes of the A buffer. -/
def Engine.abufBytes (e : Engine) (off n : Nat) : List Byte := (List.range n).map (fun i => e.abuf.get (off + i))
/-- Moves slices of a queue to the ones taken, up to `n` taken in all (11 R232). -/
def Engine.pull (e : Engine) (q n : Nat) : Engine :=
  let k := n - e.taken.length
  let l := e.queue q
  { e.setQueue q (l.drop k) with taken := e.taken ++ l.take k }
/-- A matrix instruction that has ended holds no progress. -/
def Engine.rest (e : Engine) : Engine := { e with progress := 0, taken := [] }

/-- The location of byte `x` of column slice `j` of a cluster's B store (11 R220). -/
def columnLoc (cluster j x : Nat) : Nat := bstoreLoc cluster (x / 128 * 65536 + j * 128 + x % 128)
/-- `n` bytes of column slice `j` as a number. -/
def State.columnNat (s : State) (j x n : Nat) : Nat :=
  leNat ((List.range n).map (fun i => s.byteAt (columnLoc (s.cur.core / 8) j (x + i))))

/-- A scratchpad operand of `n` bytes at g[desc+1], or its stop (21 R359). -/
def State.operandRef (s : State) (va n : Nat) : BbRef :=
  let own := va / 2 ^ 44 = 0x1FF0
  let lc := if own then 8 * s.cur.grp else va / 2 ^ 32 % 2 ^ 12
  if !(own || decide (va / 2 ^ 44 = 0x1FF1)) then .bad 0x23
  else if va / 2 ^ 19 % (if own then 2 ^ 25 else 2 ^ 13) ≠ 0 ∨ s.job.logical ≤ lc ∨ s.job.lcoreDone lc then .bad 0x23
  else if va % 4 ≠ 0 then .bad 0x22
  else match (s.job.lcoreOf lc).team, (s.job.lcoreOf lc).core with
  | some t, some _ => if (s.teamOf s.cur.job t).bytes < va % 2 ^ 19 + n then .bad 0x21 else .at t (va % 2 ^ 19)
  | _, _ => .waits lc

/-- The earlier engine operation of the team whose writes an operand of `n` bytes in a cask slot must follow: one issued before the slot
was taken (07 R143). -/
def State.operandAfter (s : State) (team off n : Nat) : Option EngOp :=
  let va := 0x1FF0 * 2 ^ 44 + off
  (s.ops.filter (fun o => o.job == s.cur.job && o.team == team && (match o.kind with | .slot _ _ => true | _ => false) &&
    rangesMeet o.reads [(va, n)])).findSome? (fun o => (opsBefore s.ops o.id).find? (fun e => o.sameTeam e && rangesMeet [(va, n)] e.writes))

/-- Runs `f` on the bytes of a scratchpad operand, read after the writes it must follow. -/
def State.withOperand (s : State) (va : W64) (n : Nat) (f : List Byte → State) : State :=
  match s.operandRef va.toNat n with
  | .at t off =>
    match s.operandAfter t off n with
    | some e => s.block (.after e.id)
    | none => if s.poisoned (scratchLoc s.cur.job t off) n then s.spadUpset va else f (s.bytesAt (scratchLoc s.cur.job t off) n)
  | .bad c => s.stopFault c 0 va 0
  | .waits lc => s.block (.peer lc 0 va)

/-- A matrix instruction in its guard and on its descriptor. -/
def matrixForm (i : Instr) (desc : BitVec 7) (f : Nat → State → State) (s : State) : Outcome State Fault Refusal :=
  groupForm i (fun s => f (s.cur.gGet desc.toNat).toNat s) s

/-! ## A rows and index lists (11 R219, R222) -/

/-- Whether positions ascend strictly. -/
def ascends : List Nat → Bool
  | a :: b :: l => decide (a < b) && ascends (b :: l)
  | _ => true
/-- The positions of an index list of 128 bytes; none where it breaks R222 or names one at or beyond `k`. -/
def indexList (b : List Byte) (k : Nat) : Option (List Nat) :=
  let ps := (b.takeWhile (fun x => x != 0xFF#8)).map (fun x => x.toNat)
  if (b.drop ps.length).all (fun x => x == 0xFF#8) && ascends ps && ps.all (fun p => decide (p < k)) then some ps else none

/-- The list check of MMAG: VG_LIMIT cause 7 (21 R358). -/
def State.listCheck (s : State) (list : Option Nat) (b : List Byte) (go : State) : State :=
  match list with
  | none => go
  | some k => if (indexList (b.take 128) k).isNone then s.vgLimit 7 0 0 else go

/-- Brings the list and the A rows of `n` bytes into the A buffer, then goes on; a descriptor with BSRC = 0 marks the launch's images first
(11 R219, R232, 21 R358, R360). -/
def State.fetchRows (s0 : State) (dreg d n : Nat) (list : Option Nat) (go : State → State) : State :=
  let s := s0.markBst (mdB d == 0)
  let e := s.engine
  if e.progress ≠ 0 then go s else
  match mdA d with
  | 1 => s.listCheck list (e.abufBytes (mdBase d) 128) (go (s.putEngine { e with progress := 1 }))
  | 2 => s.withOperand (s.cur.gGet (dreg + 1)) n (fun b =>
      s.listCheck list b (go (s.putEngine { e.abufPut (mdBase d) b with progress := 1 })))
  | _ =>
    let e1 := if list.isSome then e.pull 0 1 else e
    let s1 := s.putEngine e1
    if list.isSome ∧ e1.taken = [] then s1.block (.queue 0) else
    s1.listCheck list (sliceBytes e1.taken) (
      let e2 := e1.pull 0 (n / 128)
      if e2.taken.length < n / 128 then (s.putEngine e2).block (.queue 0)
      else go (s.putEngine { e2.abufPut (mdBase d) (sliceBytes e2.taken) with progress := 1, taken := [] }))

/-- Brings `n` slices of a queue into the ones taken, then goes on. -/
def State.fetchQueue (s : State) (q n : Nat) (go : State → State) : State :=
  let e := s.engine.pull q n
  if e.taken.length < n then (s.putEngine e).block (.queue q) else go (s.putEngine e)

/-! ## MMA and MMAG (11 R221, R222) -/

/-- The tag of a format (11 R217): 0 FP32, 1 FP64, 2 INT32. -/
def tagOf (f : Nat) : Nat := if f = 0 then 1 else if 10 ≤ f ∧ f ≤ 12 then 2 else 0

/-- One block sum over the read positions; the others are +0 products (05 R101, R102). -/
def blockOf (fa fb a b : Nat) (reads : Nat → Bool) : FRes :=
  let zero := FVal.fin false 0 0
  match tagOf fa with
  | 1 => blockSum64 ((List.range 128).map (fun k => if reads k then (rowElem fa a k, rowElem fb b k) else (zero, zero)))
  | 2 =>
    let t := ((List.range 128).map (fun k => if reads k then (rowElem fa a k).toInt * (rowElem fb b k).toInt else 0)).foldl (· + ·) (0 : Int)
    ⟨ofInt 32 t, 0⟩
  | _ => blockSum ((List.range 128).map (fun k => if reads k then mulV (rowElem fa a k) (rowElem fb b k) else (zero, 0)))

/-- Writes one entry of a bank or a row group: two words under FP64. -/
def putEntry (c : Cells 32) (tag row j x : Nat) : Cells 32 :=
  if tag = 1 then (c.set (row * 512 + 2 * j) (BitVec.ofNat 32 x)).set (row * 512 + 2 * j + 1) (BitVec.ofNat 32 (x / 2 ^ 32))
  else c.set (row * 512 + j) (BitVec.ofNat 32 x)
/-- Reads one entry. -/
def getEntry (c : Cells 32) (tag row j : Nat) : Nat :=
  if tag = 1 then (c.get (row * 512 + 2 * j)).toNat + 2 ^ 32 * (c.get (row * 512 + 2 * j + 1)).toNat
  else (c.get (row * 512 + j)).toNat

/-- Pairs of a row and a column. -/
def cells2 (m n : Nat) : List (Nat × Nat) := (List.range m).flatMap (fun i => (List.range n).map (fun j => (i, j)))

/-- The bank an MMA or MMAG leaves. -/
def mmaBank (fa fb m n : Nat) (row col : Nat → Nat) (reads : Nat → Bool) : Bank :=
  (cells2 m n).foldl (fun b p =>
    let r := blockOf fa fb (row p.1) (col p.2) reads
    { b with words := putEntry b.words (tagOf fa) p.1 p.2 r.bits, flags := b.flags ||| r.flags })
    ⟨true, tagOf fa, m, n, 0, []⟩

/-- MMA and MMAG once their operands are in place (11 R221, R222, R230). -/
def State.mmaFinish (s : State) (fa fb bank d : Nat) (list : Bool) : State :=
  let e := s.engine
  let base := mdBase d + (if list then 128 else 0)
  let ps := if list then (indexList (e.abufBytes (mdBase d) 128) (mdK d)).getD [] else List.range (mdK d)
  let row := fun i => leNat (e.abufBytes (base + 128 * rowSlices fa * i) (128 * rowSlices fa))
  let col := fun j => if mdB d = 1 then leNat (sliceBytes ((e.taken.drop (j * rowSlices fb)).take (rowSlices fb)))
    else s.columnNat j (mdLoc d) (rowBytes fb)
  let b := mmaBank fa fb (mdM d) (mdN d) row col (fun k => ps.contains k)
  (s.putEngine (if bank = 0 then { e.rest with bank0 := b } else { e.rest with bank1 := b })).finish

/-- MMA and MMAG. -/
def State.mmaRun (s : State) (word : W32) (fa fb bank dreg d : Nat) (list : Bool) : State :=
  if !s.mmaOk fa fb dreg d list then s.illegal word else
  s.fetchRows dreg d (128 * rowSlices fa * mdM d + (if list then 128 else 0)) (if list then some (mdK d) else none) (fun s =>
    s.fetchQueue 1 (if mdB d = 1 then mdN d * rowSlices fb else 0) (fun s => s.mmaFinish fa fb bank d list))

/-- MMA (11 R221). -/
def execMma (q : BitVec 2) (a b : BitVec 4) (c : BitVec 3) (d : BitVec 7) (s : State) : Outcome State Fault Refusal :=
  matrixForm (.mma q a b c d) d (fun x s => s.mmaRun (encode (.mma q a b c d)) a.toNat b.toNat c.toNat d.toNat x false) s
/-- MMAG (11 R222). -/
def execMmag (q : BitVec 2) (a b : BitVec 4) (c : BitVec 3) (d : BitVec 7) (s : State) : Outcome State Fault Refusal :=
  matrixForm (.mmag q a b c d) d (fun x s => s.mmaRun (encode (.mmag q a b c d)) a.toNat b.toNat c.toNat d.toNat x true) s

/-! ## MSCA, MZERO, MDRN (11 R223, R224, 21 R361) -/

/-- The bank PB of an MSCA descriptor. -/
def Engine.bank (e : Engine) (n : Nat) : Bank := if n = 0 then e.bank0 else e.bank1
/-- The tag an MSCA mode names (11 R217). -/
def scaTag (mode : Nat) : Nat := if mode = 0 then 1 else if mode = 1 then 0 else 2

/-- One element of MSCA: the new accumulator entry and its flags (05 R103, 11 R223). -/
def scaElem (tag : Nat) (scaled : Bool) (sc : FExact) (psum acc : Nat) : FRes :=
  let f := if tag = 1 then fp64 else fp32
  if tag = 2 ∧ !scaled then ⟨(acc + psum) % 2 ^ 32, 0⟩
  else
    let p := if tag = 2 then FVal.ofInteger (intOf true 32 psum) else decodeF f psum
    let r := finishF f .rne false (fmaV false p sc.1 (decodeF f acc))
    ⟨r.bits, r.flags ||| sc.2⟩

/-- The scale of a row and a column block: the product rounded to the tag's format (11 R223). -/
def scaScale (tag : Nat) (x y : Nat) : FExact :=
  let f := if tag = 1 then fp64 else fp32
  let r := finishF f .rne false (mulV (decodeF fp32 x) (decodeF fp32 y))
  (decodeF f r.bits, r.flags)

/-- Adds flags to a flag word. -/
def Engine.orFlag (e : Engine) (q f : Nat) : Engine := { e with flags := e.flags.set q (e.flags.get q ||| BitVec.ofNat 8 f) }

/-- MSCA on its scales, given as bytes (11 R223). -/
def State.scaFinish (s : State) (q d : Nat) (scales : List Byte) : State :=
  let e := s.engine
  let b := e.bank (bitsOf d 2 2)
  let on := !d.testBit 0
  let word := fun k => leNat ((scales.drop (4 * k)).take 4)
  let r := (cells2 b.m b.n).foldl (fun (p : Cells 32 × Nat) ij =>
    let sc : FExact := if on then scaScale b.tag (word ij.1) (word (32 + ij.2 / 128)) else (.fin false 1 0, 0)
    let x := scaElem b.tag on sc (getEntry b.words b.tag ij.1 ij.2) (getEntry p.1 b.tag (32 * q + ij.1) ij.2)
    (putEntry p.1 b.tag (32 * q + ij.1) ij.2 x.bits, p.2 ||| x.flags)) (e.acc, b.flags)
  let e1 := { e.rest.orFlag q r.2 with acc := r.1 }
  (s.putEngine (if bitsOf d 2 2 = 0 then { e1 with bank0 := { b with valid := false } } else { e1 with bank1 := { b with valid := false } })).finish

/-- MSCA (11 R223). -/
def execMsca (q : BitVec 2) (a : BitVec 4) (c : BitVec 3) (d : BitVec 7) (s : State) : Outcome State Fault Refusal :=
  matrixForm (.msca q a c d) d (fun x s =>
    let b := s.engine.bank (bitsOf x 2 2)
    if 8 ≤ x ∨ !b.valid ∨ b.tag ≠ scaTag a.toNat ∨ (x % 4 = 2 ∧ d = 95#7) then s.illegal (encode (.msca q a c d))
    else if x.testBit 0 then s.scaFinish c.toNat x []
    else if x.testBit 1 then s.withOperand (s.cur.gGet (d.toNat + 1)) 256 (fun bs => s.scaFinish c.toNat x bs)
    else s.fetchQueue 3 2 (fun s => s.scaFinish c.toNat x (sliceBytes s.engine.taken))) s

/-- Clears rows of the accumulator store. -/
def Engine.clearRows (e : Engine) (lo n : Nat) : Engine :=
  { e with acc := e.acc.filter (fun p => decide (p.1 < lo * 512) || decide ((lo + n) * 512 ≤ p.1)) }

/-- MZERO (11 R224). -/
def execMzero (q : BitVec 2) (c : BitVec 3) (s : State) : Outcome State Fault Refusal :=
  groupForm (.mzero q c) (fun s =>
    let e := s.engine.clearRows (32 * c.toNat) 32
    (s.putEngine { e with flags := e.flags.set c.toNat 0#8 }).finish) s

/-- Bytes of an output element (21 R361). -/
def drainWidth (f : Nat) : Nat := if f = 1 then 4 else if f = 3 ∨ f = 4 then 2 else 1
/-- The format of an output code. -/
def drainFmt (f : Nat) : Fmt := match f with | 3 => bf16 | 4 => fp16 | 5 => e5m2 | _ => e4m3
/-- One output element and its flags (11 R224). -/
def drainElem (f x : Nat) : FRes := if f = 1 then ⟨x, 0⟩ else roundF (drainFmt f) .rne false (decodeF fp32 x)
/-- The slices of a drained row. -/
def Engine.drainRow (e : Engine) (f row n : Nat) : List Slice :=
  let w := drainWidth f
  toSlices ((n * w + 127) / 128) ((List.range n).flatMap (fun j => leBytes w (drainElem f (e.acc.get (row * 512 + j)).toNat).bits))
/-- The flags of a drain. -/
def Engine.drainFlags (e : Engine) (f q m n : Nat) : Nat :=
  (cells2 m n).foldl (fun x p => x ||| (drainElem f (e.acc.get ((32 * q + p.1) * 512 + p.2)).toNat).flags) 0

/-- MDRN: pushes from the slice it stopped at, then the register and CLR (11 R224). -/
def State.drain (s : State) (f q dreg d : Nat) : State :=
  let e := s.engine
  let m := mdM d
  let n := mdN d
  let all := (List.range m).flatMap (fun i => e.drainRow f (32 * q + i) n)
  let room := 16 - e.mqo.length
  let e1 := { e with mqo := e.mqo ++ (all.drop e.progress).take room, progress := e.progress + min room (all.length - e.progress) }
  if e1.progress < all.length then (s.putEngine e1).block (.queue 2) else
  let e2 := e1.rest.orFlag q (e.drainFlags f q m n)
  let x := BitVec.ofNat 64 (d % 2 ^ 56 + (e2.flags.get q).toNat % 64 * 2 ^ 56)
  let e3 : Engine := if d.testBit 14 then { e2.clearRows (32 * q) m with flags := e2.flags.set q 0#8 } else e2
  let s1 := s.putEngine e3
  (s1.setCur (s1.cur.gSet dreg x)).finish

/-- MDRN (11 R224). -/
def execMdrn (q : BitVec 2) (a : BitVec 4) (c : BitVec 3) (d : BitVec 7) (s : State) : Outcome State Fault Refusal :=
  matrixForm (.mdrn q a c d) d (fun x s =>
    if bitsOf x 55 15 ≠ 0 then s.illegal (encode (.mdrn q a c d)) else s.drain a.toNat c.toNat d.toNat x) s

/-! ## MMAV (11 R227 to R230) -/

/-- What parsing a value-grouped row comes to: its groups, a VG_LIMIT cause at a word, or a word not yet popped. -/
inductive VgRow where
  | ok (groups : List (W32 × List Nat))
  | bad (cause word : Nat)
  | need (word : Nat)

/-- Byte `i` of the position bytes of a group whose bytes start at word `w`. -/
def vgByte (get : Nat → Option W32) (w i : Nat) : Option Nat := (get (w + i / 4)).map (fun x => x.toNat / 2 ^ (8 * (i % 4)) % 256)

/-- The position bytes of one group from byte `i` (11 R227): the positions and the first word after the group. -/
def vgGroup (get : Nat → Option W32) (len kv w : Nat) : Nat → Nat → Int → List Nat → Except VgRow (List Nat × Nat)
  | 0, _, _, _ => .error (.bad 6 len)
  | f + 1, i, prev, ps =>
    if len ≤ w + i / 4 then .error (.bad 6 (w + i / 4)) else
    match vgByte get w i with
    | none => .error (.need (w + i / 4))
    | some b =>
      if b ≠ 255 then
        let p := (prev + 1 + b).toNat
        if kv ≤ p then .error (.bad 4 (w + i / 4)) else vgGroup get len kv w f (i + 1) p (p :: ps)
      else if len ≤ w + (i + 1) / 4 then .error (.bad 6 (w + (i + 1) / 4))
      else if len ≤ w + (i + 2) / 4 then .error (.bad 6 (w + (i + 2) / 4))
      else match vgByte get w (i + 1), vgByte get w (i + 2) with
      | some lo, some hi =>
        let dd := lo + 256 * hi
        if dd = 0xFFFF then .ok (ps.reverse, w + (i + 6) / 4)
        else if dd = 0xFFFE then .error (.bad 5 (w + (i + 2) / 4))
        else
          let p := (prev + 1 + dd).toNat
          if kv ≤ p then .error (.bad 4 (w + (i + 2) / 4)) else vgGroup get len kv w f (i + 3) p (p :: ps)
      | none, _ => .error (.need (w + (i + 1) / 4))
      | _, none => .error (.need (w + (i + 2) / 4))

/-- The groups of a row from word `w`. -/
def vgGroups (get : Nat → Option W32) (len kv : Nat) : Nat → Nat → List (W32 × List Nat) → VgRow
  | 0, w, gs => if w = len then .ok gs.reverse else .bad 6 w
  | n + 1, w, gs =>
    if len ≤ w then .bad 6 w else
    match get w with
    | none => .need w
    | some v =>
      match vgGroup get len kv (w + 1) (4 * len + 1) 0 (-1) [] with
      | .error e => e
      | .ok (ps, w1) => vgGroups get len kv n w1 ((v, ps) :: gs)

/-- Parses a row against the limits of R229. -/
def vgRow (get : Nat → Option W32) (fb kv room : Nat) : VgRow :=
  match get 0 with
  | none => .need 0
  | some h =>
    let n := h.toNat % 2 ^ 16
    if 256 < n ∨ h.toNat / 2 ^ 24 ≠ 0 ∨ h.toNat / 2 ^ 16 % 256 ≠ fb then .bad 2 0 else
    match get 1 with
    | none => .need 1
    | some l => if l.toNat < 2 ∨ 16384 < l.toNat ∨ room < 4 * l.toNat then .bad 3 1 else vgGroups get l.toNat kv n 2 []

/-- The words of column `j` of the B store. -/
def State.columnWord (s : State) (d j k : Nat) : Option W32 := some (BitVec.ofNat 32 (s.columnNat j (mdLoc d + 4 * k) 4))

/-- The first failing column of the B store, with its cause and word (11 R228). -/
def State.vgBad (s : State) (fb d : Nat) : Option (Nat × Nat × Nat) :=
  (List.range (mdN d)).findSome? (fun j => match vgRow (s.columnWord d j) fb (mdKV d) (s.sliceLimit - mdLoc d) with
    | .bad c w => some (c, j, w)
    | _ => none)

/-- Activation `p` of row `i` as an FP32 word (11 R228). -/
def Engine.activation (e : Engine) (fa d i p : Nat) : Nat :=
  let len := 128 * ((rowLen fa (mdKV d) + 127) / 128)
  (roundF fp32 .rne false (rowElem fa (leNat (e.abufBytes (mdBase d + len * i) len)) p)).bits

/-- Accumulates one column (05 R104, 11 R228). -/
def Engine.vgColumn (e : Engine) (fa fb q d j : Nat) (gs : List (W32 × List Nat)) : Engine :=
  (List.range (mdM d)).foldl (fun t i =>
    let k := (32 * q + i) * 512 + j
    let r := mmavColumn (gs.map (fun g => (rowElem fb g.1.toNat 0, g.2))) (e.activation fa d i) (t.acc.get k).toNat
    { t.orFlag q r.flags with acc := t.acc.set k (BitVec.ofNat 32 r.bits) }) e

/-- MMAV from the B store (11 R228). -/
def State.vgStore (s : State) (fa fb q d : Nat) : State :=
  let e := (List.range (mdN d)).foldl (fun t j =>
    match vgRow (s.columnWord d j) fb (mdKV d) (s.sliceLimit - mdLoc d) with
    | .ok gs => t.vgColumn fa fb q d j gs
    | _ => t) s.engine
  (s.putEngine e.rest).finish

/-- One column from mqb: the slices it takes are popped as its words are read (11 R230). -/
def State.vgPop (s : State) (fa fb q d j : Nat) : Nat → State × Bool
  | 0 => (s, false)
  | f + 1 =>
    let e := s.engine
    match vgRow (fun k => (e.taken[k / 32]?).map (fun sl => sl.getD (k % 32) 0#32)) fb (mdKV d) (s.sliceLimit - mdLoc d) with
    | .ok gs => (s.putEngine { e.vgColumn fa fb q d j gs with progress := e.progress + 1, taken := [] }, true)
    | .bad c w => (s.vgLimit c j w, false)
    | .need w =>
      let e1 := e.pull 1 (w / 32 + 1)
      if e1.taken.length ≤ w / 32 then ((s.putEngine e1).block (.queue 1), false)
      else State.vgPop (s.putEngine e1) fa fb q d j f

/-- MMAV from mqb, one column at a time (11 R230). -/
def State.vgQueue (s : State) (fa fb q d : Nat) : Nat → State
  | 0 => (s.putEngine s.engine.rest).finish
  | n + 1 =>
    let r := s.vgPop fa fb q d (mdN d - (n + 1)) 514
    if r.2 then State.vgQueue r.1 fa fb q d n else r.1

/-- MMAV: the checks in the order of R359, then the operands, then the columns. -/
def State.mmavRun (s : State) (word : W32) (fa fb q dreg d : Nat) : State :=
  let n := 128 * ((rowLen fa (mdKV d) + 127) / 128) * mdM d
  if mdA d = 3 then s.vgLimit 1 0 0
  else if (mdB d = 0 ∧ !s.bst) ∨ mdK d ≠ 1 ∨ (mdA d = 2 ∧ dreg = 95) then s.illegal word
  else if 8 < mdM d ∨ mdLoc d % 4 ≠ 0 ∨ mdKV d = 0 ∨ 262144 < mdBase d + n then s.vgLimit 1 0 0
  else
    match (if mdB d = 0 ∧ s.engine.progress = 0 then s.vgBad fb d else none) with
    | some (c, j, w) => s.vgLimit c j w
    | none => s.fetchRows dreg d n none (fun s =>
        if mdB d = 0 then s.vgStore fa fb q d else s.vgQueue fa fb q d (mdN d - (s.engine.progress - 1)))

/-- MMAV (11 R228). -/
def execMmav (q : BitVec 2) (a b : BitVec 4) (c : BitVec 3) (d : BitVec 7) (s : State) : Outcome State Fault Refusal :=
  matrixForm (.mmav q a b c d) d (fun x s => s.mmavRun (encode (.mmav q a b c d)) a.toNat b.toNat c.toNat d.toNat x) s

end Sys2Proof.Machine
end

