-- ==== Sys2Proof/Machine/Move.lean ====
section
/-! DEFINITION. Moves, specials, immediates, addresses: MOV, MOVI, LEA, BCAST (18 R314, 20 R356, 21 R362 to R365). -/
namespace Sys2Proof.Machine
open Host

/-- A special by its code (03 R56). %grp of a task is the s of its root element. -/
def State.special (s : State) (c : BitVec 7) : W64 :=
  match c.toNat with
  | 1 => BitVec.ofNat 64 s.split
  | 2 => BitVec.ofNat 64 (if s.cur.kind = .task then ((pedigree s.cur.pdh s.cur.pdl).headD (0, 0)).1 else s.cur.grp)
  | 3 => BitVec.ofNat 64 s.cur.team
  | 4 => BitVec.ofNat 64 s.cur.lcore
  | 5 => BitVec.ofNat 64 (s.cur.core / 96)
  | 6 => BitVec.ofNat 64 s.pkg
  | 7 => s.cur.pdl
  | 8 => s.cur.pdh
  | 9 => BitVec.ofNat 64 (s.cycOf s.cur)
  | _ => BitVec.ofNat 64 s.time

/-- MOV vd, va (21 R363). -/
def execMovV (q : BitVec 2) (d a : BitVec 7) (s : State) : Outcome State Fault Refusal :=
  laneForm (.movV q d a) (lane1 d a id) s

/-- MOV.64 vd, va (21 R363). -/
def execMovV64 (q : BitVec 2) (d a : BitVec 7) (s : State) : Outcome State Fault Refusal :=
  laneForm (.movV64 q d a) (pair1 d a id) s

/-- MOV.B32 gd, ga (21 R363). -/
def execMovG32 (q : BitVec 2) (d a : BitVec 7) (s : State) : Outcome State Fault Refusal :=
  groupForm (.movG32 q d a) (word1 d a id) s

/-- MOV gd, ga (21 R363). -/
def execMovG64 (q : BitVec 2) (d a : BitVec 7) (s : State) : Outcome State Fault Refusal :=
  groupForm (.movG64 q d a) (group1 d a id) s

/-- MOV vd, %lane (03 R56, 21 R363). -/
def execMovSpecialV (q : BitVec 2) (d c : BitVec 7) (s : State) : Outcome State Fault Refusal :=
  laneForm (.movSpecialV q d c) (fun m s => laneWrite d (fun l => BitVec.ofNat 32 l) m s) s

/-- MOV gd, special (03 R56, 21 R363). -/
def execMovSpecialG (q : BitVec 2) (d c : BitVec 7) (s : State) : Outcome State Fault Refusal :=
  groupForm (.movSpecialG q d c) (fun s => groupWrite d (s.special c) s) s

/-- MOVI, lane form (21 R365). -/
def execMoviV (q : BitVec 2) (d : BitVec 7) (i : BitVec 17) (s : State) : Outcome State Fault Refusal :=
  laneForm (.moviV q d i) (fun m s => laneWrite d (fun _ => (s.immediate i).extractLsb' 0 32) m s) s

/-- MOVI, group form (21 R365). -/
def execMoviG (q : BitVec 2) (d : BitVec 7) (i : BitVec 17) (s : State) : Outcome State Fault Refusal :=
  groupForm (.moviG q d i) (fun s => groupWrite d (s.immediate i) s) s

/-- LEA, lane form (20 R356). -/
def execLeaV (q : BitVec 2) (sc : BitVec 2) (d a b : BitVec 7) (s : State) : Outcome State Fault Refusal :=
  laneForm (.leaV q sc d a b) (fun m s => laneWrite2 d (fun l => s.cur.gGet a.toNat + ((s.cur.vGet b.toNat l).zeroExtend 64 <<< sc.toNat)) m s) s

/-- LEA, group form (20 R356). -/
def execLeaG (q : BitVec 2) (sc : BitVec 2) (d a b : BitVec 7) (s : State) : Outcome State Fault Refusal :=
  groupForm (.leaG q sc d a b) (fun s => groupWrite d (s.cur.gGet a.toNat + ((s.cur.gGet32 b.toNat).zeroExtend 64 <<< sc.toNat)) s) s

/-- BCAST (18 R314). -/
def execBcast (q : BitVec 2) (d a : BitVec 7) (w : BitVec 1) (s : State) : Outcome State Fault Refusal :=
  laneForm (.bcast q d a w) (fun m s => if w = 1#1 then laneWrite2 d (fun _ => s.cur.gGet a.toNat) m s else laneWrite d (fun _ => s.cur.gGet32 a.toNat) m s) s

end Sys2Proof.Machine
end

