-- ==== Sys2Proof/Machine/System.lean ====
section
/-! DEFINITION. System instructions and the events at an instruction boundary: NOP, TRAP, ERET, YIELD, FENCE, WBASE, CTLRD,
CTLWR, TRAP_ENTRY, TIMER, ALARM, GRP_ABSENT (03 R57 to R64, 13 R248 to R257, 19 R329, R330, R336, 22 R399, R406, R408). -/
namespace Sys2Proof.Machine
open Host

/-- NOP (21 R366). -/
def execNop (q : BitVec 2) (s : State) : Outcome State Fault Refusal := groupForm (.nop q) State.finish s

/-- TRAP: completes, then raises TRAP with EPC at the next instruction (13 R256, 22 R399). -/
def execTrap (q : BitVec 2) (n : BitVec 7) (s : State) : Outcome State Fault Refusal :=
  groupForm (.trap q n) (fun s =>
    s.consume.take ⟨0x1C, 1, n.toNat, s.sp.pc + 4#64, s.sp.pc, 0#64, 0xFF, s.cur.pdl, s.cur.pdh, none⟩) s

/-- ERET: EPC from the held slot; outside a handler ILLEGAL_OP (13 R256). As a first instruction after a restore it consumes ctl.repc.ACT
(03 R62). -/
def execEret (q : BitVec 2) (s : State) : Outcome State Fault Refusal :=
  groupForm (.eret q) (fun s =>
    match s.cur.handler with
    | none => s.illegal (encode (.eret q))
    | some (_, slot) =>
      match s.devPage (keyTrap s.cur.job slot) s.job.root s.job.queue (s.job.trapArea + 64 + 64 * slot) false with
      | .waits s1 => s1.block (.page (keyTrap s.cur.job slot))
      | .refused s1 _ => { s1.putJob (s.job.stop 1) with tick := s.tick + 1, limm := none }
      | .page p => s.consume.resume (BitVec.ofNat 64 (s.devNat (p.pa + 8) 8) &&& 0xFFFFFFFFFFFFFFFC#64)) s

/-- YIELD: the split becomes the youngest of its quadrant and loses its greedy hold (12 R245, 22 R408). -/
def execYield (q : BitVec 2) (s : State) : Outcome State Fault Refusal :=
  groupForm (.yield q) (fun s =>
    let oldest := s.allGroups.foldl (fun x g => g.splits.foldl (fun y p => max y p.age) x) s.time
    let s1 := s.setSplit { s.sp with age := oldest + 1 }
    { s1 with lastIssue := drop s1.lastIssue (4 * s.cur.core + s.cur.slot % 4) }.finish) s

/-- FENCE: a delivery point; every earlier access is already performed at its home (19 R336, log 5). -/
def execFence (q : BitVec 2) (o : BitVec 7) (s : State) : Outcome State Fault Refusal :=
  groupForm (.fence q o) (fun s => s.atDelivery State.finish) s

/-- Sets WBASE where legal, else REGWIN (03 R46, 22 R406). -/
def State.setWbase (s : State) (x : Nat) : State :=
  if x % 32 ≠ 0 ∨ s.cur.allot < x + 32 then s.stopFault 0x11 0 0#64 0xFF
  else (s.setCur { s.cur with wbase := x }).finish

/-- WBASE imm (22 R406). -/
def execWbaseImm (q : BitVec 2) (c : BitVec 4) (s : State) : Outcome State Fault Refusal :=
  convergentForm (.wbaseImm q c) (fun s => s.setWbase (32 * c.toNat)) s

/-- WBASE ga (22 R406). -/
def execWbaseReg (q : BitVec 2) (a : BitVec 7) (s : State) : Outcome State Fault Refusal :=
  convergentForm (.wbaseReg q a) (fun s => s.setWbase (s.cur.gGet a.toNat).toNat) s

/-- CTLRD (19 R329). As the first instruction after ERET or a restore it reads ctl.repc with ACT still set, and completes its consumption: the
model's choice (03 R62, log 12). -/
def execCtlrd (q : BitVec 2) (d : BitVec 7) (c : BitVec 10) (s : State) : Outcome State Fault Refusal :=
  groupForm (.ctlrd q d c) (fun s => (s.setCur (s.cur.gSet d.toNat (s.ctlGet c.toNat))).finish) s

/-- CTLRD of ctl.fflags: every earlier instruction has completed (19 R330). -/
def execCtlrdFflags (q : BitVec 2) (d : BitVec 7) (s : State) : Outcome State Fault Refusal :=
  groupForm (.ctlrdFflags q d) (fun s => (s.setCur (s.cur.gSet d.toNat s.cur.fflags)).finish) s

/-- A write of a control register: ctl.repc.ACT of a resumption is consumed before the write (03 R62, 19 R329). -/
def State.ctlWrite (s : State) (n : Nat) (a : BitVec 7) : State :=
  let s1 := s.consume
  (s1.setCur (s1.cur.ctlSet n (s1.cur.gGet a.toNat))).finish

/-- CTLWR of ctl.caps, fpmode, trapvec, trapinfo, gtimeout (19 R329). -/
def execCtlwr (q : BitVec 2) (a : BitVec 7) (c : BitVec 10) (s : State) : Outcome State Fault Refusal :=
  groupForm (.ctlwr q a c) (fun s => s.ctlWrite c.toNat a) s
/-- CTLWR of ctl.fflags (19 R330). -/
def execCtlwrFflags (q : BitVec 2) (a : BitVec 7) (s : State) : Outcome State Fault Refusal :=
  groupForm (.ctlwrFflags q a) (fun s => s.ctlWrite 2 a) s
/-- CTLWR of ctl.lfm: MASK is W1C (03 R61). -/
def execCtlwrLfm (q : BitVec 2) (a : BitVec 7) (s : State) : Outcome State Fault Refusal :=
  groupForm (.ctlwrLfm q a) (fun s => s.ctlWrite 3 a) s
/-- CTLWR of ctl.repc (03 R62). -/
def execCtlwrRepc (q : BitVec 2) (a : BitVec 7) (s : State) : Outcome State Fault Refusal :=
  groupForm (.ctlwrRepc q a) (fun s => s.ctlWrite 4 a) s
/-- CTLWR of ctl.tmr (03 R63). -/
def execCtlwrTmr (q : BitVec 2) (a : BitVec 7) (s : State) : Outcome State Fault Refusal :=
  groupForm (.ctlwrTmr q a) (fun s => s.ctlWrite 5 a) s
/-- CTLWR of ctl.alarm (03 R63). -/
def execCtlwrAlarm (q : BitVec 2) (a : BitVec 7) (s : State) : Outcome State Fault Refusal :=
  groupForm (.ctlwrAlarm q a) (fun s => s.ctlWrite 6 a) s

/-! ## Events at a boundary (13 R252, R255) -/

/-- A stop fault between instructions: FPC is EPC (13 R254). It stays due while no trap slot is free (13 R253). -/
def State.boundaryFault (s : State) (code : Nat) : State :=
  s.takeOr ⟨code, 1, 0, s.epc, s.epc, 0#64, 0xFF, s.cur.pdl, s.cur.pdh, none⟩ none

/-- Whether the split in focus waits for a trap slot (13 R253). -/
def State.slotless (s : State) : Bool := match s.sp.st with | .blocked (.slot _) _ => true | _ => false

/-- TIMER: taken when due, the register reset at the same moment (03 R63). -/
def execTimer (s : State) : Outcome State Fault Refusal :=
  .next (
    if !s.timerDue s.cur then s.idle else
    let t := (s.setCur { s.cur with tmr := 0 }).boundaryFault 0x1D
    if t.slotless then t.setCur { t.cur with tmr := s.cur.tmr } else t)

/-- ALARM: taken when due, the register reset at the same moment (03 R63). -/
def execAlarm (s : State) : Outcome State Fault Refusal :=
  .next (
    if !s.alarmDue s.cur then s.idle else
    let t := (s.setCur { s.cur with alarm := 0 }).boundaryFault 0x1E
    if t.slotless then t.setCur { t.cur with alarm := s.cur.alarm } else t)

/-- TRAP_ENTRY: the report due in the split in focus, asynchronous before lane (13 R251, R252). -/
def execTrapEntry (s : State) : Outcome State Fault Refusal :=
  .next (
    match s.reportDue with
    | none => s.idle
    | some p => if p.cls = 2 then s.deliverLane p else s.deliver (p.exc p.code s.epc) (s.cur.pend.erase p))

/-- The stop fault of a wait on logical cores that has passed its limit: GRP_ABSENT naming the core, of a group-address load the first
member still absent, unless a member's read failed, which is GRP_FAULT (02 R27, 06 R109, 08 R165, 10 R205). -/
def State.absent (s : State) (w : Wait) : State :=
  match w with
  | .peer lc lane addr => s.stopFault 0x19 (grpDetail lane 0x3FF lc) addr lane
  | .host lc => s.stopFault 0x19 (grpDetail 0 0x3FF lc) 0#64 0
  | .members got left =>
    match lowestFailed got, left with
    | some r, _ => s.stopFault 0x1A (grpDetail r.lane r.pos r.lcore) r.addr r.lane
    | none, r :: _ => s.stopFault 0x19 (grpDetail r.lane r.pos r.lcore) r.addr r.lane
    | none, [] => s.idle
  | _ => s.idle

/-- GRP_ABSENT: a wait on a logical core that has passed ctl.gtimeout ends in the stop fault (02 R27, 06 R109, 08 R165). -/
def execGrpAbsent (s : State) : Outcome State Fault Refusal :=
  .next (
    match s.sp.st with
    | .blocked w _ => if s.timedOut s.cur s.sp then s.absent w else s.idle
    | _ => s.idle)

end Sys2Proof.Machine
end

