-- ==== Sys2Proof/Machine/Sched.lean ====
section
/-! DEFINITION. Teams and tasks on cores: dispatch, stealing, suspension at JOIN, time slicing, racking, eviction, images and engine
contexts (02 R25 to R36, R43 to R45, 11 R211 to R215, R232, 13 R260 to R266). -/
namespace Sys2Proof.Machine
open Host

/-! ## Room on a core (02 R25) -/

/-- Groups and tasks that hold a slot of a core. -/
def State.onCore (s : State) (core : Nat) : List Group :=
  s.allGroups.filter (fun g => g.resident && (g.kind == .root || g.kind == .task) && g.core == core)
/-- Free group slots of a core, of 48 (12 R245). -/
def State.freeSlots (s : State) (core : Nat) : List Nat :=
  (List.range 48).filter (fun k => (s.onCore core).all (fun g => g.slot != k))
/-- Whether `n` groups of `regs` registers per lane and some scratchpad bytes fit on a core (02 R19, R25). -/
def State.room (s : State) (core n regs bytes : Nat) : Bool :=
  decide (n ≤ (s.freeSlots core).length) &&
  decide ((s.onCore core).foldl (fun x g => x + g.allot) 0 + n * regs ≤ 3072) &&
  decide (s.scratchUsed core + bytes ≤ 2 ^ 19)
/-- Whether a core belongs to a launch's partition (12 R234). -/
def Job.hasCore (j : Job) (core : Nat) : Bool := j.dies.contains (core / 96)
/-- Whether a launch has a sequencer entry (11 R211). -/
def Job.sequenced (j : Job) : Bool := j.seqEntry != 0#64
/-- The partition's clusters in ascending physical order (11 R214). -/
def Job.clusters (j : Job) : List Nat := j.dies.flatMap (fun d => (List.range 12).map (fun k => 12 * d + k))
/-- The physical cluster of a logical cluster with an engine context (11 R214). -/
def Job.clusterAt (j : Job) (c : Nat) : Nat := j.clusters.getD (c % max 1 j.clusters.length) 0
/-- The core of a logical core of a launch with a sequencer entry (11 R211). -/
def Job.seqCore (j : Job) (lc : Nat) : Nat := 8 * j.clusterAt (lc / 8) + lc % 8
/-- Replaces a remap entry. -/
def Job.putLcore (j : Job) (lc : Nat) (l : LCore) : Job := { j with lcores := put j.lcores lc l }
/-- Changes a job by its number. -/
def State.onJob (s : State) (id : Nat) (f : Job → Job) : State :=
  match look s.jobs id with | some j => s.putJob (f j) | none => s
/-- Whether a job is a launch whose strands may run. -/
def Job.running (j : Job) : Bool := j.field 0 1 == 1 && j.phase == .running

/-! ## Whether a packet may start (12 R242) -/

/-- A field of `n` bytes at byte `k` of a packet. -/
def pktField (b : List Byte) (k n : Nat) : Nat := leNat ((b.drop k).take n)
/-- FLAGS.ORD. -/
def pktOrd (b : List Byte) : Bool := (pktField b 2 2).testBit 15

/-- What a dependency word says (12 R242). -/
inductive Dep where
  | met | unmet
  | waits (s : State)
  | refused (s : State)

/-- The dependency of a launch packet of queue `n`. -/
def State.dependency (s : State) (n : Nat) (q : Queue) (b : List Byte) : Dep :=
  let va := pktField b 104 8
  if va = 0 ∨ va % 8 ≠ 0 then .met else
  match s.devPage (keyRing n + 2) q.root n va false with
  | .waits s1 => .waits s1
  | .refused s1 _ => .refused s1
  | .page p => if 2 ≤ p.attr then .refused s else if pktField b 112 8 ≤ s.devNat p.pa 8 then .met else .unmet

/-- Whether a bound tap may start its packet: earlier packets started, under ORD completed, the dependency met or failed. -/
def State.startable (s : State) (n : Nat) (q : Queue) : Bool :=
  !s.inRecovery && !q.stopped && q.closing.isNone && q.tap.isSome &&
  q.started.all s.hasBegun &&
  match q.packet with
  | none => false
  | some (_, b) =>
    (!pktOrd b || q.started.isEmpty) &&
    (pktField b 0 1 != 1 || (match s.dependency n q b with | .met => true | .refused _ => true | _ => false))

/-! ## Starting a team (02 R25, R26, R31, R38, 09 R171, R172) -/

/-- A strand at its first instruction, for a launch, at a time and a count of cycles. -/
def strandOf (j : Job) (kind : Kind) (gid team grp lcore core slot time cyc : Nat) (pc : W64) : Group :=
  { Group.blank with
    cycFrom := cyc, gid, kind, job := j.id, team, grp, lcore, core, slot, resident := true, born := time, allot := j.regs, tiles := j.tileCount
    tileBase := j.tileBase, trapvec := j.handler &&& 0x01FFFFFFFFFFFFFC#64
    splits := [⟨0, pc, BitVec.allOnes 32, .ready, none, false, 0, time, false⟩] }

/-- The start of the heap region: behind the header and the device-owned regions (09 R171). -/
def State.heapStart (s : State) (j : Job) : Nat := s.ownedStart j 48 + s.arenaSize j 48
/-- The cursors of root group (t, j): heap and its end, log and its end; zero without an arena (09 R171, R172). -/
def State.cursors (s : State) (j : Job) (team grp : Nat) : W64 × W64 × W64 × W64 :=
  if j.arena = 0 then (0, 0, 0, 0) else
  let hg := s.arenaSize j 0
  let lg := s.arenaSize j 8
  let h := s.heapStart j + (team * j.perTeam + grp) * hg
  let l := s.heapStart j + j.teamCount * j.perTeam * hg + (team * j.perTeam + grp) * lg
  (BitVec.ofNat 64 h, BitVec.ofNat 64 (h + hg), BitVec.ofNat 64 l, BitVec.ofNat 64 (l + lg))
/-- Sets the cursor registers. -/
def Group.withCursors (g : Group) (c : W64 × W64 × W64 × W64) : Group :=
  (((g.gSet 91 c.1).gSet 92 c.2.1).gSet 93 c.2.2.1).gSet 94 c.2.2.2

/-- Root group `k` of team `t` (02 R31). -/
def State.rootGroup (s : State) (j : Job) (t k core slot : Nat) : Group :=
  let g := (strandOf j .root (s.nextId + k) t k (t % max 1 j.logical) core slot s.time s.cycles j.entry).withCursors (s.cursors j t k)
  let p := (pedEncode [(k, t)]).getD (0, 0)
  { g with pdh := p.1, pdl := p.2 }

/-- The start of a packet, of a launch at the dispatch of its first team: the dispatch priority is its tap's, the tap is served, W restarts, a
tap on its way out goes (12 R240, R242). -/
def State.packetStarts (s : State) (j : Job) : State :=
  match look s.queues j.queue with
  | none => s
  | some q =>
    { s with
      jobs := put s.jobs j.id { j with prio := (q.tap.map Prod.snd).getD j.prio }
      lastTap := (q.tap.map Prod.fst).getD s.lastTap
      queues := put s.queues j.queue { q with since := s.time, tap := if q.leaving then none else q.tap, leaving := false } }

/-- The next team of a launch starts on a core; with the first the launch starts, its place in start order is the counter of choices, and
what LD.INV and instruction fetch may return counts from here (07 R140, 11 R215, 12 R242). -/
def State.startTeam (s : State) (j : Job) (core : Nat) : State :=
  let t := j.nextTeam
  let lc := t % max 1 j.logical
  let slots := s.freeSlots core
  let gs := (List.range j.perTeam).map (fun k => s.rootGroup j t k core (slots.getD k 0))
  let team : Team := { Team.blank with job := j.id, idx := t, lcore := lc, core, bytes := j.scratch, groups := j.perTeam, live := j.perTeam, resident := true, born := s.time }
  let s1 : State := { s with groups := gs.foldl (fun l g => put l g.gid g) s.groups, nextId := s.nextId + j.perTeam }
  let s2 := s1.putTeam team
  let k : Job := { j with
    nextTeam := t + 1, liveTeams := j.liveTeams + 1, phase := .running, mark := if t = 0 then s.hist.length else j.mark
    start := if t = 0 then s.tick else j.start }.putLcore lc { j.lcoreOf lc with core := some core, team := some t }
  if t = 0 then (s2.putJob k).packetStarts k else s2.putJob k

/-- Whether the next team of a launch may start on a core now: index order, its logical core free, room (02 R25, R26, 11 R214). -/
def State.teamFits (s : State) (j : Job) (core : Nat) : Bool :=
  let lc := j.nextTeam % max 1 j.logical
  decide (j.nextTeam < j.teamCount) && j.hasCore core && (j.lcoreOf lc).team.isNone &&
  (!j.sequenced || ((j.engine (lc / 8)).resident && core == j.seqCore lc)) &&
  s.room core j.perTeam j.regs j.scratch

/-- The cores of a launch's partition. -/
def Job.cores (j : Job) : List Nat := j.clusters.flatMap (fun c => (List.range 8).map (fun k => 8 * c + k))

/-- Starts every team of a COR launch, the first on a core where one is named, each other on a core with room of the device's choice, or
none (02 R44), by fuel. -/
def State.startAll (id : Nat) : Nat → Option Nat → State → Option State
  | 0, _, s => some s
  | n + 1, first, s =>
    match look s.jobs id with
    | none => none
    | some j =>
      if j.teamCount ≤ j.nextTeam then some s else
      let fit := j.cores.filter (fun c => s.teamFits j c && (match first with | some k => c == k | none => true))
      match fit[s.pick (2 ^ 42 + j.nextTeam) fit.length]? with
      | none => none
      | some c => State.startAll id n none (s.startTeam j c)

/-- The place of a queue's tap in the order of the front end: its priority, then the distance from the tap served last (12 R242). -/
def State.tapOrder (s : State) (q : Queue) : Nat × Nat :=
  match q.tap with
  | some (k, e) => (e, (k + 511 - s.lastTap) % 512)
  | none => (8, 512)
/-- The place of a launch's tap. -/
def State.tapKey (s : State) (j : Job) : Nat × Nat := ((look s.queues j.queue).map s.tapOrder).getD (8, 512)
/-- Whether one place comes before another: strict priority, then round-robin (12 R242). -/
def keyBefore (x y : Nat × Nat) : Bool := decide (x.1 < y.1) || (x.1 == y.1 && decide (x.2 < y.2))
/-- The dispatch priority of a launch, before it starts the priority its tap has now (12 R242). -/
def State.launchPrio (s : State) (j : Job) : Nat := if j.nextTeam = 0 then (s.tapKey j).1 else j.prio
/-- Whether a launch that no team of has been dispatched may start: its queue has not stopped (12 R235, R239). -/
def State.mayStart (s : State) (j : Job) : Bool :=
  j.field 0 1 == 1 && j.nextTeam == 0 && (match j.phase with | .ending _ => false | _ => true) &&
  (match look s.queues j.queue with | some q => !q.stopped && q.closing.isNone | none => false)
/-! ## Leaving a core and coming back (13 R257, R263, R266, 07 R147) -/

/-- A blocked split in an image: a sleeping WAIT or BBWAIT keeps its monitor and a fault being entered its slot, every other wait starts afresh. -/
def Split.saved (p : Split) : Split :=
  match p.st with
  | .blocked .monitor _ => p
  | .blocked .phase _ => p
  | .blocked (.record _ _) _ => p
  | .blocked (.slot (some _)) _ => p
  | .blocked _ _ => { p with st := .ready }
  | _ => p

/-- The repeat of a group that leaves its core: one in progress goes to ctl.repc; a repeat that is to be resumed already is resumed by the
first instruction after the restore, whichever split executes it (03 R62, log 12). -/
def Group.saveRepeat (g : Group) : Group :=
  match g.splits.find? (fun p => p.rep.isSome) with
  | some p => (match p.rep with
    | some r => { ({ g with splits := g.splits.map Split.unmark }).putSplit { p with rep := none, fresh := true } with repc := repcOf r.total r.done }
    | none => g)
  | none =>
    if g.repc.getLsbD 63 && g.splits.all (fun p => !p.fresh) then { g with splits := g.splits.map (fun p => { p with fresh := true }) } else g

/-- A group saved to its image: blocked instructions re-execute, a sleeping WAIT keeps its monitor, a region is discarded, one repeat
goes to ctl.repc, %cyc stops. -/
def Group.out (s : State) (g : Group) : Group :=
  let g2 := g.leaveRegion.saveRepeat
  { g2 with
    resident := false
    cycAcc := s.cycOf g
    splits := g2.splits.map Split.saved
    monitor := g2.monitor.map (fun m : Monitor => { m with fired := m.fired || s.written m.mark m.loc 8 }) }

/-- A group back in a slot; the fired bit holds writes of the meantime. A held instruction is executed again, its page requests stay
outstanding (13 R249). -/
def Group.back (s : State) (g : Group) (core slot : Nat) : Group :=
  { g with
    resident := true, core, slot, cycFrom := s.cycles, holds := []
    monitor := g.monitor.map (fun m : Monitor => { m with fired := m.fired || s.written m.mark m.loc 8 }) }

/-- The strands a team's image holds. -/
def Group.inTeam (g : Group) (job team : Nat) : Bool := g.kind == .root && g.job == job && g.team == team && !g.away
/-- Changes every group. -/
def State.mapGroups (s : State) (f : Group → Group) : State := { s with cur := f s.cur, groups := s.groups.map (fun p => (p.1, f p.2)) }
/-- Whether an engine operation of a team is in flight (10 R210). -/
def State.teamBusy (s : State) (job team : Nat) : Bool := s.ops.any (fun o => o.inFlight job team)
/-- Whether an engine operation of a task is in flight. -/
def State.taskBusy (s : State) (gid : Nat) : Bool := s.ops.any (fun o => o.task && o.gid == gid)
/-- The number a task's image stands under in place of a team's. -/
def taskRef (gid : Nat) : Nat := 2 ^ 32 + gid
/-- The number an engine context's image stands under. -/
def contextRef (cluster : Nat) : Nat := 2 ^ 64 + cluster
/-- The number the image of a parent suspended at JOIN stands under. -/
def parentRef (gid : Nat) : Nat := 2 ^ 65 + gid
/-- KIND of a header (13 R264). -/
def ImageKind.number : ImageKind → Nat | .group => 0 | .team => 1 | .context => 2 | .partition => 3
/-- The 64-byte header an image begins with (13 R264). -/
def Image.header (m : Image) : List Byte :=
  leBytes 2 1 ++ leBytes 2 m.kind.number ++ leBytes 4 (if m.feat then 1 else 0) ++ leBytes 1 m.eng ++ leBytes 7 0 ++ leBytes 8 m.size ++
  leBytes 8 m.tout ++ leBytes 32 0
/-- Where an image of work on a core goes: the kiln of its cluster, or HBM (13 R263, 00 R3). -/
def State.imagePlace (s : State) (core : Nat) : ImagePlace := if s.hasKiln then .kiln (core / 8) else .hbm
/-- Adds an image with its header (13 R264); the size of a body is not architectural (log 40). -/
def State.addImage (s : State) (j : Job) (ref : Nat) (kind : ImageKind) (core : Nat) : State :=
  { s with images := s.images ++
      [⟨j.id, ref, kind, s.time, j.bstUse, j.engUse, Config.imageBytes kind.number s.tick, s.imagePlace core⟩] }
/-- The image of a team, task, context or parent. -/
def State.imageOf (s : State) (job ref : Nat) : Option Image := s.images.find? (fun m => m.job == job && m.team == ref)
/-- Removes an image. -/
def State.dropImage (s : State) (job ref : Nat) : State :=
  { s with images := s.images.filter (fun m => !(m.job == job && m.team == ref)) }
/-- Whether the part has what a header asks for (13 R265). -/
def State.headerOk (s : State) (m : Image) : Bool := (!m.feat || s.bst) && decide (m.eng ≤ 4 * s.dies)
/-- Whether the image of a number, if there is one, may be restored on this part. -/
def State.restorable (s : State) (job ref : Nat) : Bool := ((s.imageOf job ref).map s.headerOk).getD true

/-- A whole team is saved and its logical core parked (13 R261, R263). -/
def State.teamOut (s : State) (j : Job) (team : Nat) : State :=
  let t := s.teamOf j.id team
  let s1 := s.mapGroups (fun g => if g.inTeam j.id team then g.out s else g)
  let s2 := s1.putTeam { t with resident := false }
  (s2.onJob j.id (fun j => j.putLcore t.lcore { j.lcoreOf t.lcore with core := none })).addImage j team .team t.core

/-- Bytes of scratchpad a team takes with the views of its groups, those suspended at JOIN and those that have exited among them. -/
def State.teamBytes (s : State) (j : Job) (team : Nat) : Nat :=
  j.foldBytes team +
  (s.allGroups.filter (fun g => g.kind == .root && g.job == j.id && g.team == team)).foldl (fun x g => x + g.windowBytes)
    (s.teamOf j.id team).bytes
/-- Whether a saved team fits on a core. -/
def State.teamReturns (s : State) (j : Job) (team core : Nat) : Bool :=
  j.hasCore core && s.room core (s.allGroups.filter (fun g => g.inTeam j.id team)).length j.regs (s.teamBytes j team)
/-- Puts groups into slots, in order. -/
def State.seat (s : State) (core : Nat) (slots : List Nat) (gs : List Group) : State :=
  (gs.zip slots).foldl (fun t p => t.putGroup (p.1.back s core p.2)) s
/-- A saved team comes back on a core (13 R262). -/
def State.teamIn (s : State) (j : Job) (team core : Nat) : State :=
  let t := s.teamOf j.id team
  let s1 := s.seat core (s.freeSlots core) (s.allGroups.filter (fun g => g.inTeam j.id team))
  let s2 := s1.putTeam { t with resident := true, core }
  (s2.onJob j.id (fun j => j.putLcore t.lcore { j.lcoreOf t.lcore with core := some core })).dropImage j.id team

/-! ## Engine contexts (11 R211, R214, R215, R232) -/

/-- The logical cores of a logical cluster. -/
def Job.clusterCores (j : Job) (c : Nat) : List Nat := ((List.range 8).map (fun k => 8 * c + k)).filter (fun l => decide (l < j.logical))
/-- The teams that hold logical cores of a cluster. -/
def Job.clusterTeams (j : Job) (c : Nat) : List Nat := (j.clusterCores c).filterMap (fun l => (j.lcoreOf l).team)
/-- The sequencer strand of a cluster. -/
def Group.isSeq (g : Group) (job c : Nat) : Bool := g.kind == .seq && g.job == job && g.grp == c
/-- Whether another engine context is resident on a physical cluster (11 R215). -/
def State.contextOn (s : State) (phys : Nat) : Bool :=
  s.jobs.any (fun p => p.2.engines.any (fun e => e.2.resident && p.2.clusterAt e.1 == phys))
/-- Whether another context of the launch waits for the cluster of one that is resident there, so that time slicing parks this one; never
under COR (02 R27, R44, 11 R215). -/
def Job.slices (j : Job) (c : Nat) : Bool :=
  !j.cor && j.engines.any (fun e => e.1 != c && !e.2.resident && j.clusterAt e.1 == j.clusterAt c)
/-- Whether a launch comes before another in start order; those that have not started follow in the order they were accepted (12 R242,
log 28). -/
def Job.startsBefore (x y : Job) : Bool :=
  match decide (x.nextTeam = 0), decide (y.nextTeam = 0) with
  | false, true => true
  | true, false => false
  | true, true => decide (x.id < y.id)
  | false, false => decide (x.start < y.start) || (x.start == y.start && decide (x.id < y.id))
/-- Whether a context of another launch that waits for the cluster goes first: of a better priority, or of an equal one and earlier in turn:
a context that time slicing has parked has had its turn, all others wait in start order, an evicted one at its old place (11 R215). -/
def State.contextAhead (s : State) (j : Job) (c : Nat) : Bool :=
  s.jobs.any (fun p => p.2.id != j.id && p.2.running && decide (0 < p.2.liveSeqs) &&
    p.2.engines.any (fun e => !e.2.resident && p.2.clusterAt e.1 == j.clusterAt c &&
      (decide (s.launchPrio p.2 < s.launchPrio j) || (s.launchPrio p.2 == s.launchPrio j &&
        (decide (e.2.since < (j.engine c).since) || (e.2.since == (j.engine c).since && p.2.startsBefore j))))))
/-- Changes the residence of a context. -/
def Job.setContext (j : Job) (c : Nat) (r : Bool) : Job := { j with engines := put j.engines c { j.engine c with resident := r } }
/-- A context has had its turn. -/
def Job.hadTurn (j : Job) (c turn : Nat) : Job := { j with engines := put j.engines c { j.engine c with since := turn } }

/-- A cluster's context and teams are saved together, once their engine operations have arrived. -/
def State.clusterOut (s : State) (j : Job) (c : Nat) : Option State :=
  let ts := (j.clusterTeams c).filter (fun t => (s.teamOf j.id t).resident)
  if ts.any (fun t => s.teamBusy j.id t) then none else
  let s1 := ts.foldl (fun x t => x.teamOut j t) s
  let s2 := s1.mapGroups (fun g => if g.isSeq j.id c then g.out s else g)
  some ((s2.onJob j.id (fun j => (j.clusterCores c).foldl (fun j l => j.putLcore l { j.lcoreOf l with core := none }) (j.setContext c false))).addImage j (contextRef c) .context (8 * j.clusterAt c))

/-- A cluster's context and its saved teams come back to their cluster where every team fits; a header the part cannot meet refuses the
restore. -/
def State.clusterBack (s : State) (j : Job) (c : Nat) : Option State :=
  let phys := j.clusterAt c
  let ts := j.clusterTeams c
  if ts.any (fun t => !s.teamReturns j t (j.seqCore (s.teamOf j.id t).lcore)) then none
  else if (s.images.filter (fun m => m.job == j.id && (m.team == contextRef c || ts.contains m.team))).any (fun m => !s.headerOk m) then
    some (s.stopJob j.id 3)
  else
    let s1 := s.onJob j.id (fun j => (j.clusterCores c).foldl (fun j l => j.putLcore l { j.lcoreOf l with core := some (j.seqCore l) }) (j.setContext c true))
    let s2 := ts.foldl (fun x t => x.teamIn j t (j.seqCore (s.teamOf j.id t).lcore)) s1
    some ((s2.mapGroups (fun g => if g.isSeq j.id c then g.back s (8 * phys) 0 else g)).dropImage j.id (contextRef c))

/-- A waiting context takes its cluster once that is free and its turn has come. -/
def State.clusterIn (s : State) (j : Job) (c : Nat) : Option State :=
  if s.contextOn (j.clusterAt c) || s.contextAhead j c then none else s.clusterBack j c

/-- Every context of a launch on its cluster, or none (02 R44, 11 R215). -/
def State.contextsIn (s : State) (j : Job) : Option State :=
  (j.engines.map Prod.fst).foldl (fun o c => o.bind (fun t => match look t.jobs j.id with
    | some k => if (k.engine c).resident then some t else t.clusterIn k c
    | none => none)) (some s)

/-- Whether a launch that has not started would start now: its first team fits on some core, a COR launch whole. -/
def State.canStart (s : State) (j : Job) : Bool :=
  s.mayStart j && (match j.phase with
    | .waiting => ((s.contextsIn j).bind (fun t => State.startAll j.id j.teamCount none t)).isSome
    | _ => j.cores.any (s.teamFits j))
/-- Whether a tap of a partition that may start its packet comes before a queue's place: strict priority, round-robin within a level, over
packets of every type (12 R242). -/
def State.tapAhead (s : State) (n : Nat) (dies : List Nat) (key : Nat × Nat) : Bool :=
  s.queues.any (fun p => p.1 != n && p.2.dies == dies && keyBefore (s.tapOrder p.2) key && s.startable p.1 p.2) ||
  s.jobs.any (fun p => p.2.queue != n && p.2.dies == dies && keyBefore (s.tapKey p.2) key && s.canStart p.2)

/-- TEAM_DISPATCH: the next team of a launch on a core; a COR launch starts with all its contexts and teams or not at all (02 R25, R26,
R44, R45, 12 R242). -/
def State.teamDispatch (s : State) (id core : Nat) : State :=
  match look s.jobs id with
  | none => s.idle
  | some j =>
    if s.inRecovery ∨ j.field 0 1 ≠ 1 ∨ (j.nextTeam = 0 ∧ (!s.mayStart j ∨ s.tapAhead j.queue j.dies (s.tapKey j))) then s.idle else
    match j.phase with
    | .ending _ => s.idle
    | .swapped => s.idle
    | .waiting => (((s.contextsIn j).bind (fun t => State.startAll id j.teamCount (some core) t)).getD s).idle
    | .running => if s.teamFits j core then (s.startTeam j core).idle else s.idle

/-- TEAM_DISPATCH. -/
def execTeamDispatch (job core : Nat) (s : State) : Outcome State Fault Refusal := .next (s.teamDispatch job core)

/-- Whether a launch may evict another's engine context from the cluster of a core, which one of its own contexts waits for (11 R215,
13 R261). -/
def State.needsContext (s : State) (k v : Job) (core : Nat) : Bool :=
  k.field 0 1 == 1 && k.pre && v.pre && decide (s.launchPrio k < s.launchPrio v) && k.id != v.id && (k.nextTeam != 0 || s.mayStart k) &&
  (match k.phase with | .ending _ => false | .swapped => false | _ => true) &&
  k.engines.any (fun e => !e.2.resident && k.clusterAt e.1 == core / 8) && v.engines.any (fun e => e.2.resident && v.clusterAt e.1 == core / 8)

/-- Parks a logical cluster, for another launch's context or by time slicing within its own launch, which ends its turn, or places it
(11 R215). -/
def State.clusterSwitch (s : State) (j : Job) (c : Nat) : State :=
  ((if !(j.engine c).resident then s.clusterIn j c
    else if s.jobs.any (fun p => s.needsContext p.2 j (8 * j.clusterAt c)) then s.clusterOut j c
    else if j.slices c then (s.clusterOut j c).map (fun t => t.onJob j.id (fun k => k.hadTurn c (s.tick + 1)))
    else none).getD s).idle

/-- ENGINE_CONTEXT_SWITCH (11 R232). -/
def execEngineContextSwitch (job cluster : Nat) (s : State) : Outcome State Fault Refusal :=
  .next (
    match look s.jobs job with
    | none => s.idle
    | some j => if j.running ∧ j.sequenced ∧ cluster < (j.logical + 7) / 8 then s.clusterSwitch j cluster else s.idle)

/-! ## Time slicing, racking, eviction, restore (02 R27, R36, 13 R261, R262) -/

/-- TIME_SLICE: parks or resumes a logical core; with a sequencer its whole cluster (02 R27, 11 R211). -/
def State.timeSlice (s : State) (j : Job) (lc core : Nat) : State :=
  if j.sequenced then s.clusterSwitch j (lc / 8) else
  match (j.lcoreOf lc).team with
  | none => s.idle
  | some t =>
    if (s.teamOf j.id t).resident then (if s.teamBusy j.id t then s.idle else (s.teamOut j t).idle)
    else
      match s.imageOf j.id t with
      | none => s.idle
      | some m =>
        if !s.headerOk m then (s.stopJob j.id 3).idle
        else if s.teamReturns j t core then (s.teamIn j t core).idle else s.idle

/-- TIME_SLICE. -/
def execTimeSlice (job lcore core : Nat) (s : State) : Outcome State Fault Refusal :=
  .next (
    match look s.jobs job with
    | none => s.idle
    | some j => if j.running ∧ !j.cor ∧ lcore < j.logical then s.timeSlice j lcore core else s.idle)

/-- Whether a die advertises free slots: none of its deques holds an entry (02 R36). -/
def State.advertises (s : State) (die : Nat) : Bool := s.deques.all (fun d => d.1 / 96 != die || d.2.isEmpty)

/-- Moves the oldest entry of a deque to the deque of another core, as its newest: there it waits for its TASK_START and may be taken again
(02 R35, R36, log 29). -/
def State.takeEntry (s : State) (thief victim : Nat) (e : TaskEntry) : State :=
  let s1 : State := { s with deques := put s.deques victim (s.deque victim).dropLast }
  { s1 with deques := put s1.deques thief ({ e with stolen := true } :: s1.deque thief) }

/-- A suspended task of a launch moves to another die: one whose image is held comes back there, a parent at JOIN will (02 R36). -/
def State.rackTask (s : State) (j : Job) (gid core : Nat) : State :=
  match s.groupOf gid with
  | none => s
  | some g =>
    if g.kind ≠ .task ∨ g.job ≠ j.id ∨ g.resident ∨ g.done ∨ g.core / 96 = core / 96 then s
    else if g.away then (if s.restorable j.id (parentRef gid) then s.putGroup { g with core, stolen := true } else s.stopJob j.id 3)
    else if !s.restorable j.id (taskRef gid) then s.stopJob j.id 3
    else if s.room core 1 g.allot g.windowBytes then
      (s.seat core (s.freeSlots core) [{ g with stolen := true }]).dropImage j.id (taskRef gid)
    else s

/-- A team moves to another die. -/
def State.rackTeam (s : State) (j : Job) (t core : Nat) : State :=
  if j.sequenced ∨ s.teamBusy j.id t ∨ (s.teamOf j.id t).core / 96 = core / 96 then s
  else
    let s1 := if (s.teamOf j.id t).resident then s.teamOut j t else s
    if !s1.restorable j.id t then s.stopJob j.id 3
    else if s1.teamReturns j t core then s1.teamIn j t core else s

/-- RACKING: below 4,096 the team on a logical core moves, from 4,096 on the core whose deque gives its top entry is named, from 2^32 on a
suspended task (02 R36). -/
def State.rack (s : State) (j : Job) (lc core : Nat) : State :=
  if !j.hasCore core || !s.advertises (core / 96) then s.idle
  else if 2 ^ 32 ≤ lc then (s.rackTask j (lc - 2 ^ 32) core).idle
  else if 4096 ≤ lc then
    match (s.deque (lc - 4096)).getLast? with
    | some e => if e.job = j.id ∧ (lc - 4096) / 96 ≠ core / 96 then (s.takeEntry core (lc - 4096) e).idle else s.idle
    | none => s.idle
  else
    match (j.lcoreOf lc).team with
    | none => s.idle
    | some t => (s.rackTeam j t core).idle

/-- RACKING. -/
def execRacking (job lcore core : Nat) (s : State) : Outcome State Fault Refusal :=
  .next (
    match look s.jobs job with
    | none => s.idle
    | some j => if j.running then s.rack j lcore core else s.idle)

/-- A candidate for eviction: its launch, its team or task, priority, dispatch time and slot. -/
structure Cand where
  job : Nat
  ref : Nat
  prio : Nat
  born : Nat
  slot : Nat
  deriving DecidableEq, Repr

/-- A resident team or task of a launch that another may evict from its core: PRE and of a strictly worse priority. -/
def State.victim (s : State) (k : Job) (job ref born slot : Nat) : Option Cand :=
  match look s.jobs job with
  | some v => if v.pre ∧ s.launchPrio k < v.prio then some ⟨v.id, ref, v.prio, born, slot⟩ else none
  | none => none
/-- The candidates on a core for a launch: one for each resident group, and the resident teams whose groups are all suspended at JOIN, which
hold no slot (13 R261, log 28). -/
def State.candidates (s : State) (k : Job) (core : Nat) : List Cand :=
  let l := s.onCore core
  l.filterMap (fun g => s.victim k g.job (if g.kind = .task then taskRef g.gid else g.team) g.born g.slot) ++
  ((s.teams.map Prod.snd).filter (fun t => t.resident && t.core == core && !l.any (fun g => g.inTeam t.job t.idx))).filterMap
    (fun t => s.victim k t.job t.idx t.born 0)
/-- The first candidate: lowest priority, then most recently dispatched, then higher slot (13 R261). -/
def State.firstCandidate (s : State) (k : Job) (core : Nat) : Option Cand :=
  bestOf (fun y x => decide (x.prio < y.prio) || (x.prio == y.prio && (decide (x.born < y.born) || (x.born == y.born && decide (x.slot < y.slot)))))
    (s.candidates k core)
/-- Whether an incoming team of a launch needs room on a core: with a sequencer entry only its own core holds it, else no core of the
partition does; a COR launch needs room for all its teams at once (02 R44, 11 R211, 13 R261). -/
def State.lacks (s : State) (k : Job) (core : Nat) : Bool :=
  let next := k.nextTeam % max 1 k.logical
  let all := k.cor && k.phase == .waiting
  (k.lcoreOf next).team.isNone &&
  (if k.sequenced then (if all then List.range k.teamCount else [next]).any (fun lc => core == k.seqCore lc) && !s.room core k.perTeam k.regs k.scratch
   else if all then (State.startAll k.id k.teamCount none s).isNone
   else k.cores.all (fun c => !s.room c k.perTeam k.regs k.scratch))
/-- Whether a launch waits for room on a core and may evict for it (12 R242, 13 R261). -/
def State.needsRoom (s : State) (k : Job) (core : Nat) : Bool :=
  k.field 0 1 == 1 && k.pre && decide (k.nextTeam < k.teamCount) && (k.nextTeam != 0 || s.mayStart k) && k.hasCore core && s.lacks k core &&
  (match k.phase with | .ending _ => false | .swapped => false | _ => true)

/-- The core a team or task is on. -/
def State.coreOf (s : State) (j : Job) (ref : Nat) : Option Nat :=
  if ref < 2 ^ 32 then (if (s.teamOf j.id ref).resident && (look s.teams (teamKey j.id ref)).isSome then some (s.teamOf j.id ref).core else none)
  else (s.groupOf (ref - 2 ^ 32)).bind (fun g => if g.kind = .task ∧ g.resident ∧ g.job = j.id then some g.core else none)

/-- A task is saved (13 R262). -/
def State.taskOut (s : State) (j : Job) (gid : Nat) : State :=
  (s.mapGroups (fun g => if g.gid = gid then g.out s else g)).addImage j (taskRef gid) .group (((s.groupOf gid).map Group.core).getD 0)

/-- A team, with its cluster where it has an engine context, or a task leaves its core once its engine operations have arrived. -/
def State.evict (s : State) (j : Job) (ref : Nat) : State :=
  if ref < 2 ^ 32 then
    (if j.sequenced then ((s.clusterOut j ((s.teamOf j.id ref).lcore / 8)).getD s).idle
     else if s.teamBusy j.id ref then s.idle else (s.teamOut j ref).idle)
  else if s.taskBusy (ref - 2 ^ 32) then s.idle else (s.taskOut j (ref - 2 ^ 32)).idle

/-- SWITCH_OUT: partial eviction of the first candidate of a core that an incoming team needs, or of the context on a cluster that an
incoming context needs (13 R261, 11 R215); a task is named by `taskRef`. -/
def execSwitchOut (job team : Nat) (s : State) : Outcome State Fault Refusal :=
  .next (
    match look s.jobs job with
    | none => s.idle
    | some j =>
      match s.coreOf j team with
      | none => s.idle
      | some core =>
        if s.jobs.any (fun p => s.needsContext p.2 j core ||
            (s.needsRoom p.2 core && (match s.firstCandidate p.2 core with | some c => c.job == job && c.ref == team | none => false))) then
          s.evict j team
        else s.idle)

/-- RESTORE: an image comes back on a core that holds it; a header the part cannot meet ends the launch with FEATURE (13 R262, R265). -/
def State.restore (s : State) (j : Job) (ref core : Nat) : State :=
  match s.imageOf j.id ref with
  | none => s.idle
  | some m =>
    if !s.headerOk m then (s.stopJob j.id 3).idle
    else if 2 ^ 32 ≤ ref then
      match s.groupOf (ref - 2 ^ 32) with
      | none => s.idle
      | some g =>
        if j.hasCore core && s.room core 1 g.allot g.windowBytes then
          ((s.seat core (s.freeSlots core) [g]).dropImage j.id ref).idle
        else s.idle
    else if j.sequenced then s.clusterSwitch j ((s.teamOf j.id ref).lcore / 8)
    else if s.teamReturns j ref core then (s.teamIn j ref core).idle else s.idle

/-- RESTORE. -/
def execRestore (job team core : Nat) (s : State) : Outcome State Fault Refusal :=
  .next (
    match look s.jobs job with
    | none => s.idle
    | some j => if j.running then s.restore j team core else s.idle)

/-! ## Tasks (02 R30, R33 to R36) -/

/-- Whether a group waits at JOIN. -/
def Group.joining (g : Group) : Bool := g.splits.any (fun p => match p.st with | .blocked .join _ => true | _ => false)
/-- The parent of a deque entry where it waits at JOIN; the children in a core's own deque that no other core took go first (02 R33). -/
def State.joiningParent (s : State) (e : TaskEntry) : Option Group :=
  if e.stolen then none else (s.groupOf e.parent).filter (fun g => g.job == e.job && g.joining)
/-- The entries of a core's deque of the launches that run, newest first. -/
def State.readyEntries (s : State) (core : Nat) : List TaskEntry :=
  (s.deque core).filter (fun e => ((look s.jobs e.job).map Job.running).getD false)
/-- The entry of a core's deque that goes next, of the launches that run: one whose parent waits at JOIN, else the newest (02 R33, R35). -/
def State.nextEntry (s : State) (core : Nat) : Option TaskEntry :=
  let d := s.readyEntries core
  match d.find? (fun e => (s.joiningParent e).isSome) with
  | some e => some e
  | none => d.head?

/-- The logical core whose physical core a core is, else the spawner's. -/
def Job.lcoreAt (j : Job) (core dflt : Nat) : Nat := ((j.lcores.find? (fun p => p.2.core == some core)).map Prod.fst).getD dflt

/-- A task at its start (02 R30). -/
def State.taskGroup (s : State) (j : Job) (e : TaskEntry) (core slot : Nat) : Group :=
  let g := ((strandOf j .task s.nextId e.team e.grp (j.lcoreAt core e.lcore) core slot s.time s.cycles e.pc).gSet 1 e.arg).withCursors
    (e.heap, e.heapEnd, e.log, e.logEnd)
  { g with pdh := e.pdh, pdl := e.pdl, fpmode := e.fpmode, parent := e.parent, rank := e.rank, stolen := e.stolen }

/-- The entry leaves the deque and its task starts in the lowest free slot. -/
def State.startTask (s : State) (j : Job) (e : TaskEntry) (core : Nat) : State :=
  let g := s.taskGroup j e core ((s.freeSlots core).headD 0)
  { s with deques := put s.deques core ((s.deque core).erase e), groups := put s.groups g.gid g, nextId := s.nextId + 1 }

/-- Bytes of IMGB a parent suspended at JOIN takes (09 R171). -/
def imageBytes (regs : Nat) : Nat := 128 * regs + 1216
/-- A parent at JOIN gives up its slot and registers to its children, where IMGB has room (02 R33, 09 R171). The first instruction after
its restore consumes ctl.repc.ACT (03 R62). -/
def State.suspend (s : State) (j : Job) (gid : Nat) : Option State :=
  match s.groupOf gid with
  | none => none
  | some g =>
    if g.joining ∧ g.resident ∧ (j.images + 1) * imageBytes j.regs ≤ s.arenaSize j 48 then
      some { (s.putGroup { g.saveRepeat with resident := false, away := true, cycAcc := s.cycOf g }).putJob { j with images := j.images + 1 } with
        images := s.images ++ [⟨j.id, parentRef gid, .group, s.time, j.bstUse, j.engUse, imageBytes j.regs, .imgb⟩] }
    else none

/-- The entry's parent, which waits at JOIN on this core, gives up its slot to the entry's task; none where it cannot (02 R33). -/
def State.startFor (s : State) (core : Nat) (e : TaskEntry) : Option State :=
  match look s.jobs e.job, (s.joiningParent e).map Group.core with
  | some j, some c =>
    if c ≠ core then none else
    (s.suspend j e.parent).bind (fun t => if t.room core 1 j.regs 0 then some (t.startTask j e core) else none)
  | _, _ => none

/-- TASK_START: the next entry where its task has room, else the newest entry whose parent at JOIN can give up its slot (02 R30, R33, R35). -/
def State.taskStart (s : State) (core : Nat) : State :=
  match s.nextEntry core with
  | none => s.idle
  | some e =>
    match look s.jobs e.job with
    | none => s.idle
    | some j =>
      if s.room core 1 j.regs 0 then (s.startTask j e core).idle
      else (((s.readyEntries core).findSome? (s.startFor core)).getD s).idle

/-- TASK_START. -/
def execTaskStart (core : Nat) (s : State) : Outcome State Fault Refusal := .next (s.taskStart core)

/-- TASK_STEAL: an idle core takes the top entry of a deque of its die (02 R35). What makes a core idle is the model's choice: its deque is empty
and it has a free slot (log 29). -/
def execTaskSteal (thief victim : Nat) (s : State) : Outcome State Fault Refusal :=
  .next (
    match (s.deque victim).getLast? with
    | none => s.idle
    | some e =>
      if thief = victim ∨ thief / 96 ≠ victim / 96 ∨ !(s.deque thief).isEmpty ∨ (s.freeSlots thief).isEmpty ∨
          !((look s.jobs e.job).map Job.running).getD false then s.idle
      else (s.takeEntry thief victim e).idle)

/-- TASK_COMPLETION_REPORT: the report of a stolen or racked task reaches its parent (02 R34). -/
def execTaskCompletionReport (s : State) : Outcome State Fault Refusal :=
  .next (if s.cur.kind = .task ∧ s.cur.done then (s.reportTo s.cur).vacate else s.idle)

/-- The split of a group that waits at JOIN. -/
def Group.joinSplit (g : Group) : Option Split := g.splits.find? (fun p => match p.st with | .blocked .join _ => true | _ => false)

/-- The core a suspended parent returns to: its team's, a task's own. -/
def State.homeCore (s : State) (g : Group) : Nat := if g.kind = .root then (s.teamOf g.job g.team).core else g.core
/-- A suspended parent whose children are done takes a slot of its core again and its image bytes are free; a header the part cannot meet
ends the launch with FEATURE (02 R33, 09 R171, 13 R265). -/
def State.unsuspend (s : State) : State :=
  let g := s.cur
  let core := s.homeCore g
  if !g.away then s
  else if !s.restorable g.job (parentRef g.gid) then s.stopJob g.job 3
  else if s.room core 1 g.allot (if g.kind = .task then g.windowBytes else 0) && (g.kind != .root || s.team.resident) then
    ((s.setCur ({ g with away := false }.back s core ((s.freeSlots core).headD 0))).onJob g.job (fun j => { j with images := j.images - 1 })).dropImage
      g.job (parentRef g.gid)
  else s

/-- JOIN_COMPLETE: no child is outstanding any more; the JOIN, or the EXIT that performs it, completes (02 R33, 09 R178). -/
def State.joinComplete (s : State) : State :=
  match s.cur.joinSplit with
  | none => s.idle
  | some p =>
    if s.cur.children ≠ 0 then s.idle else
    let t := s.unsuspend
    if !t.live t.cur then t.idle else
    match ({ t with split := p.entry, limm := none } : State).issue with
    | .run (.join q) x => (match execJoin q x with | .next y => y | _ => t.idle)
    | .run (.exit q) x => (match execExit q x with | .next y => y | _ => t.idle)
    | .run _ _ => t.idle
    | .done x => x

/-- JOIN_COMPLETE. -/
def execJoinComplete (s : State) : Outcome State Fault Refusal := .next s.joinComplete

end Sys2Proof.Machine
end

