-- ==== Sys2Proof/Machine/Packet.lean ====
section
/-! DEFINITION. The queue front end: taps, packets, completion signals, and what a launch still does at its end
(09 R159, R170, R179, R182, R184, 12 R233 to R244, 13 R259). -/
namespace Sys2Proof.Machine
open Host

/-! ## Reading a packet and publishing H (12 R235, R239) -/

/-- Replaces a queue. -/
def State.putQueue (s : State) (n : Nat) (q : Queue) : State := { s with queues := put s.queues n q }
/-- The queue enters the error state and starts nothing further (12 R235, R244). -/
def State.queueError (s : State) (n : Nat) : State :=
  match look s.queues n with | some q => s.putQueue n { q with error := true, stopped := true } | none => s
/-- The length of the write history at the first doorbell above packet `i` (12 R239). -/
def Queue.mark (q : Queue) (i : Nat) : Nat := (q.bells.filter (fun b => decide (i < b.1))).foldl (fun _ b => b.2) 0
/-- Whether a queue has a packet read that has not started (12 R240, R242). -/
def State.unstarted (s : State) (q : Queue) : Bool :=
  q.packet.isSome || q.started.any (fun id => !s.hasBegun id)
/-- Whether a queue has pending work: packets unread, or one read and not started (12 R235, R240). -/
def State.pending (s : State) (q : Queue) : Bool := decide (q.head < q.tail) || s.unstarted q

/-! ## The limits of a launch packet (12 R236, 02 R19, 03 R49, 08 R159, R160, 09 R170, 13 R253) -/

/-- One byte at a virtual address, for the structures of a launch; none where the address is no ordinary one, fails translation or names
a package that does not answer (14 R272). -/
def State.vbyte (s : State) (root : W64) (va : Nat) : Option Byte :=
  if 0x1FF ≤ va / 2 ^ 48 then none else
  (s.translate root va).bind (fun p => if s.farFails p.pa then none else some (BitVec.ofNat 8 (s.devNat p.pa 1)))
/-- `n` bytes at a virtual address. -/
def State.vbytes (s : State) (root : W64) (va : Nat) : Nat → Option (List Byte)
  | 0 => some []
  | n + 1 => match s.vbyte root va, State.vbytes s root (va + 1) n with
    | some b, some l => some (b :: l)
    | _, _ => none
/-- A number of `n` bytes at a virtual address. -/
def State.vnat (s : State) (root : W64) (va n : Nat) : Option Nat := (s.vbytes root va n).map leNat

/-- The limits of the packet's own fields (12 R236, 02 R19, 03 R49). -/
def Job.fieldsInLimit (j : Job) : Bool :=
  j.field 2 2 / 32 % 1024 == 0 &&
  decide (1 ≤ j.teamCount) && decide (1 ≤ j.perTeam) && decide (j.perTeam ≤ 16) &&
  j.regs % 32 == 0 && decide (32 ≤ j.regs) && decide (j.regs ≤ 512) && decide (j.perTeam * j.regs ≤ 3072) &&
  decide (j.scratch ≤ 524288) && j.scratch % 64 == 0 && j.field 16 8 % 4 == 0 && j.field 32 8 % 8 == 0 &&
  j.field 64 8 % 4 == 0 && j.field 80 8 % 4 == 0 && j.trapArea % 64 == 0 && j.trapArea != 0 &&
  decide (1 ≤ j.logical) && decide (j.logical ≤ 4096) &&
  decide (j.tileCount ≤ 8) && decide (j.tileBase + 32 * j.tileCount ≤ j.regs) &&
  decide (j.casks ≤ 16) && decide (j.reducers ≤ 16) && j.field 101 3 == 0 && j.field 104 8 % 8 == 0 && j.field 120 8 == 0

/-- The arena header (09 R170). -/
def State.arenaOk (s : State) (j : Job) : Bool :=
  j.arena == 0 || (j.arena % 65536 == 0 &&
    match s.vbytes j.root j.arena 64 with
    | none => false
    | some b =>
      let f := fun k => leNat ((b.drop (8 * k)).take 8)
      (List.range 7).all (fun k => f k % 64 == 0) && f 7 == 0 &&
      decide (64 + f 2 + f 3 + f 4 + f 5 + f 6 + j.teamCount * j.perTeam * (f 0 + f 1) ≤ j.arenaBytes))

/-- The trap area's CAP, where the header and every slot are mapped writable (13 R253). -/
def State.trapCap (s : State) (j : Job) : Option Nat :=
  match s.vnat j.root j.trapArea 4 with
  | none => none
  | some cap =>
    let last := j.trapArea + 64 + 64 * cap - 1
    let ok := (List.range (last / 2 ^ 16 - j.trapArea / 2 ^ 16 + 1)).all (fun k =>
      let va := (j.trapArea / 2 ^ 16 + k) * 2 ^ 16
      decide (va / 2 ^ 48 < 0x1FF) && ((s.translate j.root va).map Page.w).getD false)
    if 2 ≤ cap ∧ cap ≤ 16384 ∧ ok then some cap else none

/-- Entry `k` of a group table (08 R159, R160). -/
def State.groupEntry (s : State) (j : Job) (va k : Nat) : Option (List Nat) :=
  match s.vnat j.root (va + 8 + 8 * k) 4, s.vnat j.root (va + 12 + 8 * k) 2, s.vnat j.root (va + 14 + 8 * k) 2 with
  | some off, some n, some 0 =>
    if n = 0 ∨ 768 < n ∨ off % 2 ≠ 0 then none else
    match s.vbytes j.root (va + off) (2 * n) with
    | none => none
    | some b =>
      let ms := (List.range n).map (fun i => leNat ((b.drop (2 * i)).take 2))
      if (ms.zip (ms.drop 1)).all (fun p => decide (p.1 < p.2)) && ms.all (fun m => decide (m < j.logical)) then some ms else none
  | _, _, _ => none

/-- The group table, empty where the packet names none; none where it breaks R160. -/
def State.readGroups (s : State) (j : Job) : Option (List (List Nat)) :=
  let va := j.field 72 8
  if va = 0 then some [] else
  match s.vnat j.root va 2, s.vnat j.root (va + 2) 6 with
  | some n, some 0 =>
    if n = 0 ∨ 256 < n then none else
    (List.range n).foldr (fun k l => match s.groupEntry j va k, l with | some e, some l => some (e :: l) | _, _ => none) (some [])
  | _, _ => none

/-- Whether a signal VA of a launch packet is none, or ordinary and in attribute 0 or 1 memory (12 R236, R242, R244). -/
def State.signalOk (s : State) (j : Job) (va : Nat) : Bool := va == 0 || s.plainWord j.root va

/-- What is read with a launch packet that keeps every limit of R236: CAP and the group table; none at a breach. -/
def State.launchLimits (s : State) (j : Job) : Option (Nat × List (List Nat)) :=
  match (if j.fieldsInLimit && s.signalOk j (j.field 32 8) && s.signalOk j (j.field 104 8) && s.arenaOk j then s.trapCap j else none),
    s.readGroups j with
  | some c, some g => some (c, g)
  | _, _ => none

/-! ## Packets as they are read -/

/-- A packet of a queue taken up as a job in a phase (12 R242). -/
def State.openJob (s : State) (n : Nat) (q : Queue) (i : Nat) (b : List Byte) (ph : Phase) : State × Job :=
  let j : Job := { Job.blank with
    id := s.nextId, queue := n, index := i, pkt := b, root := q.root, dies := q.dies, prio := (q.tap.map Prod.snd).getD q.prio
    phase := ph, born := s.time, mark := s.hist.length }
  ({ s with nextId := s.nextId + 1, jobs := put s.jobs j.id j }.putQueue n { q with packet := none, started := q.started ++ [j.id] }, j)

/-- A packet read in full: a launch that breaks a limit completes with FAULT, any other packet waits for its start; H is to be published
(12 R236, R239). -/
def State.packetHere (s : State) (n : Nat) (q : Queue) (b : List Byte) : State :=
  let q1 := { q with head := q.head + 1, publish := true }
  if leNat (b.take 1) = 1 then
    match s.launchLimits { Job.blank with pkt := b, root := q.root } with
    | some c => s.putQueue n { q1 with packet := some (q.head, b), control := c }
    | none => (s.openJob n q1 q.head b (.ending 1)).1
  else s.putQueue n { q1 with packet := some (q.head, b) }

/-- PACKET_READ: the packet's words as they have stood since its doorbell; a bad TYPE or VERSION leaves it unconsumed (12 R235, R239). -/
def State.packetRead (s : State) (n : Nat) : State :=
  match look s.queues n with
  | none => s.idle
  | some q =>
    if s.inRecovery ∨ q.error ∨ q.closing.isSome ∨ q.tap.isNone ∨ q.packet.isSome ∨ q.publish ∨ q.tail ≤ q.head then s.idle else
    match s.devPage (keyRing n) q.root n (q.ring.toNat + 128 * (q.head % q.size)) false with
    | .waits s1 => s1.idle
    | .refused s1 _ => (s1.queueError n).idle
    | .page p =>
      let b := (List.range 16).flatMap (fun i => s.devHeld (q.mark q.head) (p.pa + 8 * i))
      if leNat (b.take 1) < 1 ∨ 4 < leNat (b.take 1) ∨ leNat ((b.drop 1).take 1) ≠ 1 then (s.queueError n).idle
      else (s.packetHere n q b).idle

/-- PACKET_READ. -/
def execPacketRead (q : Nat) (s : State) : Outcome State Fault Refusal := .next (s.packetRead q)

/-- HEAD_PUBLISH: H goes to HEADVA as a release; where it cannot, the queue enters the error state and packets already read complete as
usual (12 R239). -/
def State.headPublish (s : State) (n : Nat) : State :=
  match look s.queues n with
  | none => s.idle
  | some q =>
    if !q.publish then s.idle else
    let failed : State := s.putQueue n { q with publish := false, error := true }
    match s.devPage (keyHead n) q.root n q.headva.toNat true with
    | .waits s1 => s1.idle
    | .refused s1 _ => (s1.putQueue n { q with publish := false, error := true }).idle
    | .page p => if 2 ≤ p.attr then failed.idle else ((s.devStore p.pa 8 q.head).putQueue n { q with publish := false }).idle

/-- HEAD_PUBLISH. -/
def execHeadPublish (q : Nat) (s : State) : Outcome State Fault Refusal := .next (s.headPublish q)

/-! ## Taps and ageing (12 R240 to R242) -/

/-- W of a queue in nanoseconds. -/
def State.waited (s : State) (q : Queue) : Nat := s.time - q.since
/-- The effective priority: max(0, PRIO - floor(W / Q)). -/
def State.effective (s : State) (q : Queue) : Nat := q.prio - s.waited q / (1000 * s.quantum)
/-- Whether a queue has waited 7Q. -/
def State.aged (s : State) (q : Queue) : Bool := decide (7 * (1000 * s.quantum) ≤ s.waited q)
/-- The order of a rebinding (12 R240). Of two queues with W at or above 7Q and equal W the lower number goes first: the model's choice
(log 26). -/
def State.boundBefore (s : State) (x y : Nat × Queue) : Bool :=
  if s.aged x.2 != s.aged y.2 then s.aged x.2
  else if s.aged x.2 || s.effective x.2 == s.effective y.2 then
    decide (s.waited y.2 < s.waited x.2) || (s.waited x.2 == s.waited y.2 && decide (x.1 < y.1))
  else decide (s.effective x.2 < s.effective y.2)
/-- Inserts into an ordered list. -/
def insertBy {α : Type} (before : α → α → Bool) (x : α) : List α → List α
  | [] => [x]
  | y :: l => if before x y then x :: y :: l else y :: insertBy before x l
/-- Sorts by an order. -/
def sortBy {α : Type} (before : α → α → Bool) (l : List α) : List α := l.foldr (insertBy before) []

/-- Binds a queue, keeping a tap it has and no other bound queue holds, else to the lowest free tap; a tap on its way out counts as free
(log 26). -/
def State.bind (s : State) (n : Nat) : State :=
  match look s.queues n with
  | none => s
  | some q =>
    let busy := (s.queues.filter (fun p => p.1 != n && !p.2.leaving)).filterMap (fun p => p.2.tap.map Prod.fst)
    let own := (q.tap.map Prod.fst).filter (fun k => !busy.contains k)
    match (match own with | some k => some k | none => (List.range 512).find? (fun k => !busy.contains k)) with
    | some k => s.putQueue n { q with tap := some (k, s.effective q), leaving := false }
    | none => s

/-- TAP_REBIND: the quantum set before takes effect, idle taps go, the first 512 queues of the order are bound (12 R240). -/
def State.rebind (s0 : State) : State :=
  let s := { s0 with quantum := s0.nextQuantum }
  let order := (sortBy s.boundBefore (s.queues.filter (fun p => s.pending p.2))).map Prod.fst
  let first := order.take 512
  let s1 : State := { s with queues := s.queues.map (fun p =>
    (p.1, if first.contains p.1 then { p.2 with leaving := false }
      else if s.unstarted p.2 then { p.2 with leaving := p.2.tap.isSome } else { p.2 with tap := none, leaving := false })) }
  first.foldl (fun t n => t.bind n) s1

/-- TAP_REBIND. -/
def execTapRebind (s : State) : Outcome State Fault Refusal := .next (if s.inRecovery then s.idle else s.rebind.idle)

/-! ## Starting a packet (12 R242) -/

/-- Whether the front end starts a queue's copy, wait or set now: no tap of the partition comes before its own (12 R242). -/
def State.served (s : State) (n : Nat) (q : Queue) : Bool := s.startable n q && !s.tapAhead n q.dies (s.tapOrder q)

/-- Runs `f` on a started job of a type of a queue that has not ended, or starts the queue's packet of that type, the device's choice: a
packet starts while earlier ones of its queue still run (12 R242). -/
def State.withPacket (s : State) (n type : Nat) (start : Queue → Nat → List Byte → State) (go : State → Job → State) : State :=
  match look s.queues n with
  | none => s.idle
  | some q =>
    let runs := (q.started.filterMap (fun id => look s.jobs id)).filter (fun j => j.field 0 1 == type && j.phase == .running)
    let next := q.packet.toList.filter (fun p => pktField p.2 0 1 == type && s.served n q)
    match runs[s.pick (2 ^ 43 + n) (runs.length + next.length)]?, next.head? with
    | some j, _ => (go s j).idle
    | none, some (i, b) => (start q i b).idle
    | none, none => s.idle

/-! ## Launch packets (02 R44, 11 R211 to R215, 12 R236, R242) -/

/-- Teams of a launch that one empty core holds (02 R25). -/
def Job.perCore (j : Job) : Nat :=
  min (48 / max 1 j.perTeam) (min (3072 / max 1 (j.perTeam * j.regs)) (if j.scratch = 0 then 48 else 524288 / j.scratch))
/-- Whether a COR launch fits in its empty partition: a logical core for each team, and cores, or clusters, for them (02 R44, 06 R109). -/
def Job.corFits (j : Job) : Bool :=
  decide (j.teamCount ≤ j.logical) &&
  (if j.sequenced then decide ((j.logical + 7) / 8 ≤ j.clusters.length) else decide (j.teamCount ≤ 8 * j.clusters.length * j.perCore))

/-- The sequencer contexts of a launch start as it is accepted; those whose cluster is free are resident, of a COR launch none before it is
admitted (02 R44, 11 R212 to R215). -/
def State.startSequencers (s : State) (j : Job) : State :=
  if !j.sequenced then s else
  let n := (j.logical + 7) / 8
  let mk := fun c => { (((strandOf j .seq (s.nextId + c) 0 c (8 * c) (8 * j.clusterAt c) 0 s.time s.cycles j.seqEntry).gSet 1 (BitVec.ofNat 64 c)).gSet 2 j.args) with
    resident := false, allot := 0, tiles := 0 }
  let s1 : State := { s with
    groups := (List.range n).foldl (fun l c => put l (s.nextId + c) (mk c)) s.groups
    nextId := s.nextId + n }
  let s2 := s1.onJob j.id (fun j => { j with
    liveSeqs := n, engines := (List.range n).map (fun c => (c, { Engine.start with resident := false })) })
  if j.cor then s2 else
  (List.range n).foldl (fun t c => match look t.jobs j.id with | some j => (t.clusterIn j c).getD t | none => t) s2

/-- LAUNCH_PACKET: a launch whose dependency is met is accepted, COR decides whether it fits its partition; an accepted launch starts at the
dispatch of its first team (02 R44, 12 R242). -/
def State.launchPacket (s : State) (n : Nat) (q : Queue) (i : Nat) (b : List Byte) : State :=
  match s.dependency n q b with
  | .refused s1 => (s1.openJob n q i b (.ending 1)).1
  | _ =>
    let r := s.openJob n q i b .running
    if r.2.cor && !r.2.corFits then (s.openJob n q i b (.ending 2)).1
    else
      let j : Job := { r.2 with cap := q.control.1, groupTable := q.control.2, phase := if r.2.cor then .waiting else .running }
      (r.1.putJob j).startSequencers j

/-- A launch packet whose turn has come is accepted. -/
def State.acceptLaunch (s : State) (n : Nat) : State :=
  match look s.queues n with
  | none => s
  | some q =>
    match q.packet with
    | some (i, b) => if pktField b 0 1 = 1 ∧ s.startable n q then s.launchPacket n q i b else s
    | none => s

/-- The page request of a bound launch packet whose dependency word does not translate (12 R242, 14 R270). -/
def State.dependencyMiss (s : State) (n : Nat) : Option State :=
  match look s.queues n with
  | none => none
  | some q =>
    match q.packet with
    | none => none
    | some (_, b) =>
      if s.inRecovery || q.stopped || q.closing.isSome || q.tap.isNone || pktField b 0 1 != 1 then none else
      match s.dependency n q b with
      | .waits s1 => some s1
      | _ => none

/-- LAUNCH_PACKET. -/
def execLaunchPacket (q : Nat) (s : State) : Outcome State Fault Refusal :=
  .next (match s.dependencyMiss q with
    | some s1 => s1.idle
    | none => (s.acceptLaunch q).idle)

/-! ## Copy, wait and set packets (12 R237) -/

/-- Ends a job of a packet with a status. -/
def State.endPacket (s : State) (j : Job) (status : Nat) : State := s.putJob { j with phase := .ending status }
/-- Whether the reserved bits and bytes of a copy, wait or set packet are zero (12 R235, R237). -/
def pktReserved (b : List Byte) : Bool :=
  pktField b 2 2 % 2 ^ 15 == 0 && pktField b 4 4 == 0 &&
  match pktField b 0 1 with
  | 2 => pktField b 40 88 == 0
  | 3 => pktField b 25 7 == 0 && pktField b 48 80 == 0
  | _ => pktField b 25 7 == 0 && pktField b 40 88 == 0

/-- A copy packet's elements of four bytes (10 R196, 12 R237). -/
def Job.copyElems (j : Job) : List Elem :=
  let src := BitVec.ofNat 64 (j.field 8 8)
  let dst := BitVec.ofNat 64 (j.field 16 8)
  (List.range (j.field 24 8 / 4)).map (fun i => ⟨some (src + BitVec.ofNat 64 (4 * i)), 0, dst + BitVec.ofNat 64 (4 * i), 4,
    src.toNat % 4 == 0 && dst.toNat % 4 == 0, 0, 0⟩)

/-- Who a copy packet's engine works for: no team and no group, with the pages refused to it and those it has asked for. -/
def State.copyMover (s : State) (j : Job) : Mover :=
  ⟨j.id, 2 ^ 32, 0, none, false, false, false, (s.refused.filter (fun p => p.1 == keyDep j.id)).map Prod.snd, s.asked j.root (.device (keyDep j.id))⟩

/-- Runs a started copy packet. -/
def State.copyRun (s : State) (j : Job) : State :=
  let l := j.copyElems.map (s.aim (s.copyMover j) .packet .packet)
  match s.engWaits j.root j.queue (.device (keyDep j.id)) l with
  | some t => t
  | none =>
    let r := s.moveAll false l copyElem
    (r.1.forget (keyDep j.id)).endPacket j (if r.2 = 0 then 0 else 1)

/-- Starts a copy, wait or set packet: one that is malformed completes with FAULT without its effect (12 R235, R237, R242). -/
def State.startPacket (s : State) (n : Nat) (q : Queue) (i : Nat) (b : List Byte) (bad : Bool) (go : State → Job → State) : State :=
  let r := s.openJob n q i b .running
  if !pktReserved b || bad then r.1.endPacket r.2 1 else go (r.1.packetStarts r.2) r.2

/-- COPY_PACKET. -/
def execCopyPacket (q : Nat) (s : State) : Outcome State Fault Refusal :=
  .next (s.withPacket q 2
    (fun x i b => s.startPacket q x i b (pktField b 24 8 % 4 != 0 || decide (2 ^ 40 < pktField b 24 8)) State.copyRun)
    State.copyRun)

/-- The signal word of a wait-signal or set-signal packet: its location, or a job that waits for its page or ends with FAULT (12 R237). -/
def State.withSignal (s : State) (j : Job) (write : Bool) (wait : State → State) (f : Nat → State) : State :=
  let va := j.field 8 8
  if va % 8 ≠ 0 ∨ 0x1FF ≤ va / 2 ^ 48 then s.endPacket j 1 else
  match s.devPage (keyDep j.id) j.root j.queue va write with
  | .waits s1 => wait s1
  | .refused s1 _ => s1.endPacket j 1
  | .page p => if 2 ≤ p.attr then s.endPacket j 1 else f p.pa

/-- The condition of a wait-signal packet. -/
def Job.holds (j : Job) (x : Nat) : Bool :=
  match j.field 24 1 with
  | 0 => decide (j.field 16 8 ≤ x)
  | 1 => x == j.field 16 8
  | _ => x != j.field 16 8
/-- Whether the condition held at the start or after any write since. -/
def State.signalMet (s : State) (j : Job) (loc : Nat) : Bool := if s.isMmio loc then j.holds (s.devNat loc 8) else (s.heldSince j.mark loc 8).any (fun b => j.holds (leNat b))

/-- A started wait-signal packet looks at its word. -/
def State.waitRun (s : State) (j : Job) : State :=
  s.withSignal j false id (fun loc => if s.signalMet j loc then s.endPacket j 0 else s)

/-- WAIT_SIGNAL_PACKET. -/
def execWaitSignalPacket (q : Nat) (s : State) : Outcome State Fault Refusal :=
  .next (s.withPacket q 3
    (fun x i b => s.startPacket q x i b (decide (2 < pktField b 24 1)) State.waitRun)
    State.waitRun)

/-- WAIT_SIGNAL_TIMEOUT: the timeout of the packet in focus has passed, before the answer to its page request too (12 R237). -/
def execWaitSignalTimeout (s : State) : Outcome State Fault Refusal :=
  .next (
    match look s.jobs s.sel with
    | none => s.idle
    | some j =>
      if j.field 0 1 = 3 ∧ j.phase = .running ∧ j.field 32 8 ≠ 0 ∧ j.born + 1000 * j.field 32 8 ≤ s.time then
        (s.withSignal j false (fun _ => s.endPacket j 4) (fun loc => s.endPacket j (if s.signalMet j loc then 0 else 4))).idle
      else s.idle)

/-- A started set-signal packet stores or adds (12 R237). -/
def State.setRun (s : State) (j : Job) : State :=
  s.withSignal j true id (fun loc =>
    (s.devStore loc 8 (if j.field 24 1 = 0 then j.field 16 8 else atomOp 1 (s.devNat loc 8) (j.field 16 8))).endPacket j 0)

/-- SET_SIGNAL_PACKET. -/
def execSetSignalPacket (q : Nat) (s : State) : Outcome State Fault Refusal :=
  .next (s.withPacket q 4
    (fun x i b => s.startPacket q x i b (decide (1 < pktField b 24 1)) State.setRun)
    State.setRun)

/-! ## The end of a launch (09 R179, R182, R184, 12 R244, 13 R259) -/

/-- Whether every team and sequencer of a launch has ended and its engine operations have arrived. -/
def State.strandsDone (s : State) (j : Job) : Bool :=
  j.nextTeam == j.teamCount && j.liveTeams == 0 && j.liveSeqs == 0 && s.ops.all (fun o => !o.moves j.id)

/-- The first root group whose views are to be folded, every earlier one having exited (09 R179). -/
def State.nextFold (s : State) (j : Job) : Option ((Nat × Nat) × List View) :=
  let before := fun x y : Nat × Nat => decide (x.1 < y.1) || (x.1 == y.1 && decide (x.2 < y.2))
  match bestOf (fun y x => before y.1 x.1) j.folds with
  | none => none
  | some f =>
    if s.allGroups.any (fun g => g.kind == .root && g.job == j.id && before (g.team, g.grp) f.1) then none else some f

/-- Folds elements of a view into the home range from the one reached, by fuel; answers whether it ended (09 R177, R179). The elements of
a view are folded without another store between them (log 31). Spoilt bytes of global memory are ECAUSE 7, of a scratchpad they end the
launch as those of no instruction do (10 R192, 13 R252, log 50). -/
def State.foldFrom (s : State) (j : Job) (v : View) (b : List Byte) : Nat → Nat → State × Bool
  | 0, _ => (s, true)
  | n + 1, k =>
    let w := groupWidth (redType b)
    let va := redBase b + k * w
    let stop := fun (t : State) (cause : Nat) => (t.endJob j.id 1 (recordBytes (trapInfo 0x32 3 cause 0) 0#64 0#64 (BitVec.ofNat 64 va) 0#64 0#64
      (recordTail 0#64 0 3 0xFF s.time)), false)
    match s.devPage (keyFold j.id) j.root j.queue va true with
    | .waits s1 => (s1.onJob j.id (fun j => { j with foldElem := k }), false)
    | .refused s1 cause => stop s1 cause
    | .page p =>
      if p.attr ≠ 0 then stop s 2
      else if s.poisoned p.pa w || (!v.inWindow && s.poisoned (viewLoc v.key (k * w)) w) then stop s 7
      else if s.poisoned (viewLoc v.key (k * w)) w then (s.endJob j.id 1 (s.upsetRecord 1 Group.blank 3), false)
      else State.foldFrom (s.devStore p.pa w (combine b (s.devNat p.pa w) (s.natAt (viewLoc v.key (k * w)) w))) j v b n (k + 1)

/-- ROOT_VIEW_FOLD: the next view of the next root group (09 R179). -/
def State.rootFold (s : State) (j : Job) : State :=
  match s.nextFold j with
  | none => s.idle
  | some (tg, vs) =>
    let rest := fun l : List View => (j.folds.filter (fun f => f.1 != tg)) ++ (if l.isEmpty then [] else [(tg, l)])
    match bestOf (fun y x => decide (y.red < x.red)) vs with
    | none => (s.putJob { j with folds := rest [], foldElem := 0 }).idle
    | some v =>
      let b := (look j.redDescs v.red).getD []
      let r := s.foldFrom j v b (redSize b / max 1 (groupWidth (redType b)) - j.foldElem) j.foldElem
      (if r.2 then r.1.putJob { j with folds := rest (vs.erase v), foldElem := 0 } else r.1).idle

/-- ROOT_VIEW_FOLD. -/
def execRootViewFold (s : State) : Outcome State Fault Refusal :=
  .next (match look s.jobs s.sel with | some j => if j.running then s.rootFold j else s.idle | none => s.idle)

/-- Lexicographic order of the pedigree elements after the root. -/
def elemsBefore : List (Nat × Nat) → List (Nat × Nat) → Option Bool
  | [], [] => none
  | [], _ => some true
  | _, [] => some false
  | a :: as, b :: bs => if a = b then elemsBefore as bs else some (decide (a.1 < b.1) || (a.1 == b.1 && decide (a.2 < b.2)))
/-- The key order of deferred adds (09 R181). -/
def DefAdd.before (x y : DefAdd) : Bool :=
  let p := pedigree x.pdh x.pdl
  let q := pedigree y.pdh y.pdl
  let rx := p.headD (0, 0)
  let ry := q.headD (0, 0)
  if rx ≠ ry then decide (rx.2 < ry.2) || (rx.2 == ry.2 && decide (rx.1 < ry.1)) else
  match elemsBefore p.tail q.tail with
  | some r => r
  | none => decide (x.lane < y.lane) || (x.lane == y.lane && decide (x.sq < y.sq))

/-- The format of an add of 4 or 8 bytes. -/
def addFormat (width : Nat) : Fmt := if width = 8 then fp64 else fp32
/-- x := round(x + operand), RNE, no flags (09 R182). -/
def addWord (width x y : Nat) : Nat := (faddW (addFormat width) .rne false x y).bits

/-- The record of an addition whose home does not answer. An entry of 09 R180 keeps its pedigree and lane; the address as the strand gave it,
the strand, its instruction and its core it does not keep, so that ADDR, FPC, byte 54 and the rest hold any value (14 R272, log 38). -/
def State.lostAdd (s : State) (id lane : Nat) (pdl pdh : W64) : State :=
  s.endJob id 1 (recordBytes (trapInfo 0x33 3 3 0) 0#64 (Config.anyValue s.tick 0) (Config.anyValue s.tick 1) pdl pdh
    (recordTail (Config.anyValue s.tick 2) (Config.anyValue s.tick 3).toNat ((Config.anyValue s.tick 4).toNat % 3) lane s.time))

/-- One addition of a launch at its home, whose store is lost where the home does not answer; once that has ended the launch nothing more
is added (09 R182, 13 R259, 14 R272). -/
def State.addAt (s : State) (id loc width x lane : Nat) (pdl pdh : W64) : State :=
  if s.jobOver id then s
  else if s.farFails loc then s.lostAdd id lane pdl pdh
  else s.storeNat loc width (addWord width (s.natAt loc width) x)

/-- The partials of a location, by ascending team, combined by the adjacent-pair tree and added once (09 R184). -/
def State.applyPartials (s : State) (j : Job) (loc width : Nat) : State :=
  let ps := sortBy (fun x y : Partial => decide (x.team < y.team)) (j.partials.filter (fun p => p.loc == loc && p.width == width))
  match (pairTree (fun x y => faddW (addFormat width) .rne false x y) (ps.length + 1) (ps.map (fun p => p.sum.toNat)) 0).1 with
  | [x] => s.addAt j.id loc width x 0xFF (Config.anyValue s.tick 5) (Config.anyValue s.tick 6)
  | _ => s

/-- DEFERRED_ADD_APPLY: after every other write of the launch, each home applies its entries in key order (09 R182, R184). -/
def State.applyAdds (s : State) (j : Job) : State :=
  let s1 := (sortBy DefAdd.before j.adds).foldl (fun t a => t.addAt j.id a.loc a.width a.operand.toNat a.lane a.pdl a.pdh) s
  let s2 := ((j.partials.map (fun p => (p.loc, p.width))).eraseDups).foldl (fun t p => t.applyPartials j p.1 p.2) s1
  s2.onJob j.id (fun k => { k with adds := [], partials := [] })

/-- DEFERRED_ADD_APPLY. -/
def execDeferredAddApply (s : State) : Outcome State Fault Refusal :=
  .next (
    match look s.jobs s.sel with
    | some j => if j.running ∧ s.strandsDone j ∧ j.folds = [] ∧ !(j.armed.any Armed.fired) ∧ !j.feat then (s.applyAdds j).idle else s.idle
    | none => s.idle)

/-- LAUNCH_END: a launch whose work is done ends with OK, or FAULT where an addition or a record was lost; one that ends
otherwise loses its strands (09 R182, R183, 13 R259). -/
def State.launchEnd (s : State) (j : Job) : State :=
  match j.phase with
  | .ending _ => (s.clearStrands j.id).idle
  | .waiting => s.idle
  | .swapped => s.idle
  | .running =>
    if j.field 0 1 = 1 ∧ s.strandsDone j ∧ j.folds = [] ∧ (j.feat ∨ (j.adds = [] ∧ j.partials = [])) ∧ !(j.armed.any Armed.fired) then
      ((s.putJob (j.stop (if j.feat then 1 else 0))).clearStrands j.id).idle
    else s.idle

/-- LAUNCH_END. -/
def execLaunchEnd (s : State) : Outcome State Fault Refusal :=
  .next (match look s.jobs s.sel with | some j => s.launchEnd j | none => s.idle)

/-- The completion signal VA of a packet (12 R236, R237). -/
def Job.signalVa (j : Job) : Nat := if j.field 0 1 = 3 then j.field 40 8 else j.field 32 8
/-- The value of a completion signal (12 R244). -/
def Job.signalWord (j : Job) (status : Nat) : Nat := (j.index + 1) % 2 ^ 56 * 256 + status

/-- The slot 0 record and the LOST counts that wait for a page; none while they still wait (13 R253). -/
def State.flushRecord (s : State) (j : Job) : State × Option Job :=
  if j.zero ≠ [] then
    match s.devPage (keyRecord j.id) j.root j.queue (j.trapArea + 64) true with
    | .page p => let k := { j with zero := [] }; ((s.devPut p.pa j.zero).putJob k, some k)
    | .waits s1 => (s1, none)
    | .refused s1 _ => let k := { j with zero := [], lost := 0 }; (s1.putJob k, some k)
  else if j.lost ≠ 0 then
    match s.devPage (keyRecord j.id) j.root j.queue j.trapArea true with
    | .page p => let k := { j with lost := 0 }; ((s.devStore (p.pa + 4) 4 (s.devNat (p.pa + 4) 4 + j.lost)).putJob k, some k)
    | .waits s1 => (s1, none)
    | .refused s1 _ => let k := { j with lost := 0 }; (s1.putJob k, some k)
  else (s, some j)

/-- The packet has completed: it leaves its queue, commands that waited for it go on (14 R269). -/
def State.retire (s : State) (j : Job) : State :=
  let s1 : State := { s with jobs := drop s.jobs j.id, ops := s.ops.filter (fun o => o.job != j.id), teams := s.teams.filter (fun t => t.2.job != j.id) }
  let s2 := match look s1.queues j.queue with
    | some q => s1.putQueue j.queue { q with started := q.started.filter (· != j.id) }
    | none => s1
  State.drainCommands (s2.commands.length + 1) s2

/-- COMPLETION_SIGNAL: once everything of the packet has been performed, (seq << 8) | status is stored (12 R244). -/
def State.completionSignal (s : State) (j : Job) : State :=
  match j.phase with
  | .ending status =>
    if s.allGroups.any (fun g => g.kind != .idle && g.job == j.id) || s.ops.any (fun o => o.moves j.id) || !j.armed.isEmpty then s.idle
    else
      let r := s.flushRecord j
      match r.2 with
      | none => r.1.idle
      | some k =>
        if k.zero ≠ [] ∨ k.lost ≠ 0 then r.1.idle
        else if k.signalVa = 0 then (r.1.retire k).idle
        else if k.signalVa % 8 ≠ 0 ∨ 0x1FF ≤ k.signalVa / 2 ^ 48 then ((r.1.queueError k.queue).retire k).idle
        else
          match r.1.devPage (keySignal k.id) k.root k.queue k.signalVa true with
          | .waits s1 => s1.idle
          | .refused s1 _ => ((s1.queueError k.queue).retire k).idle
          | .page p =>
            if 2 ≤ p.attr then ((r.1.queueError k.queue).retire k).idle
            else ((r.1.devStore p.pa 8 (k.signalWord status)).retire k).idle
  | _ => s.idle

/-- COMPLETION_SIGNAL. -/
def execCompletionSignal (s : State) : Outcome State Fault Refusal :=
  .next (match look s.jobs s.sel with | some j => s.completionSignal j | none => s.idle)

end Sys2Proof.Machine
end

