-- ==== Sys2Proof/Machine/Keccak.lean ====
section
/-! DEFINITION. SHAKE256 of FIPS 202, which 14 R273 measures components with (PRESUMED, log 7: the standard's text is outside the manual). -/
namespace Sys2Proof.Machine

/-- Round constants of Keccak-f[1600]. -/
def keccakRC : List W64 :=
  [0x0000000000000001#64, 0x0000000000008082#64, 0x800000000000808A#64, 0x8000000080008000#64, 0x000000000000808B#64, 0x0000000080000001#64] ++
  [0x8000000080008081#64, 0x8000000000008009#64, 0x000000000000008A#64, 0x0000000000000088#64, 0x0000000080008009#64, 0x000000008000000A#64] ++
  [0x000000008000808B#64, 0x800000000000008B#64, 0x8000000000008089#64, 0x8000000000008003#64, 0x8000000000008002#64, 0x8000000000000080#64] ++
  [0x000000000000800A#64, 0x800000008000000A#64, 0x8000000080008081#64, 0x8000000000008080#64, 0x0000000080000001#64, 0x8000000080008008#64]

/-- Rotation offsets by lane x + 5y. -/
def keccakRot : List Nat :=
  [0, 1, 62, 28, 27, 36, 44, 6, 55, 20, 3, 10, 43, 25, 39, 41, 45, 15, 21, 8, 18, 2, 61, 56, 14]

/-- One round on the 25 lanes. -/
def keccakRound (a : List W64) (rc : W64) : List W64 :=
  let at' : Nat → W64 := fun i => a.getD i 0#64
  let c := (List.range 5).map (fun x => at' x ^^^ at' (x + 5) ^^^ at' (x + 10) ^^^ at' (x + 15) ^^^ at' (x + 20))
  let d := (List.range 5).map (fun x => c.getD ((x + 4) % 5) 0#64 ^^^ (c.getD ((x + 1) % 5) 0#64).rotateLeft 1)
  let t := (List.range 25).map (fun i => (at' i ^^^ d.getD (i % 5) 0#64).rotateLeft (keccakRot.getD i 0))
  -- pi: B[y][(2x + 3y) mod 5] := t[x][y], read backwards for lane (x', y')
  let b := (List.range 25).map (fun i => let x := i % 5; let y := i / 5; t.getD ((x + 3 * y) % 5 + 5 * x) 0#64)
  let e := (List.range 25).map (fun i =>
    let x := i % 5
    let y := i / 5
    b.getD i 0#64 ^^^ (~~~ b.getD ((x + 1) % 5 + 5 * y) 0#64 &&& b.getD ((x + 2) % 5 + 5 * y) 0#64))
  match e with
  | h :: l => (h ^^^ rc) :: l
  | [] => []

/-- The permutation. -/
def keccakF (a : List W64) : List W64 := keccakRC.foldl keccakRound a

/-- A block of bytes as 64-bit lanes, by fuel. -/
def lanesOf : Nat → List Byte → List W64
  | 0, _ => []
  | n + 1, l => BitVec.ofNat 64 (leNat (l.take 8)) :: lanesOf n (l.drop 8)

/-- Absorbs whole blocks of the rate, by fuel. -/
def keccakAbsorb : Nat → List Byte → List W64 → List W64
  | 0, _, st => st
  | n + 1, l, st => keccakAbsorb n (l.drop 136) (keccakF ((st.zip (lanesOf 25 (l.take 136))).map (fun p => p.1 ^^^ p.2)))

/-- SHAKE256 with 512 bits of output. -/
def shake256 (msg : List Byte) : List Byte :=
  let n := msg.length / 136 + 1
  let pad := n * 136 - msg.length
  let tail : List Byte := if pad = 1 then [0x9F#8] else 0x1F#8 :: List.replicate (pad - 2) 0#8 ++ [0x80#8]
  ((keccakAbsorb n (msg ++ tail) (List.replicate 25 0#64)).take 8).flatMap (fun w => leBytes 8 w.toNat)

end Sys2Proof.Machine
end

