-- ==== Sys2Proof/Machine/Platform.lean ====
section
/-! DEFINITION. Host accesses, the fabric, boot and attestation, monitors and throttling (12 R238, 14 R267 to R274). -/
namespace Sys2Proof.Machine
open Host

/-! ## The UCIe attachment (14 R267, R268, R271) -/

/-- Whether an address of host memory: it is the host's own, whatever state the device is in (14 R271). -/
def hostMemory (pa : Nat) : Bool := decide (0x80000000000 ≤ pa % 2 ^ 44) && decide (pa % 2 ^ 44 < 0xC0000000000)
/-- Whether an agent outside reaches the `n` bytes of memory at an address; in the recovery state the device's own memory does not respond
(14 R273). -/
def State.reachable (s : State) (pa n : Nat) : Bool :=
  s.isMemory pa && s.isMemory (pa + n - 1) && (!s.inRecovery || (hostMemory pa && hostMemory (pa + n - 1)))

/-- A write from outside: memory, an MMIO register, or nothing. -/
def State.outsideWrite (s : State) (pa : Nat) (data : List Byte) : State :=
  if s.isMmio pa then s.mmioWrite (mmioOff pa) data.length (leNat data)
  else if s.reachable pa data.length then s.store pa data
  else s
/-- A read from outside. -/
def State.outsideRead (s : State) (pa n : Nat) : List Byte :=
  if s.isMmio pa then leBytes n (s.mmioRead (mmioOff pa) n)
  else if s.reachable pa n then s.bytesAt pa n
  else []

/-- DOORBELL: a host store to the doorbell of a queue's tap page (12 R238). -/
def execDoorbell (q : Nat) (value : W64) (s : State) : Outcome State Fault Refusal :=
  .next (s.mmioWrite (0x40000000 + q * 0x10000) 8 value.toNat).idle
/-- REGISTER_WRITE (14 R268). -/
def execRegisterWrite (offset size : Nat) (value : W64) (s : State) : Outcome State Fault Refusal :=
  .next (s.mmioWrite offset size value.toNat).idle
/-- HOST_WRITE (14 R271). -/
def execHostWrite (pa : Nat) (data : List Byte) (s : State) : Outcome State Fault Refusal := .next (s.outsideWrite pa data).idle
/-- HOST_READ: the data goes to the host (14 R271). -/
def execHostRead (pa len : Nat) (s : State) : Outcome State Fault Refusal :=
  .next (State.idle { s with hostData := s.outsideRead pa len })
/-- LINK_TRAINING: the eight modules, each trained or left out (14 R267). -/
def execLinkTraining (m : Nat) (trained : Bool) (s : State) : Outcome State Fault Refusal :=
  .next (
    if 8 ≤ m then s.idle
    else
      let l := s.links.filter (· != m)
      State.idle { s with links := if trained then l ++ [m] else l })

/-! ## Boot and attestation (14 R273) -/

/-- Measures a component into its register: M := SHAKE256(M ‖ component, 512 bits). -/
def measureInto (ms : List (List Byte)) (k : Nat) (component : List Byte) : List (List Byte) :=
  let i := Config.measureSlot k % 8
  ms.set i (shake256 (ms.getD i [] ++ component))

/-- Whether a part has a kiln, and its TDP in watts, which the variant record of a 9400 and a 9200 sets (00 R1, 01 R17). -/
def partKiln : Part → Bool | .p9600 => true | .p9400 => true | .p9200 => false
def partTdp (p : Part) (record : List Byte) : Nat := match p with | .p9600 => 3600 | _ => Config.recordTdp record

/-- RESET_BOOT: everything but memory outside the package's scratchpads and B stores, the links, %time and the agenda starts again; then
the ROM verifies, measures and derives the part, and the fabric manager assigns the package ID (14 R272, R273, 03 R58). -/
def execResetBoot (firmware fwSig record recSig : List Byte) (s : State) : Outcome State Fault Refusal :=
  let fw := Config.slhVerify firmware fwSig
  let rc := Config.slhVerify record recSig
  let m0 := State.reset.measure
  let m1 := if fw then measureInto m0 0 firmware else m0
  let m2 := if rc then measureInto m1 1 record else m1
  let part : Part := match Config.recordPart record % 3 with | 0 => .p9600 | 1 => .p9400 | _ => .p9200
  .next { State.reset with
    boot := if fw && rc then .ready else .recovery
    part := if rc then part else State.reset.part
    kiln := if rc then partKiln part else State.reset.kiln
    tdp := if rc then partTdp part record else State.reset.tdp
    measure := m2
    recordHash := shake256 record
    mem := s.mem.filter (fun p => decide (p.1 < 2 ^ 57))
    time := s.time
    pkg := Config.fabricId s.tick % 4608
    links := s.links
    silent := s.silent
    agenda := s.agenda
    tick := s.tick + 1 }

/-- The report up to its signature (14 R273). -/
def State.reportBody (s : State) (nonce : List Byte) : List Byte :=
  nonce ++ s.measure.flatten ++ s.recordHash ++ leBytes 2 s.pkg ++ List.replicate 6 0#8

/-- ATTESTATION_REQUEST (14 R273). -/
def execAttestationRequest (nonce : List Byte) (s : State) : Outcome State Fault Refusal :=
  .next (
    if nonce.length ≠ 32 ∨ s.boot = .rom ∨ s.boot = .halted then s.idle
    else
      let b := s.reportBody nonce
      State.idle { s with report := b ++ Config.slhSign b })

/-! ## Irzil (14 R272) -/

/-- What an atomic of another package writes at its home, none where a CAS does not match; the operand of a CAS holds compare and swap
(08 R149, R154). -/
def remoteAtomic (code old : Nat) (data : List Byte) : Option Nat :=
  let w := if code % 2 = 1 then 8 else 4
  if code = 18 ∨ code = 19 then (if old = leNat (data.take w) then some (leNat ((data.drop w).take w)) else none)
  else some (atomOp code old (leNat (data.take w)))

/-- REMOTE_REQUEST: kind 0 reads `code` bytes, 1 writes, 2 performs the atomic of a code of R148; what a read or an atomic returns
goes back as the reply. -/
def execRemoteRequest (kind code pa : Nat) (data : List Byte) (s : State) : Outcome State Fault Refusal :=
  .next (
    match kind with
    | 0 => State.idle { s with remoteData := s.outsideRead pa code }
    | 1 => (s.outsideWrite pa data).idle
    | 2 =>
      let w := if code % 2 = 1 then 8 else 4
      if s.reachable pa w && !s.inRecovery && pa % w == 0 && decide (code ≤ 25) then
        let old := s.natAt pa w
        State.idle { (match remoteAtomic code old data with | some x => s.storeNat pa w x | none => s) with remoteData := leBytes w old }
      else s.idle
    | _ => s.idle)

/-- REMOTE_REQUEST_TIMEOUT: a package has left a request unanswered for 10 ms; from then on each request to it may fail. -/
def execRemoteRequestTimeout (pkg : Nat) (s : State) : Outcome State Fault Refusal :=
  .next (State.idle { s with silent := if s.silent.contains pkg then s.silent else s.silent ++ [pkg] })

/-! ## Monitors and throttling (14 R274) -/

/-- The throttle step of the hottest sensor. -/
def throttleStep (celsius : Nat) : Nat := if celsius ≤ 95 then 0 else if celsius ≤ 100 then 1 else if celsius ≤ 105 then 2 else 3

/-- Since when a die has read above 115 degrees without a break. -/
def State.heat (s : State) (die celsius : Nat) : List (Nat × Nat) :=
  if celsius ≤ 115 then drop s.hot die else put s.hot die ((look s.hot die).getD s.time)

/-- THERMAL_STEP_CHANGE. -/
def execThermalStepChange (die celsius : Nat) (s : State) : Outcome State Fault Refusal :=
  .next (if s.dies ≤ die then s.idle else State.idle { s with steps := put s.steps die (throttleStep celsius), hot := s.heat die celsius })

/-- Whether some die has been above 115 degrees for 1 ms. -/
def State.tooHot (s : State) : Bool := s.hot.any (fun p => decide (p.2 + 1000000 ≤ s.time))

/-- THERMAL_HALT: once a die has been above 115 degrees for 1 ms the arithmetic clock stops and every running launch ends with ABORTED. -/
def execThermalHalt (s : State) : Outcome State Fault Refusal :=
  .next (
    if !s.tooHot then s.idle else
    let s1 := s.jobs.foldl (fun t p => if p.2.field 0 1 = 1 ∧ p.2.begun then t.stopJob p.1 4 else t) s
    State.idle { s1 with boot := .halted })

/-- POWER_THROTTLE: averaged power above the TDP slows the package by one step more, at most step 3. -/
def execPowerThrottle (watts : Nat) (s : State) : Outcome State Fault Refusal :=
  .next (State.idle { s with powerStep := if s.tdp < watts then min 3 (s.powerStep + 1) else 0 })

/-- DROOP_EVENT: up to 64 cycles are stretched. -/
def execDroopEvent (die cycles : Nat) (s : State) : Outcome State Fault Refusal :=
  .next (if s.dies ≤ die then s.idle else State.idle { s with droop := min 64 cycles })

end Sys2Proof.Machine
end

