-- ==== Sys2Proof/Machine/Repeat.lean ====
section
/-! DEFINITION. The two prefixes LIMM and REP (03 R62, 04 R74 to R77, 20 R357, 21 R380, R381). -/
namespace Sys2Proof.Machine
open Host

/-! ## LIMM (04 R74) -/

/-- Whether an instruction combines with a LIMM (04 R74). -/
def takesLimm (i : Instr) : Bool :=
  [0x0A, 0x0B, 0x2A, 0x2B, 0x0C, 0x2C, 0x0E, 0x0F, 0x2E, 0x2F, 0x19, 0x1A, 0x37, 0x38].contains i.major

/-- LIMM: the word behind it is fetched; a partner of R74 then executes with the prefix, any other word is ILLEGAL_OP at the LIMM. -/
def execLimm (i : BitVec 24) (s : State) : Outcome State Fault Refusal :=
  .next (
    if !s.admits (.limm i) then s.illegal (encode (.limm i)) else
    match s.fetch (s.sp.pc + 4#64).toNat with
    | none => s.hold [((s.sp.pc + 4#64).toNat, 4)]
    | some w =>
      match rowOf w with
      | some p => if takesLimm p then { s with limm := some i } else s.illegal (encode (.limm i))
      | none => s.illegal (encode (.limm i)))

/-! ## REP (04 R75, R76, 21 R381) -/

/-- Whether a word may be repeated at all, by its major and fn (04 R76). -/
def repeatable (w : W32) : Bool :=
  let m := (majorOf w).toNat
  let fn := (w.extractLsb' 21 3).toNat
  (decide (m ≤ 0x0C) || (decide (0x10 ≤ m) && decide (m ≤ 0x1A)) || (decide (0x20 ≤ m) && decide (m ≤ 0x2C)) || m == 0x37 || m == 0x38) &&
  !(m == 0x18 && (fn == 4 || fn == 5))

/-- Whether a row that a word falls into by its major and fn is one the opcode map has: a code it names may be none of the row's
(04 R78, R81). -/
def rowAssigned : Instr → Bool
  | .selV _ _ p _ _ _ => p != 0#2
  | .selG _ _ p _ _ _ => p != 0#2
  | .psetV _ f _ _ _ => decide (f.toNat ≤ 4)
  | .psetG _ f _ _ _ => decide (f.toNat ≤ 4)
  | .icmpV _ f _ _ _ _ => decide (f.toNat < 6)
  | .icmpG _ f _ _ _ _ => decide (f.toNat < 6)
  | .cvt _ r _ _ _ => decide (r.toNat < 6)
  | .ldV _ c _ _ _ => c != 5#3
  | .stV _ c _ _ _ => c != 1#3 && c != 3#3 && c != 5#3
  | .ldG _ c _ _ _ => c != 7#3
  | .stG _ c _ _ _ => c == 0#3 || c == 2#3 || c == 4#3 || c == 6#3
  | _ => true
/-- The bits of d, a and b that a cell of the opcode map reserves, by major and fn, of the majors that may be repeated; the group forms
reserve what the lane forms 0x20 below them do (04 R81). -/
def reservedBits (m fn : Nat) : Nat :=
  let f := fun d a b : Nat => d * 2 ^ 14 + a * 2 ^ 7 + b
  match (if 0x20 ≤ m ∧ m < 0x30 then m - 0x20 else m), fn with
  | 0, 6 => f 0 0 127
  | 1, 6 => f 0 0 127
  | 6, 0 => f 0 0 127
  | 6, 1 => f 0 0 127
  | 6, 2 => f 0 0 127
  | 6, 6 => f 0 0 127
  | 6, 7 => f 0 0 127
  | 7, _ => f 120 0 0
  | 8, 0 => f 0 0 127
  | 8, 4 => f 0 0 127
  | 9, 5 => f 124 0 126
  | 9, 6 => f 0 127 0
  | 9, _ => f 124 124 124
  | 0x14, _ => f 120 0 0
  | 0x15, 6 => f 0 0 96
  | 0x15, 7 => f 0 0 112
  | 0x16, 2 => f 0 127 127
  | 0x16, 3 => f 0 127 127
  | 0x16, 4 => f 127 0 127
  | 0x17, 4 => f 0 124 0
  | 0x17, 5 => f 0 0 126
  | 0x17, 6 => f 0 0 64
  | 0x18, 2 => f 0 0 127
  | 0x18, 3 => f 0 127 127
  | _, _ => 0
/-- A word with the reserved bits of its cell as the cell's row has them; a pop of a queue reads mqo, g98 (03 R53). -/
def unreserved (w : W32) : W32 :=
  let m := (majorOf w).toNat
  let fn := (w.extractLsb' 21 3).toNat
  w &&& ~~~BitVec.ofNat 32 (reservedBits m fn) ||| (if m = 0x18 ∧ fn = 3 then BitVec.ofNat 32 (98 * 2 ^ 7) else 0#32)
/-- The instruction whose fields a REP before a word advances, that of its cell where a reserved field alone bars the word, so that each
iteration meets ILLEGAL_OP; none for a word whose cell is unassigned, none of whose fields names a register (04 R76, log 42). -/
def repRow (w : W32) : Option Instr :=
  ((rowOf w).filter rowAssigned).orElse (fun _ => (rowOf (unreserved w)).filter rowAssigned)

/-- Whether a mask of D (4), A (2), B (1) advances a field. -/
def advances (mask : Nat) (f : Field) : Bool := match f with | .d => mask.testBit 2 | .a => mask.testBit 1 | .b => mask.testBit 0
/-- The first and last number of an operand over iterations `lo` to `hi`. -/
def Operand.span (o : Operand) (step : Int) (lo hi : Nat) : Int × Int :=
  let x := (o.reg : Int) + step * lo
  let y := (o.reg : Int) + step * hi
  (min x y, max x y)

/-- The ILLEGAL_OP conditions of R76 on a decoded word. An odd stride is barred for the pair of v registers of a 64-bit operand and not
for one g register (log 42). -/
def repIllegal (i : Instr) (mask : Nat) (step : Int) (lo hi : Nat) : Bool :=
  let ops := i.operands
  [Field.d, .a, .b].any (fun f => advances mask f && !ops.any (fun o => o.field == f)) ||
  ops.any (fun o => advances mask o.field &&
    ((o.vec && o.width == 2 && step % 2 != 0) || (!o.vec && (decide ((o.span step lo hi).1 < 0) || decide (95 < (o.span step lo hi).2)))))

/-- The REGWIN condition of R76, on the advanced field itself; what a wider operand reaches beyond it is checked by each iteration. -/
def Group.repOutside (g : Group) (i : Instr) (mask : Nat) (step : Int) (lo hi : Nat) : Bool :=
  i.operands.any (fun o => advances mask o.field && o.vec &&
    (decide ((o.span step lo hi).1 < 0) || decide (127 < (o.span step lo hi).2) ||
     decide ((g.allot : Int) ≤ g.wbase + (o.span step lo hi).2)))

/-- Starts a repeat of `left` iterations after `done` on the word behind the REP, checked whole (04 R76); a word of no cell of the
opcode map has no field that names a register. -/
def State.repStart (s : State) (ctl : W32) (done left : Nat) : State :=
  let next := s.sp.pc + 4#64
  let mask := ctl.toNat / 2 ^ 15 % 8
  let step := strideOf (ctl.toNat / 2 ^ 12 % 8)
  match s.fetch next.toNat with
  | none => s.hold [(next.toNat, 4)]
  | some w =>
    if !repeatable w then s.illegal ctl else
    let run := s.consume.setSplit { s.consume.sp with rep := some ⟨done + left, done, ctl, w⟩, st := .ready }
    match repRow w with
    | none => if mask ≠ 0 then s.illegal ctl else { run with tick := s.tick + 1, limm := none }
    | some i =>
      if repIllegal i mask step done (done + left - 1) then s.illegal ctl
      else if s.cur.repOutside i mask step done (done + left - 1) then s.stopFault 0x11 0 0#64 0xFF
      else { run with tick := s.tick + 1, limm := none }

/-- REP: a first REP after ERET or restore with ACT resumes; no iteration left skips the next word (03 R62, 21 R381). -/
def execRep (n : BitVec 6) (m st : BitVec 3) (g : BitVec 7) (s : State) : Outcome State Fault Refusal :=
  .next (
    let word := encode (.rep n m st g)
    if !s.admits (.rep n m st g) then s.illegal word else
    let count := if n = 63#6 then (s.cur.gGet32 g.toNat).toNat else n.toNat
    let resumed := s.sp.fresh && s.cur.repc.getLsbD 63
    if !resumed && decide (2 ^ 31 ≤ count) then s.illegal word else
    let done := if resumed then (s.cur.repc.extractLsb' 32 31).toNat else 0
    let left := if resumed then (s.cur.repc.extractLsb' 0 32).toNat else count
    if left = 0 then s.jump (s.sp.pc + 8#64) else s.repStart word done left)

end Sys2Proof.Machine
end

