-- ==== Sys2Proof/Machine/Shift.lean ====
section
/-! DEFINITION. Shifts and rotates: SHL, SHR, SAR, ROT (21 R383, 22 R386, R387). -/
namespace Sys2Proof.Machine
open Host

/-- The amount of a shift: the b field in an immediate form, else the low bits of the source (22 R386). -/
def amount (i : BitVec 1) (b : BitVec 7) (src w : Nat) : Nat := (if i = 1#1 then b.toNat else src) % w

/-- SHL, 32-bit lane form (22 R387). -/
def execShlV (q : BitVec 2) (i : BitVec 1) (d a b : BitVec 7) (s : State) : Outcome State Fault Refusal :=
  laneForm (.shlV q i d a b) (fun m s => laneWrite d (fun l => let x := s.cur.vGet a.toNat l; let c := amount i b (s.cur.vGet b.toNat l).toNat 32; x <<< c) m s) s

/-- SHL.64, lane form; a register amount is the low word of pair b (22 R387). -/
def execShlV64 (q : BitVec 2) (i : BitVec 1) (d a b : BitVec 7) (s : State) : Outcome State Fault Refusal :=
  laneForm (.shlV64 q i d a b) (fun m s => laneWrite2 d (fun l => let x := s.cur.vGet2 a.toNat l; let c := amount i b (s.cur.vGet b.toNat l).toNat 64; x <<< c) m s) s

/-- SHL.B32, group form (22 R387). -/
def execShlG32 (q : BitVec 2) (i : BitVec 1) (d a b : BitVec 7) (s : State) : Outcome State Fault Refusal :=
  groupForm (.shlG32 q i d a b) (fun s => groupWrite32 d (let x := s.cur.gGet32 a.toNat; let c := amount i b (s.cur.gGet b.toNat).toNat 32; x <<< c) s) s

/-- SHL, 64-bit group form (22 R387). -/
def execShlG64 (q : BitVec 2) (i : BitVec 1) (d a b : BitVec 7) (s : State) : Outcome State Fault Refusal :=
  groupForm (.shlG64 q i d a b) (fun s => groupWrite d (let x := s.cur.gGet a.toNat; let c := amount i b (s.cur.gGet b.toNat).toNat 64; x <<< c) s) s

/-- SHR, 32-bit lane form (22 R387). -/
def execShrV (q : BitVec 2) (i : BitVec 1) (d a b : BitVec 7) (s : State) : Outcome State Fault Refusal :=
  laneForm (.shrV q i d a b) (fun m s => laneWrite d (fun l => let x := s.cur.vGet a.toNat l; let c := amount i b (s.cur.vGet b.toNat l).toNat 32; x >>> c) m s) s

/-- SHR.64, lane form; a register amount is the low word of pair b (22 R387). -/
def execShrV64 (q : BitVec 2) (i : BitVec 1) (d a b : BitVec 7) (s : State) : Outcome State Fault Refusal :=
  laneForm (.shrV64 q i d a b) (fun m s => laneWrite2 d (fun l => let x := s.cur.vGet2 a.toNat l; let c := amount i b (s.cur.vGet b.toNat l).toNat 64; x >>> c) m s) s

/-- SHR.B32, group form (22 R387). -/
def execShrG32 (q : BitVec 2) (i : BitVec 1) (d a b : BitVec 7) (s : State) : Outcome State Fault Refusal :=
  groupForm (.shrG32 q i d a b) (fun s => groupWrite32 d (let x := s.cur.gGet32 a.toNat; let c := amount i b (s.cur.gGet b.toNat).toNat 32; x >>> c) s) s

/-- SHR, 64-bit group form (22 R387). -/
def execShrG64 (q : BitVec 2) (i : BitVec 1) (d a b : BitVec 7) (s : State) : Outcome State Fault Refusal :=
  groupForm (.shrG64 q i d a b) (fun s => groupWrite d (let x := s.cur.gGet a.toNat; let c := amount i b (s.cur.gGet b.toNat).toNat 64; x >>> c) s) s

/-- SAR, 32-bit lane form (22 R387). -/
def execSarV (q : BitVec 2) (i : BitVec 1) (d a b : BitVec 7) (s : State) : Outcome State Fault Refusal :=
  laneForm (.sarV q i d a b) (fun m s => laneWrite d (fun l => let x := s.cur.vGet a.toNat l; let c := amount i b (s.cur.vGet b.toNat l).toNat 32; x.sshiftRight c) m s) s

/-- SAR.64, lane form; a register amount is the low word of pair b (22 R387). -/
def execSarV64 (q : BitVec 2) (i : BitVec 1) (d a b : BitVec 7) (s : State) : Outcome State Fault Refusal :=
  laneForm (.sarV64 q i d a b) (fun m s => laneWrite2 d (fun l => let x := s.cur.vGet2 a.toNat l; let c := amount i b (s.cur.vGet b.toNat l).toNat 64; x.sshiftRight c) m s) s

/-- SAR.B32, group form (22 R387). -/
def execSarG32 (q : BitVec 2) (i : BitVec 1) (d a b : BitVec 7) (s : State) : Outcome State Fault Refusal :=
  groupForm (.sarG32 q i d a b) (fun s => groupWrite32 d (let x := s.cur.gGet32 a.toNat; let c := amount i b (s.cur.gGet b.toNat).toNat 32; x.sshiftRight c) s) s

/-- SAR, 64-bit group form (22 R387). -/
def execSarG64 (q : BitVec 2) (i : BitVec 1) (d a b : BitVec 7) (s : State) : Outcome State Fault Refusal :=
  groupForm (.sarG64 q i d a b) (fun s => groupWrite d (let x := s.cur.gGet a.toNat; let c := amount i b (s.cur.gGet b.toNat).toNat 64; x.sshiftRight c) s) s

/-- ROT, 32-bit lane form (21 R383). -/
def execRotV (q : BitVec 2) (i : BitVec 1) (d a b : BitVec 7) (s : State) : Outcome State Fault Refusal :=
  laneForm (.rotV q i d a b) (fun m s => laneWrite d (fun l => let x := s.cur.vGet a.toNat l; let c := amount i b (s.cur.vGet b.toNat l).toNat 32; x.rotateLeft c) m s) s

/-- ROT.64, lane form; a register amount is the low word of pair b (21 R383). -/
def execRotV64 (q : BitVec 2) (i : BitVec 1) (d a b : BitVec 7) (s : State) : Outcome State Fault Refusal :=
  laneForm (.rotV64 q i d a b) (fun m s => laneWrite2 d (fun l => let x := s.cur.vGet2 a.toNat l; let c := amount i b (s.cur.vGet b.toNat l).toNat 64; x.rotateLeft c) m s) s

/-- ROT.B32, group form (21 R383). -/
def execRotG32 (q : BitVec 2) (i : BitVec 1) (d a b : BitVec 7) (s : State) : Outcome State Fault Refusal :=
  groupForm (.rotG32 q i d a b) (fun s => groupWrite32 d (let x := s.cur.gGet32 a.toNat; let c := amount i b (s.cur.gGet b.toNat).toNat 32; x.rotateLeft c) s) s

/-- ROT, 64-bit group form (21 R383). -/
def execRotG64 (q : BitVec 2) (i : BitVec 1) (d a b : BitVec 7) (s : State) : Outcome State Fault Refusal :=
  groupForm (.rotG64 q i d a b) (fun s => groupWrite d (let x := s.cur.gGet a.toNat; let c := amount i b (s.cur.gGet b.toNat).toNat 64; x.rotateLeft c) s) s

end Sys2Proof.Machine
end

