-- ==== Sys2Proof/Machine/Dispatch.lean ====
section
/-! DEFINITION. The meaning of every instruction: one arm per constructor, each a direct call of its meaning. -/
namespace Sys2Proof.Machine
open Host

/-- Executes one instruction or event of the device on a state. -/
def exec (i : Instr) (s : State) : Host.Outcome State Fault Refusal :=
  match i with
  | .createQueue q ring size prio dies root headva status rsv => Sys2Proof.Machine.execCreateQueue q ring size prio dies root headva status rsv s
  | .destroyQueue q status rsv => Sys2Proof.Machine.execDestroyQueue q status rsv s
  | .resetQueue q status rsv => Sys2Proof.Machine.execResetQueue q status rsv s
  | .abortQueue q status rsv => Sys2Proof.Machine.execAbortQueue q status rsv s
  | .setQuantum us status rsv => Sys2Proof.Machine.execSetQuantum us status rsv s
  | .invalidate root va pages status rsv => Sys2Proof.Machine.execInvalidate root va pages status rsv s
  | .pageResponse id answer status rsv => Sys2Proof.Machine.execPageResponse id answer status rsv s
  | .doorbell q value => Sys2Proof.Machine.execDoorbell q value s
  | .registerWrite offset size value => Sys2Proof.Machine.execRegisterWrite offset size value s
  | .attestationRequest nonce => Sys2Proof.Machine.execAttestationRequest nonce s
  | .hostWrite pa data => Sys2Proof.Machine.execHostWrite pa data s
  | .hostRead pa len => Sys2Proof.Machine.execHostRead pa len s
  | .linkTraining m trained => Sys2Proof.Machine.execLinkTraining m trained s
  | .resetBoot firmware fwSig record recSig => Sys2Proof.Machine.execResetBoot firmware fwSig record recSig s
  | .remoteRequest kind code pa data => Sys2Proof.Machine.execRemoteRequest kind code pa data s
  | .remoteRequestTimeout pkg => Sys2Proof.Machine.execRemoteRequestTimeout pkg s
  | .thermalStepChange die celsius => Sys2Proof.Machine.execThermalStepChange die celsius s
  | .powerThrottle watts => Sys2Proof.Machine.execPowerThrottle watts s
  | .droopEvent die cycles => Sys2Proof.Machine.execDroopEvent die cycles s
  | .packetRead q => Sys2Proof.Machine.execPacketRead q s
  | .headPublish q => Sys2Proof.Machine.execHeadPublish q s
  | .launchPacket q => Sys2Proof.Machine.execLaunchPacket q s
  | .copyPacket q => Sys2Proof.Machine.execCopyPacket q s
  | .waitSignalPacket q => Sys2Proof.Machine.execWaitSignalPacket q s
  | .setSignalPacket q => Sys2Proof.Machine.execSetSignalPacket q s
  | .teamDispatch job core => Sys2Proof.Machine.execTeamDispatch job core s
  | .taskStart core => Sys2Proof.Machine.execTaskStart core s
  | .taskSteal thief victim => Sys2Proof.Machine.execTaskSteal thief victim s
  | .timeSlice job lcore core => Sys2Proof.Machine.execTimeSlice job lcore core s
  | .racking job lcore core => Sys2Proof.Machine.execRacking job lcore core s
  | .switchOut job team => Sys2Proof.Machine.execSwitchOut job team s
  | .restore job team core => Sys2Proof.Machine.execRestore job team core s
  | .engineContextSwitch job cluster => Sys2Proof.Machine.execEngineContextSwitch job cluster s
  | .engineArrival op => Sys2Proof.Machine.execEngineArrival op s
  | .triggeredOpComplete k => Sys2Proof.Machine.execTriggeredOpComplete k s
  | .iaddV q d a b => Sys2Proof.Machine.execIaddV q d a b s
  | .isubV q d a b => Sys2Proof.Machine.execIsubV q d a b s
  | .imulV q d a b => Sys2Proof.Machine.execImulV q d a b s
  | .imulhS32V q d a b => Sys2Proof.Machine.execImulhS32V q d a b s
  | .imulhZ32V q d a b => Sys2Proof.Machine.execImulhZ32V q d a b s
  | .imadV q d a b => Sys2Proof.Machine.execImadV q d a b s
  | .iabsV q d a => Sys2Proof.Machine.execIabsV q d a s
  | .iaddV64 q d a b => Sys2Proof.Machine.execIaddV64 q d a b s
  | .isubV64 q d a b => Sys2Proof.Machine.execIsubV64 q d a b s
  | .imulV64 q d a b => Sys2Proof.Machine.execImulV64 q d a b s
  | .imulhS64V q d a b => Sys2Proof.Machine.execImulhS64V q d a b s
  | .imulhZ64V q d a b => Sys2Proof.Machine.execImulhZ64V q d a b s
  | .imadV64 q d a b => Sys2Proof.Machine.execImadV64 q d a b s
  | .iabsV64 q d a => Sys2Proof.Machine.execIabsV64 q d a s
  | .iaddG32 q d a b => Sys2Proof.Machine.execIaddG32 q d a b s
  | .isubG32 q d a b => Sys2Proof.Machine.execIsubG32 q d a b s
  | .imulG32 q d a b => Sys2Proof.Machine.execImulG32 q d a b s
  | .imulhS32G q d a b => Sys2Proof.Machine.execImulhS32G q d a b s
  | .imulhZ32G q d a b => Sys2Proof.Machine.execImulhZ32G q d a b s
  | .imadG32 q d a b => Sys2Proof.Machine.execImadG32 q d a b s
  | .iabsG32 q d a => Sys2Proof.Machine.execIabsG32 q d a s
  | .iaddG64 q d a b => Sys2Proof.Machine.execIaddG64 q d a b s
  | .isubG64 q d a b => Sys2Proof.Machine.execIsubG64 q d a b s
  | .imulG64 q d a b => Sys2Proof.Machine.execImulG64 q d a b s
  | .imulhS64G q d a b => Sys2Proof.Machine.execImulhS64G q d a b s
  | .imulhZ64G q d a b => Sys2Proof.Machine.execImulhZ64G q d a b s
  | .imadG64 q d a b => Sys2Proof.Machine.execImadG64 q d a b s
  | .iabsG64 q d a => Sys2Proof.Machine.execIabsG64 q d a s
  | .iaddImmV q d a imm => Sys2Proof.Machine.execIaddImmV q d a imm s
  | .iaddImmV64 q d a imm => Sys2Proof.Machine.execIaddImmV64 q d a imm s
  | .iaddImmG32 q d a imm => Sys2Proof.Machine.execIaddImmG32 q d a imm s
  | .iaddImmG64 q d a imm => Sys2Proof.Machine.execIaddImmG64 q d a imm s
  | .imaxV q w sz d a b => Sys2Proof.Machine.execImaxV q w sz d a b s
  | .iminV q w sz d a b => Sys2Proof.Machine.execIminV q w sz d a b s
  | .imaxG q w sz d a b => Sys2Proof.Machine.execImaxG q w sz d a b s
  | .iminG q w sz d a b => Sys2Proof.Machine.execIminG q w sz d a b s
  | .andV q w d a b => Sys2Proof.Machine.execAndV q w d a b s
  | .orV q w d a b => Sys2Proof.Machine.execOrV q w d a b s
  | .xorV q w d a b => Sys2Proof.Machine.execXorV q w d a b s
  | .andnV q w d a b => Sys2Proof.Machine.execAndnV q w d a b s
  | .andG q w d a b => Sys2Proof.Machine.execAndG q w d a b s
  | .orG q w d a b => Sys2Proof.Machine.execOrG q w d a b s
  | .xorG q w d a b => Sys2Proof.Machine.execXorG q w d a b s
  | .andnG q w d a b => Sys2Proof.Machine.execAndnG q w d a b s
  | .shlV q imm d a b => Sys2Proof.Machine.execShlV q imm d a b s
  | .shrV q imm d a b => Sys2Proof.Machine.execShrV q imm d a b s
  | .sarV q imm d a b => Sys2Proof.Machine.execSarV q imm d a b s
  | .rotV q imm d a b => Sys2Proof.Machine.execRotV q imm d a b s
  | .shlV64 q imm d a b => Sys2Proof.Machine.execShlV64 q imm d a b s
  | .shrV64 q imm d a b => Sys2Proof.Machine.execShrV64 q imm d a b s
  | .sarV64 q imm d a b => Sys2Proof.Machine.execSarV64 q imm d a b s
  | .rotV64 q imm d a b => Sys2Proof.Machine.execRotV64 q imm d a b s
  | .shlG32 q imm d a b => Sys2Proof.Machine.execShlG32 q imm d a b s
  | .shrG32 q imm d a b => Sys2Proof.Machine.execShrG32 q imm d a b s
  | .sarG32 q imm d a b => Sys2Proof.Machine.execSarG32 q imm d a b s
  | .rotG32 q imm d a b => Sys2Proof.Machine.execRotG32 q imm d a b s
  | .shlG64 q imm d a b => Sys2Proof.Machine.execShlG64 q imm d a b s
  | .shrG64 q imm d a b => Sys2Proof.Machine.execShrG64 q imm d a b s
  | .sarG64 q imm d a b => Sys2Proof.Machine.execSarG64 q imm d a b s
  | .rotG64 q imm d a b => Sys2Proof.Machine.execRotG64 q imm d a b s
  | .clzV q d a => Sys2Proof.Machine.execClzV q d a s
  | .clzV64 q d a => Sys2Proof.Machine.execClzV64 q d a s
  | .clzG32 q d a => Sys2Proof.Machine.execClzG32 q d a s
  | .clzG64 q d a => Sys2Proof.Machine.execClzG64 q d a s
  | .popcV q d a => Sys2Proof.Machine.execPopcV q d a s
  | .popcV64 q d a => Sys2Proof.Machine.execPopcV64 q d a s
  | .popcG32 q d a => Sys2Proof.Machine.execPopcG32 q d a s
  | .popcG64 q d a => Sys2Proof.Machine.execPopcG64 q d a s
  | .brevV q d a => Sys2Proof.Machine.execBrevV q d a s
  | .brevG q d a => Sys2Proof.Machine.execBrevG q d a s
  | .bfxZV q d a b => Sys2Proof.Machine.execBfxZV q d a b s
  | .bfxSV q d a b => Sys2Proof.Machine.execBfxSV q d a b s
  | .bfxZG q d a b => Sys2Proof.Machine.execBfxZG q d a b s
  | .bfxSG q d a b => Sys2Proof.Machine.execBfxSG q d a b s
  | .bfiV q d a b => Sys2Proof.Machine.execBfiV q d a b s
  | .bfiG q d a b => Sys2Proof.Machine.execBfiG q d a b s
  | .icmpV q f w p a b => Sys2Proof.Machine.execIcmpV q f w p a b s
  | .icmpG q f w p a b => Sys2Proof.Machine.execIcmpG q f w p a b s
  | .movV q d a => Sys2Proof.Machine.execMovV q d a s
  | .movV64 q d a => Sys2Proof.Machine.execMovV64 q d a s
  | .movG32 q d a => Sys2Proof.Machine.execMovG32 q d a s
  | .movG64 q d a => Sys2Proof.Machine.execMovG64 q d a s
  | .selV q w p d a b => Sys2Proof.Machine.execSelV q w p d a b s
  | .selG q w p d a b => Sys2Proof.Machine.execSelG q w p d a b s
  | .psetV q f d a b => Sys2Proof.Machine.execPsetV q f d a b s
  | .psetG q f d a b => Sys2Proof.Machine.execPsetG q f d a b s
  | .psetNzV q d a w => Sys2Proof.Machine.execPsetNzV q d a w s
  | .psetNzG q d a w => Sys2Proof.Machine.execPsetNzG q d a w s
  | .movSpecialV q d sz => Sys2Proof.Machine.execMovSpecialV q d sz s
  | .movSpecialG q d sz => Sys2Proof.Machine.execMovSpecialG q d sz s
  | .moviV q d imm => Sys2Proof.Machine.execMoviV q d imm s
  | .moviG q d imm => Sys2Proof.Machine.execMoviG q d imm s
  | .brxV q a => Sys2Proof.Machine.execBrxV q a s
  | .brxG q a => Sys2Proof.Machine.execBrxG q a s
  | .retV q a => Sys2Proof.Machine.execRetV q a s
  | .retG q a => Sys2Proof.Machine.execRetG q a s
  | .leaV q sz d a b => Sys2Proof.Machine.execLeaV q sz d a b s
  | .leaG q sz d a b => Sys2Proof.Machine.execLeaG q sz d a b s
  | .callV q imm => Sys2Proof.Machine.execCallV q imm s
  | .callG q imm => Sys2Proof.Machine.execCallG q imm s
  | .braV q imm => Sys2Proof.Machine.execBraV q imm s
  | .braG q imm => Sys2Proof.Machine.execBraG q imm s
  | .fadd q d a b => Sys2Proof.Machine.execFadd q d a b s
  | .fsub q d a b => Sys2Proof.Machine.execFsub q d a b s
  | .fmul q d a b => Sys2Proof.Machine.execFmul q d a b s
  | .ffma q d a b => Sys2Proof.Machine.execFfma q d a b s
  | .fdiv q d a b => Sys2Proof.Machine.execFdiv q d a b s
  | .fmin q d a b => Sys2Proof.Machine.execFmin q d a b s
  | .fmax q d a b => Sys2Proof.Machine.execFmax q d a b s
  | .faddF64 q d a b => Sys2Proof.Machine.execFaddF64 q d a b s
  | .fsubF64 q d a b => Sys2Proof.Machine.execFsubF64 q d a b s
  | .fmulF64 q d a b => Sys2Proof.Machine.execFmulF64 q d a b s
  | .ffmaF64 q d a b => Sys2Proof.Machine.execFfmaF64 q d a b s
  | .fdivF64 q d a b => Sys2Proof.Machine.execFdivF64 q d a b s
  | .fminF64 q d a b => Sys2Proof.Machine.execFminF64 q d a b s
  | .fmaxF64 q d a b => Sys2Proof.Machine.execFmaxF64 q d a b s
  | .fsqrt q d a r => Sys2Proof.Machine.execFsqrt q d a r s
  | .frcp q d a r => Sys2Proof.Machine.execFrcp q d a r s
  | .frsq q d a r => Sys2Proof.Machine.execFrsq q d a r s
  | .fexp2 q d a r => Sys2Proof.Machine.execFexp2 q d a r s
  | .flog2 q d a r => Sys2Proof.Machine.execFlog2 q d a r s
  | .ftrigSinpi q d a r => Sys2Proof.Machine.execFtrigSinpi q d a r s
  | .ftrigCospi q d a r => Sys2Proof.Machine.execFtrigCospi q d a r s
  | .frnd q d a r => Sys2Proof.Machine.execFrnd q d a r s
  | .fsqrtF64 q d a r => Sys2Proof.Machine.execFsqrtF64 q d a r s
  | .frndF64 q d a r => Sys2Proof.Machine.execFrndF64 q d a r s
  | .fclass q w d a r => Sys2Proof.Machine.execFclass q w d a r s
  | .hfuse q h d a b => Sys2Proof.Machine.execHfuse q h d a b s
  | .fcmp q f w p a b => Sys2Proof.Machine.execFcmp q f w p a b s
  | .cvt q r d a p => Sys2Proof.Machine.execCvt q r d a p s
  | .cvtGxEncode q d a sz c => Sys2Proof.Machine.execCvtGxEncode q d a sz c s
  | .cvtGxDecode q d a c => Sys2Proof.Machine.execCvtGxDecode q d a c s
  | .dp4 q z d a b => Sys2Proof.Machine.execDp4 q z d a b s
  | .rand q f d => Sys2Proof.Machine.execRand q f d s
  | .pitch q a => Sys2Proof.Machine.execPitch q a s
  | .shfl q m d a b => Sys2Proof.Machine.execShfl q m d a b s
  | .vote q d p k => Sys2Proof.Machine.execVote q d p k s
  | .bcast q d a w => Sys2Proof.Machine.execBcast q d a w s
  | .redux q d a t o => Sys2Proof.Machine.execRedux q d a t o s
  | .scan q d a x t o => Sys2Proof.Machine.execScan q d a x t o s
  | .nzscan q d a b => Sys2Proof.Machine.execNzscan q d a b s
  | .isect q d a b => Sys2Proof.Machine.execIsect q d a b s
  | .movQueuePush q d a => Sys2Proof.Machine.execMovQueuePush q d a s
  | .movQueuePop q d => Sys2Proof.Machine.execMovQueuePop q d s
  | .cpy q d a b => Sys2Proof.Machine.execCpy q d a b s
  | .cpyr q d a b => Sys2Proof.Machine.execCpyr q d a b s
  | .ldV q sz d a b => Sys2Proof.Machine.execLdV q sz d a b s
  | .stV q sz d a b => Sys2Proof.Machine.execStV q sz d a b s
  | .ldOrdered q d a o sz => Sys2Proof.Machine.execLdOrdered q d a o sz s
  | .stOrdered q d a o sz => Sys2Proof.Machine.execStOrdered q d a o sz s
  | .atom q d a o c => Sys2Proof.Machine.execAtom q d a o c s
  | .red q d a o c => Sys2Proof.Machine.execRed q d a o c s
  | .ldt q d a t r k => Sys2Proof.Machine.execLdt q d a t r k s
  | .stt q d a t r k => Sys2Proof.Machine.execStt q d a t r k s
  | .movSlicePush q d a t r k => Sys2Proof.Machine.execMovSlicePush q d a t r k s
  | .movSlicePop q a t r k => Sys2Proof.Machine.execMovSlicePop q a t r k s
  | .movSliceToV q d a t r k => Sys2Proof.Machine.execMovSliceToV q d a t r k s
  | .movVToSlice q d a t r k => Sys2Proof.Machine.execMovVToSlice q d a t r k s
  | .nop q => Sys2Proof.Machine.execNop q s
  | .exit q => Sys2Proof.Machine.execExit q s
  | .trap q n => Sys2Proof.Machine.execTrap q n s
  | .eret q => Sys2Proof.Machine.execEret q s
  | .yield q => Sys2Proof.Machine.execYield q s
  | .fence q o => Sys2Proof.Machine.execFence q o s
  | .wbaseImm q c => Sys2Proof.Machine.execWbaseImm q c s
  | .wbaseReg q a => Sys2Proof.Machine.execWbaseReg q a s
  | .qpoll q p a => Sys2Proof.Machine.execQpoll q p a s
  | .spawn q d a b => Sys2Proof.Machine.execSpawn q d a b s
  | .join q => Sys2Proof.Machine.execJoin q s
  | .allocHeap q d a => Sys2Proof.Machine.execAllocHeap q d a s
  | .allocLog q d a => Sys2Proof.Machine.execAllocLog q d a s
  | .rdecl q a n => Sys2Proof.Machine.execRdecl q a n s
  | .rview q d n => Sys2Proof.Machine.execRview q d n s
  | .ctlrd q d sz => Sys2Proof.Machine.execCtlrd q d sz s
  | .ctlrdFflags q d => Sys2Proof.Machine.execCtlrdFflags q d s
  | .ctlwr q a sz => Sys2Proof.Machine.execCtlwr q a sz s
  | .ctlwrFflags q a => Sys2Proof.Machine.execCtlwrFflags q a s
  | .ctlwrLfm q a => Sys2Proof.Machine.execCtlwrLfm q a s
  | .ctlwrRepc q a => Sys2Proof.Machine.execCtlwrRepc q a s
  | .ctlwrTmr q a => Sys2Proof.Machine.execCtlwrTmr q a s
  | .ctlwrAlarm q a => Sys2Proof.Machine.execCtlwrAlarm q a s
  | .bara q d n => Sys2Proof.Machine.execBara q d n s
  | .barw q a n => Sys2Proof.Machine.execBarw q a n s
  | .barm q a n => Sys2Proof.Machine.execBarm q a n s
  | .bbinit q a b => Sys2Proof.Machine.execBbinit q a b s
  | .bbexp q a b => Sys2Proof.Machine.execBbexp q a b s
  | .bbarr q a b => Sys2Proof.Machine.execBbarr q a b s
  | .bbwait q a b => Sys2Proof.Machine.execBbwait q a b s
  | .ckinit q a n => Sys2Proof.Machine.execCkinit q a n s
  | .ckres q d c n => Sys2Proof.Machine.execCkres q d c n s
  | .ckpub q a c n => Sys2Proof.Machine.execCkpub q a c n s
  | .ckacq q d c n => Sys2Proof.Machine.execCkacq q d c n s
  | .ckrel q a c n => Sys2Proof.Machine.execCkrel q a c n s
  | .wait q a b => Sys2Proof.Machine.execWait q a b s
  | .abeg q a => Sys2Proof.Machine.execAbeg q a s
  | .acom q o => Sys2Proof.Machine.execAcom q o s
  | .cpyt q d a b => Sys2Proof.Machine.execCpyt q d a b s
  | .tsrf q => Sys2Proof.Machine.execTsrf q s
  | .trig q p a => Sys2Proof.Machine.execTrig q p a s
  | .ldG q sz d a b => Sys2Proof.Machine.execLdG q sz d a b s
  | .stG q sz d a b => Sys2Proof.Machine.execStG q sz d a b s
  | .mma q a b c d => Sys2Proof.Machine.execMma q a b c d s
  | .mmag q a b c d => Sys2Proof.Machine.execMmag q a b c d s
  | .mmav q a b c d => Sys2Proof.Machine.execMmav q a b c d s
  | .msca q a c d => Sys2Proof.Machine.execMsca q a c d s
  | .mzero q c => Sys2Proof.Machine.execMzero q c s
  | .mdrn q a c d => Sys2Proof.Machine.execMdrn q a c d s
  | .limm imm => Sys2Proof.Machine.execLimm imm s
  | .rep n m sz g => Sys2Proof.Machine.execRep n m sz g s
  | .pageRequest => Sys2Proof.Machine.execPageRequest s
  | .thermalHalt => Sys2Proof.Machine.execThermalHalt s
  | .tapRebind => Sys2Proof.Machine.execTapRebind s
  | .waitSignalTimeout => Sys2Proof.Machine.execWaitSignalTimeout s
  | .completionSignal => Sys2Proof.Machine.execCompletionSignal s
  | .launchEnd => Sys2Proof.Machine.execLaunchEnd s
  | .taskCompletionReport => Sys2Proof.Machine.execTaskCompletionReport s
  | .joinComplete => Sys2Proof.Machine.execJoinComplete s
  | .rootViewFold => Sys2Proof.Machine.execRootViewFold s
  | .deferredAddApply => Sys2Proof.Machine.execDeferredAddApply s
  | .trapEntry => Sys2Proof.Machine.execTrapEntry s
  | .timer => Sys2Proof.Machine.execTimer s
  | .alarm => Sys2Proof.Machine.execAlarm s
  | .grpAbsent => Sys2Proof.Machine.execGrpAbsent s

end Sys2Proof.Machine
end

