-- ==== Sys2Proof/Machine/Images.lean ====
section
/-! DEFINITION. What happens to images and to the device's records behind the back of a launch: a whole partition swapped out and in,
images moved and altered by software, records of the arena stored to by the program (01 R18, 09 R171, 13 R263 to R265). -/
namespace Sys2Proof.Machine
open Host

/-! ## A whole partition out and in (01 R18, 13 R263) -/

/-- The number the image of a launch's partition stands under. -/
def partitionRef : Nat := 2 ^ 66
/-- The launches of a launch's partition. -/
def State.partition (s : State) (j : Job) : List Job := (s.jobs.map Prod.snd).filter (fun k => k.field 0 1 == 1 && k.dies == j.dies)
/-- Whether a launch may leave its partition now: it runs, is not COR, and its engine operations have arrived (02 R44, 10 R210). -/
def State.swappable (s : State) (j : Job) : Bool :=
  j.running && !j.cor && s.ops.all (fun o => !o.moves j.id) && !(j.armed.any Armed.fired)
/-- Every team, engine context and task of a launch is saved, each as a part of its partition image. The image itself holds what they
share: trigger counters, launch barriers, the remap table, deque entries, deferred adds and race records. Its contexts keep their clusters:
none of another launch takes one in their absence (11 R215, 13 R263, log 40). -/
def State.partitionOut (s : State) (j : Job) : State :=
  let held := (j.engines.filter (fun e => e.2.resident)).map Prod.fst
  let s1 := held.foldl (fun t c => match look t.jobs j.id with
    | some k => (t.clusterOut k c).getD t
    | none => t) s
  let s2 := ((s1.teams.map Prod.snd).filter (fun t => t.job == j.id && t.resident)).foldl (fun t m => match look t.jobs j.id with
    | some k => t.teamOut k m.idx
    | none => t) s1
  let s3 := (s2.allGroups.filter (fun g => g.kind == .task && g.job == j.id && g.resident && !g.done)).foldl (fun t g => t.taskOut j g.gid) s2
  (s3.onJob j.id (fun k => held.foldl (fun k c => k.setContext c true) { k with phase := .swapped })).addImage j partitionRef .partition
    (j.cores.headD 0)
/-- The partition image comes back: its launch goes on, its contexts with their teams are on their clusters again, or all of it stays away
where they do not fit; its other parts return to their cores as room frees there (13 R262, R263); a header the part cannot meet ends the
launch with FEATURE (13 R265). -/
def State.partitionIn (s : State) (j : Job) : State :=
  if !s.restorable j.id partitionRef then s.stopJob j.id 3 else
  ((j.engines.filter (fun e => e.2.resident)).foldl (fun o e => o.bind (fun t => (look t.jobs j.id).bind (fun k => t.clusterBack k e.1)))
    (some ((s.onJob j.id (fun k => { k with phase := .running })).dropImage j.id partitionRef))).getD s
/-- The launches of a whole partition leave it together, once every one that runs may, or those that are away come back (01 R18). -/
def State.swap (s : State) (job : Nat) : State :=
  match look s.jobs job with
  | none => s
  | some j =>
    let l := s.partition j
    if j.phase = .swapped then (l.filter (fun k => k.phase == .swapped)).foldl State.partitionIn s
    else if j.running && (l.filter Job.running).all s.swappable then (l.filter Job.running).foldl State.partitionOut s
    else s

/-! ## Values that may have been altered -/

/-- A word of a record that may have been altered: its own, or any value. -/
def State.anyWord (s : State) (n : Nat) (x : W64) : W64 := if s.pick (2 ^ 51 + n) 2 = 0 then x else Config.anyValue s.tick n
/-- A number below a bound that may have been altered. -/
def State.anyNat (s : State) (n x bound : Nat) : Nat := (s.anyWord n (BitVec.ofNat 64 x)).toNat % max 1 bound
/-- The first `n` numbers of a store, each of which may have been altered. -/
def State.anyCells {w : Nat} (s : State) (base n : Nat) (c : Cells w) : Cells w :=
  (List.range n).foldl (fun c k => c.set k ((s.anyWord (base + k) ((c.get k).zeroExtend 64)).truncate w)) c
/-- `n` bytes at a location, each word of 4 of which may have been altered. -/
def State.anyBytes (s : State) (base loc n : Nat) : State :=
  s.store loc ((List.range (n / 4)).flatMap (fun k => leBytes 4 (s.anyNat (base + k) (s.natAt (loc + 4 * k) 4) (2 ^ 32))))
/-- A location the launch may write, any of them. -/
def State.freshPlace (s : State) (j : Job) (n : Nat) : Option Nat :=
  match s.translate j.root ((Config.anyValue s.tick n).toNat % (511 * 2 ^ 48)) with
  | some p => if p.w ∧ p.attr < 2 ∧ !s.isMmio p.pa then some p.pa else none
  | none => none
/-- A location that a record names: its own, or any the launch may write (09 R171, log 41). -/
def State.anyPlace (s : State) (j : Job) (n loc : Nat) : Nat := if s.pick (2 ^ 51 + n) 2 = 0 then loc else (s.freshPlace j n).getD loc

/-! ## Images moved and altered by software (13 R264)

An altered body restores to any state of what it holds. -/

/-- A split table of any entries; one that was free stays so without lanes. -/
def State.anySplits (s : State) (w : Nat → W64 → W64) (l : List Split) : List Split :=
  (List.range 4).filterMap (fun e =>
    let old := l.find? (fun p => p.entry == e)
    let p := old.getD ⟨e, 0#64, 0#32, .ready, none, false, 0, 0, false⟩
    let mask : W32 := (w e (p.mask.zeroExtend 64)).truncate 32
    if old.isNone ∧ mask = 0#32 then none else
    some { p with
      mask, pc := w (4 + e) p.pc &&& 0x01FFFFFFFFFFFFFC#64
      st := match (w (8 + e) 0#64).toNat % 5 with
        | 0 => p.st | 1 => .ready | 2 => .parked | 3 => .blocked .monitor s.time | _ => .blocked .phase s.time })
/-- A split stack of any depth and paths. -/
def State.anyStack (w : Nat → W64 → W64) (l : List Path) : List Path :=
  (List.range ((w 0 (BitVec.ofNat 64 l.length)).toNat % 17)).map (fun i =>
    let p := l.getD i ⟨0#64, 0#32⟩
    ⟨w (2 * i + 1) p.pc &&& 0x01FFFFFFFFFFFFFC#64, (w (2 * i + 2) (p.mask.zeroExtend 64)).truncate 32⟩)
/-- Lane reports of any number up to three, one for each lane code. -/
def anyReports (w : Nat → W64 → W64) (l : List Pend) : List Pend :=
  l.filter (fun p => p.cls != 2 || !(w p.code 0#64).getLsbD 0) ++
  [0x21, 0x22, 0x23].filterMap (fun c =>
    if (w (64 + c) 0#64).getLsbD 0 then
      some ⟨2, c, (w (128 + c) 0#64).toNat % 32, w (192 + c) 0#64, w (256 + c) 0#64, (w (320 + c) 0#64).toNat % 4, w (384 + c) 0#64,
        w (448 + c) 0#64, 0#64, 0#64, false⟩ else none)
/-- A monitor that may have been altered: its own, none, or one of any word of 8 bytes that the launch may write, or of a scratchpad word of
the group's team. -/
def State.anyMonitor (s : State) (j : Job) (g : Group) (n : Nat) : Option Monitor :=
  let base := scratchLoc g.job g.team 0
  let m := g.monitor.getD ⟨0, base, s.hist.length, false⟩
  let loc := if s.anyNat (n + 3) 0 2 = 0 then s.anyPlace j (n + 2) m.loc / 8 * 8 else base + 8 * s.anyNat (n + 4) 0 (2 ^ 16)
  let new : Monitor := { m with split := s.anyNat (n + 1) m.split 4, loc, fired := s.anyNat (n + 5) (if m.fired then 1 else 0) 2 == 1 }
  match s.anyNat n 0 3 with
  | 0 => g.monitor.map (fun _ => new)
  | 1 => none
  | _ => some new
/-- Reducer views of a strand that may have been altered: its own, or up to sixteen of any declared reducers, at any places in the fold order
and at any addresses a view may have. -/
def State.anyViewList (s : State) (j : Job) (g : Group) (n : Nat) (l : List View) : List View :=
  if s.anyNat n 0 2 = 0 ∨ j.redDescs = [] then l else
  (List.range (s.anyNat (n + 1) 0 17)).map (fun i =>
    let m := n + 8 * (i + 1)
    let d := j.redDescs.getD (s.anyNat m 0 j.redDescs.length) (0, [])
    let va := match s.anyNat (m + 1) 0 3 with
      | 0 => 0
      | 1 => 0x1FF * 2 ^ 48 + 64 * s.anyNat (m + 2) 0 (2 ^ 13)
      | _ => s.viewRegion j + 64 * s.anyNat (m + 3) 0 (s.arenaSize j 40 / 64)
    ⟨d.1, s.anyNat (m + 4) g.seg (2 ^ 32), BitVec.ofNat 64 va, redSize d.2, 2 ^ 160 * (s.tick + 1) + n + i⟩)
/-- A group whose image may have been altered: everything of 03 R65 takes any value. -/
def State.anyGroup (s : State) (g : Group) : Group :=
  let n := 2 ^ 64 + 2 ^ 16 * g.gid
  let w := fun k x => s.anyWord (n + k) x
  let j := (look s.jobs g.job).getD Job.blank
  { g with
    v := s.anyCells n (32 * g.allot) g.v
    g := (s.anyCells (n + 2 ^ 15) 96 g.g).set 0 0#64
    wbase := 32 * (s.anyNat (n + 32900) (g.wbase / 32) (g.allot / 32))
    p1 := (w 33000 (g.p1.zeroExtend 64)).truncate 32, p2 := (w 33001 (g.p2.zeroExtend 64)).truncate 32
    p3 := (w 33002 (g.p3.zeroExtend 64)).truncate 32
    gp1 := (w 33003 ((BitVec.ofBool g.gp1).zeroExtend 64)).getLsbD 0, gp2 := (w 33004 ((BitVec.ofBool g.gp2).zeroExtend 64)).getLsbD 0
    gp3 := (w 33005 ((BitVec.ofBool g.gp3).zeroExtend 64)).getLsbD 0
    pdh := w 33006 g.pdh, pdl := w 33007 g.pdl
    cycAcc := s.anyNat (n + 33008) g.cycAcc (2 ^ 64)
    fpmode := w 33009 g.fpmode &&& 7#64, fflags := w 33010 g.fflags &&& 63#64, lfm := w 33011 g.lfm &&& 0x1FFFFFFFFFF#64, repc := w 33012 g.repc
    tmr := w 33013 g.tmr, alarm := w 33014 g.alarm, trapvec := w 33015 g.trapvec &&& 0x01FFFFFFFFFFFFFC#64
    trapinfo := w 33016 g.trapinfo, gtimeout := w 33017 g.gtimeout &&& 0xFFFFFFFF#64
    off := (w 33018 (g.off.zeroExtend 64)).truncate 32, children := s.anyNat (n + 33019) g.children (2 ^ 32)
    splits := s.anySplits (fun k x => w (33100 + k) x) g.splits
    stack := State.anyStack (fun k x => w (33120 + k) x) g.stack
    monitor := s.anyMonitor j g (n + 33020)
    pend := anyReports (fun k x => w (33200 + k) x) g.pend }

/-- A strand saved with its views, which belong to the team and are any too (03 R65, 13 R263). -/
def State.anyStrand (s : State) (g : Group) : Group :=
  let n := 2 ^ 64 + 2 ^ 16 * g.gid
  let j := (look s.jobs g.job).getD Job.blank
  { s.anyGroup g with views := s.anyViewList j g (n + 33300) g.views, childViews := s.anyViewList j g (n + 33600) g.childViews }
/-- The bytes of views that may have been altered. -/
def State.anyViews (s : State) (l : List View) : State :=
  l.foldl (fun t v => t.anyBytes (2 ^ 96 + 2 ^ 12 * v.key) (viewLoc v.key 0) v.size) s

/-- A cask whose geometry, counters and slot states may have been altered (10 R202, R203). -/
def State.anyCask (s : State) (n : Nat) (c : Cask) : Cask :=
  let slots := 1 + s.anyNat n (c.slots - 1) 256
  let state := fun i => match s.anyNat (n + 16 + i) 0 6 with
    | 1 => SlotState.free | 2 => .reserved | 3 => .filled | 4 => .acquired | 5 => .staged | _ => c.st.getD i .free
  { base := 64 * s.anyNat (n + 1) (c.base / 64) (2 ^ 13), slots, slotB := 64 * s.anyNat (n + 2) (c.slotB / 64) (2 ^ 12)
    rp := s.anyNat (n + 3) c.rp slots, ap := s.anyNat (n + 4) c.ap slots, st := (List.range slots).map state
    failed := (List.range slots).filterMap (fun i => match s.anyNat (n + 512 + i) 0 9 with
      | 0 => c.failed.find? (fun f => f.1 == i)
      | 8 => none
      | k => some (i, k)) }

/-- A team whose image may have been altered: its groups, scratchpad, team barriers, views, and casks, any of the packet's (13 R263). -/
def State.anyTeam (s : State) (j : Job) (t : Team) : State :=
  let n := 2 ^ 128 + 2 ^ 24 * t.idx
  let s1 := s.mapGroups (fun g => if g.inTeam j.id t.idx then s.anyStrand g else g)
  let s2 := s1.anyBytes n (scratchLoc j.id t.idx 0) t.bytes
  let s3 := s2.anyViews ((s1.allGroups.filter (fun g => g.inTeam j.id t.idx)).flatMap Group.allViews)
  let m := n + 2 ^ 20
  s3.putTeam { t with
    bars := (List.range 16).map (fun k =>
      let b := t.bar k
      (k, ⟨BitVec.ofNat 16 (s.anyNat (m + 4 * k) b.mask.toNat (2 ^ 16)), BitVec.ofNat 16 (s.anyNat (m + 4 * k + 1) b.arrived.toNat (2 ^ 16)),
        s.anyWord (m + 4 * k + 2) b.gen⟩))
    casks := (List.range j.casks).filterMap (fun c =>
      let old := look t.casks c
      if s.anyNat (m + 512 + c) (if old.isSome then 1 else 0) 2 = 0 then none
      else some (c, s.anyCask (m + 1024 * (c + 1)) (old.getD ⟨0, 1, 64, 0, 0, [.free], []⟩))) }

/-- A partial-sum bank that may have been altered (11 R213). -/
def State.anyBank (s : State) (n : Nat) (b : Bank) : Bank :=
  { valid := s.anyNat n (if b.valid then 1 else 0) 2 == 1, tag := s.anyNat (n + 1) b.tag 3, m := s.anyNat (n + 2) b.m 33
    n := s.anyNat (n + 3) b.n 513, flags := s.anyNat (n + 4) b.flags 64, words := s.anyCells (n + 16) (32 * 512) b.words }
/-- A queue of slices that may have been altered (03 R53). -/
def State.anySlices (s : State) (n : Nat) (l : List Slice) (most : Nat) : List Slice :=
  (List.range (s.anyNat n l.length (most + 1))).map (fun i => (List.range 32).map (fun k =>
    BitVec.ofNat 32 (s.anyNat (n + 1 + 32 * i + k) ((l.getD i []).getD k 0#32).toNat (2 ^ 32))))
/-- An engine context whose image may have been altered (11 R232). -/
def State.anyEngine (s : State) (n : Nat) (e : Engine) : Engine :=
  { e with
    abuf := s.anyCells n (2 ^ 18) e.abuf, bank0 := s.anyBank (n + 2 ^ 18) e.bank0, bank1 := s.anyBank (n + 2 ^ 18 + 2 ^ 15) e.bank1
    acc := s.anyCells (n + 2 ^ 19) (256 * 512) e.acc
    flags := (List.range 8).foldl (fun c k => c.set k (BitVec.ofNat 8 (s.anyNat (n + 2 ^ 20 + k) (c.get k).toNat 64))) e.flags
    mqa := s.anySlices (n + 2 ^ 20 + 2 ^ 10) e.mqa 16, mqb := s.anySlices (n + 2 ^ 20 + 2 ^ 11) e.mqb 16
    mqo := s.anySlices (n + 2 ^ 20 + 2 ^ 12) e.mqo 16, mqs := s.anySlices (n + 2 ^ 20 + 2 ^ 13) e.mqs 16
    progress := s.anyNat (n + 2 ^ 20) e.progress (2 ^ 16), taken := s.anySlices (n + 2 ^ 21) e.taken (2 ^ 11) }

/-! ## Records of the arena and of partition images -/

/-- A deque entry that may have been altered: every field of 02 R29; it stays one of its launch. -/
def State.anyEntry (s : State) (j : Job) (n : Nat) (e : TaskEntry) : TaskEntry :=
  let w := fun k x => s.anyWord (n + k) x
  { e with
    parent := s.anyNat (n + 9) e.parent (2 ^ 64), rank := s.anyNat (n + 10) e.rank (2 ^ 32), team := s.anyNat (n + 11) e.team j.teamCount
    grp := s.anyNat (n + 12) e.grp j.perTeam, lcore := s.anyNat (n + 13) e.lcore j.logical
    pc := w 0 e.pc &&& 0x01FFFFFFFFFFFFFC#64, arg := w 1 e.arg, heap := w 2 e.heap, heapEnd := w 3 e.heapEnd, log := w 4 e.log
    logEnd := w 5 e.logEnd, pdh := w 6 e.pdh, pdl := w 7 e.pdl, fpmode := w 8 e.fpmode &&& 7#64 }
/-- A width of 4 or 8 bytes that may have been altered. -/
def State.anyWidth (s : State) (n x : Nat) : Nat := if s.anyNat n (x / 8) 2 = 0 then 4 else 8
/-- A deferred add that may have been altered: every field of 09 R180. -/
def State.anyAdd (s : State) (j : Job) (n : Nat) (a : DefAdd) : DefAdd :=
  { loc := s.anyPlace j n a.loc, width := s.anyWidth (n + 1) a.width, operand := s.anyWord (n + 2) a.operand, pdh := s.anyWord (n + 3) a.pdh
    pdl := s.anyWord (n + 4) a.pdl, lane := s.anyNat (n + 5) a.lane 32, sq := s.anyNat (n + 6) a.sq (2 ^ 32) }
/-- A partial sum that may have been altered: every field of 09 R184. -/
def State.anyPartial (s : State) (j : Job) (n : Nat) (p : Partial) : Partial :=
  { team := s.anyNat n p.team (2 ^ 32), loc := s.anyPlace j (n + 1) p.loc, width := s.anyWidth (n + 2) p.width, sum := s.anyWord (n + 3) p.sum }
/-- Records that may have been altered, each by `f` under a number of its own; where a whole image may have been, any of them are missing and
up to a bound there are new ones, of `fresh` where the launch may write a place. -/
def State.anyRecords {α : Type} (s : State) (j : Job) (n more : Nat) (fresh : Nat → α) (f : Nat → α → α) (l : List α) : List α :=
  (l.zipIdx.filter (fun p => decide (more = 0) || s.anyNat (n + 2 ^ 40 + p.2) 0 2 == 0)).map (fun p => f (n + 16 * p.2) p.1) ++
  (List.range (s.anyNat (n + 2 ^ 41) 0 (more + 1))).filterMap (fun i =>
    (s.freshPlace j (n + 2 ^ 42 + i)).map (fun x => f (n + 2 ^ 43 + 16 * i) (fresh x)))
/-- The deferred adds and partial sums of a launch that may have been altered, with up to a number of new ones; what they name may end with
any value (09 R171). -/
def State.anyAdds (s : State) (j : Job) (more : Nat) : Job :=
  let n := 2 ^ 160
  let adds := s.anyRecords j n more (fun x => ⟨x, 4, 0, 0, 0, 0, 0⟩) (s.anyAdd j) j.adds
  let sums := s.anyRecords j (n + 2 ^ 50) more (fun x => ⟨0, x, 4, 0⟩) (s.anyPartial j) j.partials
  { j with
    adds, partials := sums
    wild := (j.wild ++ (j.adds ++ adds).map (fun a => (a.loc, a.width)) ++ (j.partials ++ sums).map (fun p => (p.loc, p.width))).eraseDups }
/-- A race record that may have been altered (09 R186). -/
def State.anyRace (s : State) (j : Job) (n : Nat) (r : Nat × W64 × W64) : Nat × W64 × W64 :=
  (s.anyPlace j n (8 * r.1) / 8, s.anyWord (n + 1) r.2.1, s.anyWord (n + 2) r.2.2)
/-- The race records of a launch that may have been altered, in the same way. -/
def State.anyRaces (s : State) (j : Job) (more : Nat) : Job :=
  let races := s.anyRecords j (2 ^ 160 + 2 ^ 64) more (fun x => (x / 8, 0, 0)) (s.anyRace j) j.races
  { j with races, wild := (j.wild ++ (j.races ++ races).map (fun r : Nat × W64 × W64 => (8 * r.1, 8))).eraseDups }
/-- The deque entries of a launch that may have been altered, those of each deque from a place on. -/
def State.anyDeques (s : State) (j : Job) (first : Nat) : State :=
  { s with deques := s.deques.map (fun d => (d.1, d.2.zipIdx.map (fun p =>
      if p.1.job = j.id ∧ first ≤ p.2 then s.anyEntry j (2 ^ 161 + 2 ^ 40 * d.1 + 16 * p.2) p.1 else p.1))) }
/-- The deque of a core as a partition image may hold it: any of the launch's entries missing, up to 2^20 new ones. -/
def State.anyDeque (s : State) (j : Job) (core : Nat) : List TaskEntry :=
  let n := 2 ^ 161 + 2 ^ 60 * (core + 1)
  (s.deque core).zipIdx.filterMap (fun p =>
    if p.1.job ≠ j.id then some p.1
    else if s.anyNat (n + p.2) 0 2 = 1 then none else some (s.anyEntry j (n + 2 ^ 40 + 16 * p.2) p.1)) ++
  (List.range (s.anyNat (n + 2 ^ 50) 0 (2 ^ 20))).map (fun i =>
    s.anyEntry j (n + 2 ^ 51 + 16 * i) ⟨j.id, 0, 0, 0, 0, 0, 0, 0, 0, 0, 0, 0, 0, 0, 0, false⟩)
/-- An entry of the remap table that may have been altered: any core of the partition or none, any team or none (02 R27). -/
def State.anyLcore (s : State) (j : Job) (n : Nat) (l : LCore) : LCore :=
  { core := match s.anyNat n 0 3 with | 0 => l.core | 1 => none | _ => j.cores[s.anyNat (n + 1) 0 j.cores.length]?
    team := match s.anyNat (n + 2) 0 3 with | 0 => l.team | 1 => none | _ => some (s.anyNat (n + 3) 0 j.teamCount)
    rounds := s.anyNat (n + 4) l.rounds (2 ^ 32) }
/-- What a partition image adds may have been altered: trigger counters, launch barriers, the remap table, deque entries, deferred adds and
race records (13 R263). -/
def State.anyPartition (s : State) (j : Job) : State :=
  let n := 2 ^ 162
  let k := s.anyRaces (s.anyAdds j (2 ^ 20)) (2 ^ 20)
  { s.putJob { k with
    ctrs := s.anyCells n 2048 k.ctrs
    bars := (List.range 64).map (fun i =>
      let b := k.bar i
      let m := n + 4096 + 4 * i
      (i, ⟨BitVec.ofNat 48 (s.anyNat m b.count.toNat (2 ^ 48)), BitVec.ofNat 48 (s.anyNat (m + 1) b.arrived.toNat (2 ^ 48)), s.anyWord (m + 2) b.gen⟩))
    lcores := (List.range k.logical).map (fun l => (l, s.anyLcore j (n + 8192 + 8 * l) (k.lcoreOf l))) } with
    deques := s.deques.filter (fun d => !j.cores.contains d.1) ++ j.cores.map (fun c => (c, s.anyDeque j c)) }

/-- Software alters the body of an image: what it holds restores to any state (13 R264, log 40). -/
def State.alter (s : State) (job ref : Nat) : State :=
  match look s.jobs job, s.imageOf job ref with
  | some j, some m =>
    (match m.kind with
     | .group =>
       if parentRef 0 ≤ ref then s.mapGroups (fun g => if g.gid = ref - parentRef 0 ∧ g.job = job ∧ !g.resident then s.anyGroup g else g)
       else
         let gid := ref - taskRef 0
         let t := s.mapGroups (fun g => if g.gid = gid ∧ g.job = job ∧ !g.resident then s.anyStrand g else g)
         t.anyViews (((t.groupOf gid).map Group.allViews).getD [])
     | .team => s.anyTeam j (s.teamOf job ref)
     | .context =>
       let c := ref - contextRef 0
       (s.mapGroups (fun g => if g.isSeq job c then s.anyGroup g else g)).putJob
         { j with engines := put j.engines c (s.anyEngine (2 ^ 163 + 2 ^ 24 * c) (j.engine c)) }
     | .partition => s.anyPartition j)
  | _, _ => s
/-- Software moves an image whole to the kiln of a cluster or to HBM; an image of IMGB stays in the arena (13 R264). -/
def State.moveImage (s : State) (job ref : Nat) (place : ImagePlace) : State :=
  let there := match place with | .kiln c => s.hasKiln && decide (c < 12 * s.dies) | .hbm => true | .imgb => false
  if there then { s with images := s.images.map (fun m => if m.job = job ∧ m.team = ref ∧ m.place ≠ .imgb then { m with place } else m) } else s

/-! ## Stores of a program to device-owned regions (09 R171) -/

/-- The home locations that a view's elements fold into. -/
def State.viewHomes (s : State) (j : Job) (v : View) : List (Nat × Nat) :=
  let b := (look j.redDescs v.red).getD []
  let w := groupWidth (redType b)
  (List.range (redSize b / max 1 w)).filterMap (fun k => (s.translate j.root (redBase b + k * w)).map (fun p => (p.pa, w)))
/-- The locations that altered records name take any value. -/
def State.anyNamed (s : State) (j : Job) : State :=
  j.wild.zipIdx.foldl (fun t p => t.storeNat p.1.1 p.1.2 (s.anyNat (2 ^ 164 + p.2) (s.natAt p.1.1 p.1.2) (2 ^ 64))) s
/-- The records of a launch in a device-owned region take any value once the region has been stored to, and so does what they name, until
the launch ends (09 R171): deque entries beyond the newest 256, deferred adds and partial sums, race records, views in the view region,
suspended parents. -/
def State.spoil (s : State) (id k : Nat) : State :=
  match look s.jobs id with
  | none => s
  | some j =>
    if !s.spoilt j k then s else
    match k with
    | 16 => s.anyDeques j 256
    | 24 => let t := s.anyNamed j; t.putJob (s.anyAdds j 0)
    | 32 => let t := s.anyNamed j; t.putJob (s.anyRaces j 0)
    | 40 =>
      let l := (s.liveViews j).filter (fun v => !v.inWindow && v.va != 0#64)
      ((s.anyNamed j).anyViews l).putJob { j with wild := (j.wild ++ l.flatMap (s.viewHomes j)).eraseDups }
    | 48 => s.mapGroups (fun g => if g.job = id ∧ g.away then s.anyGroup g else g)
    | _ => s

end Sys2Proof.Machine
end

