-- ==== Sys2Proof/Machine/Turns.lean ====
section
/-! DEFINITION. What the device does where the agenda names nobody, and the smallest launch that runs one word (log 4). -/
namespace Sys2Proof.Machine
open Host

/-! ## Default turns -/

/-- A turn of the device: one nanosecond and one cycle. -/
def turnOf (job gid : Nat) (i : Instr) : Turn := ⟨1, 1, job, gid, .event i⟩
/-- Events of a queue. -/
def queueTurns (n : Nat) : List Turn :=
  [.packetRead n, .headPublish n, .launchPacket n, .copyPacket n, .waitSignalPacket n, .setSignalPacket n].map (turnOf 0 0)
/-- The core offered to the next team of a launch: with a sequencer entry its own, else one of the device's choice, or the first with room. -/
def State.offeredCore (s : State) (j : Job) : Nat :=
  if j.sequenced then j.seqCore (j.nextTeam % max 1 j.logical) else
  let core := j.cores.getD (s.pick (2 ^ 41 + j.id) j.cores.length) 0
  if s.teamFits j core then core else (j.cores.find? (fun c => s.teamFits j c)).getD core
/-- Events of a packet: its end, its next team, its waiting engine contexts. -/
def State.jobTurns (s : State) (j : Job) : List Turn :=
  let ends : List Instr := [.launchEnd, .completionSignal, .rootViewFold, .deferredAddApply, .waitSignalTimeout]
  let next : List Instr := if j.nextTeam < j.teamCount then [.teamDispatch j.id (s.offeredCore j)] else []
  let contexts : List Instr := (j.engines.filter (fun e : Nat × Engine => !e.2.resident)).map (fun e => .engineContextSwitch j.id e.1)
  (ends ++ next ++ contexts).map (turnOf j.id 0)
/-- The turn of an act of the device that is no event of the manual's tables. -/
def actOf (a : Act) : Turn := ⟨1, 1, 0, 0, a⟩
/-- A team or task that has left its core is offered a core that holds it (13 R262). -/
def State.restoreTurns (s : State) : List Turn :=
  s.images.filterMap (fun m =>
    match look s.jobs m.job with
    | none => none
    | some j =>
      let fits := fun core => if m.team < 2 ^ 32 then s.teamReturns j m.team core
        else ((s.groupOf (m.team - 2 ^ 32)).map (fun g => s.room core 1 g.allot g.windowBytes)).getD false
      if contextRef 0 ≤ m.team then none
      else if j.sequenced ∧ m.team < 2 ^ 32 then none
      else (j.cores.find? fits).map (fun c => turnOf j.id 0 (.restore j.id m.team c)))
/-- A core without entries takes work of another core of its die (02 R35). -/
def State.stealTurns (s : State) : List Turn :=
  (s.deques.filter (fun d => !d.2.isEmpty)).map (fun d =>
    turnOf 0 0 (.taskSteal (96 * (d.1 / 96) + s.pick (2 ^ 45 + d.1) 96) d.1))
/-- A launch whose partition image is held is offered its partition again (13 R262). -/
def State.swapTurns (s : State) : List Turn := (s.jobs.filter (fun p => p.2.phase == .swapped)).map (fun p => actOf (.swap p.1))
/-- Elements of operations in flight, and of fired ones, that move ahead of the rest (10 R196). -/
def State.elementTurns (s : State) : List Turn :=
  s.ops.map (fun o => actOf (.element o.id (s.pick (2 ^ 44 + o.id) (max 1 o.bytes)))) ++
  s.jobs.flatMap (fun p => (p.2.armed.filter Armed.fired).map (fun a => actOf (.element a.id (s.pick (2 ^ 44 + a.id) (max 1 a.bytes)))))
/-- Events of the device's own agents that may have something to do. -/
def State.ownTurns (s : State) : List Turn :=
  (if s.tooHot then [turnOf 0 0 .thermalHalt] else []) ++
  (if s.commands.isEmpty && s.ringHead commandRing != s.ringTail commandRing then [actOf .ring] else []) ++
  (if s.reqs.any (fun r => !r.sent) then [turnOf 0 0 .pageRequest] else []) ++
  (if s.queues.any (fun p => s.pending p.2) then [turnOf 0 0 .tapRebind] else []) ++
  (s.queues.filter (fun p => s.pending p.2 || p.2.publish || !p.2.started.isEmpty)).flatMap (fun p => queueTurns p.1) ++
  s.jobs.flatMap (fun p => s.jobTurns p.2) ++ s.swapTurns ++ s.restoreTurns ++
  s.ops.map (fun o => turnOf o.job 0 (.engineArrival o.id)) ++
  s.jobs.flatMap (fun p => (p.2.armed.filter Armed.fired).map (fun a => turnOf p.1 0 (.triggeredOpComplete a.id))) ++ s.elementTurns ++
  (s.deques.filter (fun d => !d.2.isEmpty)).map (fun d => turnOf 0 0 (.taskStart d.1)) ++ s.stealTurns ++
  (s.allGroups.filter Group.done).map (fun g => turnOf g.job g.gid .taskCompletionReport) ++
  (s.allGroups.filter (fun g => g.joining && g.children == 0)).map (fun g => turnOf g.job g.gid .joinComplete)

/-- The group whose turn it is where the agenda names none: those with a split that can issue, their tables settled, take turns. -/
def State.anyTurn (s : State) : Option Turn :=
  let l := s.allGroups.filter (fun g => !(s.canIssue (if s.live g then s.settle g else g)).isEmpty)
  (l[s.tick / 2 % max 1 l.length]?).map (fun g =>
    ⟨1, 1, g.job, g.gid, if g.kind = .seq then .group g.gid 0 else .quadrant g.core (g.slot % 4)⟩)

/-- The turn taken: the head of the agenda, else by the counter of choices an issue or an event of the device. -/
def State.nextTurn (s : State) : Option Turn :=
  match s.agenda with
  | t :: _ => some t
  | [] =>
    let l := s.ownTurns
    if s.tick % 2 = 1 ∨ s.boot = .halted then l[s.tick / 2 % max 1 l.length]? else
    match s.anyTurn with
    | some t => some t
    | none => l[s.tick / 2 % max 1 l.length]?

/-- Whether nothing is left to do after a halt, launches that never started apart: the device needs a reset (14 R274). -/
def State.stuck (s : State) : Bool :=
  s.boot == .halted && s.agenda.isEmpty && s.ops.isEmpty &&
  s.jobs.all (fun p => p.2.field 0 1 == 1 && (match p.2.phase with | .ending _ => false | _ => true))

/-- The state at the start of a turn: time has passed, the agenda's head is taken, the packet in focus is set. -/
def State.begin (s : State) (t : Turn) : State :=
  { s with time := s.time + t.ns, cycles := if s.boot = .halted then s.cycles else s.cycles + t.cycles, sel := t.job, agenda := s.agenda.drop 1 }

/-! ## Acts that are no events of the tables -/

/-- An agent of another package writes that package's memory, which this one reads as memory of a package that is there (06 R113, 14 R272). -/
def State.elsewhere (s : State) (pa : Nat) (data : List Byte) : State :=
  let pk := pa / 2 ^ 44
  if pk = s.pkg ∨ 4608 ≤ pk ∨ !Config.present pk ∨ (pa + data.length) / 2 ^ 44 ≠ pk ∨ !s.assigned pa then s else s.store pa data

/-- Uncorrectable contents end a launch that is running (13 R252, R259). -/
def State.upsetEnd (s : State) (job detail : Nat) (g : Group) (source : Nat) : State :=
  match look s.jobs job with
  | some j => if j.field 0 1 = 1 ∧ j.begun then s.endJob job 1 (s.upsetRecord detail g source) else s
  | none => s

/-- Stored data becomes uncorrectable: memory is found so when it is next read, contents of a scratchpad, of registers or of engine storage
end the launch at once (13 R252, log 50). -/
def State.upset (s : State) (u : Upset) : State :=
  match u with
  | .memory k => { s with poison := (k, s.hist.length) :: s.poison.filter (fun p => p.1 != k) }
  | .scratchpad job => s.upsetEnd job 1 Group.blank 3
  | .registers gid =>
    (match s.groupOf gid with
     | some g => if g.kind = .idle then s else s.upsetEnd g.job 2 g g.source
     | none => s)
  | .engine job => s.upsetEnd job 2 Group.blank 3

/-- A home that has no room for another monitor wakes every waiter on a line (07 R147). -/
def State.crowd (s : State) (line : Nat) : State :=
  s.mapGroups (fun g => { g with monitor := g.monitor.map (fun m : Monitor => if m.loc / 128 = line then { m with fired := true } else m) })

/-- What a turn of a strand comes to; after a halt no strand issues. -/
def State.issueTurn (s : State) (f : State → Ready) : Ready := if s.boot = .halted then .done s.idle else f s

/-- What a turn comes to. -/
def State.ready (s : State) (t : Turn) : Ready :=
  match t.act with
  | .group gid entry => s.issueTurn (fun x => x.issueSplit gid entry)
  | .quadrant core quad => s.issueTurn (fun x => x.issueQuadrant core quad)
  | .event i => if isDeviceEvent i then .run i (s.focus t.gid 0) else .done s.idle
  | .ring => .done s.nextCommand
  | .element op k => .done (s.element op k)
  | .elsewhere pa data => .done (s.elsewhere pa data).idle
  | .upset u => .done (s.upset u).idle
  | .crowd line => .done (s.crowd line).idle
  | .swap job => .done (s.swap job).idle
  | .move job ref place => .done (s.moveImage job ref place).idle
  | .alter job ref => .done (s.alter job ref).idle
  | .spoil job k => .done (s.spoil job k).idle

/-! ## The smallest launch (log 8) -/

/-- Where its word lies: virtual and physical address alike. -/
def soloAddr : Nat := 0x10000
/-- Its page-table root; the two tables below follow. -/
def soloRoot : Nat := 0x3FFFD000
/-- The three entries of a leaf of 1 GiB that maps address x to x, writable and executable (06 R121). -/
def soloTables : List (Nat × Nat) :=
  [(soloRoot, soloRoot + 0x1000 + 1), (soloRoot + 0x1000, soloRoot + 0x2000 + 1), (soloRoot + 0x2000, 15)]
/-- Its packet: one team of one group, 512 registers, all of a scratchpad, a sequencer entry, 8 tiles, 16 casks, 16 reducers. -/
def soloPacket : List Byte :=
  leBytes 4 0x101 ++ leBytes 4 1 ++ leBytes 2 1 ++ leBytes 2 512 ++ leBytes 4 524288 ++ leBytes 8 soloAddr ++ leBytes 8 0 ++
  leBytes 8 0 ++ leBytes 8 0 ++ leBytes 16 0 ++ leBytes 8 soloAddr ++ leBytes 8 0 ++ leBytes 8 0 ++ leBytes 8 0x20000 ++
  leBytes 2 1 ++ leBytes 1 8 ++ leBytes 1 16 ++ leBytes 1 16 ++ leBytes 27 0
/-- The launch record with its one team dispatched on core 0. -/
def soloJob (s : State) : Job :=
  { Job.blank with
    id := s.nextId, pkt := soloPacket, root := BitVec.ofNat 64 soloRoot, dies := [0], phase := .running, born := s.time
    mark := s.hist.length, nextTeam := 1, liveTeams := 1, liveSeqs := 1, lcores := [(0, ⟨some 0, some 0, 0⟩)], engines := [(0, Engine.start)] }
/-- The strand that runs the word: the sequencer for major 0x39, else the group (04 R79). -/
def soloStrand (s : State) (seq : Bool) : Group :=
  let j := soloJob s
  { strandOf j (if seq then .seq else .root) (s.nextId + 1) 0 0 0 0 0 s.time s.cycles (BitVec.ofNat 64 soloAddr) with
    pdh := ((pedEncode [(0, 0)]).getD (0, 0)).1 }
/-- Bytes of a word of `nbits`, the rest of the instruction zero. -/
def soloBytes (nbits w : Nat) : List Byte := leBytes 4 (w % 2 ^ nbits) ++ leBytes 4 0

/-- A state with the smallest launch loaded and its strand's turn next. -/
def State.withSolo (s : State) (nbits w : Nat) : State :=
  let seq := w / 2 ^ 26 % 64 == 0x39
  let g := soloStrand s seq
  let t : Team := { Team.blank with job := s.nextId, bytes := 524288, groups := 1, live := 1, resident := true, born := s.time }
  { s with
    boot := .ready
    links := List.range 8
    mem := memPut (soloTables.foldl (fun m e => memPut m e.1 (leBytes 8 e.2)) s.mem) soloAddr (soloBytes nbits w)
    invals := s.invals ++ [⟨BitVec.ofNat 64 soloRoot, 0, 2 ^ 41, s.hist.length⟩]
    jobs := put s.jobs s.nextId (soloJob s)
    teams := put s.teams (teamKey s.nextId 0) t
    groups := put s.groups g.gid g
    nextId := s.nextId + 2
    agenda := ⟨1, 1, s.nextId, g.gid, .group g.gid 0⟩ :: s.agenda }

/-- Where the split in focus fetches next, if it is ready and nothing else is due before its next instruction. -/
def State.fetchLoc (s : State) : Option Nat :=
  if s.live s.cur ∧ s.boot ≠ .halted ∧ s.cur.splits.contains s.sp ∧ s.sp.st = .ready ∧ s.sp.rep = none ∧ s.due = none ∧
      s.sp.mask ≠ 0#32 ∧ s.sp.pc.toNat / 2 ^ 48 < 0x1FF then
    (s.translate s.job.root s.sp.pc.toNat).bind (fun p => if p.x then some p.pa else none)
  else none

end Sys2Proof.Machine
end

