-- ==== Sys2Proof/Machine/Step.lean ====
section
/-! DEFINITION. One step of the device: the turn of one agent. -/
namespace Sys2Proof.Machine
open Host

/-- Executes what an issue came to; a LIMM and the instruction behind it are one step (04 R74). -/
def runReady : Ready → Outcome State Fault Refusal
  | .done s => .next s
  | .run i s =>
    match exec i s with
    | .next t =>
      if t.limm.isSome then
        match t.partner with
        | .run k u => exec k u
        | .done u => .next u
      else .next t
    | o => o

/-- One step: the next turn is taken. -/
def step (s : State) : Outcome State Fault Refusal :=
  if s.stuck then .fault .clockStopped
  else
    match s.nextTurn with
    | none => .next (State.begin s ⟨1, 1, 0, 0, .quadrant 0 0⟩).idle
    | some t => runReady ((s.begin t).ready t)

/-- The state whose next step fetches and runs a word: the word is stored where the split in focus fetches next, with that split's turn
first; without such a split the smallest launch is loaded (notes/assumptions/8.md). -/
def State.withFetchWord (s : State) (nbits w : Nat) : State :=
  match (if w / 2 ^ 26 % 64 = 0x39 ∧ s.cur.kind ≠ .seq then none else s.fetchLoc) with
  | some pa =>
    { s with
      mem := memPut s.mem pa (soloBytes nbits w)
      jobs := put s.jobs s.cur.job { s.job with mark := s.hist.length }
      agenda := ⟨0, 0, s.cur.job, s.cur.gid, .group s.cur.gid s.split⟩ :: s.agenda }
  | none => s.withSolo nbits w

end Sys2Proof.Machine
end

