-- ==== Sys2Proof/Safety.lean ====
section
/-! DEFINITION. What claims about the machine speak of: the invariant of memory, when an instruction reaches its own effect, and
what such an instruction may change. -/
namespace Sys2Proof.Machine
open Host

/-- Memory keeps its canonical form, so that equal memories are equal data. -/
def State.Inv (s : State) : Prop := Memory.wf s.mem = true

/-- Every queue and packet has one record, a packet's and a team's stand under their own numbers, and every strand stands in one place
under a number of its own that was handed out. -/
def State.Records (s : State) : Prop :=
  (s.queues.map Prod.fst).Nodup ∧
  (s.jobs.map Prod.fst).Nodup ∧ (∀ p ∈ s.jobs, p.2.id = p.1) ∧
  (∀ p ∈ s.teams, p.1 = teamKey p.2.job p.2.idx) ∧
  (s.groups.map Prod.fst).Nodup ∧ (∀ p ∈ s.groups, p.2.gid = p.1 ∧ p.1 < s.nextId ∧ (p.2.kind = .idle ↔ p.1 = 0)) ∧
  s.cur.gid < s.nextId ∧ (s.cur.kind = .idle ↔ s.cur.gid = 0) ∧ (s.cur.kind ≠ .idle → look s.groups s.cur.gid = none)

/-- The next number of the machine names no launch yet. -/
def State.Unnamed (s : State) : Prop :=
  (∀ p ∈ s.jobs, p.1 ≠ s.nextId ∧ p.2.id ≠ s.nextId) ∧ (∀ p ∈ s.groups, p.2.job ≠ s.nextId) ∧ s.cur.job ≠ s.nextId ∧
  ∀ m ∈ s.images, m.job ≠ s.nextId

/-- What only boot, link training and the thermal halt may change: boot state, part, identity, measurements, links
(14 R267, R273, R274). -/
def State.platform (s : State) : Boot × Part × Bool × Nat × Nat × List (List Byte) × List Byte × List Nat :=
  (s.boot, s.part, s.kiln, s.tdp, s.pkg, s.measure, s.recordHash, s.links)

/-- The instruction is not rejected before its own effect: fields, agent and region admit it (04 R78, R79, 08 R158) and every
v register it names lies in the allotment (03 R47). -/
def Runs (i : Instr) (s : State) : Prop := s.admits i = true ∧ s.cur.windowOk i = true

/-- What an operand that the instruction's encoding does not show, or its agent, makes ILLEGAL_OP: a control operand of CPY or CPYR, a format
of NZSCAN, a queue move outside the groups that have queues (10 R191, R197, 20 R367, 21 R362). -/
def State.barred (s : State) (i : Instr) : Prop :=
  match i with
  | .cpy _ _ _ b => coCpyOk (s.cur.gGet b.toNat).toNat = false
  | .cpyr _ _ _ b => coCpyrOk (s.cur.gGet b.toNat).toNat = false
  | .nzscan _ _ _ b => 16 ≤ (s.cur.gGet b.toNat).toNat
  | .movQueuePush _ _ _ => s.queuesAllowed = false
  | .movQueuePop _ _ => s.queuesAllowed = false
  | .movSlicePush _ _ _ _ _ _ => s.queuesAllowed = false
  | .movSlicePop _ _ _ _ _ => s.queuesAllowed = false
  | _ => False

/-- The registers an instruction gives a new value; none where a register keeps its own. `v` names an allotment row and a lane (03 R46),
so tiles and generator rows too; `flags` is ORed into ctl.fflags. -/
structure Writes where
  v : Nat → Nat → Option W32 := fun _ _ => none
  g : Nat → Option W64 := fun _ => none
  p : Nat → Nat → Option Bool := fun _ _ => none
  gp : Nat → Option Bool := fun _ => none
  flags : W64 := 0#64

/-- Every register reads as the writes say, every other one as before. -/
def Writes.Hold (w : Writes) (s t : State) : Prop :=
  (∀ r l, l < 32 → t.cur.rowGet r l = (w.v r l).getD (s.cur.rowGet r l)) ∧
  (∀ n, t.cur.gGet n = (w.g n).getD (s.cur.gGet n)) ∧
  (∀ n l, n < 4 → l < 32 → (t.cur.pGet n).getLsbD l = (w.p n l).getD ((s.cur.pGet n).getLsbD l)) ∧
  (∀ n, n < 4 → t.cur.gpGet n = (w.gp n).getD (s.cur.gpGet n)) ∧
  t.cur.fflags = s.cur.fflags ||| w.flags

/-- vd in the lanes of a mask. -/
def toV (s : State) (d : BitVec 7) (m : W32) (f : Nat → W32) : Writes :=
  { v := fun r l => if r = s.cur.row d.toNat ∧ m.getLsbD l then some (f l) else none }
/-- The pair vd, vd+1 in the lanes of a mask (03 R48). -/
def toPair (s : State) (d : BitVec 7) (m : W32) (f : Nat → W64) : Writes :=
  { v := fun r l => if m.getLsbD l then
      (if r = s.cur.row d.toNat then some ((f l).extractLsb' 0 32)
       else if r = s.cur.row d.toNat + 1 then some ((f l).extractLsb' 32 32) else none) else none }
/-- vd to vd+3 in the lanes of a mask (20 R350). -/
def toQuad (s : State) (d : BitVec 7) (m : W32) (f : Nat → Nat) : Writes :=
  { v := fun r l => if m.getLsbD l ∧ s.cur.row d.toNat ≤ r ∧ r < s.cur.row d.toNat + 4
      then some (BitVec.ofNat 32 (f l / 2 ^ (32 * (r - s.cur.row d.toNat)))) else none }
/-- A row slice of a tile, or a column slice: element k where lane k of the mask is set (03 R49, R50). -/
def toSlice (s : State) (tile : Nat) (col : Bool) (x : Nat) (m : W32) (f : Nat → W32) : Writes :=
  let base := s.cur.tileBase + 32 * tile
  { v := fun r l =>
      if col then (if l = x ∧ base ≤ r ∧ m.getLsbD (r - base) then some (f (r - base)) else none)
      else (if r = base + x ∧ m.getLsbD l then some (f l) else none) }
/-- gn; nothing for g0, which discards writes (03 R51). -/
def toG (d : BitVec 7) (x : W64) : Writes := { g := fun n => if n = d.toNat ∧ n ≠ 0 then some x else none }
/-- pn in the lanes of a mask; nothing for p0 (03 R52). -/
def toP (d : Nat) (m : W32) (f : Nat → Bool) : Writes :=
  { p := fun n l => if n = d ∧ n ≠ 0 ∧ m.getLsbD l then some (f l) else none }
/-- gpn; nothing for gp0 (03 R52). -/
def toGp (d : Nat) (x : Bool) : Writes := { gp := fun n => if n = d ∧ n ≠ 0 then some x else none }
/-- The writes with flags to be ORed in. -/
def Writes.withFlags (w : Writes) (f : Nat) : Writes := { w with flags := BitVec.ofNat 64 (f % 64) }
/-- Results of a floating form in vd, and the flags of the active lanes (03 R60). -/
def toFloat (s : State) (d : BitVec 7) (m : W32) (r : Nat → FRes) : Writes :=
  (toV s d m (fun l => BitVec.ofNat 32 (r l).bits)).withFlags (laneFlags m (fun l => (r l).flags))
/-- Results of a floating form in the pair vd, vd+1, and the flags of the active lanes (03 R60). -/
def toFloat2 (s : State) (d : BitVec 7) (m : W32) (r : Nat → FRes) : Writes :=
  (toPair s d m (fun l => BitVec.ofNat 64 (r l).bits)).withFlags (laneFlags m (fun l => (r l).flags))
/-- The generator states of the lanes of a mask, rows A-4 to A-1 (05 R97). -/
def toGenerator (s : State) (m : W32) (f : Nat → W64 × W64) : Writes :=
  let top := s.cur.allot
  { v := fun r l =>
      if m.getLsbD l then
        (if r = top - 1 then some ((f l).2.extractLsb' 32 32) else if r = top - 2 then some ((f l).2.extractLsb' 0 32)
         else if r = top - 3 then some ((f l).1.extractLsb' 32 32) else if r = top - 4 then some ((f l).1.extractLsb' 0 32) else none)
      else none }
/-- Both writes, the second where they meet. -/
def Writes.also (w u : Writes) : Writes :=
  { v := fun r l => (u.v r l).orElse (fun _ => w.v r l)
    g := fun n => (u.g n).orElse (fun _ => w.g n)
    p := fun n l => (u.p n l).orElse (fun _ => w.p n l)
    gp := fun n => (u.gp n).orElse (fun _ => w.gp n)
    flags := w.flags ||| u.flags }
/-- What a load of size code `c` writes to vd: one word zero- or sign-extended, a pair, four registers (20 R350). -/
def toLoad (s : State) (c : BitVec 3) (d : BitVec 7) (m : W32) (x : Nat → Nat) : Writes :=
  match c.toNat with
  | 1 => toV s d m (fun l => (BitVec.ofNat 8 (x l)).signExtend 32)
  | 3 => toV s d m (fun l => (BitVec.ofNat 16 (x l)).signExtend 32)
  | 6 => toPair s d m (fun l => BitVec.ofNat 64 (x l))
  | 7 => toQuad s d m x
  | _ => toV s d m (fun l => BitVec.ofNat 32 (x l))
/-- A group-wide form under its guard: no writes where the guard is false (04 R68). -/
def guarded (s : State) (q : BitVec 2) (w : Writes) : Writes := if s.gpGuard q then w else {}

/-- Outside the registers of `Writes` only the split in focus, ctl.repc.ACT of a resumption, the counter of choices and the LIMM
just consumed change; every byte of memory reads as before. -/
def State.OnlyRegisters (s t : State) : Prop :=
  t = { s with cur := t.cur, tick := s.tick + 1, limm := none } ∧
  t.cur = { s.cur with
    v := t.cur.v, g := t.cur.g, p1 := t.cur.p1, p2 := t.cur.p2, p3 := t.cur.p3, gp1 := t.cur.gp1, gp2 := t.cur.gp2, gp3 := t.cur.gp3
    fflags := t.cur.fflags, splits := t.cur.splits, repc := t.cur.repc } ∧
  t.cur.repc = (if s.sp.fresh then repcDone s.cur.repc else s.cur.repc) ∧
  ∀ a, t.byteAt a = s.byteAt a

/-- The split in focus is past the instruction: the next word, the one after behind a LIMM, or the next iteration of its repeat;
its lanes are the same, and so is every other split (04 R74, R75). -/
def State.Advanced (s t : State) : Prop :=
  (∀ e, e ≠ s.split → t.cur.splitAt e = s.cur.splitAt e) ∧
  ∀ p, s.cur.splitAt s.split = some p →
    ∃ p', t.cur.splitAt s.split = some p' ∧ p'.mask = p.mask ∧ p'.st = .ready ∧
      (p.rep = none → p'.rep = none ∧ p'.pc = p.pc + (if s.limm.isSome then 8#64 else 4#64)) ∧
      ∀ r, p.rep = some r →
        if r.done + 1 < r.total then p'.pc = p.pc ∧ p'.rep = some { r with done := r.done + 1 }
        else p'.pc = p.pc + 8#64 ∧ p'.rep = none

/-- The instruction completes: a next state that holds its writes, with nothing else changed. -/
def Completes (i : Instr) (s : State) (w : Writes) : Prop :=
  ∃ t, exec i s = .next t ∧ w.Hold s t ∧ s.OnlyRegisters t ∧ s.Advanced t

/-- A load completes: a next state that holds its writes, `u` being the state after its race checks, with nothing else changed. -/
def Loads (i : Instr) (s u : State) (w : Writes) : Prop := ∃ t, exec i s = .next t ∧ w.Hold s t ∧ u.OnlyRegisters t ∧ s.Advanced t

/-- The members that a group-address load of a lane reads, by position (08 R161). -/
def State.membersAt (s : State) (lane : Nat) (ea : W64) : List MemberRef :=
  (s.job.groupTable.getD (ea.toNat / 2 ^ 32 % 2 ^ 12) []).zipIdx.map (fun p => ⟨lane, p.2, p.1, ea⟩)
/-- Their reduction by the op and type of the address where member `r` gives `y r` (08 R162). -/
def State.reductionAt (s : State) (lane : Nat) (ea : W64) (y : MemberRef → Nat) : Nat :=
  groupTree (ea.toNat / 2 ^ 28 % 16) (ea.toNat / 2 ^ 24 % 16) ((s.membersAt lane ea).map (fun r => (r.lcore, y r)))

/-- `t` is the effect `u` of an instruction with the split in focus moved past it and nothing else changed. -/
def State.MovedFrom (s u t : State) : Prop :=
  t = { u with cur := t.cur, tick := s.tick + 1, limm := none } ∧
  t.cur = { u.cur with splits := t.cur.splits, repc := t.cur.repc } ∧
  t.cur.repc = (if s.sp.fresh then repcDone u.cur.repc else u.cur.repc) ∧
  s.Advanced t

/-- The instruction completes with an effect on more than registers. -/
def Effects (i : Instr) (s u : State) : Prop := ∃ t, exec i s = .next t ∧ s.MovedFrom u t

/-- An access reads `x`: memory at its location, under INV what was held since the launch's start, or a device register
(07 R140, 14 R268). -/
def State.Reads (s : State) (k : Acc) (ea : W64) (n x : Nat) : Prop :=
  match s.target k ea n with
  | .mem loc attr _ => x = if k = .loadInv ∧ attr < 2 then s.invAt loc n else s.natAt loc n
  | .mmio pa => x = s.mmioRead (mmioOff pa) n
  | _ => False
/-- An access may store: it lands in memory or on a device register. -/
def State.Storable (s : State) (k : Acc) (ea : W64) (n : Nat) : Prop :=
  match s.target k ea n with | .mem _ _ _ => True | .mmio _ => True | _ => False
/-- The race filter looks at an access: CHK, plain, attribute 0, in this package's HBM and no scratchpad (09 R185). -/
abbrev State.Filtered (s : State) (k : Acc) (loc attr : Nat) (sc : Bool) : Prop :=
  s.job.chk = true ∧ (k = .load ∨ k = .store) ∧ attr = 0 ∧ sc = false ∧ loc / 2 ^ 44 = s.pkg ∧ loc % 2 ^ 44 < s.dies * 0x1200000000
/-- What one store does to a state `u`, its target taken in `s`: through the race filter in granules of 8 bytes (09 R186, 06 R119). -/
def State.stored (s u : State) (k : Acc) (ea : W64) (n x : Nat) : State :=
  match s.target k ea n with
  | .mem loc attr sc =>
    let b := leBytes n x
    if s.Filtered k loc attr sc then
      (if n ≤ 8 then u.storeGranule loc ea b else (u.storeGranule loc ea (b.take 8)).storeGranule (loc + 8) (ea + 8#64) (b.drop 8))
    else u.store loc b
  | .mmio pa => u.mmioWrite (mmioOff pa) n (x % 2 ^ (8 * n))
  | _ => u
/-- The state after the race checks of the loads of some lanes, which change pending reports alone (09 R186, R187). -/
def State.raced (s : State) (k : Acc) (ls : List Nat) (ea : Nat → W64) (n : Nat) : State :=
  ls.foldl (fun u l => match s.target k (ea l) n with
    | .mem loc attr sc =>
      if s.Filtered k loc attr sc then
        (if n ≤ 8 then u.loadGranule loc (ea l) else (u.loadGranule loc (ea l)).loadGranule (loc + 8) (ea l + 8#64))
      else u
    | _ => u) s
/-- Whether a byte of memory lies outside what a store of `n` bytes at an address writes. -/
def State.outside (s : State) (k : Acc) (ea : W64) (n a : Nat) : Prop :=
  ∀ loc attr sc, s.target k ea n = .mem loc attr sc → a < loc ∨ loc + n ≤ a
/-- No engine operation of the team still reads its scratchpad, so no store stalls (07 R144). -/
def State.NoStall (s : State) : Prop := ∀ o ∈ s.ops, o.job ≠ s.cur.job ∨ o.team ≠ s.cur.team
/-- An engine operation of the strand's own has still to read bytes of scratchpad at the place an access of `n` bytes stores to: its read
footprint covers some of them, and it has not performed an element that reads one of those, or has no such element (07 R144). -/
def State.Stalls (s : State) (k : Acc) (ea : W64) (n : Nat) : Prop :=
  ∃ o ∈ s.ops, s.stalledBy o = true ∧ ∃ loc attr, s.target k ea n = .mem loc attr true ∧
    (∃ r ∈ o.reads, ∃ x ∈ s.spadRanges o r, loc < x.1 + x.2 ∧ x.1 < loc + n) ∧
    let reads := fun (i : Nat) (e : Elem) =>
      o.elems[i]? = some e ∧ ∃ a, e.src = some a ∧ ∃ x ∈ s.spadRanges o (a.toNat, e.n), loc < x.1 + x.2 ∧ x.1 < loc + n
    (∃ i e, reads i e ∧ i ∉ o.early) ∨ ∀ i e, ¬ reads i e

/-- Every live split of the group has reached the convergent instruction and this one has the lowest PC (02 R24). -/
def State.Converged (s : State) : Prop := s.othersParked = true ∧ s.lowestPc = true

/-- A convergent instruction completes: the parked splits at its PC merge into the split in focus, which moves past it; `u` is its
effect (02 R24). -/
def Converges (i : Instr) (s u : State) : Prop := ∃ t, exec i s = .next t ∧ s.mergeParked.MovedFrom u t

/-- The split in focus goes to `target`, with its lanes; `u` is what else the instruction does. -/
def State.Jumped (s u t : State) (target : W64) : Prop :=
  t = { u with cur := t.cur, tick := s.tick + 1, limm := none } ∧
  t.cur = { u.cur with splits := t.cur.splits, repc := t.cur.repc } ∧
  t.cur.repc = (if s.sp.fresh then repcDone u.cur.repc else u.cur.repc) ∧
  (∀ e, e ≠ s.split → t.cur.splitAt e = s.cur.splitAt e) ∧
  ∀ p, s.cur.splitAt s.split = some p → t.cur.splitAt s.split = some { p with pc := target, st := .ready, fresh := false }

/-- The instruction transfers control to `target`. -/
def Branches (i : Instr) (s u : State) (target : W64) : Prop := ∃ t, exec i s = .next t ∧ s.Jumped u t target

/-- The split in focus waits and keeps its PC; `u` is what the instruction did before it waits (02 R42). -/
def State.Waiting (s u t : State) (w : Wait) : Prop :=
  t = { u with cur := t.cur, tick := u.tick + 1, limm := none } ∧
  t.cur = { u.cur with splits := t.cur.splits } ∧
  (∀ e, e ≠ s.split → t.cur.splitAt e = u.cur.splitAt e) ∧
  ∀ p, u.cur.splitAt s.split = some p → ∃ since, t.cur.splitAt s.split = some { p with st := .blocked w since }

/-- The instruction waits. -/
def Waits (i : Instr) (s u : State) (w : Wait) : Prop := ∃ t, exec i s = .next t ∧ s.Waiting u t w

/-- A group-address load whose members gave `y` where it has read them and give `y` now where it has not: it completes, or has read one
more and waits for the others (07 R145, 08 R161). -/
def Gathers (i : Instr) (s : State) (refs : List MemberRef) (y : MemberRef → Nat) (w : Writes) : Prop :=
  (∀ g ∈ s.kept, g.2 = some (y g.1)) → (∀ r ∈ refs, (∀ g ∈ s.kept, g.1 ≠ r) → s.readMember r = .elem (y r)) →
    Completes i s w ∨ ∃ r ∈ refs, (∀ g ∈ s.kept, g.1 ≠ r) ∧
      Waits i s s (.members (s.kept ++ [(r, some (y r))]) (unread (s.kept ++ [(r, some (y r))]) refs))

/-- The launch of the group in focus has its record under its number. -/
def State.Placed (s : State) : Prop := look s.jobs s.cur.job = some s.job ∧ s.job.id = s.cur.job

/-- A stop fault of the executing instruction: nothing of it is performed, the exception is taken (13 R250). -/
def StopsWith (i : Instr) (s : State) (code detail : Nat) (addr : W64) (lane : Nat) : Prop :=
  exec i s = .next (s.take ⟨code, 1, detail, s.epc, s.fpc, addr, lane, s.cur.pdl, s.cur.pdh, none⟩)

/-- The group in focus takes a fault in its handler, in trap slot `slot` whose record page `p` is memory (13 R253, R255). -/
def State.CanTrap (s : State) (slot : Nat) (p : Page) : Prop :=
  s.fatal = false ∧ s.job.freeSlot = some slot ∧
  s.devPage (keyTrap s.cur.job slot) s.job.root s.job.queue (s.job.trapArea + 64 + 64 * slot) true = .page p ∧ s.isMmio p.pa = false

/-- `t` is the entry of the handler for `e` by `g`, the group in focus but for what the fault itself changes: the record at `pa`, the
slot taken, ctl.trapinfo, the split in focus at the handler, every other split held (13 R253 to R255). -/
def State.Enters (s : State) (g : Group) (e : Exc) (slot pa : Nat) (t : State) : Prop :=
  t = { s with
    cur := t.cur, mem := t.mem, hist := ⟨pa, s.bytesAt pa 64⟩ :: s.hist
    jobs := put s.jobs s.job.id { s.job with slots := slot :: s.job.slots }, tick := s.tick + 1, limm := none } ∧
  t.natAt pa 8 = trapInfo e.code e.cls e.detail slot % 2 ^ 64 ∧
  t.natAt (pa + 8) 8 = e.epc.toNat ∧ t.natAt (pa + 16) 8 = e.fpc.toNat ∧ t.natAt (pa + 24) 8 = e.addr.toNat ∧
  t.natAt (pa + 32) 8 = e.pdl.toNat ∧ t.natAt (pa + 40) 8 = e.pdh.toNat ∧
  (match e.writer with
   | some (l, h) => t.natAt (pa + 48) 8 = l.toNat ∧ t.natAt (pa + 56) 8 = h.toNat
   | none => t.natAt (pa + 48) 4 = g.lfm.toNat % 2 ^ 32 ∧ t.natAt (pa + 52) 2 = g.lcore % 2 ^ 16 ∧ t.natAt (pa + 54) 1 = g.source ∧
      t.natAt (pa + 55) 1 = e.lane % 256 ∧ t.natAt (pa + 56) 8 = s.time % 2 ^ 64) ∧
  (∀ y, y < pa ∨ pa + 64 ≤ y → t.byteAt y = s.byteAt y) ∧
  t.cur = { g with
    trapinfo := BitVec.ofNat 64 (trapInfo e.code e.cls e.detail slot), handler := some (s.split, slot), held := t.cur.held
    monitor := none, region := none, splits := t.cur.splits, repc := t.cur.repc } ∧
  t.cur.repc = (match s.sp.rep with | some r => repcOf r.total r.done | none => g.repc) ∧
  (∀ k, k ∈ t.cur.held ↔ k ≠ s.split ∧ (s.cur.splitAt k).isSome) ∧
  (∀ k, k ≠ s.split → t.cur.splitAt k = (s.cur.splitAt k).map (fun p => (if s.sp.rep.isSome then p.unmark else p).awake)) ∧
  ∀ p, s.cur.splitAt s.split = some p →
    t.cur.splitAt s.split = some { p with pc := g.trapvec &&& 0x01FFFFFFFFFFFFFC#64, st := .ready, rep := none, fresh := false }

/-- `t` is the end of the launch of the group in focus on uncorrectable data of a scratchpad, met by an access at `va`: FAULT, the record
ECC_UC with DETAIL 1 (13 R252, R259, log 50). -/
def State.EndsUpset (s t : State) (va : W64) : Prop :=
  s.Placed → s.job.phase = .running →
    (∃ j, look t.jobs s.cur.job = some j ∧ j.phase = .ending 1) ∧ (∀ g : Group, g.job = s.cur.job → t.live g = false) ∧ t.cur = s.cur ∧
    ∀ p, s.job.recorded = false → s.devPage (keyRecord s.job.id) s.job.root s.job.queue (s.job.trapArea + 64) true = .page p → s.isMmio p.pa = false →
      t.bytesAt p.pa 64 = recordBytes (trapInfo 0x33 3 1 0) s.nextPc s.fpc va s.cur.pdl s.cur.pdh
        (recordTail s.cur.lfm s.cur.lcore s.cur.source 0xFF s.time) ∧
      ∀ y, y < p.pa ∨ p.pa + 64 ≤ y → t.byteAt y = s.byteAt y

/-! ## Leaving a core and coming back -/

/-- Changes every strand of a team that its image holds, the suspended parents excepted (13 R263). -/
def State.overTeam (s : State) (j : Job) (tm : Nat) (f : Group → Group) : State :=
  let g := fun x : Group => if x.kind = .root ∧ x.job = j.id ∧ x.team = tm ∧ x.away = false then f x else x
  { s with cur := g s.cur, groups := s.groups.map (fun p => (p.1, g p.2)) }
/-- `t` is `s` with a team saved: its groups are out, its logical core is parked, an image holds it (13 R261, R263). -/
def State.TeamSaved (s : State) (j : Job) (tm : Nat) (t : State) : Prop :=
  let m := s.teamOf j.id tm
  t = { s.overTeam j tm (fun g => g.out s) with
    teams := put s.teams (teamKey j.id tm) { m with resident := false }
    jobs := put s.jobs j.id { j with lcores := put j.lcores m.lcore { j.lcoreOf m.lcore with core := none } }
    images := s.images ++ [⟨j.id, tm, .team, s.time, j.bstUse, j.engUse, Config.imageBytes 1 s.tick, s.imagePlace m.core⟩], tick := s.tick + 1 }
/-- `t` is `s` with a saved team on a core: its groups hold the free slots in order, its logical core is on that core, its image is
gone (13 R262). -/
def State.TeamBack (s : State) (j : Job) (tm core : Nat) (t : State) : Prop :=
  let m := s.teamOf j.id tm
  t = { s with
    cur := t.cur, groups := t.groups
    teams := put s.teams (teamKey j.id tm) { m with resident := true, core }
    jobs := put s.jobs j.id { j with lcores := put j.lcores m.lcore { j.lcoreOf m.lcore with core := some core } }
    images := s.images.filter (fun x => !(x.job == j.id && x.team == tm)), tick := s.tick + 1 } ∧
  (∀ (i : Nat) (g : Group), (s.allGroups.filter (fun g => g.inTeam j.id tm))[i]? = some g →
    t.groupOf g.gid = some (g.back s core ((s.freeSlots core).getD i 0))) ∧
  ∀ n, (∀ g ∈ s.allGroups, g.inTeam j.id tm = true → g.gid ≠ n) → t.groupOf n = s.groupOf n

/-! ## Data movements -/

/-- What an element of a movement carries: the bytes at its source, or its fill. -/
def Aimed.value (s : State) (a : Aimed) : Nat :=
  match a.elem.src, a.src with
  | some _, .mem l _ _ => s.natAt l a.elem.n
  | _, _ => a.elem.fill
/-- Whether `n` bytes at one location and `k` at another have none in common. -/
def NoOverlap (x n y k : Nat) : Prop := x + n ≤ y ∨ y + k ≤ x
/-- Every element goes from memory, or its fill, to memory, and what one writes no element reads and no other writes. -/
def Apart (l : List Aimed) : Prop :=
  ∀ (i : Nat) (a : Aimed), l[i]? = some a → a.cause = 0 ∧ (a.elem.src.isSome → ∃ x y z, a.src = .mem x y z) ∧ ∃ dl at' sc, a.dst = .mem dl at' sc ∧
    ∀ (k : Nat) (b : Aimed), l[k]? = some b →
      (∀ x y z, b.elem.src.isSome → b.src = .mem x y z → NoOverlap dl a.elem.n x b.elem.n) ∧
      (∀ x y z, k ≠ i → b.dst = .mem x y z → NoOverlap dl a.elem.n x b.elem.n)
/-- `t` differs from `s` in memory and its history alone: at each element's destination stands `f` of what stood there and what the
element carries, every other byte reads as before. -/
def State.Moves (s t : State) (l : List Aimed) (f : Nat → Nat → Nat) : Prop :=
  t = { s with mem := t.mem, hist := t.hist } ∧
  (∀ a ∈ l, ∀ dl at' sc, a.dst = .mem dl at' sc →
    t.natAt dl a.elem.n = f (s.natAt dl a.elem.n) (a.value s) % 2 ^ (8 * a.elem.n)) ∧
  ∀ y, (∀ a ∈ l, ∀ dl at' sc, a.dst = .mem dl at' sc → y < dl ∨ dl + a.elem.n ≤ y) → t.byteAt y = s.byteAt y

end Sys2Proof.Machine
end

