-- ==== Sys2Proof/WellFormed.lean ====
section
/-! DEFINITION. Well-formed instructions: those whose fields the word alone allows (04 R70, R78). -/
namespace Sys2Proof

/-- An instruction of the instruction set whose every field lies inside the limits of 04 R70. -/
abbrev Instr.WellFormed (i : Instr) : Prop := i.fieldsOk = true

end Sys2Proof
end

