-- ==== Sys2Proof/Certificates/Slice0/Obligations.lean ====
section
/-! DEFINITION. The statements for the provers: each is a proposition about the model, with the rules of the spec it formalises. -/
open Sys2Proof Sys2Proof.Machine Host

/-- 04 R67, R70, R80: the encoder and the decoder agree on every operand of every instruction. -/
def Obligations.DecodeOfEncode : Prop :=
  ∀ i : Instr, i.WellFormed → decodeBytes (wordBytes (encode i)) = .ok (i, [])

/-- The invariant of the model's memory: equal memories are equal data after any step of any agent. -/
def Obligations.StepKeepsForm : Prop :=
  ∀ s t : State, s.Inv → step s = .next t → t.Inv

/-- The invariant of the model's records: no step loses a strand behind another or hands a number out twice. -/
def Obligations.StepKeepsRecords : Prop :=
  State.reset.Records ∧ ∀ s t : State, s.Records → step s = .next t → t.Records

/-- 14 R267, R273, R274: what no strand, packet, command or host access reaches. -/
def Obligations.StrandsLeavePlatform : Prop :=
  ∀ s t : State, step s = .next t →
    (∀ turn, s.nextTurn = some turn → match turn.act with
      | .event (.resetBoot _ _ _ _) => False | .event (.linkTraining _ _) => False | .event .thermalHalt => False | _ => True) →
    t.platform = s.platform

/-- 11 R225: two runs that differ in ctl.fpmode only stay so, and the flags of the group never change. -/
def Obligations.MatrixModes : Prop :=
  ∀ (s t : State) (i : Instr) (q : BitVec 2) (a b : BitVec 4) (c : BitVec 3) (d : BitVec 7) (x : W64),
    i ∈ [Instr.mma q a b c d, .mmag q a b c d, .mmav q a b c d, .msca q a c d, .mzero q c, .mdrn q a c d] → exec i s = .next t →
    t.cur.fflags = s.cur.fflags ∧ t.cur.fpmode = s.cur.fpmode ∧
      exec i (s.setCur { s.cur with fpmode := x }) = .next (t.setCur { t.cur with fpmode := x })

/-- 04 R74, R80, 06 R124: fetch, decode and execute; 12 R245: the choice of a quadrant. -/
def Obligations.StepRunsDecoded : Prop :=
  ∀ (s s0 : State) (turn : Turn) (rest : List Turn) (gid e : Nat) (pg : Page) (i : Instr), s.boot ≠ .halted → s.agenda = turn :: rest →
    (let f := s0.focus gid e
     let v := f.setCur (f.settle f.cur)
     let u : State := { v.setCur (v.cur.starts v.cycles) with split := e }
     (turn.act = .group gid e ∧ s0 = s.begin turn ∨
        ∃ core quad x, let z := (s.begin turn).settleQuadrant core quad
          turn.act = .quadrant core quad ∧ z.quadrantPick core quad = some x ∧ gid = x.1.gid ∧ e = x.2.entry ∧ s0 = z.passOver core quad gid e) →
      (s0.groupOf gid).isSome → (v.canIssue v.cur).any (fun p => p.entry == e) = true → u.entering = none → u.due = none → u.sp.mask ≠ 0#32 → u.sp.rep = none →
      u.sp.pc.toNat < 2 ^ 57 → u.translate u.job.root u.sp.pc.toNat = some pg → pg.x = true → u.isMmio pg.pa = false →
      u.written u.job.mark pg.pa 4 = false → decodeBytes (u.bytesAt pg.pa 4) = .ok (i, []) →
      ((∀ t, exec i u = .next t → t.limm = none) → step s = exec i u) ∧
      (∀ t w k, exec i u = .next t → t.limm.isSome → t.fetch (t.sp.pc + 4#64).toNat = some w → decodeWord w = .ok k → step s = exec k t)) ∧
    (turn.act = .event i → isDeviceEvent i = true → (∀ t, exec i ((s.begin turn).focus turn.gid 0) = .next t → t.limm = none) →
      step s = exec i ((s.begin turn).focus turn.gid 0))

/-- The encodings the spec prints beside IADD, FFMA, MOVI, REP, ST.REL.DIE, BRA, ATOM.CAS, ALLOC.HEAP, CPYT and MMA. -/
def Obligations.SpecWordsDecode : Prop :=
  decodeWord 0x0000C082#32 = .ok (.iaddV 0#2 3#7 1#7 2#7) ∧ decodeWord 0x41620205#32 = .ok (.ffma 1#2 8#7 4#7 5#7) ∧
  decodeWord 0xB00B2345#32 = .ok (.moviG 0#2 5#7 0x12345#17) ∧ decodeWord 0xEC138000#32 = .ok (.rep 4#6 7#3 0#3 0#7) ∧
  decodeWord 0x70121054#32 = .ok (.stOrdered 0#2 9#7 4#7 10#5 4#3) ∧ decodeWord 0xBDFFFFF8#32 = .ok (.braG 1#2 0xFFFFF8#24) ∧
  decodeWord 0x740C1012#32 = .ok (.atom 0#2 6#7 4#7 0#5 18#5) ∧ decodeWord 0xC4428580#32 = .ok (.allocHeap 0#2 10#7 11#7) ∧
  decodeWord 0xD802840C#32 = .ok (.cpyt 0#2 10#7 8#7 12#7) ∧ decodeWord 0xE4662500#32 = .ok (.mma 0#2 6#4 6#4 1#3 20#7)

/-- 04 R70, R78: one meaning for each word, reserved bits zero. -/
def Obligations.EncodeOfDecode : Prop :=
  ∀ (w : W32) (i : Instr), decodeWord w = .ok i → i.WellFormed ∧ encode i = w ∧ w ≠ 0#32

/-- 14 R273, 03 R57, 12 R240: the machine right after reset; log entries 2 and 3 name what the spec leaves open. The step of one nanosecond
from it is the model's choice, log entry 4. -/
def Obligations.ResetValues : Prop :=
  let s := State.reset
  s.Inv ∧ (∀ a, s.byteAt a = 0#8) ∧ s.boot = .rom ∧ s.queues = [] ∧ s.jobs = [] ∧ s.teams = [] ∧ s.groups = [] ∧ s.cur.kind = .idle ∧
  s.ops = [] ∧ s.deques = [] ∧ s.reqs = [] ∧ s.commands = [] ∧ s.images = [] ∧ s.links = [] ∧ s.time = 0 ∧ s.cycles = 0 ∧
  s.quantum = 100 ∧ s.nextQuantum = 100 ∧ s.inRecovery = true ∧
  (∀ n, s.cur.gGet n = 0#64) ∧ (∀ r l, s.cur.rowGet r l = 0#32) ∧ s.cur.p1 = 0#32 ∧ s.cur.p2 = 0#32 ∧ s.cur.p3 = 0#32 ∧
  s.cur.gp1 = false ∧ s.cur.gp2 = false ∧ s.cur.gp3 = false ∧ s.cur.trapvec = 0#64 ∧ s.part = .p9600 ∧
  s.cur.fpmode = 0#64 ∧ s.cur.fflags = 0#64 ∧ s.cur.lfm = 0#64 ∧ s.cur.repc = 0#64 ∧ s.cur.tmr = 0#64 ∧ s.cur.alarm = 0#64 ∧
  s.cur.trapinfo = 0#64 ∧ s.cur.gtimeout = 1000#64 ∧ s.measure = List.replicate 8 (List.replicate 64 0#8) ∧
  step s = .next { s with time := 1, cycles := 1, tick := 1 }

/-- 04 R78, R79, 08 R158: rejection before an instruction's own effect. 03 R46, R47: the window check of the lane forms, behind an
ILLEGAL_OP of the operand or agent (13 R252). -/
def Obligations.Rejections : Prop :=
  (∀ (s : State) (i : Instr), isDeviceEvent i = false → i ∉ [Instr.trapEntry, .timer, .alarm, .grpAbsent] → s.admits i = false →
     StopsWith i s 0x10 (encode i).toNat 0#64 0xFF) ∧
  (∀ (s : State) (i : Instr) (o : Operand), s.admits i = true → i.major < 32 → o ∈ i.operands → o.vec = true →
     s.cur.allot < s.cur.wbase + o.reg + o.width →
     (s.barred i → StopsWith i s 0x10 (encode i).toNat 0#64 0xFF) ∧ (¬s.barred i → StopsWith i s 0x11 0 0#64 0xFF))

/-- 03 R48: pairs. 13 R252: of the two stop faults the lower code. -/
def Obligations.PairRegisters : Prop :=
  ∀ (s : State) (i : Instr) (o : Operand), (∀ n l, s.cur.vGet2 n l = s.cur.vGet (n + 1) l ++ s.cur.vGet n l) ∧
    (o ∈ i.operands → o.vec = true → o.width = 2 →
      (o.reg % 2 = 1 → i.fieldsOk = false ∧ StopsWith i s 0x10 (encode i).toNat 0#64 0xFF) ∧
      (s.admits i = true → s.cur.allot ≤ s.cur.wbase + o.reg + 1 →
        (s.barred i → StopsWith i s 0x10 (encode i).toNat 0#64 0xFF) ∧ (¬s.barred i → StopsWith i s 0x11 0 0#64 0xFF)))

/-- 04 R79: the agent check of the sequencer; 03 R56: what its MOV reads of the specials. That %die is the core divided by 96 (log 37) and that
%cyc counts from the strand's first instruction (log 42) are the model's readings. -/
def Obligations.SequencerSet : Prop :=
  ∀ (s : State) (i : Instr), s.cur.kind = .seq → s.cur.region = none → i.fieldsOk = true →
    let listed := match i with
      | .nop _ | .exit _ | .fence _ _ | .bbarr _ _ _ | .bbwait _ _ _ | .ckres _ _ _ _ | .ckpub _ _ _ _ | .ckacq _ _ _ _ | .ckrel _ _ _ _ | .wait _ _ _ => True
      | .ctlrd _ _ _ | .ctlrdFflags _ _ | .ctlwr _ _ _ | .ctlwrFflags _ _ | .ctlwrLfm _ _ | .ctlwrRepc _ _ | .ctlwrTmr _ _ | .ctlwrAlarm _ _ => True
      | .movSpecialG _ _ c => ¬(c = 0#7 ∨ c = 1#7 ∨ c = 2#7 ∨ c = 3#7 ∨ c = 4#7 ∨ c = 7#7 ∨ c = 8#7)
      | i => 0x20 ≤ i.major ∧ i.major ≤ 0x2F ∨ i.major ∈ [0x37, 0x38, 0x39, 0x3A, 0x3B]
    (listed → s.admits i = true) ∧ (¬listed → StopsWith i s 0x10 (encode i).toNat 0#64 0xFF) ∧
      ∀ q d c, i = .movSpecialG q d c → listed → Completes i s (guarded s q (toG d
        (match c.toNat with
         | 5 => BitVec.ofNat 64 (s.cur.core / 96) | 6 => BitVec.ofNat 64 s.pkg
         | 9 => BitVec.ofNat 64 (s.cycOf s.cur) | _ => BitVec.ofNat 64 s.time)))

/-- 21 R372: the legality of QPOLL. -/
def Obligations.QpollLegality : Prop :=
  decodeWord 0xC0E07100#32 = .ok (.qpoll 0#2 1#2 98#7) ∧
  (∀ (q : BitVec 2) (d a b : BitVec 7), (decodeWord (48#6 ++ q ++ 7#3 ++ d ++ a ++ b)).toOption =
    if d.toNat < 4 ∧ b = 0#7 ∧ 96 ≤ a.toNat ∧ a.toNat ≤ 99 then some (.qpoll q (d.extractLsb' 0 2) a) else none) ∧
  ∀ (s : State) (q p : BitVec 2) (a : BitVec 7), (Instr.qpoll q p a).fieldsOk = true → s.cur.region = none →
    (s.cur.kind = .seq ∨ s.cur.kind = .task ∨ s.job.seqEntry = 0#64 → StopsWith (.qpoll q p a) s 0x10 (encode (.qpoll q p a)).toNat 0#64 0xFF) ∧
    (s.cur.kind = .root → s.job.seqEntry ≠ 0#64 → s.gpGuard q = false → Completes (.qpoll q p a) s {})

/-- 03 R52, 04 R68: the guard of the group-wide forms. That a FENCE or EXIT under a false guard delivers no pending report is the
model's choice, log 43. -/
def Obligations.FalseGuardSkips : Prop :=
  ∀ (s : State) (i : Instr), Runs i s → s.cur.region = none → 32 ≤ i.major → s.gpGuard i.guardOf = false →
    match i with
    | .limm _ => True | .rep _ _ _ _ => True
    | .wbaseImm _ _ => True | .wbaseReg _ _ => True | .spawn _ _ _ _ => True | .join _ => True | .allocHeap _ _ _ => True
    | .allocLog _ _ _ => True | .rdecl _ _ _ => True | .rview _ _ _ => True | .bara _ _ _ => True | .barw _ _ _ => True | .barm _ _ _ => True
    | .qpoll q p a => s.cur.kind = .root → s.job.seqEntry ≠ 0#64 → Completes (.qpoll q p a) s {}
    | i => Completes i s {}

/-- 20 R344, R345: the 32-bit lane forms of IADD, ISUB, IMUL, IMULH, IMAD and IABS in the lanes of active(M). 20 R344, R345: the 64-bit lane forms on even pairs. -/
def Obligations.IntegerLaneResults : Prop :=
  (∀ (s : State) (q : BitVec 2) (d a b : BitVec 7),
     let m := s.active q
     let x := fun l => s.cur.vGet a.toNat l
     let y := fun l => s.cur.vGet b.toNat l
     let z := fun l => s.cur.vGet d.toNat l
     (Runs (.iaddV q d a b) s → Completes (.iaddV q d a b) s (toV s d m (fun l => x l + y l))) ∧
     (Runs (.isubV q d a b) s → Completes (.isubV q d a b) s (toV s d m (fun l => x l - y l))) ∧
     (Runs (.imulV q d a b) s → Completes (.imulV q d a b) s (toV s d m (fun l => x l * y l))) ∧
     (Runs (.imulhS32V q d a b) s → Completes (.imulhS32V q d a b) s (toV s d m (fun l => ((x l).signExtend 64 * (y l).signExtend 64).extractLsb' 32 32))) ∧
     (Runs (.imulhZ32V q d a b) s → Completes (.imulhZ32V q d a b) s (toV s d m (fun l => ((x l).zeroExtend 64 * (y l).zeroExtend 64).extractLsb' 32 32))) ∧
     (Runs (.imadV q d a b) s → Completes (.imadV q d a b) s (toV s d m (fun l => x l * y l + z l))) ∧
     (Runs (.iabsV q d a) s → Completes (.iabsV q d a) s ((toV s d m (fun l => if x l = 0x80000000#32 then 0x7FFFFFFF#32 else if (x l).getLsbD 31 then -(x l) else x l)).withFlags
       (if (lanesOfMask m).any (fun l => x l == 0x80000000#32) then 32 else 0)))) ∧
  (∀ (s : State) (q : BitVec 2) (d a b : BitVec 7),
     let m := s.active q
     let x := fun l => s.cur.vGet2 a.toNat l
     let y := fun l => s.cur.vGet2 b.toNat l
     let z := fun l => s.cur.vGet2 d.toNat l
     (Runs (.iaddV64 q d a b) s → Completes (.iaddV64 q d a b) s (toPair s d m (fun l => x l + y l))) ∧
     (Runs (.isubV64 q d a b) s → Completes (.isubV64 q d a b) s (toPair s d m (fun l => x l - y l))) ∧
     (Runs (.imulV64 q d a b) s → Completes (.imulV64 q d a b) s (toPair s d m (fun l => x l * y l))) ∧
     (Runs (.imulhS64V q d a b) s → Completes (.imulhS64V q d a b) s (toPair s d m (fun l => ((x l).signExtend 128 * (y l).signExtend 128).extractLsb' 64 64))) ∧
     (Runs (.imulhZ64V q d a b) s → Completes (.imulhZ64V q d a b) s (toPair s d m (fun l => ((x l).zeroExtend 128 * (y l).zeroExtend 128).extractLsb' 64 64))) ∧
     (Runs (.imadV64 q d a b) s → Completes (.imadV64 q d a b) s (toPair s d m (fun l => x l * y l + z l))) ∧
     (Runs (.iabsV64 q d a) s → Completes (.iabsV64 q d a) s ((toPair s d m (fun l => if x l = 0x8000000000000000#64 then 0x7FFFFFFFFFFFFFFF#64 else if (x l).getLsbD 63 then -(x l) else x l)).withFlags
       (if (lanesOfMask m).any (fun l => x l == 0x8000000000000000#64) then 32 else 0))))

/-- 20 R344, R345: the group-wide forms, 64-bit and 32-bit; a 32-bit result is sign-extended, a false guard writes nothing. -/
def Obligations.IntegerGroupResults : Prop :=
  ∀ (s : State) (q : BitVec 2) (d a b : BitVec 7),
    let x := s.cur.gGet a.toNat
    let y := s.cur.gGet b.toNat
    let z := s.cur.gGet d.toNat
    let xw := x.extractLsb' 0 32
    let yw := y.extractLsb' 0 32
    let zw := z.extractLsb' 0 32
    (Runs (.iaddG64 q d a b) s → Completes (.iaddG64 q d a b) s (guarded s q (toG d (x + y)))) ∧
    (Runs (.isubG64 q d a b) s → Completes (.isubG64 q d a b) s (guarded s q (toG d (x - y)))) ∧
    (Runs (.imulG64 q d a b) s → Completes (.imulG64 q d a b) s (guarded s q (toG d (x * y)))) ∧
    (Runs (.imulhS64G q d a b) s → Completes (.imulhS64G q d a b) s (guarded s q (toG d ((x.signExtend 128 * y.signExtend 128).extractLsb' 64 64)))) ∧
    (Runs (.imulhZ64G q d a b) s → Completes (.imulhZ64G q d a b) s (guarded s q (toG d ((x.zeroExtend 128 * y.zeroExtend 128).extractLsb' 64 64)))) ∧
    (Runs (.imadG64 q d a b) s → Completes (.imadG64 q d a b) s (guarded s q (toG d (x * y + z)))) ∧
    (Runs (.iabsG64 q d a) s → Completes (.iabsG64 q d a) s (guarded s q ((toG d (if x = 0x8000000000000000#64 then 0x7FFFFFFFFFFFFFFF#64 else if x.getLsbD 63 then -x else x)).withFlags
      (if x = 0x8000000000000000#64 then 32 else 0)))) ∧
    (Runs (.iaddG32 q d a b) s → Completes (.iaddG32 q d a b) s (guarded s q (toG d ((xw + yw).signExtend 64)))) ∧
    (Runs (.isubG32 q d a b) s → Completes (.isubG32 q d a b) s (guarded s q (toG d ((xw - yw).signExtend 64)))) ∧
    (Runs (.imulG32 q d a b) s → Completes (.imulG32 q d a b) s (guarded s q (toG d ((xw * yw).signExtend 64)))) ∧
    (Runs (.imulhS32G q d a b) s → Completes (.imulhS32G q d a b) s (guarded s q (toG d (((xw.signExtend 64 * yw.signExtend 64).extractLsb' 32 32).signExtend 64)))) ∧
    (Runs (.imulhZ32G q d a b) s → Completes (.imulhZ32G q d a b) s (guarded s q (toG d (((xw.zeroExtend 64 * yw.zeroExtend 64).extractLsb' 32 32).signExtend 64)))) ∧
    (Runs (.imadG32 q d a b) s → Completes (.imadG32 q d a b) s (guarded s q (toG d ((xw * yw + zw).signExtend 64)))) ∧
    (Runs (.iabsG32 q d a) s → Completes (.iabsG32 q d a) s (guarded s q ((toG d ((if xw = 0x80000000#32 then 0x7FFFFFFF#32 else if xw.getLsbD 31 then -xw else xw).signExtend 64)).withFlags
      (if xw = 0x80000000#32 then 32 else 0))))

/-- 20 R345, R357, 21 R365: immediates alone and behind a LIMM. 21 R363, 20 R356, 18 R314, 03 R56: copies, addresses and broadcasts. -/
def Obligations.ImmediateAndMoveResults : Prop :=
  (∀ (s : State) (q : BitVec 2) (d a : BitVec 7) (i : BitVec 10) (j : BitVec 17),
     let m := s.active q
     let v : W64 := match s.limm with | none => i.signExtend 64 | some h => (h ++ i).signExtend 64
     let u : W64 := match s.limm with | none => j.signExtend 64 | some h => (h ++ j).signExtend 64
     (Runs (.iaddImmV q d a i) s → Completes (.iaddImmV q d a i) s (toV s d m (fun l => s.cur.vGet a.toNat l + v.extractLsb' 0 32))) ∧
     (Runs (.iaddImmV64 q d a i) s → Completes (.iaddImmV64 q d a i) s (toPair s d m (fun l => s.cur.vGet2 a.toNat l + v))) ∧
     (Runs (.iaddImmG32 q d a i) s → Completes (.iaddImmG32 q d a i) s (guarded s q (toG d (((s.cur.gGet a.toNat).extractLsb' 0 32 + v.extractLsb' 0 32).signExtend 64)))) ∧
     (Runs (.iaddImmG64 q d a i) s → Completes (.iaddImmG64 q d a i) s (guarded s q (toG d (s.cur.gGet a.toNat + v)))) ∧
     (Runs (.moviV q d j) s → Completes (.moviV q d j) s (toV s d m (fun _ => u.extractLsb' 0 32))) ∧
     (Runs (.moviG q d j) s → Completes (.moviG q d j) s (guarded s q (toG d u)))) ∧
  (∀ (s : State) (q sc : BitVec 2) (d a b : BitVec 7),
     let m := s.active q
     let x := s.cur.gGet a.toNat
     let y := s.cur.gGet b.toNat
     (Runs (.movV q d a) s → Completes (.movV q d a) s (toV s d m (fun l => s.cur.vGet a.toNat l))) ∧
     (Runs (.movV64 q d a) s → Completes (.movV64 q d a) s (toPair s d m (fun l => s.cur.vGet2 a.toNat l))) ∧
     (Runs (.movG64 q d a) s → Completes (.movG64 q d a) s (guarded s q (toG d x))) ∧
     (Runs (.movG32 q d a) s → Completes (.movG32 q d a) s (guarded s q (toG d ((x.extractLsb' 0 32).signExtend 64)))) ∧
     (Runs (.movSpecialV q d b) s → Completes (.movSpecialV q d b) s (toV s d m (fun l => BitVec.ofNat 32 l))) ∧
     (Runs (.leaV q sc d a b) s → Completes (.leaV q sc d a b) s (toPair s d m (fun l => x + ((s.cur.vGet b.toNat l).zeroExtend 64 <<< sc.toNat)))) ∧
     (Runs (.leaG q sc d a b) s → Completes (.leaG q sc d a b) s (guarded s q (toG d (x + ((y.extractLsb' 0 32).zeroExtend 64 <<< sc.toNat))))) ∧
     (Runs (.bcast q d a 0#1) s → Completes (.bcast q d a 0#1) s (toV s d m (fun _ => x.extractLsb' 0 32))) ∧
     (Runs (.bcast q d a 1#1) s → Completes (.bcast q d a 1#1) s (toPair s d m (fun _ => x))))

/-- 03 R56: MOV gd, special for each special of the table. That %die is the core divided by 96 (log 37) and that %cyc counts from the strand's
first instruction (log 42) are the model's readings. -/
def Obligations.SpecialReads : Prop :=
  ∀ (s : State) (q : BitVec 2) (d : BitVec 7),
    (Runs (.movSpecialG q d 1#7) s → Completes (.movSpecialG q d 1#7) s (guarded s q (toG d (BitVec.ofNat 64 s.split)))) ∧
    (Runs (.movSpecialG q d 3#7) s → Completes (.movSpecialG q d 3#7) s (guarded s q (toG d (BitVec.ofNat 64 s.cur.team)))) ∧
    (Runs (.movSpecialG q d 4#7) s → Completes (.movSpecialG q d 4#7) s (guarded s q (toG d (BitVec.ofNat 64 s.cur.lcore)))) ∧
    (Runs (.movSpecialG q d 5#7) s → Completes (.movSpecialG q d 5#7) s (guarded s q (toG d (BitVec.ofNat 64 (s.cur.core / 96))))) ∧
    (Runs (.movSpecialG q d 6#7) s → Completes (.movSpecialG q d 6#7) s (guarded s q (toG d (BitVec.ofNat 64 s.pkg)))) ∧
    (Runs (.movSpecialG q d 7#7) s → Completes (.movSpecialG q d 7#7) s (guarded s q (toG d (s.cur.pdl)))) ∧
    (Runs (.movSpecialG q d 8#7) s → Completes (.movSpecialG q d 8#7) s (guarded s q (toG d (s.cur.pdh)))) ∧
    (Runs (.movSpecialG q d 9#7) s → Completes (.movSpecialG q d 9#7) s (guarded s q (toG d (BitVec.ofNat 64 (s.cur.cycAcc + (if s.cur.resident then s.cycles - s.cur.cycFrom else 0)))))) ∧
    (Runs (.movSpecialG q d 10#7) s → Completes (.movSpecialG q d 10#7) s (guarded s q (toG d (BitVec.ofNat 64 s.time)))) ∧
    (s.cur.kind ≠ .task → Runs (.movSpecialG q d 2#7) s → Completes (.movSpecialG q d 2#7) s (guarded s q (toG d (BitVec.ofNat 64 s.cur.grp)))) ∧
    (s.cur.kind = .task → Runs (.movSpecialG q d 2#7) s → Completes (.movSpecialG q d 2#7) s (guarded s q (toG d (BitVec.ofNat 64 ((pedigree s.cur.pdh s.cur.pdl).headD (0, 0)).1))))

/-- 20 R346: IMAX and IMIN in both widths and both signednesses. 18 R307, 21 R368, 22 R407: AND, OR, XOR and ANDN. -/
def Obligations.LogicResults : Prop :=
  (∀ (s : State) (q : BitVec 2) (d a b : BitVec 7),
     let m := s.active q
     let x := fun l => s.cur.vGet a.toNat l
     let y := fun l => s.cur.vGet b.toNat l
     let x2 := fun l => s.cur.vGet2 a.toNat l
     let y2 := fun l => s.cur.vGet2 b.toNat l
     let x3 := s.cur.gGet a.toNat
     let y3 := s.cur.gGet b.toNat
     let xw := x3.extractLsb' 0 32
     let yw := y3.extractLsb' 0 32
     (Runs (.imaxV q 0#1 0#1 d a b) s → Completes (.imaxV q 0#1 0#1 d a b) s (toV s d m (fun l => if (x l).slt (y l) then y l else x l))) ∧
     (Runs (.imaxV q 0#1 1#1 d a b) s → Completes (.imaxV q 0#1 1#1 d a b) s (toV s d m (fun l => if (x l).ult (y l) then y l else x l))) ∧
     (Runs (.imaxV q 1#1 0#1 d a b) s → Completes (.imaxV q 1#1 0#1 d a b) s (toPair s d m (fun l => if (x2 l).slt (y2 l) then y2 l else x2 l))) ∧
     (Runs (.imaxV q 1#1 1#1 d a b) s → Completes (.imaxV q 1#1 1#1 d a b) s (toPair s d m (fun l => if (x2 l).ult (y2 l) then y2 l else x2 l))) ∧
     (Runs (.imaxG q 1#1 0#1 d a b) s → Completes (.imaxG q 1#1 0#1 d a b) s (guarded s q (toG d (if (x3).slt (y3) then y3 else x3)))) ∧
     (Runs (.imaxG q 1#1 1#1 d a b) s → Completes (.imaxG q 1#1 1#1 d a b) s (guarded s q (toG d (if (x3).ult (y3) then y3 else x3)))) ∧
     (Runs (.imaxG q 0#1 0#1 d a b) s → Completes (.imaxG q 0#1 0#1 d a b) s (guarded s q (toG d ((if (xw).slt (yw) then yw else xw).signExtend 64)))) ∧
     (Runs (.imaxG q 0#1 1#1 d a b) s → Completes (.imaxG q 0#1 1#1 d a b) s (guarded s q (toG d ((if (xw).ult (yw) then yw else xw).signExtend 64)))) ∧
     (Runs (.iminV q 0#1 0#1 d a b) s → Completes (.iminV q 0#1 0#1 d a b) s (toV s d m (fun l => if (x l).slt (y l) then x l else y l))) ∧
     (Runs (.iminV q 0#1 1#1 d a b) s → Completes (.iminV q 0#1 1#1 d a b) s (toV s d m (fun l => if (x l).ult (y l) then x l else y l))) ∧
     (Runs (.iminV q 1#1 0#1 d a b) s → Completes (.iminV q 1#1 0#1 d a b) s (toPair s d m (fun l => if (x2 l).slt (y2 l) then x2 l else y2 l))) ∧
     (Runs (.iminV q 1#1 1#1 d a b) s → Completes (.iminV q 1#1 1#1 d a b) s (toPair s d m (fun l => if (x2 l).ult (y2 l) then x2 l else y2 l))) ∧
     (Runs (.iminG q 1#1 0#1 d a b) s → Completes (.iminG q 1#1 0#1 d a b) s (guarded s q (toG d (if (x3).slt (y3) then x3 else y3)))) ∧
     (Runs (.iminG q 1#1 1#1 d a b) s → Completes (.iminG q 1#1 1#1 d a b) s (guarded s q (toG d (if (x3).ult (y3) then x3 else y3)))) ∧
     (Runs (.iminG q 0#1 0#1 d a b) s → Completes (.iminG q 0#1 0#1 d a b) s (guarded s q (toG d ((if (xw).slt (yw) then xw else yw).signExtend 64)))) ∧
     (Runs (.iminG q 0#1 1#1 d a b) s → Completes (.iminG q 0#1 1#1 d a b) s (guarded s q (toG d ((if (xw).ult (yw) then xw else yw).signExtend 64))))) ∧
  (∀ (s : State) (q : BitVec 2) (d a b : BitVec 7),
     let m := s.active q
     let x := fun l => s.cur.vGet a.toNat l
     let y := fun l => s.cur.vGet b.toNat l
     let x2 := fun l => s.cur.vGet2 a.toNat l
     let y2 := fun l => s.cur.vGet2 b.toNat l
     let x3 := s.cur.gGet a.toNat
     let y3 := s.cur.gGet b.toNat
     let xw := x3.extractLsb' 0 32
     let yw := y3.extractLsb' 0 32
     (Runs (.andV q 0#1 d a b) s → Completes (.andV q 0#1 d a b) s (toV s d m (fun l => x l &&& y l))) ∧
     (Runs (.andV q 1#1 d a b) s → Completes (.andV q 1#1 d a b) s (toPair s d m (fun l => x2 l &&& y2 l))) ∧
     (Runs (.andG q 1#1 d a b) s → Completes (.andG q 1#1 d a b) s (guarded s q (toG d (x3 &&& y3)))) ∧
     (Runs (.andG q 0#1 d a b) s → Completes (.andG q 0#1 d a b) s (guarded s q (toG d ((xw &&& yw).signExtend 64)))) ∧
     (Runs (.orV q 0#1 d a b) s → Completes (.orV q 0#1 d a b) s (toV s d m (fun l => x l ||| y l))) ∧
     (Runs (.orV q 1#1 d a b) s → Completes (.orV q 1#1 d a b) s (toPair s d m (fun l => x2 l ||| y2 l))) ∧
     (Runs (.orG q 1#1 d a b) s → Completes (.orG q 1#1 d a b) s (guarded s q (toG d (x3 ||| y3)))) ∧
     (Runs (.orG q 0#1 d a b) s → Completes (.orG q 0#1 d a b) s (guarded s q (toG d ((xw ||| yw).signExtend 64)))) ∧
     (Runs (.xorV q 0#1 d a b) s → Completes (.xorV q 0#1 d a b) s (toV s d m (fun l => x l ^^^ y l))) ∧
     (Runs (.xorV q 1#1 d a b) s → Completes (.xorV q 1#1 d a b) s (toPair s d m (fun l => x2 l ^^^ y2 l))) ∧
     (Runs (.xorG q 1#1 d a b) s → Completes (.xorG q 1#1 d a b) s (guarded s q (toG d (x3 ^^^ y3)))) ∧
     (Runs (.xorG q 0#1 d a b) s → Completes (.xorG q 0#1 d a b) s (guarded s q (toG d ((xw ^^^ yw).signExtend 64)))) ∧
     (Runs (.andnV q 0#1 d a b) s → Completes (.andnV q 0#1 d a b) s (toV s d m (fun l => x l &&& ~~~(y l)))) ∧
     (Runs (.andnV q 1#1 d a b) s → Completes (.andnV q 1#1 d a b) s (toPair s d m (fun l => x2 l &&& ~~~(y2 l)))) ∧
     (Runs (.andnG q 1#1 d a b) s → Completes (.andnG q 1#1 d a b) s (guarded s q (toG d (x3 &&& ~~~(y3))))) ∧
     (Runs (.andnG q 0#1 d a b) s → Completes (.andnG q 0#1 d a b) s (guarded s q (toG d ((xw &&& ~~~(yw)).signExtend 64)))))

/-- 22 R387, 21 R383: SHL, SHR, SAR and ROT by a register or an immediate. -/
def Obligations.ShiftResults : Prop :=
  ∀ (s : State) (q : BitVec 2) (i : BitVec 1) (d a b : BitVec 7),
    let m := s.active q
    let x := s.cur.gGet a.toNat
    let y := s.cur.gGet b.toNat
    (Runs (.shlV q i d a b) s → Completes (.shlV q i d a b) s (toV s d m (fun l => let c := if i = 1#1 then b.toNat else (s.cur.vGet b.toNat l).toNat % 32; (s.cur.vGet a.toNat l) <<< c))) ∧
    (Runs (.shlV64 q i d a b) s → Completes (.shlV64 q i d a b) s (toPair s d m (fun l => let c := if i = 1#1 then b.toNat else (s.cur.vGet b.toNat l).toNat % 64; (s.cur.vGet2 a.toNat l) <<< c))) ∧
    (Runs (.shlG32 q i d a b) s → Completes (.shlG32 q i d a b) s (guarded s q (toG d ((let c := if i = 1#1 then b.toNat else y.toNat % 32; (x.extractLsb' 0 32) <<< c).signExtend 64)))) ∧
    (Runs (.shlG64 q i d a b) s → Completes (.shlG64 q i d a b) s (guarded s q (toG d (let c := if i = 1#1 then b.toNat else y.toNat % 64; (x) <<< c)))) ∧
    (Runs (.shrV q i d a b) s → Completes (.shrV q i d a b) s (toV s d m (fun l => let c := if i = 1#1 then b.toNat else (s.cur.vGet b.toNat l).toNat % 32; (s.cur.vGet a.toNat l) >>> c))) ∧
    (Runs (.shrV64 q i d a b) s → Completes (.shrV64 q i d a b) s (toPair s d m (fun l => let c := if i = 1#1 then b.toNat else (s.cur.vGet b.toNat l).toNat % 64; (s.cur.vGet2 a.toNat l) >>> c))) ∧
    (Runs (.shrG32 q i d a b) s → Completes (.shrG32 q i d a b) s (guarded s q (toG d ((let c := if i = 1#1 then b.toNat else y.toNat % 32; (x.extractLsb' 0 32) >>> c).signExtend 64)))) ∧
    (Runs (.shrG64 q i d a b) s → Completes (.shrG64 q i d a b) s (guarded s q (toG d (let c := if i = 1#1 then b.toNat else y.toNat % 64; (x) >>> c)))) ∧
    (Runs (.sarV q i d a b) s → Completes (.sarV q i d a b) s (toV s d m (fun l => let c := if i = 1#1 then b.toNat else (s.cur.vGet b.toNat l).toNat % 32; (s.cur.vGet a.toNat l).sshiftRight c))) ∧
    (Runs (.sarV64 q i d a b) s → Completes (.sarV64 q i d a b) s (toPair s d m (fun l => let c := if i = 1#1 then b.toNat else (s.cur.vGet b.toNat l).toNat % 64; (s.cur.vGet2 a.toNat l).sshiftRight c))) ∧
    (Runs (.sarG32 q i d a b) s → Completes (.sarG32 q i d a b) s (guarded s q (toG d ((let c := if i = 1#1 then b.toNat else y.toNat % 32; (x.extractLsb' 0 32).sshiftRight c).signExtend 64)))) ∧
    (Runs (.sarG64 q i d a b) s → Completes (.sarG64 q i d a b) s (guarded s q (toG d (let c := if i = 1#1 then b.toNat else y.toNat % 64; (x).sshiftRight c)))) ∧
    (Runs (.rotV q i d a b) s → Completes (.rotV q i d a b) s (toV s d m (fun l => let c := if i = 1#1 then b.toNat else (s.cur.vGet b.toNat l).toNat % 32; (s.cur.vGet a.toNat l).rotateLeft c))) ∧
    (Runs (.rotV64 q i d a b) s → Completes (.rotV64 q i d a b) s (toPair s d m (fun l => let c := if i = 1#1 then b.toNat else (s.cur.vGet b.toNat l).toNat % 64; (s.cur.vGet2 a.toNat l).rotateLeft c))) ∧
    (Runs (.rotG32 q i d a b) s → Completes (.rotG32 q i d a b) s (guarded s q (toG d ((let c := if i = 1#1 then b.toNat else y.toNat % 32; (x.extractLsb' 0 32).rotateLeft c).signExtend 64)))) ∧
    (Runs (.rotG64 q i d a b) s → Completes (.rotG64 q i d a b) s (guarded s q (toG d (let c := if i = 1#1 then b.toNat else y.toNat % 64; (x).rotateLeft c))))

/-- 19 R325, 21 R370, 18 R319: CLZ, POPC and BREV. 18 R315: BFX.Z, BFX.S and BFI, with the position and length clamped as the rule says. -/
def Obligations.BitResults : Prop :=
  (∀ (s : State) (q : BitVec 2) (d a : BitVec 7),
     let m := s.active q
     let x := s.cur.gGet a.toNat
     let xw := x.extractLsb' 0 32
     (Runs (.clzV q d a) s → Completes (.clzV q d a) s (toV s d m (fun l => BitVec.ofNat 32 (32 - (if (s.cur.vGet a.toNat l).toNat = 0 then 0 else Nat.log2 (s.cur.vGet a.toNat l).toNat + 1))))) ∧
     (Runs (.clzV64 q d a) s → Completes (.clzV64 q d a) s (toPair s d m (fun l => BitVec.ofNat 64 (64 - (if (s.cur.vGet2 a.toNat l).toNat = 0 then 0 else Nat.log2 (s.cur.vGet2 a.toNat l).toNat + 1))))) ∧
     (Runs (.clzG64 q d a) s → Completes (.clzG64 q d a) s (guarded s q (toG d (BitVec.ofNat 64 (64 - (if (x).toNat = 0 then 0 else Nat.log2 (x).toNat + 1)))))) ∧
     (Runs (.clzG32 q d a) s → Completes (.clzG32 q d a) s (guarded s q (toG d (BitVec.ofNat 64 (32 - (if xw.toNat = 0 then 0 else Nat.log2 xw.toNat + 1)))))) ∧
     (Runs (.popcV q d a) s → Completes (.popcV q d a) s (toV s d m (fun l => BitVec.ofNat 32 ((List.range 32).filter (fun k => (s.cur.vGet a.toNat l).getLsbD k)).length))) ∧
     (Runs (.popcV64 q d a) s → Completes (.popcV64 q d a) s (toPair s d m (fun l => BitVec.ofNat 64 ((List.range 64).filter (fun k => (s.cur.vGet2 a.toNat l).getLsbD k)).length))) ∧
     (Runs (.popcG64 q d a) s → Completes (.popcG64 q d a) s (guarded s q (toG d (BitVec.ofNat 64 ((List.range 64).filter (fun k => (x).getLsbD k)).length)))) ∧
     (Runs (.popcG32 q d a) s → Completes (.popcG32 q d a) s (guarded s q (toG d (BitVec.ofNat 64 ((List.range 32).filter (fun k => xw.getLsbD k)).length)))) ∧
     (Runs (.brevV q d a) s → Completes (.brevV q d a) s (toV s d m (fun l => BitVec.ofFnLE (fun k : Fin 32 => (s.cur.vGet a.toNat l).getLsbD (31 - k))))) ∧
     (Runs (.brevG q d a) s → Completes (.brevG q d a) s (guarded s q (toG d ((BitVec.ofFnLE (fun k : Fin 32 => xw.getLsbD (31 - k))).signExtend 64))))) ∧
  (∀ (s : State) (q : BitVec 2) (d a b : BitVec 7),
     let m := s.active q
     let p := fun y : W32 => min (y.toNat % 256) 32
     let n := fun y : W32 => min (y.toNat / 256 % 256) (32 - p y)
     let z := fun x y : W32 => x.toNat / 2 ^ p y % 2 ^ n y
     let bfxz := fun x y : W32 => BitVec.ofNat 32 (z x y)
     let bfxs := fun x y : W32 => BitVec.ofNat 32 (if n y ≠ 0 ∧ 2 ^ (n y - 1) ≤ z x y then z x y + 2 ^ 32 - 2 ^ n y else z x y)
     let mask := fun y : W32 => BitVec.ofNat 32 ((2 ^ n y - 1) * 2 ^ p y)
     let ins := fun x y w : W32 => (w &&& ~~~(mask y)) ||| ((x <<< p y) &&& mask y)
     let xw := (s.cur.gGet a.toNat).extractLsb' 0 32
     let yw := (s.cur.gGet b.toNat).extractLsb' 0 32
     let zw := (s.cur.gGet d.toNat).extractLsb' 0 32
     (Runs (.bfxZV q d a b) s → Completes (.bfxZV q d a b) s (toV s d m (fun l => bfxz (s.cur.vGet a.toNat l) (s.cur.vGet b.toNat l)))) ∧
     (Runs (.bfxSV q d a b) s → Completes (.bfxSV q d a b) s (toV s d m (fun l => bfxs (s.cur.vGet a.toNat l) (s.cur.vGet b.toNat l)))) ∧
     (Runs (.bfiV q d a b) s → Completes (.bfiV q d a b) s (toV s d m (fun l => ins (s.cur.vGet a.toNat l) (s.cur.vGet b.toNat l) (s.cur.vGet d.toNat l)))) ∧
     (Runs (.bfxZG q d a b) s → Completes (.bfxZG q d a b) s (guarded s q (toG d ((bfxz xw yw).signExtend 64)))) ∧
     (Runs (.bfxSG q d a b) s → Completes (.bfxSG q d a b) s (guarded s q (toG d ((bfxs xw yw).signExtend 64)))) ∧
     (Runs (.bfiG q d a b) s → Completes (.bfiG q d a b) s (guarded s q (toG d ((ins xw yw zw).signExtend 64)))))

/-- 20 R347: ICMP in both widths, lane and group. 21 R371, 22 R390, R403: PSET, SEL and VOTE. -/
def Obligations.PredicateResults : Prop :=
  (∀ (s : State) (q p : BitVec 2) (f : BitVec 3) (a b : BitVec 7),
     let m := s.active q
     let x := s.cur.gGet a.toNat
     let y := s.cur.gGet b.toNat
     (Runs (.icmpV q f 0#1 p a b) s → Completes (.icmpV q f 0#1 p a b) s (toP p.toNat m (fun l => (match f.toNat with | 0 => decide (s.cur.vGet a.toNat l = s.cur.vGet b.toNat l) | 1 => decide (s.cur.vGet a.toNat l ≠ s.cur.vGet b.toNat l) | 2 => decide ((s.cur.vGet a.toNat l).toInt < (s.cur.vGet b.toNat l).toInt) | 3 => decide ((s.cur.vGet b.toNat l).toInt ≤ (s.cur.vGet a.toNat l).toInt) | 4 => decide ((s.cur.vGet a.toNat l).toNat < (s.cur.vGet b.toNat l).toNat) | _ => decide ((s.cur.vGet b.toNat l).toNat ≤ (s.cur.vGet a.toNat l).toNat))))) ∧
     (Runs (.icmpV q f 1#1 p a b) s → Completes (.icmpV q f 1#1 p a b) s (toP p.toNat m (fun l => (match f.toNat with | 0 => decide (s.cur.vGet2 a.toNat l = s.cur.vGet2 b.toNat l) | 1 => decide (s.cur.vGet2 a.toNat l ≠ s.cur.vGet2 b.toNat l) | 2 => decide ((s.cur.vGet2 a.toNat l).toInt < (s.cur.vGet2 b.toNat l).toInt) | 3 => decide ((s.cur.vGet2 b.toNat l).toInt ≤ (s.cur.vGet2 a.toNat l).toInt) | 4 => decide ((s.cur.vGet2 a.toNat l).toNat < (s.cur.vGet2 b.toNat l).toNat) | _ => decide ((s.cur.vGet2 b.toNat l).toNat ≤ (s.cur.vGet2 a.toNat l).toNat))))) ∧
     (Runs (.icmpG q f 1#1 p a b) s → Completes (.icmpG q f 1#1 p a b) s (guarded s q (toGp p.toNat (match f.toNat with | 0 => decide (x = y) | 1 => decide (x ≠ y) | 2 => decide ((x).toInt < (y).toInt) | 3 => decide ((y).toInt ≤ (x).toInt) | 4 => decide ((x).toNat < (y).toNat) | _ => decide ((y).toNat ≤ (x).toNat))))) ∧
     (Runs (.icmpG q f 0#1 p a b) s → Completes (.icmpG q f 0#1 p a b) s (guarded s q (toGp p.toNat (match f.toNat with | 0 => decide (x.extractLsb' 0 32 = y.extractLsb' 0 32) | 1 => decide (x.extractLsb' 0 32 ≠ y.extractLsb' 0 32) | 2 => decide ((x.extractLsb' 0 32).toInt < (y.extractLsb' 0 32).toInt) | 3 => decide ((y.extractLsb' 0 32).toInt ≤ (x.extractLsb' 0 32).toInt) | 4 => decide ((x.extractLsb' 0 32).toNat < (y.extractLsb' 0 32).toNat) | _ => decide ((y.extractLsb' 0 32).toNat ≤ (x.extractLsb' 0 32).toNat)))))) ∧
  (∀ (s : State) (q e : BitVec 2) (d a b : BitVec 2) (r u v k : BitVec 7),
     let m := s.active q
     let pa := fun l => (s.cur.pGet a.toNat).getLsbD l
     let pb := fun l => (s.cur.pGet b.toNat).getLsbD l
     let ga := s.cur.gpGet a.toNat
     let gb := s.cur.gpGet b.toNat
     let x := s.cur.gGet u.toNat
     let y := s.cur.gGet v.toNat
     let pe := fun l => (s.cur.pGet e.toNat).getLsbD l
     let ge := s.cur.gpGet e.toNat
     (Runs (.psetV q 0#3 d a b) s → Completes (.psetV q 0#3 d a b) s (toP d.toNat m (fun l => pa l && pb l))) ∧
     (Runs (.psetV q 1#3 d a b) s → Completes (.psetV q 1#3 d a b) s (toP d.toNat m (fun l => pa l || pb l))) ∧
     (Runs (.psetV q 2#3 d a b) s → Completes (.psetV q 2#3 d a b) s (toP d.toNat m (fun l => xor (pa l) (pb l)))) ∧
     (Runs (.psetV q 3#3 d a b) s → Completes (.psetV q 3#3 d a b) s (toP d.toNat m (fun l => pa l && !pb l))) ∧
     (Runs (.psetV q 4#3 d a b) s → Completes (.psetV q 4#3 d a b) s (toP d.toNat m (fun l => !pa l))) ∧
     (Runs (.psetG q 0#3 d a b) s → Completes (.psetG q 0#3 d a b) s (guarded s q (toGp d.toNat (ga && gb)))) ∧
     (Runs (.psetG q 1#3 d a b) s → Completes (.psetG q 1#3 d a b) s (guarded s q (toGp d.toNat (ga || gb)))) ∧
     (Runs (.psetG q 2#3 d a b) s → Completes (.psetG q 2#3 d a b) s (guarded s q (toGp d.toNat (xor ga gb)))) ∧
     (Runs (.psetG q 3#3 d a b) s → Completes (.psetG q 3#3 d a b) s (guarded s q (toGp d.toNat (ga && !gb)))) ∧
     (Runs (.psetG q 4#3 d a b) s → Completes (.psetG q 4#3 d a b) s (guarded s q (toGp d.toNat (!ga)))) ∧
     (Runs (.psetNzV q d u 0#1) s → Completes (.psetNzV q d u 0#1) s (toP d.toNat m (fun l => decide (s.cur.vGet u.toNat l ≠ 0#32)))) ∧
     (Runs (.psetNzV q d u 1#1) s → Completes (.psetNzV q d u 1#1) s (toP d.toNat m (fun l => decide (s.cur.vGet2 u.toNat l ≠ 0#64)))) ∧
     (Runs (.psetNzG q d u 1#1) s → Completes (.psetNzG q d u 1#1) s (guarded s q (toGp d.toNat (decide (x ≠ 0#64))))) ∧
     (Runs (.psetNzG q d u 0#1) s → Completes (.psetNzG q d u 0#1) s (guarded s q (toGp d.toNat (decide (x.extractLsb' 0 32 ≠ 0#32))))) ∧
     (Runs (.selV q 0#1 e r u v) s → Completes (.selV q 0#1 e r u v) s (toV s r m (fun l => if pe l then s.cur.vGet u.toNat l else s.cur.vGet v.toNat l))) ∧
     (Runs (.selV q 1#1 e r u v) s → Completes (.selV q 1#1 e r u v) s (toPair s r m (fun l => if pe l then s.cur.vGet2 u.toNat l else s.cur.vGet2 v.toNat l))) ∧
     (Runs (.selG q 1#1 e r u v) s → Completes (.selG q 1#1 e r u v) s (guarded s q (toG r (if ge then x else y)))) ∧
     (Runs (.selG q 0#1 e r u v) s → Completes (.selG q 0#1 e r u v) s (guarded s q (toG r (((if ge then x else y).extractLsb' 0 32).signExtend 64)))) ∧
     (Runs (.vote q r a 0#7) s → Completes (.vote q r a 0#7) s (toGp r.toNat ((lanesOfMask m).any pa))) ∧
     (Runs (.vote q r a 1#7) s → Completes (.vote q r a 1#7) s (toGp r.toNat ((lanesOfMask m).all pa))) ∧
     (Runs (.vote q r a 2#7) s → Completes (.vote q r a 2#7) s (toG r ((m &&& s.cur.pGet a.toNat).zeroExtend 64))))

/-- 19 R337, R338: FADD to FMAX in FP32 and FP64: the exact value of the operands, FTZ applied on the way in, is rounded once under
ctl.fpmode.RM; the flags of the active lanes are ORed into ctl.fflags. 19 R340, R341: FSQRT to FTRIGCOSPI, FRND and FCLASS under their rounding code; the transcendental functions take the series of log 6. 20 R343, 19 R342: HFUSE fuses both halves of a word, FCMP writes a predicate and raises NV where its row says. -/
def Obligations.FloatResults : Prop :=
  (∀ (s : State) (q : BitVec 2) (d a b : BitVec 7),
     let m := s.active q
     let rm := s.cur.rm
     let z := s.cur.ftz
     let x := fun l => decodeIn fp32 z (s.cur.vGet a.toNat l).toNat
     let y := fun l => decodeIn fp32 z (s.cur.vGet b.toNat l).toNat
     let w := fun l => decodeIn fp32 z (s.cur.vGet d.toNat l).toNat
     let x2 := fun l => decodeIn fp64 z (s.cur.vGet2 a.toNat l).toNat
     let y2 := fun l => decodeIn fp64 z (s.cur.vGet2 b.toNat l).toNat
     let w2 := fun l => decodeIn fp64 z (s.cur.vGet2 d.toNat l).toNat
     (Runs (.fadd q d a b) s → Completes (.fadd q d a b) s (toFloat s d m (fun l => finishF fp32 rm z (addV rm.down (x l) (y l))))) ∧
     (Runs (.fsub q d a b) s → Completes (.fsub q d a b) s (toFloat s d m (fun l => finishF fp32 rm z (addV rm.down (x l) (negV (y l)))))) ∧
     (Runs (.fmul q d a b) s → Completes (.fmul q d a b) s (toFloat s d m (fun l => finishF fp32 rm z (mulV (x l) (y l))))) ∧
     (Runs (.ffma q d a b) s → Completes (.ffma q d a b) s (toFloat s d m (fun l => finishF fp32 rm z (fmaV rm.down (x l) (y l) (w l))))) ∧
     (Runs (.fdiv q d a b) s → Completes (.fdiv q d a b) s (toFloat s d m (fun l => finishF fp32 rm z (divV (x l) (y l))))) ∧
     (Runs (.fmin q d a b) s → Completes (.fmin q d a b) s (toFloat s d m (fun l => fminmaxW fp32 false z (s.cur.vGet a.toNat l).toNat (s.cur.vGet b.toNat l).toNat))) ∧
     (Runs (.fmax q d a b) s → Completes (.fmax q d a b) s (toFloat s d m (fun l => fminmaxW fp32 true z (s.cur.vGet a.toNat l).toNat (s.cur.vGet b.toNat l).toNat))) ∧
     (Runs (.faddF64 q d a b) s → Completes (.faddF64 q d a b) s (toFloat2 s d m (fun l => finishF fp64 rm z (addV rm.down (x2 l) (y2 l))))) ∧
     (Runs (.fsubF64 q d a b) s → Completes (.fsubF64 q d a b) s (toFloat2 s d m (fun l => finishF fp64 rm z (addV rm.down (x2 l) (negV (y2 l)))))) ∧
     (Runs (.fmulF64 q d a b) s → Completes (.fmulF64 q d a b) s (toFloat2 s d m (fun l => finishF fp64 rm z (mulV (x2 l) (y2 l))))) ∧
     (Runs (.ffmaF64 q d a b) s → Completes (.ffmaF64 q d a b) s (toFloat2 s d m (fun l => finishF fp64 rm z (fmaV rm.down (x2 l) (y2 l) (w2 l))))) ∧
     (Runs (.fdivF64 q d a b) s → Completes (.fdivF64 q d a b) s (toFloat2 s d m (fun l => finishF fp64 rm z (divV (x2 l) (y2 l))))) ∧
     (Runs (.fminF64 q d a b) s → Completes (.fminF64 q d a b) s (toFloat2 s d m (fun l => fminmaxW fp64 false z (s.cur.vGet2 a.toNat l).toNat (s.cur.vGet2 b.toNat l).toNat))) ∧
     (Runs (.fmaxF64 q d a b) s → Completes (.fmaxF64 q d a b) s (toFloat2 s d m (fun l => fminmaxW fp64 true z (s.cur.vGet2 a.toNat l).toNat (s.cur.vGet2 b.toNat l).toNat)))) ∧
  (∀ (s : State) (q : BitVec 2) (c : BitVec 1) (d a r : BitVec 7),
     let m := s.active q
     let z := s.cur.ftz
     let mode := s.cur.roundCode r.toNat
     let x := fun l => decodeIn fp32 z (s.cur.vGet a.toNat l).toNat
     let x2 := fun l => decodeIn fp64 z (s.cur.vGet2 a.toNat l).toNat
     (Runs (.fsqrt q d a r) s → Completes (.fsqrt q d a r) s (toFloat s d m (fun l => finishF fp32 mode z (sqrtV (x l))))) ∧
     (Runs (.frcp q d a r) s → Completes (.frcp q d a r) s (toFloat s d m (fun l => finishF fp32 mode z (rcpV (x l))))) ∧
     (Runs (.frsq q d a r) s → Completes (.frsq q d a r) s (toFloat s d m (fun l => finishF fp32 mode z (rsqV (x l))))) ∧
     (Runs (.fexp2 q d a r) s → Completes (.fexp2 q d a r) s (toFloat s d m (fun l => finishF fp32 mode z (exp2V (x l))))) ∧
     (Runs (.flog2 q d a r) s → Completes (.flog2 q d a r) s (toFloat s d m (fun l => finishF fp32 mode z (log2V (x l))))) ∧
     (Runs (.ftrigSinpi q d a r) s → Completes (.ftrigSinpi q d a r) s (toFloat s d m (fun l => finishF fp32 mode z (sinpiV (x l))))) ∧
     (Runs (.ftrigCospi q d a r) s → Completes (.ftrigCospi q d a r) s (toFloat s d m (fun l => finishF fp32 mode z (cospiV (x l))))) ∧
     (Runs (.fsqrtF64 q d a r) s → Completes (.fsqrtF64 q d a r) s (toFloat2 s d m (fun l => finishF fp64 mode z (sqrtV (x2 l))))) ∧
     (Runs (.frnd q d a r) s → Completes (.frnd q d a r) s (toFloat s d m (fun l => frndW fp32 mode z (s.cur.vGet a.toNat l).toNat))) ∧
     (Runs (.frndF64 q d a r) s → Completes (.frndF64 q d a r) s (toFloat2 s d m (fun l => frndW fp64 mode z (s.cur.vGet2 a.toNat l).toNat))) ∧
     (Runs (.fclass q 0#1 d a r) s → Completes (.fclass q 0#1 d a r) s (toV s d m (fun l => BitVec.ofNat 32 (fclassW fp32 (s.cur.vGet a.toNat l).toNat)))) ∧
     (Runs (.fclass q 1#1 d a r) s → Completes (.fclass q 1#1 d a r) s (toV s d m (fun l => BitVec.ofNat 32 (fclassW fp64 (s.cur.vGet2 a.toNat l).toNat))))) ∧
  (∀ (s : State) (q p : BitVec 2) (f : BitVec 3) (d a b : BitVec 7),
     let m := s.active q
     let z := s.cur.ftz
     let half := fun (k : Fmt) (x : W32) (h : Nat) => (x.extractLsb' (16 * h) 16).toNat
     let fuse := fun (k : Fmt) (l h : Nat) => ffmaW k s.cur.rm z (half k (s.cur.vGet a.toNat l) h) (half k (s.cur.vGet b.toNat l) h) (half k (s.cur.vGet d.toNat l) h)
     let both := fun (k : Fmt) (l : Nat) => (⟨(fuse k l 0).bits + 2 ^ 16 * (fuse k l 1).bits, (fuse k l 0).flags ||| (fuse k l 1).flags⟩ : FRes)
     let t := fun l => fcmpW fp32 z f.toNat (s.cur.vGet a.toNat l).toNat (s.cur.vGet b.toNat l).toNat
     let t2 := fun l => fcmpW fp64 z f.toNat (s.cur.vGet2 a.toNat l).toNat (s.cur.vGet2 b.toNat l).toNat
     (Runs (.hfuse q 0#1 d a b) s → Completes (.hfuse q 0#1 d a b) s (toFloat s d m (both fp16))) ∧
     (Runs (.hfuse q 1#1 d a b) s → Completes (.hfuse q 1#1 d a b) s (toFloat s d m (both bf16))) ∧
     (Runs (.fcmp q f 0#1 p a b) s → Completes (.fcmp q f 0#1 p a b) s ((toP p.toNat m (fun l => (t l).1)).withFlags (laneFlags m (fun l => (t l).2)))) ∧
     (Runs (.fcmp q f 1#1 p a b) s → Completes (.fcmp q f 1#1 p a b) s ((toP p.toNat m (fun l => (t2 l).1)).withFlags (laneFlags m (fun l => (t2 l).2)))))

/-- 05 R92: an integer significand cut by k bits: nearest with ties to even, toward zero, up, down; SR goes up by the draw. 05 R87, R91, R92: a value of a format rounds to its own word without a flag, in every mode. -/
def Obligations.Rounding : Prop :=
  (∀ (neg : Bool) (m k draw : Nat),
     let lo := m / 2 ^ k
     let hi := (m + (2 ^ k - 1)) / 2 ^ k
     let n := (roundShift .rne neg m k).1
     ((n = lo ∨ n = hi) ∧ 2 * (n * 2 ^ k - m) ≤ 2 ^ k ∧ 2 * (m - n * 2 ^ k) ≤ 2 ^ k) ∧
     ((2 * (m - lo * 2 ^ k) = 2 ^ k) → n % 2 = 0) ∧
     (roundShift .rz neg m k).1 = lo ∧
     (roundShift .ru neg m k).1 = (if neg then lo else hi) ∧
     (roundShift .rd neg m k).1 = (if neg then hi else lo) ∧
     (roundShift (.sr draw) neg m k).1 = (if draw < (m - lo * 2 ^ k) * 2 ^ 32 / 2 ^ k then hi else lo) ∧
     (∀ mode : Mode, (roundShift mode neg m k).2 = true ↔ 2 ^ k ∣ m)) ∧
  (∀ (f : Fmt) (mode : Mode) (neg : Bool) (x : Nat), f ∈ [fp64, fp32, fp19, bf16, fp16, e5m2, e4m3, e3m2, e2m3, e2m1] → x ≤ f.maxEnc →
     roundF f mode false (decodeF f (f.word neg x)) = ⟨f.word neg x, 0⟩)

/-- 19 R331 to R334: CVT between two formats, GX blocks, DP4; a stochastic rounding takes one draw of every active lane (05 R98). 21 R374, 05 R97 to R99: RAND and PITCH act on the generator rows A-4 to A-1 of the allotment. -/
def Obligations.ConversionResults : Prop :=
  (∀ (s : State) (q : BitVec 2) (r : BitVec 3) (d a b p : BitVec 7) (e : BitVec 1) (c : BitVec 4) (src dst : Nat),
     let m := s.active q
     let x := fun l => if cvtWide src then (s.cur.vGet2 a.toNat l).toNat else (s.cur.vGet a.toNat l).toNat
     let mode := fun l => if r = 5#3 then Mode.sr (s.cur.drawOf l) else s.cur.roundCode r.toNat
     let res := fun l => cvtW src dst (mode l) s.cur.ftz (x l)
     let next := fun l => (drawStep (s.cur.genGet l).1 (s.cur.genGet l).2).2
     let lanes := (List.range 32).map (fun l => if m.getLsbD l then
       (decodeF fp32 (s.cur.vGet a.toNat l).toNat, if e = 1#1 then Mode.sr (s.cur.drawOf l) else .rne) else (FVal.fin false 0 0, .rne))
     let blk := gxEncode c.toNat lanes
     (cvtPair p = some (src, dst) → Runs (.cvt q r d a p) s → Completes (.cvt q r d a p) s
       ((if r = 5#3 then toGenerator s m next else {}).also (if cvtWide dst then toFloat2 s d m res else toFloat s d m res))) ∧
     (Runs (.cvtGxEncode q d a e c) s → Completes (.cvtGxEncode q d a e c) s
       (if m = 0#32 then {} else (if e = 1#1 then toGenerator s m next else {}).also
         ((toV s d (m &&& BitVec.ofNat 32 (2 ^ gxLanes c.toNat - 1)) (fun l => BitVec.ofNat 32 (blk.1 >>> (32 * l)))).withFlags blk.2))) ∧
     (Runs (.cvtGxDecode q d a c) s → Completes (.cvtGxDecode q d a c) s
       (toV s d m (fun l => BitVec.ofNat 32 (roundF fp32 .rne false (gxElem c.toNat (s.cur.gxBlock a c.toNat) l)).bits))) ∧
     (Runs (.dp4 q 0#1 d a b) s → Completes (.dp4 q 0#1 d a b) s (toV s d m (fun l => s.cur.vGet d.toNat l + BitVec.ofInt 32
       (((List.range 4).map (fun k => ((s.cur.vGet a.toNat l).extractLsb' (8 * k) 8).toInt * ((s.cur.vGet b.toNat l).extractLsb' (8 * k) 8).toInt)).sum)))) ∧
     (Runs (.dp4 q 1#1 d a b) s → Completes (.dp4 q 1#1 d a b) s (toV s d m (fun l => s.cur.vGet d.toNat l + BitVec.ofNat 32
       (((List.range 4).map (fun k => ((s.cur.vGet a.toNat l).extractLsb' (8 * k) 8).toNat * ((s.cur.vGet b.toNat l).extractLsb' (8 * k) 8).toNat)).sum))))) ∧
  (∀ (s : State) (q : BitVec 2) (d a : BitVec 7),
     let m := s.active q
     let step := fun l => drawStep (s.cur.genGet l).1 (s.cur.genGet l).2
     (Runs (.rand q 0#1 d) s → Completes (.rand q 0#1 d) s
       ((toGenerator s m (fun l => (step l).2)).also (toV s d m (fun l => BitVec.ofNat 32 (step l).1)))) ∧
     (Runs (.rand q 1#1 d) s → Completes (.rand q 1#1 d) s
       ((toGenerator s m (fun l => (step l).2)).also
         (toV s d m (fun l => BitVec.ofNat 32 (roundF fp32 .rne false (.fin false ((step l).1 / 256) (-24))).bits)))) ∧
     (Runs (.pitch q a) s → Completes (.pitch q a) s
       (toGenerator s m (fun l => pitchState s.job.seed s.cur.pdh s.cur.pdl l ((s.cur.vGet a.toNat l).toNat % 2 ^ 16)))))

/-- 22 R391, 21 R379, 22 R389, 21 R367, 20 R348: the cross-lane operations take part with active(M) only. -/
def Obligations.CrossLaneResults : Prop :=
  ∀ (s : State) (q : BitVec 2) (d a b : BitVec 7) (t o : BitVec 3) (x : BitVec 1),
    let m := s.active q
    let c := fun l => (s.cur.vGet b.toNat l).toNat % 32
    let own := fun l => s.cur.vGet a.toNat l
    let pull := fun l k => if m.getLsbD k then own k else own l
    let ls := lanesOfMask m
    let ins := ls.map (fun l => if wideType t then (s.cur.vGet2 a.toNat l).toNat else (s.cur.vGet a.toNat l).toNat)
    let op := reduxStep o.toNat t.toNat s.cur.rm s.cur.ftz
    let tree := pairTree op 6 ins 0
    let red := if ins = [] then reduxIdent o.toNat t.toNat else tree.1.headD 0
    let run := scanList op (reduxIdent o.toNat t.toNat) (x == 1#1) ins
    let at' := fun l => run.1.getD (ls.idxOf l) 0
    let f := (s.cur.gGet b.toNat).toNat
    let list := fun v : BitVec 7 => (ls.map (fun l => (s.cur.vGet v.toNat l).toNat)).takeWhile (· != 0xFFFFFFFF)
    let hits := isectLists (list a) (list b)
    (Runs (.shfl q 0#2 d a b) s → Completes (.shfl q 0#2 d a b) s (toV s d m (fun l => pull l (c l)))) ∧
    (Runs (.shfl q 1#2 d a b) s → Completes (.shfl q 1#2 d a b) s (toV s d m (fun l => if c l ≤ l then pull l (l - c l) else own l))) ∧
    (Runs (.shfl q 2#2 d a b) s → Completes (.shfl q 2#2 d a b) s (toV s d m (fun l => if l + c l < 32 then pull l (l + c l) else own l))) ∧
    (Runs (.shfl q 3#2 d a b) s → Completes (.shfl q 3#2 d a b) s (toV s d m (fun l => pull l (l ^^^ c l)))) ∧
    (Runs (.redux q d a t o) s → Completes (.redux q d a t o) s
      ((toG d (if wideType t then BitVec.ofNat 64 red else (BitVec.ofNat 32 red).signExtend 64)).withFlags tree.2)) ∧
    (Runs (.scan q d a x t o) s → Completes (.scan q d a x t o) s
      ((if wideType t then toPair s d m (fun l => BitVec.ofNat 64 (at' l)) else toV s d m (fun l => BitVec.ofNat 32 (at' l))).withFlags run.2)) ∧
    (Runs (.nzscan q d a b) s → f < 16 → s.cur.wbase + a.toNat + rowSlices f ≤ s.cur.allot → a.toNat + rowSlices f ≤ 128 →
      Completes (.nzscan q d a b) s (toV s d m (fun l =>
        BitVec.ofNat 32 (leNat (((nzList f (s.cur.nzRow m a (rowSlices f))).drop (4 * l)).take 4 |>.map (BitVec.ofNat 8)))))) ∧
    (Runs (.isect q d a b) s → Completes (.isect q d a b) s (toPair s d m (fun l =>
      BitVec.ofNat 64 ((hits.1.length * 2 ^ 16 + hits.2.2 * 2 ^ 8 + hits.2.1) * 2 ^ 32 +
        (match hits.1[ls.idxOf l]? with | some (i, j) => ls.getD j 0 * 256 + ls.getD i 0 | none => 0xFFFFFFFF)))))

/-- 21 R363, 03 R49, R50: copies between a slice of a declared tile and a register. 21 R362, R364, R373, 03 R54: queue moves of registers and slices,
which wait at a full or empty queue, and QPOLL. 03 R49: a tile the launch did not declare. -/
def Obligations.SliceAndQueueResults : Prop :=
  (∀ (s : State) (q : BitVec 2) (d a : BitVec 7) (t k : BitVec 3) (r : BitVec 1), s.cur.tiles ≤ t.toNat →
     (Runs (.movSliceToV q d a t r k) s → StopsWith (.movSliceToV q d a t r k) s 0x11 0 0#64 0xFF) ∧
     (Runs (.movVToSlice q d a t r k) s → StopsWith (.movVToSlice q d a t r k) s 0x11 0 0#64 0xFF) ∧
     (s.queuesAllowed = true →
       (Runs (.movSlicePush q d a t r k) s → StopsWith (.movSlicePush q d a t r k) s 0x11 0 0#64 0xFF) ∧
       (Runs (.movSlicePop q a t r k) s → StopsWith (.movSlicePop q a t r k) s 0x11 0 0#64 0xFF))) ∧
  (∀ (s : State) (q : BitVec 2) (d a : BitVec 7) (t k : BitVec 3) (r : BitVec 1), t.toNat < s.cur.tiles →
     let m := s.active q
     let base := s.cur.tileBase + 32 * t.toNat
     let x := ((s.cur.gGet a.toNat).toNat + k.toNat) % 32
     (Runs (.movSliceToV q d a t r k) s → Completes (.movSliceToV q d a t r k) s
       (toV s d m (fun l => if r = 1#1 then s.cur.rowGet (base + l) x else s.cur.rowGet (base + x) l))) ∧
     (Runs (.movVToSlice q d a t r k) s → Completes (.movVToSlice q d a t r k) s
       (toSlice s t.toNat (r == 1#1) x m (fun l => s.cur.vGet d.toNat l)))) ∧
  (∀ (s : State) (q p : BitVec 2) (d a : BitVec 7) (t k : BitVec 3) (r : BitVec 1), s.cur.kind = .root → s.job.seqEntry ≠ 0#64 →
     let m := s.active q
     let e := s.job.engine (s.cur.lcore / 8)
     let n := d.toNat - 96
     let x := ((s.cur.gGet a.toNat).toNat + k.toNat) % 32
     let pushed := fun f : Nat → W32 => s.putEngine (e.setQueue n (e.queue n ++ [(List.range 32).map (fun l => if m.getLsbD l then f l else 0#32)]))
     (Runs (.movQueuePush q d a) s → m ≠ 0#32 → (e.queue n).length < 16 → Effects (.movQueuePush q d a) s (pushed (fun l => s.cur.vGet a.toNat l))) ∧
     (Runs (.movQueuePush q d a) s → m ≠ 0#32 → 16 ≤ (e.queue n).length → Waits (.movQueuePush q d a) s s (.queue n)) ∧
     (Runs (.movQueuePush q d a) s → m = 0#32 → Completes (.movQueuePush q d a) s {}) ∧
     (Runs (.movSlicePush q d a t r k) s → t.toNat < s.cur.tiles → m ≠ 0#32 → (e.queue n).length < 16 →
       Effects (.movSlicePush q d a t r k) s (pushed (s.cur.sliceGet t.toNat (r == 1#1) x))) ∧
     (Runs (.movSlicePush q d a t r k) s → t.toNat < s.cur.tiles → m ≠ 0#32 → 16 ≤ (e.queue n).length →
       Waits (.movSlicePush q d a t r k) s s (.queue n)) ∧
     (Runs (.movSlicePush q d a t r k) s → t.toNat < s.cur.tiles → m = 0#32 → Completes (.movSlicePush q d a t r k) s {}) ∧
     (∀ sl rest, Runs (.movQueuePop q d) s → m ≠ 0#32 → e.mqo = sl :: rest → Effects (.movQueuePop q d) s
       ((s.putEngine { e with mqo := rest }).setCur (s.cur.vSet m d.toNat (fun l => sl.getD l 0#32)))) ∧
     (Runs (.movQueuePop q d) s → m ≠ 0#32 → e.mqo = [] → Waits (.movQueuePop q d) s s (.queue 2)) ∧
     (Runs (.movQueuePop q d) s → m = 0#32 → Completes (.movQueuePop q d) s {}) ∧
     (∀ sl rest, Runs (.movSlicePop q a t r k) s → t.toNat < s.cur.tiles → m ≠ 0#32 → e.mqo = sl :: rest → Effects (.movSlicePop q a t r k) s
       ((s.putEngine { e with mqo := rest }).setCur (s.cur.sliceSet m t.toNat (r == 1#1) x (fun l => sl.getD l 0#32)))) ∧
     (Runs (.movSlicePop q a t r k) s → t.toNat < s.cur.tiles → m ≠ 0#32 → e.mqo = [] → Waits (.movSlicePop q a t r k) s s (.queue 2)) ∧
     (Runs (.movSlicePop q a t r k) s → t.toNat < s.cur.tiles → m = 0#32 → Completes (.movSlicePop q a t r k) s {}) ∧
     (Runs (.qpoll q p a) s → Completes (.qpoll q p a) s (guarded s q (toGp p.toNat
       (if a.toNat = 98 then !e.mqo.isEmpty else decide ((e.queue (a.toNat - 96)).length < 16))))))

/-- 00 R6: little-endian stores; the write history is the model's own (logs 1 and 5). -/
def Obligations.StoredBytesRead : Prop :=
  ∀ (s : State) (loc n x mark : Nat), mark ≤ s.hist.length →
    let t := s.storeNat loc n x
    t.natAt loc n = x % 2 ^ (8 * n) ∧ (∀ a, a < loc ∨ loc + n ≤ a → t.byteAt a = s.byteAt a) ∧
    (0 < n → ∀ b, b ∈ t.heldSince mark loc n ↔ b = t.bytesAt loc n ∨ b ∈ s.heldSince mark loc n) ∧
    (∀ a k, 0 < k → NoOverlap loc n a k → t.heldSince mark a k = s.heldSince mark a k)

/-- 20 R350, R351, R354, R355: LD.size vd, [ga+vb] with the displacement of a LIMM, LD.order.size vd, [va], and LDT; group addresses,
08 R161, R162, 07 R145. 22 R394, R395, R397, R398: ST.size [ga+vb], vd with the displacement of a LIMM, ST.order.size [va], vd, and STT;
the stall of 07 R144. 09 R186, R187: one granule under the race filter; room beyond a full arena region is a free choice (log 1). -/
def Obligations.LaneMemoryResults : Prop :=
  (∀ (s : State) (q : BitVec 2) (c t k : BitVec 3) (d a b : BitVec 7) (o : BitVec 5) (r : BitVec 1) (x : Nat → Nat) (y : MemberRef → Nat),
     let m := s.active q
     let ls := lanesOfMask m
     let n := accBytes c
     let disp : W64 := match s.limm with | some h => h.signExtend 64 | none => 0#64
     let ea := fun l => s.cur.gGet a.toNat + (s.cur.vGet b.toNat l).zeroExtend 64 + disp
     let kind : Acc := if o = 0#5 then .load else if o = 19#5 then .loadInv else .loadAcq
     let ea2 := s.cur.vGet2 a.toNat
     let ea3 := fun l => s.cur.gGet d.toNat + BitVec.ofNat 64 (4 * l)
     (∀ f ∈ [(Instr.ldV q c d a b, Acc.load, ea), (.ldOrdered q d a o c, kind, ea2)], Runs f.1 s →
       ((∀ l, m.getLsbD l → s.Reads f.2.1 (f.2.2 l) n (x l)) → Loads f.1 s (s.raced f.2.1 ls f.2.2 n) (toLoad s c d m x)) ∧
       ((∀ l, m.getLsbD l → ∃ grp op ty off, s.target f.2.1 (f.2.2 l) n = .reduction grp op ty off) →
         Gathers f.1 s (ls.flatMap (fun l => s.membersAt l (f.2.2 l))) y (toLoad s c d m (fun l => s.reductionAt l (f.2.2 l) y)))) ∧
     (Runs (.ldt q d a t r k) s → t.toNat < s.cur.tiles → (∀ l, m.getLsbD l → s.Reads .load (ea3 l) 4 (x l)) →
       Loads (.ldt q d a t r k) s (s.raced .load ls ea3 4)
         (toSlice s t.toNat (r == 1#1) (((s.cur.gGet a.toNat).toNat + k.toNat) % 32) m (fun l => BitVec.ofNat 32 (x l))))) ∧
  (∀ (s : State) (q : BitVec 2) (c t k : BitVec 3) (d a b : BitVec 7) (o : BitVec 5) (r : BitVec 1),
     let m := s.active q
     let n := accBytes c
     let disp : W64 := match s.limm with | some h => h.signExtend 64 | none => 0#64
     let ea := fun l => s.cur.gGet a.toNat + (s.cur.vGet b.toNat l).zeroExtend 64 + disp
     let ea2 := fun l => s.cur.vGet2 a.toNat l
     let ea3 := fun l => s.cur.gGet d.toNat + BitVec.ofNat 64 (4 * l)
     let kind : Acc := if o = 0#5 then .store else .storeRel
     let data := fun l => match c.toNat with
       | 6 => (s.cur.vGet2 d.toNat l).toNat
       | 7 => (s.cur.vGet2 d.toNat l).toNat + 2 ^ 64 * (s.cur.vGet2 (d.toNat + 2) l).toNat
       | _ => (s.cur.vGet d.toNat l).toNat
     let x := ((s.cur.gGet a.toNat).toNat + k.toNat) % 32
     let elem := fun l => (s.cur.sliceGet t.toNat (r == 1#1) x l).toNat
     let effect := fun (i : Instr) (k : Acc) (w : Nat) (ea : Nat → W64) (data : Nat → Nat) =>
       (∀ l, m.getLsbD l → s.Storable k (ea l) w) →
       (s.NoStall → ∃ u, exec i s = .next u ∧ s.MovedFrom ((lanesOfMask m).foldl (fun u l => s.stored u k (ea l) w (data l)) s) u ∧
         ∀ y, (∀ l, m.getLsbD l → s.outside k (ea l) w y) → u.byteAt y = s.byteAt y) ∧
       ((∃ l, m.getLsbD l ∧ s.Stalls k (ea l) w) → ∃ o ∈ s.ops, s.stalledBy o = true ∧ ∃ l loc attr, m.getLsbD l ∧
         s.target k (ea l) w = .mem loc attr true ∧ Waits i s s (.stall o.id loc w))
     (Runs (.stV q c d a b) s → effect (.stV q c d a b) .store n ea data) ∧
     (Runs (.stOrdered q d a o c) s → effect (.stOrdered q d a o c) kind n ea2 data) ∧
     (Runs (.stt q d a t r k) s → t.toNat < s.cur.tiles → effect (.stt q d a t r k) .store 4 ea3 elem)) ∧
  (∀ (s : State) (loc : Nat) (ea h l : W64) (b : List Byte), s.Placed →
     let races := s.job.races
     let found := fun store : Nat => if s.cur.pend.any (fun p => p.code == 0x30) then s.setCur { s.cur with pend := s.cur.pend.map (fun p =>
         if p.code = 0x30 then { p with detail := p.detail % 2 + 2 * min 65535 (p.detail / 2 + 1) } else p) }
       else s.setCur { s.cur with pend := s.cur.pend ++ [⟨3, 0x30, store, s.fpc, BitVec.ofNat 64 (ea.toNat - loc % 8), s.split,
         s.cur.pdl, s.cur.pdh, l, h, s.cur.handler.isSome⟩] }
     let clear := look races (loc / 8) = none ∨ look races (loc / 8) = some (h, l) ∧ parallel h l s.cur.pdh s.cur.pdl = false
     let kept := (s.store loc b).putJob { s.job with races := put races (loc / 8) (s.cur.pdh, s.cur.pdl) }
     (look races (loc / 8) = some (h, l) → parallel h l s.cur.pdh s.cur.pdl = true → s.loadGranule loc ea = found 0 ∧ s.storeGranule loc ea b = found 1) ∧
     (clear → s.loadGranule loc ea = s ∧
       ((look races (loc / 8)).isSome ∨ 32 * (races.length + 1) ≤ (s.store loc b).arenaSize s.job 32 → s.storeGranule loc ea b = kept) ∧
       (s.storeGranule loc ea b = kept ∨ s.storeGranule loc ea b = ((s.store loc b).setCur { s.cur with pend := s.cur.pend ++
           [⟨3, 0x31, 1, s.fpc, ea, s.split, s.cur.pdl, s.cur.pdh, 0#64, 0#64, s.cur.handler.isSome⟩] }).putJob { s.job with feat := true })))

/-- 20 R350, R353, 22 R394: the group forms of LD and ST outside a region; group addresses 08 R161 to R165; the stall 07 R144. -/
def Obligations.GroupMemoryResults : Prop :=
  ∀ (s : State) (q : BitVec 2) (c : BitVec 3) (d a b : BitVec 7) (x : Nat) (y : MemberRef → Nat), s.cur.region = none →
    let disp : W64 := match s.limm with | some h => h.signExtend 64 | none => 0#64
    let ea := s.cur.gGet a.toNat + s.cur.gGet b.toNat + disp
    let n := accBytes c
    let refs := s.membersAt 0 ea
    let wide := fun x : Nat => match c.toNat with
      | 1 => (BitVec.ofNat 8 x).signExtend 64
      | 3 => (BitVec.ofNat 16 x).signExtend 64
      | 5 => (BitVec.ofNat 32 x).signExtend 64
      | _ => BitVec.ofNat 64 x
    (∀ i ∈ [Instr.ldG q c d a b, .stG q c d a b], Runs i s → s.gpGuard q = false → Completes i s {}) ∧
    (Runs (.ldG q c d a b) s → s.gpGuard q = true →
      (s.Reads .load ea n x → Loads (.ldG q c d a b) s (s.raced .load [0] (fun _ => ea) n) (toG d (wide x))) ∧
      ((∃ grp op ty off, s.target .load ea n = .reduction grp op ty off) →
        Gathers (.ldG q c d a b) s refs y (toG d (wide (s.reductionAt 0 ea y))) ∧
        (s.kept = [] → refs ≠ [] → (∀ r ∈ refs, s.readMember r = .absent) → Waits (.ldG q c d a b) s s (.members [] refs)) ∧
        ∀ r, s.kept = [] → refs = [r] → s.readMember r = .failed → StopsWith (.ldG q c d a b) s 0x1A (r.pos % 2 ^ 10 * 2 ^ 5 + r.lcore * 2 ^ 15) ea 0)) ∧
    (Runs (.stG q c d a b) s → s.gpGuard q = true → s.Storable .store ea n →
      (s.NoStall → ∃ u, exec (.stG q c d a b) s = .next u ∧ s.MovedFrom (s.stored s .store ea n (s.cur.gGet d.toNat).toNat) u ∧
        ∀ y, s.outside .store ea n y → u.byteAt y = s.byteAt y) ∧
      (s.Stalls .store ea n → ∃ o ∈ s.ops, s.stalledBy o = true ∧ ∃ loc attr, s.target .store ea n = .mem loc attr true ∧
        Waits (.stG q c d a b) s s (.stall o.id loc n)))

/-- 18 R304, 08 R155 to R157: ABEG, the recorded accesses, ACOM. -/
def Obligations.RegionResults : Prop :=
  ∀ (s : State) (q : BitVec 2) (c : BitVec 3) (d a b o : BitVec 7),
    let line := s.cur.gGet a.toNat
    let ea := s.cur.gGet a.toNat + s.cur.gGet b.toNat
    let n := accBytes c
    (Runs (.abeg q a) s → s.gpGuard q = true → line.toNat % 128 = 0 → otherWindow line.toNat = false →
      Effects (.abeg q a) s (s.setCur { s.cur with region := some ⟨line, s.sp.pc, s.split, []⟩ })) ∧
    (∀ r, Runs (.ldG q c d a b) s → s.cur.region = some r → r.accs.length < 8 →
      (s.gpGuard q = true → ea.toNat / 128 = r.line.toNat / 128 ∧ ea.toNat % n = 0) →
      Effects (.ldG q c d a b) s (s.setCur { s.cur with
        region := some { r with accs := r.accs ++ [⟨false, s.gpGuard q, ea, n, decide (c = 1#3 ∨ c = 3#3 ∨ c = 5#3), 0#64, d.toNat⟩] } })) ∧
    (∀ r, Runs (.stG q c d a b) s → s.cur.region = some r → r.accs.length < 8 →
      (s.gpGuard q = true → ea.toNat / 128 = r.line.toNat / 128 ∧ ea.toNat % n = 0) →
      Effects (.stG q c d a b) s (s.setCur { s.cur with
        region := some { r with accs := r.accs ++ [⟨true, s.gpGuard q, ea, n, false, s.cur.gGet d.toNat, 0⟩] } })) ∧
    (∀ r, Runs (.acom q o) s → s.gpGuard q = true → s.cur.region = some r → s.NoStall →
      (∀ x ∈ s.regionAccs r, ∃ loc attr sc, x.tgt = .mem loc attr sc) →
      let p := (s.regionAims r).foldl regionStep (s, [])
      ∃ u, exec (.acom q o) s = .next u ∧
        s.MovedFrom (p.1.setCur { p.2.foldl (fun g x => g.gSet x.1 x.2) p.1.cur with region := none }) u ∧
        ∀ y, (∀ e ∈ r.accs, e.live = true → e.store = true → s.outside .atomic e.addr e.size y) → u.byteAt y = s.byteAt y)

/-- 18 R308, R309, 08 R148, R149: ATOM over the active lanes. 21 R377, 09 R180, R184: RED over the active lanes, at once, deferred, or
added to the team's partial sums. Lanes of one location go in ascending order, the model's choice (log 48). -/
def Obligations.AtomicResults : Prop :=
  (∀ (s : State) (q : BitVec 2) (d a : BitVec 7) (o c : BitVec 5) (loc : Nat → Nat), s.NoStall → Runs (.atom q d a o c) s →
     let m := s.active q
     let w := if c.getLsbD 0 then 8 else 4
     let kind : Acc := if 20 ≤ c.toNat then .atomicF else .atomic
     let data := fun l => if c.getLsbD 0 then (s.cur.vGet2 d.toNat l).toNat else (s.cur.vGet d.toNat l).toNat
     let cas := fun l => if c.getLsbD 0 then (s.cur.vGet2 (d.toNat + 2) l).toNat else (s.cur.vGet (d.toNat + 1) l).toNat
     let one := fun (p : State × List (Nat × Nat)) (l : Nat) =>
       let old := p.1.natAt (loc l) w
       (if c = 18#5 ∨ c = 19#5 then (if old = data l then p.1.storeNat (loc l) w (cas l) else p.1)
        else p.1.storeNat (loc l) w (atomOp c.toNat old (data l)), p.2 ++ [(l, old)])
     let p := (lanesOfMask m).foldl one (s, [])
     let old := fun l => (look p.2 l).getD 0
     (∀ l, m.getLsbD l → ∃ attr sc, s.target kind (s.cur.vGet2 a.toNat l) w = .mem (loc l) attr sc) →
     ∃ u, exec (.atom q d a o c) s = .next u ∧
       s.MovedFrom (p.1.setCur (if c.getLsbD 0 then s.cur.vSet2 m d.toNat (fun l => BitVec.ofNat 64 (old l))
         else s.cur.vSet m d.toNat (fun l => BitVec.ofNat 32 (old l)))) u ∧
       ∀ y, (∀ l, m.getLsbD l → y < loc l ∨ loc l + w ≤ y) → u.byteAt y = s.byteAt y) ∧
  (∀ (s : State) (q : BitVec 2) (d a : BitVec 7) (o c : BitVec 5) (loc : Nat → Nat), s.NoStall → Runs (.red q d a o c) s →
     let m := s.active q
     let w := if c.getLsbD 0 then 8 else 4
     let kind : Acc := if 20 ≤ c.toNat then .atomicF else .atomic
     let data := fun l => if c.getLsbD 0 then (s.cur.vGet2 d.toNat l).toNat else (s.cur.vGet d.toNat l).toNat
     ((∀ l, m.getLsbD l → ∃ attr sc, s.target kind (s.cur.vGet2 a.toNat l) w = .mem (loc l) attr sc ∧
         (c ≠ 20#5 ∧ c ≠ 21#5 ∨ s.job.det = false ∨ 2 ≤ attr ∨ sc = true)) →
       ∃ u, exec (.red q d a o c) s = .next u ∧
         s.MovedFrom ((lanesOfMask m).foldl (fun u l => u.storeNat (loc l) w (atomOp c.toNat (u.natAt (loc l) w) (data l))) s) u ∧
         ∀ y, (∀ l, m.getLsbD l → y < loc l ∨ loc l + w ≤ y) → u.byteAt y = s.byteAt y) ∧
     ((c = 20#5 ∨ c = 21#5) → m ≠ 0#32 → s.Placed → s.job.det = true → s.job.detc = true →
       (∀ l, m.getLsbD l → ∃ attr, attr < 2 ∧ s.target kind (s.cur.vGet2 a.toNat l) w = .mem (loc l) attr false) →
       48 * (s.job.adds.length + s.job.partials.length + 32) ≤ s.arenaSize s.job 24 →
       let tm := ((pedigree s.cur.pdh s.cur.pdl).headD (0, 0)).2
       let f := if w = 8 then fp64 else fp32
       let sum := fun x y : Nat => BitVec.ofNat 64 (faddW f .rne false x y).bits
       let add := fun (ps : List Partial) (l : Nat) =>
         if ps.any (fun p => p.team == tm && p.loc == loc l && p.width == w) then
           ps.map (fun p => if p.team = tm ∧ p.loc = loc l ∧ p.width = w then { p with sum := sum p.sum.toNat (data l) } else p)
         else ps ++ [⟨tm, loc l, w, sum (f.word true 0) (data l)⟩]
       Effects (.red q d a o c) s (s.putJob { s.job with partials := (lanesOfMask m).foldl add s.job.partials })) ∧
     ((c = 20#5 ∨ c = 21#5) → m ≠ 0#32 → s.Placed → s.job.det = true → s.job.detc = false →
       (∀ l, m.getLsbD l → ∃ attr, attr < 2 ∧ s.target kind (s.cur.vGet2 a.toNat l) w = .mem (loc l) attr false) →
       48 * (s.job.adds.length + s.job.partials.length + 32) ≤ s.arenaSize s.job 24 →
       let sq := fun l => s.cur.seqNo.get l
       Effects (.red q d a o c) s ((s.putJob { s.job with adds := s.job.adds ++ (lanesOfMask m).map (fun l =>
           ⟨loc l, w, BitVec.ofNat 64 (data l), s.cur.pdh, s.cur.pdl, l, (sq l).toNat⟩) }).setCur
         { s.cur with seqNo := (lanesOfMask m).foldl (fun c l => c.set l (sq l + 1#32)) s.cur.seqNo })))

/-- 03 R61, 13 R251, 20 R351: lane faults of LD.size vd, [ga+vb]. 06 R115, 08 R152, 20 R353: alignment of ordinary accesses. -/
def Obligations.LaneFaults : Prop :=
  (∀ (s : State) (q : BitVec 2) (c : BitVec 3) (d a b : BitVec 7) (bad : W32) (code x : Nat → Nat),
     let m := s.active q
     let n := accBytes c
     let ea := s.laneAddr a b
     let mask := s.cur.lfm.extractLsb' 0 32
     let w := toLoad s c d (m &&& ~~~bad) x
     Runs (.ldV q c d a b) s → bad &&& ~~~m = 0#32 →
     (∀ l, m.getLsbD l → if bad.getLsbD l then 0x20 ≤ code l ∧ s.target .load (ea l) n = .bad (code l) else s.Reads .load (ea l) n (x l)) →
     ∃ t, exec (.ldV q c d a b) s = .next t ∧ s.Advanced t ∧
       (∀ r l, l < 32 → t.cur.rowGet r l = (w.v r l).getD (s.cur.rowGet r l)) ∧
       t = { s with cur := t.cur, tick := s.tick + 1, limm := none } ∧
       t.cur = { s.cur with
         v := t.cur.v, lfm := t.cur.lfm, off := s.cur.off ||| bad, splits := t.cur.splits, repc := t.cur.repc
         pend := (s.raced .load (lanesOfMask (m &&& ~~~bad)) ea n).cur.pend ++ (lanesOfMask bad).map (fun l =>
           ⟨2, code l, l, s.fpc, ea l, s.split, s.cur.pdl, s.cur.pdh, 0#64, 0#64, s.cur.handler.isSome⟩) } ∧
       t.cur.lfm.extractLsb' 0 32 = mask ||| bad ∧
       (bad = 0#32 ∨ mask ≠ 0#32 → t.cur.lfm.extractLsb' 32 32 = s.cur.lfm.extractLsb' 32 32) ∧
       (∀ l rest, lanesOfMask bad = l :: rest → mask = 0#32 → s.cur.lfm = 0#64 → code l - 0x20 < 16 →
         t.cur.lfm.extractLsb' 32 32 = BitVec.ofNat 32 (code l - 0x20 + l * 16))) ∧
  (∀ (s : State) (q : BitVec 2) (c : BitVec 3) (k o : BitVec 5) (d a b : BitVec 7) (l : Nat),
     let ea := s.groupAddr a b
     let m := s.active q
     let w := if k.getLsbD 0 then 8 else 4
     let kind : Acc := if 20 ≤ k.toNat then .atomicF else .atomic
     let la := fun l => s.cur.vGet2 a.toNat l
     (s.gpGuard q = true → s.cur.region = none → ea.toNat / 2 ^ 48 < 0x1FF → ea.toNat % accBytes c ≠ 0 →
       (Runs (.ldG q c d a b) s → StopsWith (.ldG q c d a b) s 0x22 0 ea 0) ∧
       (Runs (.stG q c d a b) s → StopsWith (.stG q c d a b) s 0x22 0 ea 0)) ∧
     (l < 32 → m.getLsbD l = true → (la l).toNat / 2 ^ 48 < 0x1FF → s.cur.viewAt (la l).toNat = none → (la l).toNat % w ≠ 0 →
       (∀ i, i < l → m.getLsbD i = true → ∃ loc attr sc, s.target kind (la i) w = .mem loc attr sc) →
       (∀ i va x, m.getLsbD i = true → s.target kind (la i) w ≠ .miss va x) →
       (Runs (.atom q d a o k) s → StopsWith (.atom q d a o k) s 0x17 l (la l) l) ∧
       (Runs (.red q d a o k) s → StopsWith (.red q d a o k) s 0x17 l (la l) l)))

/-- 06 R123, 14 R270: the hold of a lane load or store. -/
def Obligations.PageHold : Prop :=
  ∀ (s : State) (q : BitVec 2) (c : BitVec 3) (d a b : BitVec 7),
    let m := s.active q
    let missed := fun (k : Acc) (va acc : Nat) => ∃ l, m.getLsbD l = true ∧ s.target k (s.laneAddr a b l) (accBytes c) = .miss va acc
    ∀ f ∈ [(Instr.ldV q c d a b, Acc.load), (.stV q c d a b, .store)], Runs f.1 s → (∃ va acc, missed f.2 va acc) →
      ∃ t, exec f.1 s = .next t ∧
        t = { s with cur := t.cur, reqs := t.reqs, nextReq := t.nextReq, tick := s.tick + 1, limm := none } ∧
        t.cur = { s.cur with
          splits := t.cur.splits, repc := (match s.sp.rep with | some r => repcOf r.total r.done | none => s.cur.repc)
          holds := t.cur.holds, holdSplit := s.split, holdEpc := s.epc, holdPc := s.fpc, region := none } ∧
        (∀ e, e ≠ s.split → t.cur.splitAt e = (s.cur.splitAt e).map (fun p => if s.sp.rep.isSome then p.unmark else p)) ∧
        (∀ p, s.cur.splitAt s.split = some p →
          t.cur.splitAt s.split = some { p with pc := s.epc, st := .ready, rep := none, fresh := p.rep.isSome || p.fresh }) ∧
        t.live t.cur = false ∧
        ∀ va acc, missed f.2 va acc → ∃ r ∈ t.reqs, r.page = va / 2 ^ 16 * 2 ^ 16 ∧ r.root = s.job.root ∧ .group s.cur.gid ∈ r.owners ∧ r.id ∈ t.cur.holds

/-- 21 R366, 19 R336, 22 R408, R406, 03 R46: NOP, FENCE, YIELD and the two forms of WBASE. 19 R329, R330, 03 R57 to R64: CTLRD and CTLWR of every control register. -/
def Obligations.SystemResults : Prop :=
  (∀ (s : State) (q : BitVec 2) (o a : BitVec 7) (c : BitVec 4),
     (Runs (.nop q) s → Completes (.nop q) s {}) ∧
     (Runs (.fence q o) s → s.raceDue = none → Completes (.fence q o) s {}) ∧
     (Runs (.yield q) s → s.gpGuard q = true →
       Effects (.yield q) s { s with lastIssue := drop s.lastIssue (4 * s.cur.core + s.cur.slot % 4) } ∧
       ∀ t, exec (.yield q) s = .next t → ∀ p', t.cur.splitAt s.split = some p' → ∀ g ∈ s.allGroups, ∀ p ∈ g.splits, p.age < p'.age) ∧
     (Runs (.wbaseImm q c) s → s.Converged → s.gpGuard q = true → 32 * c.toNat + 32 ≤ s.cur.allot →
       Converges (.wbaseImm q c) s (s.mergeParked.setCur { s.mergeParked.cur with wbase := 32 * c.toNat })) ∧
     (Runs (.wbaseReg q a) s → s.Converged → s.gpGuard q = true → (s.cur.gGet a.toNat).toNat % 32 = 0 →
       (s.cur.gGet a.toNat).toNat + 32 ≤ s.cur.allot →
       Converges (.wbaseReg q a) s (s.mergeParked.setCur { s.mergeParked.cur with wbase := (s.cur.gGet a.toNat).toNat })) ∧
     (Runs (.wbaseImm q c) s → s.Converged → s.gpGuard q = true → s.cur.allot < 32 * c.toNat + 32 →
       exec (.wbaseImm q c) s = .next (s.mergeParked.stopFault 0x11 0 0#64 0xFF)) ∧
     (Runs (.wbaseReg q a) s → s.Converged → s.gpGuard q = true →
       (s.cur.gGet a.toNat).toNat % 32 ≠ 0 ∨ s.cur.allot < (s.cur.gGet a.toNat).toNat + 32 →
       exec (.wbaseReg q a) s = .next (s.mergeParked.stopFault 0x11 0 0#64 0xFF))) ∧
  (∀ (s : State) (q : BitVec 2) (d a : BitVec 7) (c : BitVec 10),
     let x := s.cur.gGet a.toNat
     let left := s.cur.lfm.extractLsb' 0 32 &&& ~~~(x.extractLsb' 0 32)
     (Runs (.ctlrd q d c) s → Completes (.ctlrd q d c) s (guarded s q (toG d
       (match c.toNat with
        | 0 => s.caps | 1 => s.cur.fpmode | 3 => s.cur.lfm | 4 => s.cur.repc | 5 => s.cur.tmr | 6 => s.cur.alarm
        | 7 => s.cur.trapvec | 8 => s.cur.trapinfo | 9 => s.cur.gtimeout | _ => 0#64)))) ∧
     (Runs (.ctlrdFflags q d) s → Completes (.ctlrdFflags q d) s (guarded s q (toG d s.cur.fflags))) ∧
     (Runs (.ctlwr q a c) s → s.gpGuard q = true → Effects (.ctlwr q a c) s (s.setCur
       (match c.toNat with
        | 1 => { s.cur with fpmode := x &&& 7#64 }
        | 7 => { s.cur with trapvec := x &&& 0x01FFFFFFFFFFFFFC#64 }
        | 9 => { s.cur with gtimeout := x &&& 0xFFFFFFFF#64 }
        | _ => s.cur))) ∧
     (Runs (.ctlwrFflags q a) s → s.gpGuard q = true → Effects (.ctlwrFflags q a) s (s.setCur { s.cur with fflags := x &&& 63#64 })) ∧
     (Runs (.ctlwrLfm q a) s → s.gpGuard q = true → Effects (.ctlwrLfm q a) s (s.setCur { s.cur with
       lfm := if left = 0#32 then 0#64 else s.cur.lfm.extractLsb' 32 32 ++ left })) ∧
     (Runs (.ctlwrTmr q a) s → s.gpGuard q = true → Effects (.ctlwrTmr q a) s (s.setCur { s.cur with tmr := x })) ∧
     (Runs (.ctlwrAlarm q a) s → s.gpGuard q = true → Effects (.ctlwrAlarm q a) s (s.setCur { s.cur with alarm := x })) ∧
     (Runs (.ctlwrRepc q a) s → s.gpGuard q = true → ∃ t, exec (.ctlwrRepc q a) s = .next t ∧ t.cur.repc = x ∧
       (s.setCur { s.cur with splits := s.cur.splits.map (fun p => { p with fresh := false }) }).Advanced t ∧
       t = { s with cur := { s.cur with splits := t.cur.splits, repc := x }, tick := s.tick + 1, limm := none }))

/-- 04 R74 to R77, 20 R357, 21 R380, R381: the prefixes LIMM and REP. That no field of a word of an unassigned cell names a register, so that a
mask before it is ILLEGAL_OP at the REP, is the model's reading, log 42. -/
def Obligations.PrefixResults : Prop :=
  ∀ (s : State) (i : BitVec 24) (n : BitVec 6) (m st : BitVec 3) (g : BitVec 7) (w : W32) (p : Instr),
    let resumed := s.sp.fresh = true ∧ s.cur.repc.getLsbD 63 = true
    let count := if n = 63#6 then (s.cur.gGet g.toNat).toNat % 2 ^ 32 else n.toNat
    let word := encode (.rep n m st g)
    let mask := word.toNat / 2 ^ 15 % 8
    let step := strideOf (word.toNat / 2 ^ 12 % 8)
    let starts := fun (done left : Nat) => s.fetch (s.sp.pc + 4#64).toNat = some w →
      (repeatable w = false ∨ (repRow w = none ∧ mask ≠ 0) ∨ (repRow w = some p ∧ repIllegal p mask step done (done + left - 1) = true) →
        StopsWith (.rep n m st g) s 0x10 word.toNat 0#64 0xFF) ∧
      (repeatable w = true → repRow w = some p → repIllegal p mask step done (done + left - 1) = false →
        s.cur.repOutside p mask step done (done + left - 1) = true → StopsWith (.rep n m st g) s 0x11 0 0#64 0xFF) ∧
      (repeatable w = true → (repRow w = none ∧ mask = 0) ∨ (repRow w = some p ∧ repIllegal p mask step done (done + left - 1) = false ∧
        s.cur.repOutside p mask step done (done + left - 1) = false) →
      ∃ t, exec (.rep n m st g) s = .next t ∧
        t = { s with cur := { s.cur with splits := t.cur.splits, repc := t.cur.repc }, tick := s.tick + 1, limm := none } ∧
        t.cur.repc = (if s.sp.fresh then repcDone s.cur.repc else s.cur.repc) ∧
        (∀ e, e ≠ s.split → t.cur.splitAt e = s.cur.splitAt e) ∧
        ∀ x, s.cur.splitAt s.split = some x →
          t.cur.splitAt s.split = some { x with rep := some ⟨done + left, done, word, w⟩, st := .ready, fresh := false })
    (Runs (.limm i) s → s.fetch (s.sp.pc + 4#64).toNat = some w →
      (rowOf w = some p → takesLimm p = true → exec (.limm i) s = .next { s with limm := some i }) ∧
      (rowOf w = none ∨ (rowOf w = some p ∧ takesLimm p = false) → StopsWith (.limm i) s 0x10 (encode (.limm i)).toNat 0#64 0xFF)) ∧
    (Runs (.rep n m st g) s → ¬resumed → 2 ^ 31 ≤ count → StopsWith (.rep n m st g) s 0x10 word.toNat 0#64 0xFF) ∧
    (Runs (.rep n m st g) s → ¬resumed → 0 < count → count < 2 ^ 31 → starts 0 count) ∧
    (Runs (.rep n m st g) s → resumed → 0 < (s.cur.repc.extractLsb' 0 32).toNat →
      starts (s.cur.repc.extractLsb' 32 31).toNat (s.cur.repc.extractLsb' 0 32).toNat) ∧
    (Runs (.rep n m st g) s → (¬resumed ∧ count = 0 ∨ resumed ∧ s.cur.repc.extractLsb' 0 32 = 0#32) →
      Branches (.rep n m st g) s s (s.sp.pc + 8#64))

/-- 02 R24: parking and merging of the convergent instructions; that a split parks and merges before its guard is looked at is the model's
choice, log 43. 02 R21, R22: what merges before an issue selection and which stacked paths enter the table; that a wait whose event has come
counts as ready, that two splits of a repeat merge only with equal progress, and which entry a path takes are the model's choice, log 12.
12 R245: the choice of a quadrant. -/
def Obligations.ConvergentParks : Prop :=
  ∀ (s : State) (i : Instr) (q : BitVec 2) (d a b n : BitVec 7) (c : BitVec 4),
    (i ∈ [.wbaseImm q c, .wbaseReg q a, .bara q d n, .barw q a n, .barm q a n, .spawn q d a b, .join q, .allocHeap q d a, .allocLog q d a,
      .rdecl q a n, .rview q d n] → (i = .rdecl q a n → s.cur.kind ≠ .task) → Runs i s →
    (¬s.Converged → exec i s = .next { s.setSplit { s.sp with st := .parked } with tick := s.tick + 1, limm := none }) ∧
    (s.Converged → s.gpGuard q = false → Converges i s s.mergeParked) ∧
    (∀ p, s.cur.splitAt s.split = some p → ∃ r ∈ s.mergeParked.cur.splits, r.entry = s.mergeParked.split ∧ r.pc = p.pc ∧
      (∀ l, r.mask.getLsbD l = s.cur.splits.any (fun x => x.pc == p.pc && x.mask.getLsbD l)) ∧
      ∀ x ∈ s.mergeParked.cur.splits, x.pc = p.pc → x = r)) ∧
  (∀ g : Group,
    (g.handler ≠ none ∨ g.region ≠ none → s.settle g = g) ∧
    (g.handler = none → g.region = none → g.stack.length ≤ 16 →
      let t := s.settle g
      t = { g with splits := t.splits, stack := t.stack, pend := t.pend } ∧ (∃ l, g.stack = l ++ t.stack) ∧
      (t.stack = [] ∨ 4 ≤ t.splits.length) ∧
      (t.splits.Pairwise (fun p r => ¬(s.readyAgain g p = true ∧ s.readyAgain g r = true ∧ p.pc = r.pc ∧ p.rep = r.rep))) ∧
      (∀ (pc : W64) (l : Nat),
        ((∃ p ∈ t.splits, p.pc = pc ∧ p.mask.getLsbD l = true) ∨ ∃ p ∈ t.stack, p.pc = pc ∧ p.mask.getLsbD l = true) ↔
          (∃ p ∈ g.splits, p.pc = pc ∧ p.mask.getLsbD l = true) ∨ ∃ p ∈ g.stack, p.pc = pc ∧ p.mask.getLsbD l = true) ∧
      (∀ p ∈ g.splits, (s.readyAgain g p = false → p ∈ t.splits) ∧
        (s.readyAgain g p = true → ∃ r ∈ t.splits, s.readyAgain g r = true ∧ r.pc = p.pc ∧ r.rep = p.rep ∧ r.entry ≤ p.entry ∧
          p.mask &&& ~~~r.mask = 0#32)) ∧
      (g.stack = [] → ∀ r ∈ t.splits, ∃ p ∈ g.splits, r.entry = p.entry ∧ r.pc = p.pc ∧ r.rep = p.rep))) ∧
  ∀ core quad : Nat,
    let l := s.quadrantSplits core quad
    let prio := fun x : Group × Split => ((look s.jobs x.1.job).getD Job.blank).prio
    let last := look s.lastIssue (4 * core + quad)
    (∀ x, x ∈ l ↔ x.1 ∈ s.allGroups ∧ (x.1.kind = .root ∨ x.1.kind = .task) ∧ x.1.core = core ∧ x.1.slot % 4 = quad ∧ x.2 ∈ s.canIssue x.1) ∧
    ((∀ x ∈ l, prio x ≤ 8) →
      (s.quadrantPick core quad = none ↔ l = []) ∧
      ∀ x, s.quadrantPick core quad = some x → x ∈ l ∧
        ((∃ y ∈ l, 64 ≤ y.2.passed) → 64 ≤ x.2.passed ∧ ∀ y ∈ l, y.2.passed ≤ x.2.passed ∧
          (y.2.passed = x.2.passed → x.1.slot ≤ y.1.slot ∧ (y.1.slot = x.1.slot → x.2.entry ≤ y.2.entry))) ∧
        ((∀ y ∈ l, y.2.passed < 64) → (∀ y ∈ l, prio x ≤ prio y) ∧
          ((∃ y ∈ l, prio y = prio x ∧ y.2.greedy = true ∧ last.any (fun p => p.1 == y.1.gid) = true) →
            x.2.greedy = true ∧ last.any (fun p => p.1 == x.1.gid) = true) ∧
          ((∀ y ∈ l, prio y = prio x → y.2.greedy = false ∨ last.any (fun p => p.1 == y.1.gid) = false) →
            ∀ y ∈ l, prio y = prio x → x.2.age ≤ y.2.age ∧ (y.2.age = x.2.age → x.2.entry ≤ y.2.entry))))

/-- 18 R316 to R318, R321, 19 R322, 21 R382: the group forms of the transfers. 18 R317, R321, 19 R322, 21 R382, 02 R20, R21: the lane forms of
the transfers, over any number of targets; that the paths take the free entries lowest first is the model's choice (log 12). -/
def Obligations.BranchResults : Prop :=
  (∀ (s : State) (q : BitVec 2) (i : BitVec 24) (a : BitVec 7), s.gpGuard q = true →
     let here := if s.limm.isSome then s.sp.pc + 4#64 else s.sp.pc
     let off : W64 := match s.limm with | some h => (h ++ i).signExtend 64 | none => i.signExtend 64
     let t := here + off * 4#64
     let r := s.cur.gGet a.toNat &&& 0xFFFFFFFFFFFFFFFC#64
     (Runs (.braG q i) s → badTarget t = false → Branches (.braG q i) s s t) ∧
     (Runs (.callG q i) s → badTarget t = false → Branches (.callG q i) s (s.setCur (s.cur.gSet 95 (here + 4#64))) t) ∧
     (Runs (.brxG q a) s → badTarget r = false → Branches (.brxG q a) s s r) ∧
     (Runs (.retG q a) s → badTarget r = false → Branches (.retG q a) s s r) ∧
     (Runs (.braG q i) s → badTarget t = true → StopsWith (.braG q i) s 0x10 (encode (.braG q i)).toNat t 0xFF) ∧
     (Runs (.callG q i) s → badTarget t = true → StopsWith (.callG q i) s 0x10 (encode (.callG q i)).toNat t 0xFF) ∧
     (Runs (.brxG q a) s → badTarget r = true → StopsWith (.brxG q a) s 0x10 (encode (.brxG q a)).toNat r 0xFF) ∧
     (Runs (.retG q a) s → badTarget r = true → StopsWith (.retG q a) s 0x10 (encode (.retG q a)).toNat r 0xFF)) ∧
  (∀ (s : State) (q : BitVec 2) (i : BitVec 24) (a : BitVec 7),
     let m := s.active q
     let here := if s.limm.isSome then s.sp.pc + 4#64 else s.sp.pc
     let off : W64 := match s.limm with | some h => (h ++ i).signExtend 64 | none => i.signExtend 64
     let rel := fun l => if m.getLsbD l then here + off * 4#64 else here + 4#64
     let abs := fun l => if m.getLsbD l then s.cur.vGet2 a.toNat l &&& 0xFFFFFFFFFFFFFFFC#64 else s.sp.pc + 4#64
     let linked := s.setCur (s.cur.vSet2 m 126 (fun _ => here + 4#64))
     let forms : List (Instr × W32 × (Nat → W64) × State) :=
       [(.braV q i, m, rel, s), (.callV q i, m, rel, linked), (.brxV q a, s.laneMask, abs, s), (.retV q a, s.laneMask, abs, s)]
     ∀ f ∈ forms, let dest := f.2.2.1; let u := f.2.2.2
       Runs f.1 s →
       (∀ l, f.2.1.getLsbD l → badTarget (dest l) = true → (∀ k, k < l → f.2.1.getLsbD k → badTarget (dest k) = false) →
         StopsWith f.1 s 0x10 (encode f.1).toNat (dest l) 0xFF) ∧
       ((∀ l, f.2.1.getLsbD l → badTarget (dest l) = false) →
         (s.laneMask = 0#32 → Completes f.1 s {}) ∧
         (∀ t, s.laneMask ≠ 0#32 → (∀ l, s.laneMask.getLsbD l → dest l = t) → Branches f.1 s u t) ∧
         (∀ lo rest p, rest ≠ [] → (lo :: rest).Pairwise (fun x y => x.toNat < y.toNat) → (∀ l, s.laneMask.getLsbD l → dest l ∈ lo :: rest) →
           s.cur.splitAt s.split = some p →
           let pick := fun t => maskOf (fun l => s.laneMask.getLsbD l && dest l == t)
           let free := s.cur.freeEntries
           let stacked := rest.drop free.length
           (∀ x ∈ lo :: rest, pick x ≠ 0#32) →
           (16 < s.cur.stack.length + stacked.length → StopsWith f.1 s 0x12 0 0#64 0xFF) ∧
           (s.cur.stack.length + stacked.length ≤ 16 → ∃ t, exec f.1 s = .next t ∧
             t = { u with cur := t.cur, tick := s.tick + 1, limm := none } ∧
             t.cur = { u.cur with splits := t.cur.splits, stack := stacked.map (fun x => ⟨x, pick x⟩) ++ s.cur.stack, repc := t.cur.repc } ∧
             t.cur.splitAt s.split = some { p with pc := lo, mask := pick lo ||| (p.mask &&& ~~~s.laneMask), st := .ready, fresh := false } ∧
             (∀ (k e : Nat) (x : W64), free[k]? = some e → rest[k]? = some x →
               t.cur.splitAt e = some ⟨e, x, pick x, .ready, none, false, 0, p.age, false⟩) ∧
             ∀ e, e ≠ s.split → (∀ k : Nat, free[k]? = some e → rest.length ≤ k) → t.cur.splitAt e = s.cur.splitAt e))))

/-- 13 R253 to R255, R259: State.take, which every fault of an instruction goes through. 22 R399, 13 R256: TRAP and ERET; that ERET drops
bits 1:0 of EPC is the model's reading, log 18. -/
def Obligations.TrapAndReturn : Prop :=
  (∀ (s : State) (e : Exc) (slot : Nat) (p : Page),
     (s.CanTrap slot p → s.Enters s.cur e slot p.pa (s.take e)) ∧
     (s.fatal = false → s.job.freeSlot = none → s.Waiting (s.setCur s.cur.leaveRegion) (s.take e) (.slot (some e))) ∧
     (s.fatal = false → s.job.freeSlot = some slot →
       let u := s.putJob { s.job with slots := slot :: s.job.slots }
       ∀ w, u.devPage (keyTrap u.cur.job slot) u.job.root u.job.queue (u.job.trapArea + 64 + 64 * slot) true = .waits w →
         w.Waiting (w.setCur w.cur.leaveRegion) (s.take e) (.record e slot)) ∧
     (s.fatal = true ↔ s.cur.kind = .seq ∨ s.cur.trapvec &&& 0x01FFFFFFFFFFFFFC#64 = 0#64 ∨ s.cur.handler ≠ none) ∧
     (s.fatal = true → s.Placed → s.job.phase = .running →
       let t := s.take e
       (∃ j, look t.jobs s.cur.job = some j ∧ j.phase = .ending 1 ∧ j.adds = [] ∧ j.partials = [] ∧ j.folds = [] ∧ j.armed = s.job.armed.filter Armed.fired) ∧
       (∀ g : Group, g.job = s.cur.job → t.live g = false) ∧
       t.cur = s.cur ∧
       (s.job.recorded = false → s.devPage (keyRecord s.job.id) s.job.root s.job.queue (s.job.trapArea + 64) true = .page p →
         s.isMmio p.pa = false → t.bytesAt p.pa 64 = s.recordOf e 0 ∧ ∀ y, y < p.pa ∨ p.pa + 64 ≤ y → t.byteAt y = s.byteAt y) ∧
       (s.job.recorded = true → s.devPage (keyRecord s.job.id) s.job.root s.job.queue s.job.trapArea true = .page p →
         s.isMmio (p.pa + 4) = false → t.natAt (p.pa + 4) 4 = (s.natAt (p.pa + 4) 4 + 1) % 2 ^ 32 ∧ ∀ y, y < p.pa + 4 ∨ p.pa + 8 ≤ y → t.byteAt y = s.byteAt y))) ∧
  (∀ (s : State) (q : BitVec 2) (n : BitVec 7) (slot : Nat) (p : Page), s.gpGuard q = true →
     (Runs (.trap q n) s → s.CanTrap slot p → ∃ t, exec (.trap q n) s = .next t ∧
       s.Enters { s.cur with repc := if s.sp.fresh then repcDone s.cur.repc else s.cur.repc }
         ⟨0x1C, 1, n.toNat, s.sp.pc + 4#64, s.sp.pc, 0#64, 0xFF, s.cur.pdl, s.cur.pdh, none⟩ slot p.pa t) ∧
     (∀ k, Runs (.eret q) s → s.cur.handler = some (k, slot) →
       s.devPage (keyTrap s.cur.job slot) s.job.root s.job.queue (s.job.trapArea + 64 + 64 * slot) false = .page p →
       let off := s.cur.lfm.extractLsb' 0 32
       let ended := fun x : Split => if x.mask &&& ~~~off = 0#32 then { x with mask := 0#32, st := .ready } else x
       let pc := BitVec.ofNat 64 (s.devNat (p.pa + 8) 8) &&& 0xFFFFFFFFFFFFFFFC#64
       let repc := if s.sp.fresh then repcDone s.cur.repc else s.cur.repc
       ∃ t, exec (.eret q) s = .next t ∧
         t = { s with
           cur := t.cur, jobs := put s.jobs s.job.id { s.job with slots := s.job.slots.erase slot }, tick := s.tick + 1, limm := none } ∧
         t.cur = { s.cur with trapinfo := 0#64, handler := none, held := [], off, repc, splits := t.cur.splits } ∧
         (∀ e, e ≠ s.split → t.cur.splitAt e = (s.cur.splitAt e).map (fun x => ended x.unmark)) ∧
         ∀ x, s.cur.splitAt s.split = some x →
           t.cur.splitAt s.split = some (ended { x with pc, st := .ready, rep := none, fresh := repc.getLsbD 63 })) ∧
     (Runs (.eret q) s → s.cur.handler = none → StopsWith (.eret q) s 0x10 (encode (.eret q)).toNat 0#64 0xFF))

/-- 03 R63, 13 R251, R252, R255, 08 R165, 02 R27, 10 R205: the events at a boundary. That one lane trap delivers the reports of its split and of
ended splits, and in the last split all, is the model's reading, log 18. -/
def Obligations.BoundaryEvents : Prop :=
  ∀ (s : State) (slot : Nat) (p : Page),
    let at' := fun code : Nat => (⟨code, 1, 0, s.epc, s.epc, 0#64, 0xFF, s.cur.pdl, s.cur.pdh, none⟩ : Exc)
    let cause := (s.cur.lfm.extractLsb' 32 4).toNat
    (s.CanTrap slot p →
      (s.timerDue s.cur = true → ∃ t, exec .timer s = .next t ∧ s.Enters { s.cur with tmr := 0#64 } (at' 0x1D) slot p.pa t) ∧
      (s.alarmDue s.cur = true → ∃ t, exec .alarm s = .next t ∧ s.Enters { s.cur with alarm := 0#64 } (at' 0x1E) slot p.pa t) ∧
      (∀ r, s.reportDue = some r → r.cls ≠ 2 → ∃ t, exec .trapEntry s = .next t ∧
        s.Enters { s.cur with pend := s.cur.pend.erase r }
          ⟨r.code, r.cls, r.detail, s.epc, r.fpc, r.addr, 0xFF, r.pdl, r.pdh, if r.code = 0x30 then some (r.wl, r.wh) else none⟩ slot p.pa t) ∧
      (∀ r, s.reportDue = some r → r.cls = 2 → r.code ≠ 0x30 → ∃ t, exec .trapEntry s = .next t ∧
        s.Enters { s.cur with pend := s.cur.pend.filter (fun x => !(x.cls == 2 && (x.split == s.split || x.split == 4 || s.lastSplit))) }
          ⟨if cause = 0 then r.code else 0x20 + cause, 2, r.detail, s.epc, r.fpc, r.addr, r.detail % 32, r.pdl, r.pdh, none⟩ slot p.pa t)) ∧
    (s.fatal = false → s.job.freeSlot = none → (s.cur.splitAt s.split).isSome →
      ∀ i, (i = Instr.timer ∧ s.timerDue s.cur = true) ∨ (i = .alarm ∧ s.alarmDue s.cur = true) ∨ (i = .trapEntry ∧ s.reportDue ≠ none) →
        Waits i s (s.setCur s.cur.leaveRegion) (.slot none)) ∧
    (∀ w since, s.sp.st = .blocked w since → s.cur.gtimeout ≠ 0#64 → since + 1000 * s.cur.gtimeout.toNat < s.time →
      match w with
      | .peer lc lane addr => StopsWith .grpAbsent s 0x19 (lane + 0x3FF * 2 ^ 5 + lc * 2 ^ 15) addr lane
      | .host lc => StopsWith .grpAbsent s 0x19 (0x3FF * 2 ^ 5 + lc * 2 ^ 15) 0#64 0
      | .members got left =>
        let detail := fun r : MemberRef => r.lane + r.pos % 2 ^ 10 * 2 ^ 5 + r.lcore * 2 ^ 15
        (∀ r, (r, none) ∈ got → (∀ x, (x, none) ∈ got → x = r ∨ r.lane < x.lane ∨ (r.lane = x.lane ∧ r.pos < x.pos)) →
          StopsWith .grpAbsent s 0x1A (detail r) r.addr r.lane) ∧
        (∀ r rest, (∀ g ∈ got, g.2 ≠ none) → left = r :: rest → StopsWith .grpAbsent s 0x19 (detail r) r.addr r.lane)
      | _ => exec .grpAbsent s = .next { s with tick := s.tick + 1 }) ∧
    (s.timerDue s.cur = false → exec .timer s = .next { s with tick := s.tick + 1 }) ∧
    (s.alarmDue s.cur = false → exec .alarm s = .next { s with tick := s.tick + 1 }) ∧
    (s.reportDue = none → exec .trapEntry s = .next { s with tick := s.tick + 1 }) ∧
    (s.timedOut s.cur s.sp = false → exec .grpAbsent s = .next { s with tick := s.tick + 1 })

/-- 18 R310, R311, 12 R246, R247: the barrier network. -/
def Obligations.BarrierResults : Prop :=
  ∀ (s : State) (q : BitVec 2) (d a n : BitVec 7), s.Converged → s.gpGuard q = true → s.raceDue = none →
    let u := s.mergeParked
    let k := n.toNat
    let b := s.team.bar k
    let bit := BitVec.ofNat 16 (2 ^ s.cur.grp)
    let arrived := b.arrived ||| bit
    let b' : TBar := if b.mask &&& ~~~arrived = 0#16 then { b with gen := b.gen + 1#64, arrived := 0#16 } else { b with arrived }
    let l := s.job.bar (k - 16)
    let l' : LBar := if l.arrived + 1#48 = l.count then { l with gen := l.gen + 1#64, arrived := 0#48 } else { l with arrived := l.arrived + 1#48 }
    let x := (s.cur.gGet a.toNat).toNat
    let member := fun (i : Instr) (cause : Nat) => exec i s = .next (u.stopFault 0x18 cause 0#64 0xFF)
    (Runs (.bara q d n) s →
      (k < 16 → s.cur.kind = .root → b.mask &&& bit ≠ 0#16 → b.arrived &&& bit = 0#16 →
        Converges (.bara q d n) s ((u.putTeam { s.team with bars := put s.team.bars k b' }).setCur (u.cur.gSet d.toNat b.gen))) ∧
      (16 ≤ k → l.count ≠ 0#48 →
        Converges (.bara q d n) s ((u.putJob { s.job with bars := put s.job.bars (k - 16) l' }).setCur (u.cur.gSet d.toNat l.gen))) ∧
      (k < 16 → s.cur.kind ≠ .root → member (.bara q d n) 6) ∧
      (k < 16 → s.cur.kind = .root → b.mask &&& bit = 0#16 → member (.bara q d n) 1) ∧
      (k < 16 → s.cur.kind = .root → b.mask &&& bit ≠ 0#16 → b.arrived &&& bit ≠ 0#16 → member (.bara q d n) 2) ∧
      (16 ≤ k → l.count = 0#48 → member (.bara q d n) 5)) ∧
    (Runs (.barw q a n) s →
      (k < 16 → s.cur.kind ≠ .root → member (.barw q a n) 6) ∧
      (16 ≤ k ∨ s.cur.kind = .root → x < (s.barGen s.cur k).toNat → Converges (.barw q a n) s u) ∧
      (16 ≤ k ∨ s.cur.kind = .root → (s.barGen s.cur k).toNat ≤ x →
        ∃ t, exec (.barw q a n) s = .next t ∧ u.Waiting u t (.barrier k (s.cur.gGet a.toNat)))) ∧
    (Runs (.barm q a n) s →
      (k < 16 → s.cur.kind = .root → 0 < x → x < 2 ^ s.team.groups → b.arrived = 0#16 →
        Converges (.barm q a n) s (u.putTeam { s.team with bars := put s.team.bars k { b with mask := BitVec.ofNat 16 x } })) ∧
      (16 ≤ k → 0 < x → x < 2 ^ 48 → l.arrived = 0#48 →
        Converges (.barm q a n) s (u.putJob { s.job with bars := put s.job.bars (k - 16) { l with count := BitVec.ofNat 48 x } })) ∧
      (k < 16 → s.cur.kind ≠ .root → member (.barm q a n) 6) ∧
      (k < 16 → s.cur.kind = .root → (x = 0 ∨ 2 ^ s.team.groups ≤ x) → member (.barm q a n) 4) ∧
      (16 ≤ k → (x = 0 ∨ 2 ^ 48 ≤ x) → member (.barm q a n) 4) ∧
      (k < 16 → s.cur.kind = .root → 0 < x → x < 2 ^ s.team.groups → b.arrived ≠ 0#16 → member (.barm q a n) 3) ∧
      (16 ≤ k → 0 < x → x < 2 ^ 48 → l.arrived ≠ 0#48 → member (.barm q a n) 3))

/-- 10 R193: bb_update on a word of 64 bits, read through the fields of R192; that bits 62:60 stay is the model's reading, log 25. 18 R312, R313, 22 R404, R405, 10 R194: byte barriers and WAIT. -/
def Obligations.ByteBarrierResults : Prop :=
  (∀ (w de da c : Nat), w < 2 ^ 64 → c < 8 →
     let n := bbUpdateWord w de da c
     let e := bbExp w + de
     let a := bbArr w + da
     n < 2 ^ 64 ∧ bitsOf n 62 60 = bitsOf w 62 60 ∧
     (bbErr w = true → bbErr n = true ∧ bbCause n = bbCause w) ∧
     (e < 2 ^ 28 → a < 2 ^ 28 →
       ((0 < e ∧ e ≤ a) → bbPhase n = 1 - bbPhase w ∧ bbExp n = 0 ∧ bbArr n = a - e) ∧
       ((e = 0 ∨ a < e) → bbPhase n = bbPhase w ∧ bbExp n = e ∧ bbArr n = a) ∧
       (bbErr w = false → bbErr n = decide (c ≠ 0) ∧ (c ≠ 0 → bbCause n = c))) ∧
     ((2 ^ 28 ≤ e ∨ 2 ^ 28 ≤ a) → bbErr n = true ∧ (bbErr w = false → bbCause n = 6))) ∧
  (∀ (s : State) (q : BitVec 2) (a b : BitVec 7), s.gpGuard q = true →
     let va := s.cur.gGet a.toNat
     let x := (s.cur.gGet b.toNat).toNat
     let monitor := match s.sp.st, s.cur.monitor with
       | .blocked .monitor _, some m => if m.split = s.split then none else some m
       | .blocked .phase _, some m => if m.split = s.split then none else some m
       | _, _ => none
     let disarmed := s.setCur { s.cur with monitor }
     let asleep := fun loc => s.setCur { s.cur with monitor := some ⟨s.split, loc, s.hist.length, false⟩ }
     (∀ team off, s.bbRef va.toNat = .at team off →
       let loc := scratchLoc s.cur.job team off
       let w := s.natAt loc 8
       (Runs (.bbinit q a b) s → Effects (.bbinit q a b) s (s.storeNat loc 8 (min x (2 ^ 28 - 1)))) ∧
       (s.poisoned loc 8 = false →
         (Runs (.bbexp q a b) s → Effects (.bbexp q a b) s (s.bbUpdate s.cur.job team off x 0 0)) ∧
         (Runs (.bbarr q a b) s → Effects (.bbarr q a b) s (s.bbUpdate s.cur.job team off 0 x 0)) ∧
         (Runs (.bbwait q a b) s → bbPhase w ≠ x % 2 → bbErr w = false → Effects (.bbwait q a b) s disarmed) ∧
         (Runs (.bbwait q a b) s → bbPhase w ≠ x % 2 → bbErr w = true → Effects (.bbwait q a b) s (disarmed.setCur { disarmed.cur with
           pend := s.cur.pend ++ [⟨3, 0x32, bbCause w, s.fpc, va, s.split, s.cur.pdl, s.cur.pdh, 0#64, 0#64, s.cur.handler.isSome⟩] })) ∧
         (Runs (.bbwait q a b) s → bbPhase w = x % 2 → Waits (.bbwait q a b) s (asleep loc) .phase)) ∧
       (s.poisoned loc 8 = true → ∀ i ∈ [Instr.bbexp q a b, .bbarr q a b, .bbwait q a b], Runs i s →
         ∃ t, exec i s = .next t ∧ s.EndsUpset t va)) ∧
     (∀ i ∈ [Instr.bbinit q a b, .bbexp q a b, .bbarr q a b, .bbwait q a b], Runs i s →
       (∀ c, s.bbRef va.toNat = .bad c → StopsWith i s c 0 va 0) ∧
       (∀ lc, s.bbRef va.toNat = .waits lc → Waits i s s (.peer lc 0 va))) ∧
     (Runs (.wait q a b) s →
       (s.sleeping = true → Effects (.wait q a b) s disarmed) ∧
       (∀ loc attr sc, s.sleeping = false → s.target .monitor va 8 = .mem loc attr sc →
         (s.natAt loc 8 ≠ x → Effects (.wait q a b) s disarmed) ∧
         (s.natAt loc 8 = x → Waits (.wait q a b) s (asleep loc) .monitor))))

/-- 10 R202 to R205, 19 R323: CKINIT, CKRES, CKPUB, CKACQ, CKREL. That the sequencer's CKACQ takes its footprint entry whether the table is full
or not, and the address a failed slot reports, are the model's reading, log 25. -/
def Obligations.CaskResults : Prop :=
  ∀ (s : State) (q : BitVec 2) (d a : BitVec 7) (c : BitVec 3) (n : BitVec 4) (tm : Nat) (k : Cask), s.gpGuard q = true →
    let x := (s.cur.gGet a.toNat).toNat
    let job := s.cur.job
    let T := s.teamOf job tm
    let seq := s.cur.kind = .seq
    let with' := fun (u : State) (k' : Cask) => u.putTeam { T with casks := put T.casks n.toNat k' }
    let base := bitsOf x 18 0
    let slots := bitsOf x 26 19 + 1
    let size := bitsOf x 44 27
    let keep := fun i => s.ops.filter (fun o => !(o.job == job && o.team == tm && o.kind == .slot n.toNat i))
    let lo := fun i => 0x1FF0 * 2 ^ 44 + (k.base + roundUp (8 * k.slots) 64) + i * k.slotB
    (Runs (.ckinit q a n) s → tm = s.cur.team → s.cur.kind ≠ .task → n.toNat < s.job.casks →
      x < 2 ^ 45 → base % 64 = 0 → size % 64 = 0 → 64 ≤ size → size ≤ 262080 →
      base + roundUp (8 * slots) 64 + slots * size ≤ T.bytes →
      (∀ k0, look T.casks n.toNat = some k0 → ∀ y ∈ k0.st, y ≠ .staged) →
      Effects (.ckinit q a n) s (with' ((List.range slots).foldl (fun u i => u.storeNat (scratchLoc job tm (base + 8 * i)) 8 0) s)
        ⟨base, slots, size, 0, 0, List.replicate slots .free, []⟩)) ∧
    (n.toNat < s.job.casks → look T.casks n.toNat = some k →
      (¬seq ∧ s.cur.kind ≠ .task ∧ c = 0#3 ∧ tm = s.cur.team) ∨
        (seq ∧ (s.job.lcoreOf (8 * s.cur.grp + c.toNat)).team = some tm ∧ (s.job.lcoreOf (8 * s.cur.grp + c.toNat)).core.isSome) →
      (Runs (.ckres q d c n) s → k.st.getD k.rp .free = .free →
        Effects (.ckres q d c n) s ((with' (s.storeNat (scratchLoc job tm (k.base + 8 * k.rp)) 8 0)
          { k with st := k.st.set k.rp .reserved, rp := (k.rp + 1) % k.slots, failed := k.failed.filter (fun p => p.1 != k.rp) }).setCur
          (s.cur.gSet d.toNat (BitVec.ofNat 64 k.rp)))) ∧
      (Runs (.ckres q d c n) s → k.st.getD k.rp .free ≠ .free → Waits (.ckres q d c n) s s (.cask T.lcore n.toNat false)) ∧
      (Runs (.ckpub q a c n) s → x < k.slots → k.st.getD x .free = .reserved →
        Effects (.ckpub q a c n) s (with' { s with ops := keep x } { k with st := k.st.set x .filled })) ∧
      (Runs (.ckrel q a c n) s → x < k.slots → k.st.getD x .free = .acquired →
        Effects (.ckrel q a c n) s (with' { s with ops := keep x } { k with st := k.st.set x .free })) ∧
      (Runs (.ckacq q d c n) s → k.st.getD k.ap .free ≠ .filled → Waits (.ckacq q d c n) s s (.cask T.lcore n.toNat true)) ∧
      (Runs (.ckacq q d c n) s → k.st.getD k.ap .free = .filled →
        let report := match look k.failed k.ap with
          | some cause => [(⟨3, 0x32, cause, s.fpc, BitVec.ofNat 64 ((if seq then 0x1FF1 * 2 ^ 44 + T.lcore * 2 ^ 32 else 0x1FF0 * 2 ^ 44) +
              (k.base + 8 * k.ap)), s.split, s.cur.pdl, s.cur.pdh, 0#64, 0#64, s.cur.handler.isSome⟩ : Pend)]
          | none => []
        let g := s.cur.gSet d.toNat (BitVec.ofNat 64 k.ap)
        Effects (.ckacq q d c n) s ((with' (if seq then { s with
              ops := keep k.ap ++ [⟨s.nextId, job, tm, s.cur.gid, T.core, .slot n.toNat k.ap, tm, 0, false, s.cur.pdh, s.cur.pdl,
                [(lo k.ap, k.slotB)], [], s.time, 0, [], [], []⟩]
              nextId := s.nextId + 1 } else { s with ops := keep k.ap })
            { k with st := k.st.set k.ap .acquired, ap := (k.ap + 1) % k.slots }).setCur { g with pend := s.cur.pend ++ report })))

/-- 22 R392, R393, 20 R349, 09 R173, R174, 18 R306: SPAWN, JOIN, ALLOC.HEAP, ALLOC.LOG. 09 R178: the fold of JOIN, one reducer after the other,
its views in the order segment 0, child 1, segment 1 and on. That a view's bytes stand at viewLoc of its number and that the folded views take
new places, State.placeFold, is the model's reading, log 17. -/
def Obligations.TaskResults : Prop :=
  ∀ (s : State) (q : BitVec 2) (d a b : BitVec 7), s.Converged → s.gpGuard q = true →
    let u := s.mergeParked
    let g := s.cur
    let up := fun n => roundUp n 64
    let need := (g.gGet d.toNat).toNat
    let heap := up (g.gGet 91).toNat
    let log := up (g.gGet 93).toNat
    let heap2 := heap + up (need % 2 ^ 32)
    let log2 := log + up (need / 2 ^ 32)
    let pc := g.gGet a.toNat &&& 0xFFFFFFFFFFFFFFFC#64
    let size := (g.gGet a.toNat).toNat
    let hs := roundUp size 16
    let ls := roundUp size 16 + 16
    let budget := fun (i : Instr) (detail : Nat) => exec i s = .next (u.stopFault 0x14 detail 0#64 0xFF)
    let held := g.views ++ g.childViews
    let spoilt := ∃ v ∈ held, v.inWindow = true ∧ 1 < (held.filter (fun x => x.red == v.red)).length ∧ u.poisoned (viewLoc v.key 0) v.size = true
    (Runs (.spawn q d a b) s → badTarget pc = true → exec (.spawn q d a b) s = .next (u.stopFault 0x10 (encode (.spawn q d a b)).toNat 0#64 0xFF)) ∧
    (∀ c p, Runs (.spawn q d a b) s → badTarget pc = false → spawnPedigree g.pdh g.pdl = some (c, p) →
      ((g.gGet 92).toNat < heap2 → budget (.spawn q d a b) 0) ∧
      (heap2 ≤ (g.gGet 92).toNat → (g.gGet 94).toNat < log2 → budget (.spawn q d a b) 1) ∧
      (heap2 ≤ (g.gGet 92).toNat → log2 ≤ (g.gGet 94).toNat → s.dequeRoom g.core = false → budget (.spawn q d a b) 2)) ∧
    (∀ c p, Runs (.spawn q d a b) s → badTarget pc = false → spawnPedigree g.pdh g.pdl = some (c, p) →
      heap2 ≤ (g.gGet 92).toNat → log2 ≤ (g.gGet 94).toNat → s.dequeRoom g.core = true →
      let g1 := (u.cur.gSet 91 (BitVec.ofNat 64 heap2)).gSet 93 (BitVec.ofNat 64 log2)
      Converges (.spawn q d a b) s ({ u with deques := put s.deques g.core (⟨g.job, g.team, g.gid, g.spawned + 1, pc, g.gGet b.toNat,
          BitVec.ofNat 64 heap, BitVec.ofNat 64 heap2, BitVec.ofNat 64 log, BitVec.ofNat 64 log2, c.1, c.2, g.fpmode, g.grp, g.lcore, false⟩
          :: s.deque g.core) }.setCur
        { g1 with pdh := p.1, pdl := p.2, children := g.children + 1, spawned := g.spawned + 1, seqNo := [] })) ∧
    (∀ p, Runs (.join q) s → s.raceDue = none → joinPedigree g.pdh g.pdl = some p →
      (g.children ≠ 0 → ∃ t, exec (.join q) s = .next t ∧ u.Waiting u t .join) ∧
      (g.children = 0 → spoilt → ∃ t, exec (.join q) s = .next t ∧ u.EndsUpset t 0#64) ∧
      (g.children = 0 → ¬spoilt →
        let r := u.joinMerge
        Converges (.join q) s (r.2.foldl State.placeFold (r.1.setCur { u.cur with
          fflags := g.fflags ||| g.childFlags, childFlags := 0#64, views := [], childViews := [], spawned := 0, pdh := p.1, pdl := p.2, seqNo := [] }))) ∧
      (g.views = [] → g.childViews = [] → u.joinMerge = (u, []))) ∧
    (let vs := held
     let r := u.joinMerge
     r.1 = { u with mem := r.1.mem, hist := r.1.hist } ∧
     (∀ y, (∀ v ∈ vs, y < viewLoc v.key 0 ∨ viewLoc v.key 0 + 2 ^ 19 ≤ y) → r.1.byteAt y = u.byteAt y) ∧
     ((vs.map View.key).Nodup → ∀ n, n < 16 →
       (vs.filter (fun v => v.red == n) = [] → r.2.filter (fun v => v.red == n) = []) ∧
       ∀ v rest, (vs.filter (fun v => v.red == n)).Perm (v :: rest) → (v :: rest).Pairwise (fun x y => x.ord < y.ord) →
         r.2.filter (fun v => v.red == n) = [{ v with ord := 0 }] ∧
         let desc := (look s.job.redDescs n).getD []
         let w := groupWidth (redType desc)
         ∀ k, k < redSize desc / w → r.1.natAt (viewLoc v.key (k * w)) w = rest.foldl
           (fun x y => groupStep (redOp desc) (redType desc) x (u.natAt (viewLoc y.key (k * w)) w) % 2 ^ (8 * w)) (u.natAt (viewLoc v.key (k * w)) w))) ∧
    (Runs (.allocHeap q d a) s → size < 2 ^ 32 → (g.gGet 91).toNat + hs ≤ (g.gGet 92).toNat →
      Converges (.allocHeap q d a) s (u.setCur ((u.cur.gSet 91 (g.gGet 91 + BitVec.ofNat 64 hs)).gSet d.toNat (g.gGet 91)))) ∧
    (Runs (.allocHeap q d a) s → 2 ^ 32 ≤ size ∨ (g.gGet 92).toNat < (g.gGet 91).toNat + hs → budget (.allocHeap q d a) 0) ∧
    (Runs (.allocLog q d a) s → 2 ^ 32 ≤ size ∨ (g.gGet 94).toNat < (g.gGet 93).toNat + ls → budget (.allocLog q d a) 1) ∧
    (Runs (.allocLog q d a) s → size < 2 ^ 32 → (g.gGet 93).toNat + ls ≤ (g.gGet 94).toNat → s.NoStall →
      u.Storable .store (g.gGet 93) 8 → u.Storable .store (g.gGet 93 + 8#64) 8 →
      let v := u.stored (u.stored u .store (g.gGet 93) 8 g.pdl.toNat) .store (g.gGet 93 + 8#64) 8 g.pdh.toNat
      ∃ t, exec (.allocLog q d a) s = .next t ∧
        u.MovedFrom (v.setCur ((u.cur.gSet 93 (g.gGet 93 + BitVec.ofNat 64 ls)).gSet d.toNat (g.gGet 93 + 16#64))) t ∧
        ∀ y, u.outside .store (g.gGet 93) 8 y → u.outside .store (g.gGet 93 + 8#64) 8 y → t.byteAt y = s.byteAt y)

/-- 02 R40: the limits of a pedigree. -/
def Obligations.PedigreeRanks : Prop :=
  let bits := fun (root : Bool) (v : Nat) => if v < 4 then 3 else if v < 36 then 7 else if v < 1060 then 13 else if root then 35 else 23
  let total := fun l : List (Nat × Nat) => ((l.take 1).map (fun e => bits true e.1 + bits true e.2)).sum +
    ((l.drop 1).map (fun e => bits false e.1 + bits false e.2)).sum
  (∀ l : List (Nat × Nat), total l ≤ 120 → l.length ≤ 20) ∧
  ∀ (s : State) (q : BitVec 2) (d a b : BitVec 7), s.Converged → s.gpGuard q = true →
    let l := pedigree s.cur.pdh s.cur.pdl
    let l' := if l.length = 1 then l ++ [(0, 0)] else l
    let last := l'.getLastD (0, 0)
    let child := l' ++ [(0, 0)]
    let own := l'.dropLast ++ [(last.1, last.2 + 1)]
    let after := l'.dropLast ++ [(last.1 + 1, 0)]
    l ≠ [] → pedEncode l = some (s.cur.pdh, s.cur.pdl) →
    (Runs (.spawn q d a b) s → badTarget (s.cur.gGet a.toNat &&& 0xFFFFFFFFFFFFFFFC#64) = false →
      1049635 < last.2 + 1 ∨ 120 < total child ∨ 120 < total own → exec (.spawn q d a b) s = .next (s.mergeParked.stopFault 0x13 0 0#64 0xFF)) ∧
    (last.2 + 1 ≤ 1049635 → total child ≤ 120 → total own ≤ 120 → ∃ c p,
      spawnPedigree s.cur.pdh s.cur.pdl = some (c, p) ∧ pedEncode child = some c ∧ pedEncode own = some p) ∧
    (Runs (.join q) s → s.raceDue = none → 1049635 < last.1 + 1 ∨ 120 < total after →
      exec (.join q) s = .next (s.mergeParked.stopFault 0x13 1 0#64 0xFF)) ∧
    (last.1 + 1 ≤ 1049635 → total after ≤ 120 → ∃ p, joinPedigree s.cur.pdh s.cur.pdl = some p ∧ pedEncode after = some p)

/-- 21 R375, R384, 09 R175, R176: RDECL and RVIEW. That a view's bytes stand at viewLoc of a fresh number, that a folded view without a place
takes one at RVIEW, and that RVIEW without room goes on in a handler with its report pending are the model's readings, log 17. -/
def Obligations.ReducerResults : Prop :=
  ∀ (s : State) (q : BitVec 2) (d a n : BitVec 7),
    (s.cur.kind = .task → (Instr.rdecl q a n).fieldsOk = true → StopsWith (.rdecl q a n) s 0x10 (encode (.rdecl q a n)).toNat 0#64 0xFF) ∧
    (s.Converged → s.gpGuard q = true →
    let u := s.mergeParked
    let va := s.cur.gGet a.toNat
    let desc := (look s.job.redDescs n.toNat).getD []
    (∀ loc attr sc, Runs (.rdecl q a n) s → s.cur.kind = .root → n.toNat < s.job.reducers → va.toNat % 16 = 0 → va.toNat / 2 ^ 48 < 0x1FF →
      u.target .load va 16 = .mem loc attr sc → attr < 2 → redDescOk (s.bytesAt loc 16) = true →
      (∀ x, look s.job.redDescs n.toNat = some x → x = s.bytesAt loc 16) →
      Converges (.rdecl q a n) s ((u.putJob { s.job with redDescs := put s.job.redDescs n.toNat (s.bytesAt loc 16) }).setCur
        { u.cur with reds := if s.cur.reds.contains n.toNat then s.cur.reds else s.cur.reds ++ [n.toNat] })) ∧
    (Runs (.rview q d n) s → n.toNat < s.job.reducers → u.declared n.toNat = true →
      (∀ v, s.cur.views.find? (fun v => v.red == n.toNat && v.ord == s.cur.seg) = some v → v.va ≠ 0#64 →
        Converges (.rview q d n) s (u.setCur (u.cur.gSet d.toNat v.va))) ∧
      (∀ v va, s.cur.views.find? (fun v => v.red == n.toNat && v.ord == s.cur.seg) = some v → v.va = 0#64 → u.viewPlace (redSize desc) = some va →
        let g : Group := { u.cur with views := s.cur.views.map (fun x => if x.key = v.key then { x with va := BitVec.ofNat 64 va } else x) }
        Converges (.rview q d n) s (u.setCur (g.gSet d.toNat (BitVec.ofNat 64 va)))) ∧
      (∀ va, s.cur.views.find? (fun v => v.red == n.toNat && v.ord == s.cur.seg) = none → u.viewPlace (redSize desc) = some va →
        let fill := (List.replicate (redSize desc / groupWidth (redType desc))
          (leBytes (groupWidth (redType desc)) (viewIdent (redOp desc) (redType desc)))).flatten
        let g : Group := { u.cur with views := s.cur.views ++ [⟨n.toNat, s.cur.seg, BitVec.ofNat 64 va, redSize desc, s.nextId⟩] }
        Converges (.rview q d n) s ({ u.store (viewLoc s.nextId 0) fill with nextId := s.nextId + 1 }.setCur
          (g.gSet d.toNat (BitVec.ofNat 64 va)))) ∧
      ((∀ v, s.cur.views.find? (fun v => v.red == n.toNat && v.ord == s.cur.seg) = some v → v.va = 0#64) → u.viewPlace (redSize desc) = none →
        let failed := u.putJob { s.job with feat := true }
        (s.cur.handler = none → exec (.rview q d n) s =
          .next (failed.take ⟨0x31, 3, 2, u.epc, u.fpc, 0#64, 0xFF, s.cur.pdl, s.cur.pdh, none⟩)) ∧
        (s.cur.handler ≠ none → Converges (.rview q d n) s (failed.setCur { u.cur with
          pend := u.cur.pend ++ [⟨3, 0x31, 2, u.fpc, 0#64, u.split, s.cur.pdl, s.cur.pdh, 0#64, 0#64, true⟩] })))))

/-- 19 R335, 02 R21, R34, 12 R246: EXIT; the free entry a stacked path takes is the model's choice, log 12. -/
def Obligations.StrandEnds : Prop :=
  ∀ (s : State) (q : BitVec 2) (p : Group), Runs (.exit q) s → s.gpGuard q = true →
    let freed : State := { s with cur := Group.blank, split := 0, limm := none, tick := s.tick + 1 }
    let T := s.team
    let T' : Team := { T with live := T.live - 1, bars := (List.range 16).map (fun n => (n,
      let b := T.bar n
      let bit := BitVec.ofNat 16 (2 ^ s.cur.grp)
      let b1 := if b.arrived &&& bit ≠ 0#16 then b
        else if b.mask &&& ~~~(b.arrived ||| bit) = 0#16 then { b with gen := b.gen + 1#64, arrived := 0#16 } else { b with arrived := b.arrived ||| bit }
      if b.mask &&& bit = 0#16 then b else { b1 with mask := b.mask &&& ~~~bit })) }
    let J : Job := { s.job with folds := if s.cur.views = [] then s.job.folds else s.job.folds ++ [((s.cur.team, s.cur.grp), s.cur.views)] }
    let others := s.cur.splits.filter (fun x => x.entry != s.split)
    (1 < s.cur.splits.length ∨ s.cur.stack ≠ [] → ∃ t, exec (.exit q) s = .next t ∧
      (s.cur.stack = [] ∨ 4 ≤ others.length → t.cur.splits = others ∧ t.cur.stack = s.cur.stack) ∧
      (∀ top rest, s.cur.stack = top :: rest → others.length < 4 →
        t.cur.splits = others ++ [⟨freeEntry others, top.pc, top.mask, .ready, none, false, 0, s.cur.born, false⟩] ∧ t.cur.stack = rest) ∧
      let repc := if s.sp.fresh then repcDone s.cur.repc else s.cur.repc
      let pend := s.cur.pend.map (fun x => if x.split = s.split then { x with split := 4 } else x)
      (s.cur.handler = none → t = { s with
        cur := { s.cur with splits := t.cur.splits, stack := t.cur.stack, repc, pend }, tick := s.tick + 1, limm := none }) ∧
      ∀ k slot, s.cur.handler = some (k, slot) → t = { s with
        cur := { s.cur with splits := t.cur.splits, stack := t.cur.stack, repc, pend, trapinfo := 0#64, handler := none, held := [] }
        jobs := put s.jobs s.job.id { s.job with slots := s.job.slots.erase slot }, tick := s.tick + 1, limm := none }) ∧
    (s.cur.handler.isSome → s.cur.splits.length ≤ 1 → s.cur.stack = [] → s.cur.children = 0 → s.cur.spawned = 0 →
      exec (.exit q) s = exec (.exit q) s.leaveHandler) ∧
    (s.raceDue = none → s.cur.handler = none → s.cur.splits.length ≤ 1 → s.cur.stack = [] → s.cur.children = 0 → s.cur.spawned = 0 → s.cur.laneOwed = none →
      (s.cur.kind = .task → s.cur.stolen = false → s.cur.gid ≠ s.cur.parent → look s.groups s.cur.parent = some p → p.gid = s.cur.parent → p.job = s.cur.job →
        exec (.exit q) s = .next { freed with groups := put s.groups p.gid { p with
          children := p.children - 1, childFlags := p.childFlags ||| s.cur.fflags
          childViews := p.childViews ++ s.cur.views.map (fun v => { v with ord := 2 * s.cur.rank - 1 }) } }) ∧
      (s.cur.kind = .task → s.cur.stolen = false → (∀ x, s.groupOf s.cur.parent = some x → x.job ≠ s.cur.job) → exec (.exit q) s = .next freed) ∧
      (s.cur.kind = .task → s.cur.stolen = true →
        exec (.exit q) s = .next { s with cur := { s.cur with done := true, resident := false, splits := [] }, tick := s.tick + 1, limm := none }) ∧
      (s.cur.kind = .seq → exec (.exit q) s = .next (freed.putJob { s.job with liveSeqs := s.job.liveSeqs - 1 })) ∧
      (s.cur.kind = .root → s.Placed → look s.teams (teamKey s.cur.job s.cur.team) = some T → T.job = s.cur.job → T.idx = s.cur.team →
        (1 < T.live ∨ s.ops.any (fun o => o.inFlight s.cur.job s.cur.team) = true → 0 < T.live →
          exec (.exit q) s = .next ((freed.putTeam T').putJob J)) ∧
        (T.live = 1 → s.ops.any (fun o => o.inFlight s.cur.job s.cur.team) = false → ∃ t, exec (.exit q) s = .next t ∧
          t = { freed with
            teams := drop (put s.teams (teamKey s.cur.job s.cur.team) T') (teamKey s.cur.job s.cur.team), jobs := t.jobs
            ops := s.ops.filter (fun o => !(o.job == s.cur.job && o.team == s.cur.team && !o.task)) } ∧
          t.jobs = put (put s.jobs s.cur.job J) s.cur.job { J with
            liveTeams := J.liveTeams - 1
            lcores := put J.lcores T.lcore { J.lcoreOf T.lcore with team := none, rounds := s.cur.team / max 1 J.logical + 1 } })))

/-- 19 R326, R327, 10 R191, 07 R143: the engine instructions at issue. 22 R400, 10 R206 to R208: TRIG. That a reduction armed by TRIG takes lane
0's sequence numbers (log 21) and CPYT's footprint the record as it stands at issue (log 23) are the model's readings. -/
def Obligations.EngineIssue : Prop :=
  (∀ (s : State) (q : BitVec 2) (d a b : BitVec 7) (team off : Nat),
     let x := (s.cur.gGet b.toNat).toNat
     let m := s.active q
     let n := 4 * 2 ^ bitsOf x 20 19
     let ty := bitsOf x 26 24
     let pairs := (lanesOfMask m).map (fun l => (s.cur.vGet2 a.toNat l, s.cur.vGet2 d.toNat l))
     let lanes := (lanesOfMask m).map (fun l => (l, (s.cur.seqNo.get l).toNat))
     let free := (s.ops.filter (fun o => o.core == s.cur.core)).length < 16
     let started := fun (u : State) (k : OpKind) (reads writes : List (Nat × Nat)) =>
       (({ u with ops := s.ops ++ [(⟨s.nextId, s.cur.job, s.cur.team, s.cur.gid, s.cur.core, k, team, off, s.cur.kind == .task,
           s.cur.pdh, s.cur.pdl, reads, writes, s.time, s.cur.gtimeout.toNat, [], [], []⟩ : EngOp)], nextId := s.nextId + 1 } : State).putJob
         { s.job with bstUse := s.job.bstUse || k.usesB })
     let src := [boundOf (pairs.map Prod.fst) n]
     let dst := [boundOf (pairs.map Prod.snd) n]
     let numbered := lanes.foldl (fun c l => c.set l.1 (BitVec.ofNat 32 (l.2 + n / groupWidth ty))) s.cur.seqNo
     let taken := s.setCur { s.cur with seqNo := if s.job.defers (bitsOf x 23 21) ty then numbered else s.cur.seqNo }
     let loc := s.cur.gGet d.toNat
     let rcd := s.cur.gGet a.toNat
     let box := s.cur.gGet (b.toNat + 1)
     let range := s.boxRange rcd box
     let dense := granules loc.toNat (loc.toNat + range.2)
     let upset := s.poisoned (scratchLoc s.cur.job team off) 8
     (s.coRef x = .at team off →
       (Runs (.cpy q d a b) s → coCpyOk x = true →
         (m = 0#32 → upset = false → Effects (.cpy q d a b) s (s.bbUpdate s.cur.job team off 0 0 0)) ∧
         (m = 0#32 → upset = true → ∃ t, exec (.cpy q d a b) s = .next t ∧ s.EndsUpset t (coAddr x)) ∧
         (m ≠ 0#32 → free → Effects (.cpy q d a b) s (started s (.copy pairs n) src dst)) ∧
         (m ≠ 0#32 → ¬free → Waits (.cpy q d a b) s s .footprint)) ∧
       (Runs (.cpyr q d a b) s → coCpyrOk x = true →
         (m = 0#32 → upset = false → Effects (.cpyr q d a b) s (s.bbUpdate s.cur.job team off 0 0 0)) ∧
         (m = 0#32 → upset = true → ∃ t, exec (.cpyr q d a b) s = .next t ∧ s.EndsUpset t (coAddr x)) ∧
         (m ≠ 0#32 → free → Effects (.cpyr q d a b) s (started taken (.reduce pairs lanes n (bitsOf x 23 21) ty) src dst)) ∧
         (m ≠ 0#32 → ¬free → Waits (.cpyr q d a b) s s .footprint)) ∧
       (Runs (.cpyt q d a b) s → s.gpGuard q = true → coCpytOk x = true →
         (free → Effects (.cpyt q d a b) s (started s (.tile rcd loc box (bitsOf x 27 27) s.recordMark)
           [if bitsOf x 27 27 = 0 then range.1 else dense] [if bitsOf x 27 27 = 0 then dense else range.1])) ∧
         (¬free → Waits (.cpyt q d a b) s s .footprint))) ∧
     (Runs (.tsrf q) s → s.gpGuard q = true → Effects (.tsrf q) s { s.setCur { s.cur with mark := s.hist.length } with
       records := put s.records s.cur.core s.hist.length })) ∧
  (∀ (s : State) (q p : BitVec 2) (a : BitVec 7) (loc : Nat) (sc : Bool), Runs (.trig q p a) s → s.gpGuard q = true →
     let va := s.cur.gGet a.toNat
     let b := s.bytesAt loc 64
     let n := recField b 20 1
     let st := recField b 19 1
     let cask := (look s.team.casks st).getD ⟨0, 1, 0, 0, 0, [], []⟩
     let slots := if n = 0 then [] else (List.range n).map (fun i => (cask.rp + i) % cask.slots)
     let busy := (n ≠ 0 ∧ (cask.slots < n ∨ slots.any (fun i => cask.st.getD i .reserved != .free))) ∨ 256 ≤ s.pendingOn (ctrEngine (recField b 0 4))
     let w := s.armedOf va b slots
     let cask' : Cask := { cask with st := slots.foldl (fun l i => l.set i .staged) cask.st, rp := (cask.rp + n) % cask.slots }
     let staged := if n = 0 then s else s.putTeam { s.team with casks := put s.team.casks st cask' }
     let j := s.job
     let j' : Job := { j with
       armed := j.armed ++ [w]
       bstUse := j.bstUse || w.src.toNat / 2 ^ 44 == 0x1FF3 || w.dst.toNat / 2 ^ 44 == 0x1FF3
       engUse := max j.engUse (ctrEngine w.tctr + 1) }
     let g := s.cur.gpSet p.toNat true
     let numbered := s.cur.seqNo.set 0 (BitVec.ofNat 32 (w.sq + w.bytes / groupWidth w.rtype))
     va.toNat % 64 = 0 → (va.toNat / 2 ^ 48 < 0x1FF ∨ va.toNat / 2 ^ 44 = 0x1FF0) → s.target .load va 64 = .mem loc 0 sc →
     (s.descOk b = false → Effects (.trig q p a) s (s.setCur { s.cur with
       pend := s.cur.pend ++ [⟨3, 0x32, 5, s.fpc, va, s.split, s.cur.pdl, s.cur.pdh, 0#64, 0#64, s.cur.handler.isSome⟩] })) ∧
     (s.descOk b = true → (n = 0 ∨ (s.cur.kind ≠ .task ∧ st < s.job.casks ∧ (look s.team.casks st).isSome)) →
       (busy → Completes (.trig q p a) s (toGp p.toNat false)) ∧
       (¬busy → Effects (.trig q p a) s (({ staged with nextId := s.nextId + 1 }.putJob { j' with
           armed := j'.armed.map (fun x : Armed => if x.thresh ≤ (j.ctrs.get (ctrKey x.tctr)).toNat then { x with fired := true } else x) }).setCur
         { g with seqNo := if w.kind = 1 ∧ j.defers w.rop w.rtype then numbered else s.cur.seqNo }))))

/-- 10 R193, R196 to R200, R208, 05 R88: ENGINE_ARRIVAL and TRIGGERED_OP_COMPLETE. 09 R180, R184: the floating-point adds of a reduction under
DET become deferred adds, in any order since each has its key, and under DETC go to the team's partial sums as listed. That elements may move one at a time before the arrival,
which leaves the rest to it, is the model's form of R196, log 20. -/
def Obligations.EngineEvents : Prop :=
  ∀ (s : State) (id : Nat) (o : EngOp) (a : Armed) (j : Job) (b rcd : List Byte),
    let jo := (look s.jobs o.job).getD Job.blank
    let m := s.opMover o
    let arrived := fun (u : State) (bytes : Nat) =>
      let v : State := { u with ops := s.ops.filter (fun x => x.id != o.id), tick := s.tick + 1 }
      (if look s.teams (teamKey o.job o.bbTeam) = none then v
       else if v.poisoned (scratchLoc o.job o.bbTeam o.bbOff) 8 then v.endJob o.job 1 (v.upsetRecord 1 Group.blank 3)
       else v.bbUpdate o.job o.bbTeam o.bbOff 0 bytes 0).teamEnd o.job o.team
    let left := fun l : List Aimed => (leftOf o.early l).map (keptElem o.kept)
    let ma := s.armedMover j.id a
    let six := fun b : List Byte => fun _ y : Nat => if recFmt b = 7 ∨ recFmt b = 8 then y % 64 else y
    let here := fun job team : Nat => s.jobOver job = true ∨ ∀ t, look s.teams (teamKey job team) = some t → t.resident = true
    let key := ctrKey a.cctr
    let T := s.teamOf j.id a.team
    let counts := a.cctr ≠ 0xFFFFFFFF ∧ s.ctrHere a.cctr = true
    let ctrs := if counts then j.ctrs.set key (j.ctrs.get key + 1#64) else j.ctrs
    let others := j.armed.filter (fun x => x.id != a.id)
    let completedAs := fun (k : Job) (u : State) =>
      let v := if a.slots = [] ∨ look s.teams (teamKey j.id a.team) = none then u else u.putTeam { T with
        casks := T.casks.map (fun p => if p.1 = a.stn then (p.1, { p.2 with st := a.slots.foldl (fun l i => l.set i .free) p.2.st }) else p) }
      ({ v with
        jobs := put s.jobs j.id { k with
          ctrs, engUse := if counts then max j.engUse (ctrEngine a.cctr + 1) else j.engUse
          armed := if counts then others.map (fun x : Armed => if x.thresh ≤ (ctrs.get (ctrKey x.tctr)).toNat then { x with fired := true } else x) else others }
        tick := s.tick + 1 } : State)
    let completed := completedAs j
    let place := fun x : Aimed => match x.dst with | .mem dl _ _ => dl | _ => 0
    let added := fun (h l : W64) (ps : List Partial) (x : Aimed) =>
      let tm := ((pedigree h l).headD (0, 0)).2
      let f := if x.elem.n = 8 then fp64 else fp32
      let sum := fun y : Nat => BitVec.ofNat 64 (faddW f .rne false y (BitVec.ofNat 64 (x.value s)).toNat).bits
      if ps.any (fun p => p.team == tm && p.loc == place x && p.width == x.elem.n) then
        ps.map (fun p => if p.team = tm ∧ p.loc = place x ∧ p.width = x.elem.n then { p with sum := sum p.sum.toNat } else p)
      else ps ++ [⟨tm, place x, x.elem.n, sum (f.word true 0)⟩]
    let defers := fun (k : Job) (l : List Aimed) (h lo : W64) (i : Instr) (done : Job → State) =>
      l ≠ [] → (∀ x ∈ l, x.cause = 0 ∧ x.elem.src.isSome ∧ (∃ y z w, x.src = .mem y z w) ∧ ∃ dl at', at' < 2 ∧ x.dst = .mem dl at' false) →
      48 * (k.adds.length + k.partials.length + l.length) ≤ s.arenaSize k 24 →
      (k.detc = true → exec i s = .next (done { k with partials := l.foldl (added h lo) k.partials })) ∧
      (k.detc = false → ∃ adds : List DefAdd,
        adds.Perm (l.map (fun x => ⟨place x, x.elem.n, BitVec.ofNat 64 (x.value s), h, lo, x.elem.lane, x.elem.sq⟩)) ∧
        exec i s = .next (done { k with adds := k.adds ++ adds }))
    let moves := fun (l : List Aimed) (f : Nat → Nat → Nat) (i : Instr) (done : State → State) => Apart l → ∃ u, s.Moves u l f ∧ exec i s = .next (done u)
    (s.ops.find? (fun o => o.id == id) = some o → (∀ e ∈ opsBefore s.ops id, o.follows e = false) →
      here o.job o.bbTeam →
      (∀ ps size, o.kind = .copy ps size →
        moves (left ((ps.flatMap (fun p => laneElems p.1 p.2 size 4 0 0)).map (s.aim m .copy .copy))) (fun _ y => y)
          (.engineArrival id) (fun u => arrived u (size * ps.length))) ∧
      (∀ ps ls size rop ty, o.kind = .reduce ps ls size rop ty → (rop = 0 → ty = 0 ∨ ty = 5 → jo.det = false) →
        moves (left (((ps.zip ls).flatMap (fun p => laneElems p.1.1 p.1.2 size (groupWidth ty) p.2.1 p.2.2)).map
          (s.aim m .reduceSrc .reduceDst))) (fun x y => groupStep rop ty x y) (.engineArrival id) (fun u => arrived u (size * ps.length))) ∧
      (∀ ps ls size ty, o.kind = .reduce ps ls size 0 ty → ty = 0 ∨ ty = 5 → jo.det = true → look s.jobs o.job = some jo → jo.id = o.job →
        defers jo (left (((ps.zip ls).flatMap (fun p => laneElems p.1.1 p.1.2 size (groupWidth ty) p.2.1 p.2.2)).map
          (s.aim m .reduceSrc .reduceDst))) o.pdh o.pdl (.engineArrival id) (fun k => arrived (s.putJob k) (size * ps.length))) ∧
      (∀ rec loc k dir mark x y z, o.kind = .tile rec loc k dir mark ∧ s.record m rec mark = (.mem x y z, rcd) ∧ recOk rcd k = true ∧
          loc.toNat % 16 = 0 ∨ o.kind = .box rcd loc k dir →
        moves (left ((boxElems rcd k loc dir).map (if dir = 0 then s.aim m .tensor .dense else s.aim m .dense .tensor))) (six rcd)
          (.engineArrival id) (fun u => arrived u (boxBytes rcd)))) ∧
    (s.Records → s.jobs.findSome? (fun p => (p.2.armed.find? (fun a => a.id == id && a.fired)).map (fun a => (p.2, a))) = some (j, a) →
      (a.slots ≠ [] → here j.id a.team) →
      (a.kind = 0 → moves (leftOf a.early ((a.pieces 4).map (s.aim ma .copy .copy))) (fun _ y => y) (.triggeredOpComplete id) completed) ∧
      (a.kind = 1 → (a.rop = 0 → a.rtype = 0 ∨ a.rtype = 5 → j.det = false) →
        moves (leftOf a.early ((a.pieces (groupWidth a.rtype)).map (s.aim ma .reduceSrc .reduceDst))) (fun x y => groupStep a.rop a.rtype x y)
          (.triggeredOpComplete id) completed) ∧
      (a.kind = 1 → a.rop = 0 → a.rtype = 0 ∨ a.rtype = 5 → j.det = true →
        defers j (leftOf a.early ((a.pieces (groupWidth a.rtype)).map (s.aim ma .reduceSrc .reduceDst))) a.pdh a.pdl
          (.triggeredOpComplete id) (fun k => completedAs k s)) ∧
      (a.kind = 2 → s.ctrHere (a.dst.toNat % 2 ^ 32) = false → exec (.triggeredOpComplete id) s = .next (completed s)) ∧
      (a.kind = 2 → s.ctrHere (a.dst.toNat % 2 ^ 32) = true → a.cctr = 0xFFFFFFFF →
        let c := a.dst.toNat % 2 ^ 32
        ∃ t k, exec (.triggeredOpComplete id) s = .next t ∧ look t.jobs j.id = some k ∧
          (∀ y, k.ctrs.get y = if y = ctrKey c then j.ctrs.get y + a.src else j.ctrs.get y) ∧
          (∀ x ∈ j.armed, x.id ≠ a.id → x.thresh ≤ (k.ctrs.get (ctrKey x.tctr)).toNat → { x with fired := true } ∈ k.armed) ∧ ∀ x ∈ k.armed, x.id ≠ a.id) ∧
      (a.kind = 3 → moves (leftOf a.early [s.aim ma .copy .signal ⟨none, a.src.toNat, a.dst, 8, a.dst.toNat % 8 == 0, 0, 0⟩]) (fun _ y => y)
        (.triggeredOpComplete id) completed))

/-- 11 R221, R222: MMA and MMAG once their operands are there. -/
def Obligations.MatrixProducts : Prop :=
  ∀ (s : State) (q : BitVec 2) (fa fb : BitVec 4) (c : BitVec 3) (d : BitVec 7) (list : Bool) (ab : List Byte) (t off : Nat) (ps : List Nat),
    let i : Instr := if list then .mmag q fa fb c d else .mma q fa fb c d
    let D := (s.cur.gGet d.toNat).toNat
    let a := fa.toNat
    let b := fb.toNat
    let e := s.engine
    let head := if list then 128 else 0
    let len := 128 * rowSlices a
    let n := len * mdM D + head
    let cols := mdN D * rowSlices b
    Runs i s → s.Placed → s.gpGuard q = true → s.mmaOk a b d.toNat D list = true → e.progress = 0 → e.taken = [] →
    (∀ sl ∈ e.mqa, sl.length = 32) →
    (mdA D = 1 → ab = e.abufBytes (mdBase D) n) →
    (mdA D = 2 → s.operandRef (s.cur.gGet (d.toNat + 1)).toNat n = .at t off ∧ s.operandAfter t off n = none ∧
      s.poisoned (scratchLoc s.cur.job t off) n = false ∧ ab = s.bytesAt (scratchLoc s.cur.job t off) n) →
    (mdA D = 0 → n / 128 ≤ e.mqa.length ∧ ab = sliceBytes (e.mqa.take (n / 128))) →
    (mdB D = 1 → cols ≤ e.mqb.length) →
    (if list then indexList (ab.take 128) (mdK D) = some ps else ps = List.range (mdK D)) →
    let row := fun i => leNat ((ab.drop (head + len * i)).take len)
    let col := fun j => if mdB D = 1 then leNat (sliceBytes ((e.mqb.drop (j * rowSlices b)).take (rowSlices b))) else s.columnNat j (mdLoc D) (rowBytes b)
    let r := fun i j => blockOf a b (row i) (col j) (fun k => ps.contains k)
    ∃ B : Bank, B.valid = true ∧ B.tag = tagOf a ∧ B.m = mdM D ∧ B.n = mdN D ∧
      B.flags = (cells2 (mdM D) (mdN D)).foldl (fun f p => f ||| (r p.1 p.2).flags) 0 ∧
      (∀ i j, i < mdM D → j < mdN D → getEntry B.words B.tag i j = (r i j).bits % 2 ^ (if B.tag = 1 then 64 else 32)) ∧
      (∀ i j, i < 32 → j < (if B.tag = 1 then 256 else 512) → mdM D ≤ i ∨ mdN D ≤ j → getEntry B.words B.tag i j = 0) ∧
      Effects i s (s.putJob { s.job with
        bstUse := s.job.bstUse || mdB D == 0
        engines := put s.job.engines s.cur.cluster { e with
          abuf := if mdA D = 1 then e.abuf else memPut e.abuf (mdBase D) ab
          mqa := if mdA D = 0 then e.mqa.drop (n / 128) else e.mqa
          mqb := if mdB D = 1 then e.mqb.drop cols else e.mqb
          bank0 := if c = 0#3 then B else e.bank0
          bank1 := if c = 0#3 then e.bank1 else B } })

/-- 11 R223, R224: MSCA, MZERO, MDRN. -/
def Obligations.MatrixAccumulate : Prop :=
  ∀ (s : State) (q : BitVec 2) (a : BitVec 4) (c : BitVec 3) (d : BitVec 7) (t off : Nat) (sb : List Byte),
    let D := (s.cur.gGet d.toNat).toNat
    let e := s.engine
    let g := 32 * c.toNat
    let left := fun e' : Engine => s.putJob { s.job with engines := put s.job.engines s.cur.cluster e' }
    let B := if bitsOf D 2 2 = 0 then e.bank0 else e.bank1
    let word := fun k => leNat ((sb.drop (4 * k)).take 4)
    let r := fun i j => scaElem B.tag (D % 2 == 0) (if D % 2 = 0 then scaScale B.tag (word i) (word (32 + j / 128)) else (.fin false 1 0, 0))
      (getEntry B.words B.tag i j) (getEntry e.acc B.tag (g + i) j)
    let all := (List.range (mdM D)).flatMap (fun i => e.drainRow a.toNat (g + i) (mdN D))
    let room := 16 - e.mqo.length
    let fl := (e.flags.get c.toNat).toNat ||| e.drainFlags a.toNat c.toNat (mdM D) (mdN D)
    s.gpGuard q = true →
    (Runs (.msca q a c d) s → s.Placed → D < 8 → B.valid = true → B.tag = scaTag a.toNat → B.n ≤ (if B.tag = 1 then 256 else 512) → (D % 4 = 2 → d ≠ 95#7) →
      e.progress = 0 → e.taken = [] →
      (D % 4 = 2 → s.operandRef (s.cur.gGet (d.toNat + 1)).toNat 256 = .at t off ∧ s.operandAfter t off 256 = none ∧
        s.poisoned (scratchLoc s.cur.job t off) 256 = false ∧ sb = s.bytesAt (scratchLoc s.cur.job t off) 256) →
      (D % 4 = 0 → 2 ≤ e.mqs.length ∧ sb = sliceBytes (e.mqs.take 2)) →
      ∃ acc : Cells 32,
        (∀ i j, i < B.m → j < B.n → getEntry acc B.tag (g + i) j = (r i j).bits % 2 ^ (if B.tag = 1 then 64 else 32)) ∧
        (∀ k, (∀ i j, i < B.m → j < B.n → k ≠ (g + i) * 512 + (if B.tag = 1 then 2 * j else j) ∧ (B.tag = 1 → k ≠ (g + i) * 512 + 2 * j + 1)) → acc.get k = e.acc.get k) ∧
        Effects (.msca q a c d) s (left { e with
          acc, mqs := if D % 4 = 0 then e.mqs.drop 2 else e.mqs
          flags := e.flags.set c.toNat (e.flags.get c.toNat ||| BitVec.ofNat 8 ((cells2 B.m B.n).foldl (fun f p => f ||| (r p.1 p.2).flags) B.flags))
          bank0 := if bitsOf D 2 2 = 0 then { B with valid := false } else e.bank0
          bank1 := if bitsOf D 2 2 = 0 then e.bank1 else { B with valid := false } })) ∧
    (Runs (.mzero q c) s → ∃ acc : Cells 32, (∀ k, acc.get k = if g * 512 ≤ k ∧ k < (g + 32) * 512 then 0#32 else e.acc.get k) ∧
      Effects (.mzero q c) s (left { e with acc, flags := e.flags.set c.toNat 0#8 })) ∧
    (Runs (.mdrn q a c d) s → s.Placed → bitsOf D 55 15 = 0 → e.taken = [] →
      (all.length - e.progress ≤ room → ∃ acc : Cells 32,
        (∀ k, acc.get k = if D / 2 ^ 14 % 2 = 1 ∧ g * 512 ≤ k ∧ k < (g + mdM D) * 512 then 0#32 else e.acc.get k) ∧
        Effects (.mdrn q a c d) s ((left { e with
            acc, mqo := e.mqo ++ all.drop e.progress, progress := 0
            flags := if D / 2 ^ 14 % 2 = 1 then (e.flags.set c.toNat (BitVec.ofNat 8 fl)).set c.toNat 0#8 else e.flags.set c.toNat (BitVec.ofNat 8 fl) }).setCur
          (s.cur.gSet d.toNat (BitVec.ofNat 64 (D % 2 ^ 56 + fl % 64 * 2 ^ 56))))) ∧
      (room < all.length - e.progress → Waits (.mdrn q a c d) s
        (left { e with mqo := e.mqo ++ (all.drop e.progress).take room, progress := e.progress + room }) (.queue 2)))

/-- 11 R227 to R230: MMAV once its operands are there. -/
def Obligations.MatrixColumns : Prop :=
  ∀ (s : State) (q : BitVec 2) (fa fb : BitVec 4) (c : BitVec 3) (d : BitVec 7) (ab : List Byte) (t off : Nat)
    (gs : Nat → List (W32 × List Nat)) (chunks : Nat → List Slice) (rest : List Slice),
    let i : Instr := .mmav q fa fb c d
    let D := (s.cur.gGet d.toNat).toNat
    let e := s.engine
    let len := 128 * ((rowLen fa.toNat (mdKV D) + 127) / 128)
    let n := len * mdM D
    let word := fun (l : List Slice) (k : Nat) => (l[k / 32]?).map (fun sl => sl.getD (k % 32) 0#32)
    Runs i s → s.Placed → s.gpGuard q = true → e.progress = 0 → e.taken = [] →
    (mdB D = 0 → s.bst = true) → mdK D = 1 → mdM D ≤ 8 → mdLoc D % 4 = 0 → 0 < mdKV D → mdBase D + n ≤ 262144 → (mdA D = 2 → d ≠ 95#7) →
    (mdA D ≠ 3) →
    (mdA D = 1 → ab = e.abufBytes (mdBase D) n) →
    (mdA D = 2 → s.operandRef (s.cur.gGet (d.toNat + 1)).toNat n = .at t off ∧ s.operandAfter t off n = none ∧
      s.poisoned (scratchLoc s.cur.job t off) n = false ∧ ab = s.bytesAt (scratchLoc s.cur.job t off) n) →
    (mdA D = 0 → n / 128 ≤ e.mqa.length ∧ (∀ sl ∈ e.mqa, sl.length = 32) ∧ ab = sliceBytes (e.mqa.take (n / 128))) →
    (mdB D = 0 → ∀ j, j < mdN D → vgRow (s.columnWord D j) fb.toNat (mdKV D) (s.sliceLimit - mdLoc D) = .ok (gs j)) →
    (mdB D = 1 → e.mqb = (List.range (mdN D)).flatMap chunks ++ rest ∧ ∀ j, j < mdN D →
      vgRow (word (chunks j)) fb.toNat (mdKV D) (s.sliceLimit - mdLoc D) = .ok (gs j) ∧
      (chunks j).length = (((word (chunks j) 1).getD 0#32).toNat + 31) / 32) →
    let act := fun i p => (roundF fp32 .rne false (rowElem fa.toNat (leNat ((ab.drop (len * i)).take len)) p)).bits
    let at' := fun i j => (32 * c.toNat + i) * 512 + j
    let r := fun i j => mmavColumn ((gs j).map (fun x => (rowElem fb.toNat x.1.toNat 0, x.2))) (act i) (e.acc.get (at' i j)).toNat
    ∃ acc flags,
      (∀ i j, i < mdM D → j < mdN D → acc.get (at' i j) = BitVec.ofNat 32 (r i j).bits) ∧
      (∀ k, (∀ i j, i < mdM D → j < mdN D → k ≠ at' i j) → acc.get k = e.acc.get k) ∧
      (∀ k, Cells.get flags k = if k = c.toNat then
        (cells2 (mdM D) (mdN D)).foldl (fun f p => f ||| BitVec.ofNat 8 (r p.1 p.2).flags) (e.flags.get k) else e.flags.get k) ∧
      Effects i s (s.putJob { s.job with
        bstUse := s.job.bstUse || mdB D == 0
        engines := put s.job.engines s.cur.cluster { e with
          abuf := if mdA D = 1 then e.abuf else memPut e.abuf (mdBase D) ab
          mqa := if mdA D = 0 then e.mqa.drop (n / 128) else e.mqa
          mqb := if mdB D = 1 then rest else e.mqb
          acc, flags } })

/-- 14 R269, R270: the driver's commands. That a command on an absent queue is malformed (log 9), that an answer of 0 invalidates the
request's page (log 14), and where a status word lands (log 39) are the model's choices. -/
def Obligations.CommandResults : Prop :=
  ∀ (s : State) (q size prio us pages id answer st n : Nat) (dies : List Nat) (ring root headva va : W64) (rsv : Bool) (x : Queue) (r : PageReq),
    let pa := Config.driverPa st
    let plain := headva.toNat / 2 ^ 48 < 0x1FF ∧ ∀ p, s.translate root headva.toNat = some p → p.attr < 2
    let ends := fun (i : Instr) (u : State) (status : Nat) =>
      ∃ t, exec i s = .next t ∧
        (s.assigned pa = true → s.farFails pa = false → s.isMmio pa = false →
          t = { u with mem := t.mem, hist := ⟨pa, s.bytesAt pa 8⟩ :: s.hist, tick := s.tick + 1 } ∧ t.natAt pa 8 = status ∧
          ∀ a, a < pa ∨ pa + 8 ≤ a → t.byteAt a = s.byteAt a) ∧
        (s.assigned pa = true → s.isMmio pa = true → t = { u.mmioWrite (mmioOff pa) 8 status with tick := s.tick + 1 }) ∧
        (s.assigned pa = false ∨ s.farFails pa = true → t = { u with tick := s.tick + 1 })
    let all : List Instr := [.createQueue q ring size prio dies root headva st rsv, .destroyQueue q st rsv, .resetQueue q st rsv,
      .abortQueue q st rsv, .setQuantum us st rsv, .invalidate root va pages st rsv, .pageResponse id answer st rsv]
    (s.commands ≠ [] → ∀ i ∈ all, exec i s = .next { s with commands := s.commands ++ [i], tick := s.tick + 1 }) ∧
    (s.commands = [] → s.inRecovery = true ∨ rsv = true → ∀ i ∈ all, ends i s 1) ∧
    (s.commands = [] → s.inRecovery = false → rsv = false →
      (q < 16384 → look s.queues q = none → ring.toNat % 4096 = 0 → 4 ≤ n → n ≤ 16 → size = 2 ^ n → prio ≤ 7 → s.isPartition dies = true →
        root.toNat % 4096 = 0 → headva.toNat % 8 = 0 → plain → ends (.createQueue q ring size prio dies root headva st rsv)
          { s.forgetQueue q with queues := put s.queues q { Queue.blank with ring, size, prio, dies, root, headva, tail := 0, head := 0, since := s.time } } 0) ∧
      (16384 ≤ q ∨ look s.queues q ≠ none ∨ ring.toNat % 4096 ≠ 0 ∨ (∀ k, 4 ≤ k → k ≤ 16 → size ≠ 2 ^ k) ∨ 7 < prio ∨ s.isPartition dies = false ∨ root.toNat % 4096 ≠ 0 ∨ headva.toNat % 8 ≠ 0 ∨ ¬plain →
        ends (.createQueue q ring size prio dies root headva st rsv) s 1) ∧
      (look s.queues q = some x →
        (let closed : Queue := { x with closing := some st, packet := none }
         (x.started = [] → ends (.destroyQueue q st rsv) { s with queues := drop (put s.queues q closed) q } 0) ∧
         (x.started ≠ [] → (∀ k ∈ x.started, ∀ j, look s.jobs k = some j → j.begun = true) → exec (.destroyQueue q st rsv) s = .next { s with
           queues := put s.queues q closed, commands := [.destroyQueue q st rsv], tick := s.tick + 1 }) ∧
         ∃ t, exec (.destroyQueue q st rsv) s = .next t ∧ ∀ k j, look s.jobs k = some j →
           (k ∉ x.started ∨ j.begun = true → look t.jobs k = some j) ∧
           (k ∈ x.started → j.begun = false → look t.jobs k = none ∧ ∀ g ∈ t.allGroups, g.kind = .idle ∨ g.job ≠ k)) ∧
        ends (.resetQueue q st rsv) { s.forget (keyRing q) with queues := put s.queues q { x with error := false, stopped := false, tail := x.head, bells := [] } } 0 ∧
        (s.Records → ∃ t, exec (.abortQueue q st rsv) s = .next t ∧ ends (.abortQueue q st rsv) { s with jobs := t.jobs } 0 ∧
          ∀ k j, look s.jobs k = some j → look t.jobs k = some (if k ∈ x.started ∧ j.field 0 1 = 1 ∧ j.begun then j.stop 4 else j))) ∧
      (look s.queues q = none → ∀ i ∈ [Instr.destroyQueue q st rsv, .resetQueue q st rsv, .abortQueue q st rsv], ends i s 1) ∧
      (10 ≤ us → us ≤ 1000 → ends (.setQuantum us st rsv) { s with nextQuantum := us } 0) ∧
      (us < 10 ∨ 1000 < us → ends (.setQuantum us st rsv) s 1) ∧
      ends (.invalidate root va pages st rsv) { s with invals := s.invals ++ [⟨root, va.toNat / 2 ^ 16 * 2 ^ 16, pages, s.hist.length⟩] } 0 ∧
      (s.reqs.find? (fun r => r.id == id && r.sent) = some r →
        let freed : State := { s with
          reqs := s.reqs.filter (fun y => y.id != r.id), cur := { s.cur with holds := s.cur.holds.filter (· != r.id) }
          groups := s.groups.map (fun p => (p.1, { p.2 with holds := p.2.holds.filter (· != r.id) })) }
        (answer = 0 → ends (.pageResponse id answer st rsv) { freed with invals := s.invals ++ [⟨r.root, r.page, 1, s.hist.length⟩] } 0) ∧
        (∀ key, answer = 1 → r.owners = [.device key] → ends (.pageResponse id answer st rsv) { freed with refused := s.refused ++ [(key, r.page)] } 0) ∧
        (∀ op, answer = 1 → r.owners = [.engine op] → ends (.pageResponse id answer st rsv)
          { freed with ops := s.ops.map (fun y : EngOp => if y.id = op then { y with refused := y.refused ++ [r.page] } else y) } 0) ∧
        (∀ gid g j p, answer = 1 → r.owners = [.group gid] → s.groupOf gid = some g → look s.jobs g.job = some j → j.id = g.job →
          j.phase = .running → j.recorded = false → s.devPage (keyRecord j.id) j.root j.queue (j.trapArea + 64) true = .page p →
          s.isMmio p.pa = false →
          ∃ t, exec (.pageResponse id answer st rsv) s = .next t ∧ look t.jobs g.job = some ({ j with recorded := true }.stop 1) ∧
            t.reqs = freed.reqs ∧ (∀ x : Group, x.job = g.job → t.live x = false) ∧
            (NoOverlap p.pa 64 pa 8 → t.bytesAt p.pa 64 = recordBytes (trapInfo 0x01 0 0 0) g.holdEpc g.holdPc (BitVec.ofNat 64 r.page) g.pdl g.pdh
              (recordTail g.lfm g.lcore g.source 0xFF s.time)) ∧
            ∀ y, y < p.pa ∨ p.pa + 64 ≤ y → y < pa ∨ pa + 8 ≤ y → t.byteAt y = s.byteAt y) ∧
        (1 < answer → ends (.pageResponse id answer st rsv) s 1)) ∧
      (s.reqs.find? (fun r => r.id == id && r.sent) = none → ends (.pageResponse id answer st rsv) s 1))

/-- 12 R238, 14 R268, R270 to R273: what the host, another package and the driver's rings do. That a request's atomic comes with a code of R148
(log 33), that device registers answer an access of 4 or 8 bytes alone (log 38), and the places of the page-request ring's registers (log 39)
are the model's choices. -/
def Obligations.HostAccesses : Prop :=
  ∀ (s : State) (q off size pa n k code pkg : Nat) (v : W64) (data : List Byte) (x : Queue) (r : PageReq),
    let ticked := fun u : State => ({ u with tick := s.tick + 1 } : State)
    let ours := fun len : Nat => s.isMmio pa = false ∧ s.isMemory pa = true ∧ s.isMemory (pa + len - 1) = true
    let wrote := fun (i : Instr) (u : State) (d : List Byte) => ∃ t, exec i s = .next t ∧
      t = { u with mem := t.mem, hist := ⟨pa, s.bytesAt pa d.length⟩ :: s.hist, tick := s.tick + 1 } ∧ t.bytesAt pa d.length = d ∧
      ∀ a, a < pa ∨ pa + d.length ≤ a → t.byteAt a = s.byteAt a
    let hosts := fun a : Nat => 0x80000000000 ≤ a % 2 ^ 44 ∧ a % 2 ^ 44 < 0xC0000000000
    (s.inRecovery = true → ours data.length →
      (hosts pa ∧ hosts (pa + data.length - 1) → wrote (.hostWrite pa data) s data) ∧
      (¬(hosts pa ∧ hosts (pa + data.length - 1)) → exec (.hostWrite pa data) s = .next (ticked s))) ∧
    (s.inRecovery = false →
    (q < 16384 → look s.queues q = some x →
      (v.toNat ≤ x.head + x.size → exec (.doorbell q v) s = .next (ticked { s with queues := put s.queues q { x with
        tail := max x.tail v.toNat, bells := (v.toNat, s.hist.length) :: x.bells,
        since := if x.tail = x.head ∧ x.head < v.toNat then s.time else x.since } })) ∧
      (x.head + x.size < v.toNat → exec (.doorbell q v) s = .next (ticked { s with queues := put s.queues q { x with error := true, stopped := true } }))) ∧
    (q < 16384 → look s.queues q = none → exec (.doorbell q v) s = .next (ticked s)) ∧
    ((size = 4 ∨ size = 8) → off % size = 0 → (0x10000 ≤ off ∧ off < 0x30000) ∨ (0x40000 ≤ off ∧ off < 0x50000) →
      ∃ t, exec (.registerWrite off size v) s = .next t ∧ t = ticked { s with regs := t.regs } ∧
        t.mmioRead off size = v.toNat % 2 ^ (8 * size) ∧ ∀ o, o < off ∨ off + size ≤ o → t.regs.get o = s.regs.get o) ∧
    ((size ≠ 4 ∧ size ≠ 8) ∨ off % size ≠ 0 ∨ off < 0x10000 ∨ (0x30000 ≤ off ∧ off < 0x40000) ∨ (0x50000 ≤ off ∧ off < 0x40000000) ∨ 0x80000000 ≤ off →
      exec (.registerWrite off size v) s = .next (ticked s)) ∧
    (ours data.length → wrote (.hostWrite pa data) s data ∧ wrote (.remoteRequest 1 code pa data) s data) ∧
    (ours n → exec (.hostRead pa n) s = .next (ticked { s with hostData := s.bytesAt pa n }) ∧
      exec (.remoteRequest 0 n pa data) s = .next (ticked { s with remoteData := s.bytesAt pa n })) ∧
    (s.isMmio pa = true → exec (.hostRead pa n) s = .next (ticked { s with hostData := leBytes n (s.mmioRead (pa % 2 ^ 44 - 0xC0000000000) n) })) ∧
    (let w := if code % 2 = 1 then 8 else 4
     let old := s.natAt pa w
     let answered : State := { s with remoteData := leBytes w old }
     let fails := (code = 18 ∨ code = 19) ∧ old ≠ leNat (data.take w)
     let new := if code = 18 ∨ code = 19 then leNat ((data.drop w).take w) else atomOp code old (leNat (data.take w))
     code ≤ 25 → pa % w = 0 → ours w →
      (¬fails → wrote (.remoteRequest 2 code pa data) answered (leBytes w new)) ∧
      (fails → exec (.remoteRequest 2 code pa data) s = .next (ticked answered))) ∧
    exec (.remoteRequestTimeout pkg) s = .next (ticked { s with silent := if pkg ∈ s.silent then s.silent else s.silent ++ [pkg] }) ∧
    (let tail := s.ringTail requestRing
     let a := s.ringBase requestRing + 32 * (tail % s.ringSize requestRing)
     let room := tail < s.ringHead requestRing + s.ringSize requestRing ∧ s.isMemory a = true ∧ s.isMemory (a + 31) = true
     (s.reqs.find? (fun y => !y.sent) = some r → room → ∃ t, exec .pageRequest s = .next t ∧
       t = { s with
         mem := t.mem, hist := ⟨a, s.bytesAt a 32⟩ :: s.hist, regs := t.regs, msi := s.msi + 1, tick := s.tick + 1
         reqs := s.reqs.map (fun y : PageReq => if y.id = r.id then { y with sent := true } else y) } ∧
       t.bytesAt a 32 = r.bytes ∧ (∀ y, y < a ∨ a + 32 ≤ y → t.byteAt y = s.byteAt y) ∧
       t.ringTail requestRing = (tail + 1) % 2 ^ 64 ∧ ∀ o, o ≠ requestRing + 24 → o ≠ requestRing + 28 → t.regs.get o = s.regs.get o) ∧
     (s.reqs.find? (fun y => !y.sent) = none ∨ ¬room → exec .pageRequest s = .next (ticked s))))

/-- 14 R267, R272 to R274, 00 R1, 01 R17: boot, attestation, link training, throttling. What the record says of a part (log 3), that SHAKE256
is the one of FIPS 202 (log 7), that a boot keeps memory (log 32), and what throttling records (log 34) are the model's choices. -/
def Obligations.BootAndMonitors : Prop :=
  ∀ (s : State) (fw fs rc rs nonce : List Byte) (m die celsius watts cycles : Nat),
    let ticked := fun u : State => ({ u with tick := s.tick + 1 } : State)
    let into := fun (ms : List (List Byte)) (k : Nat) (c : List Byte) => ms.set (Config.measureSlot k % 8) (shake256 (ms.getD (Config.measureSlot k % 8) [] ++ c))
    let zero := List.replicate 8 (List.replicate 64 0#8)
    let first := fun fw fs => if Config.slhVerify fw fs then into zero 0 fw else zero
    let heat := if celsius ≤ 95 then 0 else if celsius ≤ 100 then 1 else if celsius ≤ 105 then 2 else 3
    (∃ t, exec (.resetBoot fw fs rc rs) s = .next t ∧
      t.queues = [] ∧ t.jobs = [] ∧ t.teams = [] ∧ t.groups = [] ∧ t.cur = Group.blank ∧ t.ops = [] ∧ t.reqs = [] ∧ t.commands = [] ∧ t.links = s.links ∧
      t.time = s.time ∧ t.pkg = Config.fabricId s.tick % 4608 ∧ t.recordHash = shake256 rc ∧
      (t.boot = .ready ↔ Config.slhVerify fw fs = true ∧ Config.slhVerify rc rs = true) ∧ (t.boot ≠ .ready → t.boot = .recovery) ∧
      (Config.slhVerify rc rs = true → t.part = (match Config.recordPart rc % 3 with | 0 => .p9600 | 1 => .p9400 | _ => .p9200) ∧
        (t.kiln = true ↔ t.part = .p9600 ∨ t.part = .p9400) ∧ t.tdp = (if t.part = .p9600 then 3600 else Config.recordTdp rc)) ∧
      t.measure = (if Config.slhVerify rc rs then into (first fw fs) 1 rc else first fw fs) ∧
      (s.Inv → t.Inv ∧ ∀ a, a < 2 ^ 57 → t.byteAt a = s.byteAt a)) ∧
    (nonce.length = 32 → s.boot = .ready ∨ s.boot = .recovery →
      let b := nonce ++ s.measure.flatten ++ s.recordHash ++ leBytes 2 s.pkg ++ List.replicate 6 0#8
      exec (.attestationRequest nonce) s = .next (ticked { s with report := b ++ Config.slhSign b })) ∧
    (m < 8 → exec (.linkTraining m true) s = .next (ticked { s with links := s.links.filter (· != m) ++ [m] }) ∧
      exec (.linkTraining m false) s = .next (ticked { s with links := s.links.filter (· != m) }) ∧
      ∀ t, exec (.linkTraining m false) s = .next t → t.links = [] → t.inRecovery = true) ∧
    (die < s.dies →
      exec (.thermalStepChange die celsius) s = .next (ticked { s with
        steps := put s.steps die heat
        hot := if celsius ≤ 115 then drop s.hot die else put s.hot die ((look s.hot die).getD s.time) }) ∧
      exec (.droopEvent die cycles) s = .next (ticked { s with droop := min 64 cycles })) ∧
    exec (.powerThrottle watts) s = .next (ticked { s with powerStep := if s.tdp < watts then min 3 (s.powerStep + 1) else 0 }) ∧
    ((∀ p ∈ s.hot, s.time < p.2 + 1000000) → exec .thermalHalt s = .next (ticked s)) ∧
    (s.Records → (∃ p ∈ s.hot, p.2 + 1000000 ≤ s.time) → ∃ t, exec .thermalHalt s = .next t ∧ t = ticked { s with jobs := t.jobs, boot := .halted } ∧
      ∀ k j, look s.jobs k = some j → look t.jobs k = some (if j.field 0 1 = 1 ∧ j.begun = true then j.stop 4 else j))

/-- 12 R235, R238 to R241, R244: reading, publishing, binding, completing. 12 R237: the three packets that start no launch. Which tap a queue
keeps (log 26), that a started packet's tap is served and counted at its start (log 27), and which of a queue's packets the front end works on
and what a malformed one completes with (log 30) are the model's choices. -/
def Obligations.Packets : Prop :=
  (∀ (s : State) (n k e i status : Nat) (x : Queue) (p : Page) (j : Job),
     let ticked := fun u : State => ({ u with tick := s.tick + 1 } : State)
     let b := s.bytesAt p.pa 128
     let wrote := fun (u t : State) (loc len v : Nat) => t = { u with mem := t.mem, hist := ⟨loc, s.bytesAt loc len⟩ :: s.hist, tick := s.tick + 1 } ∧
       t.natAt loc len = v % 2 ^ (8 * len) ∧ ∀ a, a < loc ∨ loc + len ≤ a → t.byteAt a = s.byteAt a
     (s.inRecovery = false → look s.queues n = some x → x.error = false → x.closing = none → x.tap = some (k, e) → x.packet = none →
       x.publish = false → x.head < x.tail →
       s.devPage (keyRing n) x.root n (x.ring.toNat + 128 * (x.head % x.size)) false = .page p → s.written (x.mark x.head) p.pa 128 = false →
       (∀ y, p.pa ≤ y → y < p.pa + 128 → s.isMmio y = false) →
       (2 ≤ leNat (b.take 1) → leNat (b.take 1) ≤ 4 → leNat ((b.drop 1).take 1) = 1 →
         exec (.packetRead n) s = .next (ticked { s with queues := put s.queues n { x with packet := some (x.head, b), head := x.head + 1, publish := true } })) ∧
       (leNat (b.take 1) < 1 ∨ 4 < leNat (b.take 1) ∨ leNat ((b.drop 1).take 1) ≠ 1 →
         exec (.packetRead n) s = .next (ticked { s with queues := put s.queues n { x with error := true, stopped := true } }))) ∧
     (look s.queues n = some x → x.publish = true → s.devPage (keyHead n) x.root n x.headva.toNat true = .page p → p.attr < 2 → s.isMmio p.pa = false →
       ∃ t, exec (.headPublish n) s = .next t ∧ wrote { s with queues := put s.queues n { x with publish := false } } t p.pa 8 x.head) ∧
     (s.inRecovery = false → s.Records → (s.queues.filter (fun y => s.pending y.2)).length ≤ 512 → ∃ t, exec .tapRebind s = .next t ∧
       t = ticked { s with quantum := s.nextQuantum, queues := t.queues } ∧
       ∀ m y, look s.queues m = some y →
         (s.pending y = false → look t.queues m = some { y with tap := none, leaving := false }) ∧
         (s.pending y = true → ∃ c, look t.queues m =
           some { y with tap := some (c, y.prio - (s.time - y.since) / (1000 * s.nextQuantum)), leaving := false } ∧
           (∀ c' e', y.tap = some (c', e') → (∀ m' y' e'', look s.queues m' = some y' → y'.tap = some (c', e'') → m' = m) → c = c') ∧
           ∀ m' y', look t.queues m' = some y' → y'.tap.map Prod.fst = some c → m' = m)) ∧
     (s.Records → look s.jobs s.sel = some j → j.phase = .ending status → s.allGroups.any (fun g => g.kind != .idle && g.job == j.id) = false →
       s.ops.any (fun o => o.moves j.id) = false → j.armed = [] → j.zero = [] → j.lost = 0 → s.commands = [] →
       let gone : State := { s with
         jobs := drop s.jobs j.id, ops := s.ops.filter (fun o => o.job != j.id), teams := s.teams.filter (fun t => t.2.job != j.id)
         queues := match look s.queues j.queue with
           | some y => put s.queues j.queue { y with started := y.started.filter (· != j.id) } | none => s.queues }
       let va := if j.field 0 1 = 3 then j.field 40 8 else j.field 32 8
       (va = 0 → exec .completionSignal s = .next (ticked gone)) ∧
       (va ≠ 0 → va % 8 = 0 → va / 2 ^ 48 < 0x1FF → s.devPage (keySignal j.id) j.root j.queue va true = .page p → p.attr < 2 →
         s.isMmio p.pa = false → ∃ t, exec .completionSignal s = .next t ∧ wrote gone t p.pa 8 ((j.index + 1) % 2 ^ 56 * 256 + status)))) ∧
  (∀ (s u : State) (n i type k e : Nat) (b : List Byte) (x : Queue) (j : Job) (p : Page),
     let run : Instr := if type = 2 then .copyPacket n else if type = 3 then .waitSignalPacket n else .setSignalPacket n
     let opened : Job := { Job.blank with
       id := s.nextId, queue := n, index := i, pkt := b, root := x.root, dies := x.dies, prio := e, phase := .running, born := s.time, mark := s.hist.length }
     let runs := (x.started.filterMap (fun id => look s.jobs id)).filter (fun j => j.field 0 1 == type && j.phase == .running)
     let ready := x.packet.toList.filter (fun p => pktField p.2 0 1 == type && s.served n x)
     let taken := runs[s.pick (2 ^ 43 + n) (runs.length + ready.length)]?
     let fresh := taken = none ∧ ready = [(i, b)] ∧ x.tap = some (k, e)
     let read : Job → State := fun j => { s with
       nextId := s.nextId + 1, jobs := put s.jobs s.nextId j, queues := put s.queues n { x with packet := none, started := x.started ++ [s.nextId] } }
     let started : State := { s with
       nextId := s.nextId + 1, lastTap := k, jobs := put s.jobs s.nextId opened
       queues := put s.queues n { x with
         packet := none, started := x.started ++ [s.nextId], since := s.time, tap := if x.leaving then none else x.tap, leaving := false } }
     let met := (u.heldSince j.mark p.pa 8).any (fun w => j.holds (leNat w))
     let word := if j.field 24 1 = 0 then j.field 16 8 else (u.natAt p.pa 8 + j.field 16 8) % 2 ^ 64
     let ended := fun (v : State) (c : Nat) => v.putJob { j with phase := .ending c }
     (look s.queues n = some x → 2 ≤ type → type ≤ 4 →
     (fresh ∧ u = started ∧ j = opened ∧ pktReserved b = true ∨ taken = some j ∧ u = s) →
     (let l := j.copyElems.map (u.aim (u.copyMover j) .packet .packet)
      type = 2 → j.field 24 8 % 4 = 0 → j.field 24 8 ≤ 2 ^ 40 → Apart l →
       ∃ v, exec run s = .next { ended (v.forget (keyDep j.id)) 0 with tick := s.tick + 1 } ∧ u.Moves v l (fun _ y => y)) ∧
     (let va := j.field 8 8
      va % 8 = 0 → va / 2 ^ 48 < 0x1FF → u.devPage (keyDep j.id) j.root j.queue va (type == 4) = .page p → p.attr < 2 → s.isMmio p.pa = false →
       (type = 3 → j.field 24 1 ≤ 2 →
         exec run s = .next { (if met then ended u 0 else u) with tick := s.tick + 1 }) ∧
       (type = 4 → j.field 24 1 ≤ 1 →
         ∃ w, exec run s = .next w ∧ w = { ended u 0 with mem := w.mem, hist := ⟨p.pa, u.bytesAt p.pa 8⟩ :: u.hist, tick := s.tick + 1 } ∧
           w.natAt p.pa 8 = word ∧ ∀ a, a < p.pa ∨ p.pa + 8 ≤ a → w.byteAt a = s.byteAt a))) ∧
     (look s.queues n = some x → 2 ≤ type → type ≤ 4 → fresh →
       (pktReserved b = false ∨ (type = 2 ∧ (pktField b 24 8 % 4 ≠ 0 ∨ 2 ^ 40 < pktField b 24 8)) ∨ (type = 3 ∧ 2 < pktField b 24 1) ∨
         (type = 4 ∧ 1 < pktField b 24 1)) → exec run s = .next { read { opened with phase := .ending 1 } with tick := s.tick + 1 }) ∧
     (look s.jobs s.sel = some j → j.field 0 1 = 3 → j.phase = .running → j.field 32 8 ≠ 0 → j.born + 1000 * j.field 32 8 ≤ s.time →
       let va := j.field 8 8
       let page := s.devPage (keyDep j.id) j.root j.queue va false
       let out := fun (v : State) (c : Nat) => exec .waitSignalTimeout s = .next { v.putJob { j with phase := .ending c } with tick := s.tick + 1 }
       (va % 8 ≠ 0 ∨ 0x1FF ≤ va / 2 ^ 48 → out s 1) ∧
       (va % 8 = 0 → va / 2 ^ 48 < 0x1FF →
         (∀ w, page = .waits w → out s 4) ∧ (∀ w c, page = .refused w c → out w 1) ∧ (page = .page p → 2 ≤ p.attr → out s 1) ∧
         (page = .page p → p.attr < 2 → s.isMmio p.pa = false →
           out s (if (s.heldSince j.mark p.pa 8).any (fun w => j.holds (leNat w)) then 0 else 4)))))

/-- 12 R236, R242, 02 R25, R26, R31, R44, 11 R212 to R215: a launch packet as it is read and as it is accepted, the sequencers of a launch,
its teams. Which checks stand with the reading (log 27), that an accepted launch starts at its first team, and the core of a COR launch's
teams (log 28) are the model's choices. -/
def Obligations.LaunchStart : Prop :=
  ∀ (s : State) (n i k e core cap : Nat) (b : List Byte) (x : Queue) (gt : List (List Nat)) (j : Job) (p : Page),
    let took := fun (u : State) (y : Queue) (j : Job) => ({ u with
      nextId := u.nextId + 1, jobs := put u.jobs u.nextId j
      queues := put u.queues n { y with packet := none, started := x.started ++ [u.nextId] }, tick := u.tick + 1 } : State)
    let opened := fun (u : State) (i : Nat) (ph : Phase) => ({ Job.blank with
      id := u.nextId, queue := n, index := i, pkt := b, root := x.root, dies := x.dies, prio := e, phase := ph, born := u.time, mark := u.hist.length } : Job)
    (look s.queues n = some x → x.tap = some (k, e) → x.closing = none → s.inRecovery = false →
      (x.error = false → x.packet = none → x.publish = false → x.head < x.tail →
        s.devPage (keyRing n) x.root n (x.ring.toNat + 128 * (x.head % x.size)) false = .page p → s.written (x.mark x.head) p.pa 128 = false →
        (∀ a, p.pa ≤ a → a < p.pa + 128 → s.isMmio a = false) → b = s.bytesAt p.pa 128 → leNat (b.take 1) = 1 → leNat ((b.drop 1).take 1) = 1 →
        let o : Job := { Job.blank with pkt := b, root := x.root }
        let y : Queue := { x with head := x.head + 1, publish := true }
        let signals := ∀ va ∈ [o.field 32 8, o.field 104 8], va = 0 ∨ (va / 2 ^ 48 < 0x1FF ∧ ∀ p, s.translate x.root va = some p → p.attr < 2)
        (o.fieldsInLimit = true → signals → s.arenaOk o = true → s.trapCap o = some cap → s.readGroups o = some gt →
          exec (.packetRead n) s = .next { s with
            queues := put s.queues n { y with packet := some (x.head, b), control := (cap, gt) }, tick := s.tick + 1 }) ∧
        (o.fieldsInLimit = false ∨ ¬signals ∨ s.arenaOk o = false ∨ s.trapCap o = none ∨ s.readGroups o = none →
          exec (.packetRead n) s = .next (took s y (opened s x.head (.ending 1))))) ∧
      (x.packet = some (i, b) → pktField b 0 1 = 1 → x.stopped = false → (∀ id ∈ x.started, s.hasBegun id = true) → (pktOrd b = true → x.started = []) →
        let o : Job := { opened s i .running with cap := x.control.1, groupTable := x.control.2, phase := if (opened s i .running).cor then .waiting else .running }
        let m := (o.logical + 7) / 8
        let seq : Job := { o with liveSeqs := m, engines := (List.range m).map (fun c => (c, { Engine.start with resident := false })) }
        let placed := fun c => !o.cor && !s.contextOn (seq.clusterAt c) && !s.contextAhead seq c && (List.range c).all (fun d => seq.clusterAt d != seq.clusterAt c)
        (∀ u, s.dependency n x b = .refused u → exec (.launchPacket n) s = .next (took u x (opened u i (.ending 1)))) ∧
        (s.dependency n x b = .met →
          (o.cor = true → o.corFits = false → exec (.launchPacket n) s = .next (took s x (opened s i (.ending 2)))) ∧
          (o.cor = false ∨ o.corFits = true → o.seqEntry = 0#64 → exec (.launchPacket n) s = .next (took s x o)) ∧
          (o.cor = false ∨ o.corFits = true → o.seqEntry ≠ 0#64 → s.Records → s.Unnamed →
            ∃ t l, exec (.launchPacket n) s = .next t ∧ t = { took s x l with groups := t.groups, nextId := s.nextId + 1 + m } ∧
              l = { seq with engines := l.engines, lcores := l.lcores } ∧
              (∀ g, (∀ c, c < m → g ≠ s.nextId + 1 + c) → look t.groups g = look s.groups g) ∧
              (∀ lc, lc < o.logical → l.lcoreOf lc = { seq.lcoreOf lc with
                core := if placed (lc / 8) then some (8 * seq.clusterAt (lc / 8) + lc % 8) else (seq.lcoreOf lc).core }) ∧
              ∀ c, c < m → l.engine c = { Engine.start with resident := placed c } ∧
                ∃ h, look t.groups (s.nextId + 1 + c) = some h ∧
                  h = { Group.blank with
                    gid := s.nextId + 1 + c, kind := .seq, job := s.nextId, grp := c, lcore := 8 * c, core := 8 * seq.clusterAt c, resident := placed c, allot := 0, tiles := 0
                    born := s.time, cycFrom := s.cycles, tileBase := o.tileBase, trapvec := o.handler &&& 0x01FFFFFFFFFFFFFC#64
                    splits := [⟨0, o.seqEntry, BitVec.allOnes 32, .ready, none, false, 0, s.time, false⟩], g := h.g } ∧
                  ∀ r, h.gGet r = if r = 1 then BitVec.ofNat 64 c else if r = 2 then o.args else 0#64)))) ∧
    (let t' := j.nextTeam
     let lc := t' % max 1 j.logical
     look s.jobs j.id = some j → s.inRecovery = false → j.field 0 1 = 1 →
      (t' = 0 → look s.queues j.queue = some x ∧ x.stopped = false ∧ x.closing = none ∧ s.tapAhead j.queue j.dies (s.tapKey j) = false) →
      (s.Records → s.teamFits j core = true → j.phase = .running ∨ (j.phase = .waiting ∧ t' = 0 ∧ j.teamCount = 1 ∧ j.engines = []) →
      ∃ t, exec (.teamDispatch j.id core) s = .next t ∧
        t = { s with
          groups := t.groups, nextId := s.nextId + j.perTeam, tick := s.tick + 1
          teams := put s.teams (teamKey j.id t') { Team.blank with
            job := j.id, idx := t', lcore := lc, core, bytes := j.scratch, groups := j.perTeam, live := j.perTeam, resident := true, born := s.time }
          jobs := put s.jobs j.id { j with
            nextTeam := t' + 1, liveTeams := j.liveTeams + 1, lcores := put j.lcores lc { j.lcoreOf lc with core := some core, team := some t' }
            phase := .running, mark := if t' = 0 then s.hist.length else j.mark, start := if t' = 0 then s.tick else j.start, prio := if t' = 0 then (x.tap.map Prod.snd).getD j.prio else j.prio }
          lastTap := if t' = 0 then (x.tap.map Prod.fst).getD s.lastTap else s.lastTap
          queues := if t' = 0 then put s.queues j.queue { x with since := s.time, tap := if x.leaving then none else x.tap, leaving := false } else s.queues } ∧
        (∀ m, (∀ g, g < j.perTeam → m ≠ s.nextId + g) → look t.groups m = look s.groups m) ∧
        ∀ g, g < j.perTeam → ∃ h, look t.groups (s.nextId + g) = some h ∧
          h = { Group.blank with
            gid := s.nextId + g, kind := .root, job := j.id, team := t', grp := g, lcore := lc, core, slot := (s.freeSlots core).getD g 0, resident := true
            born := s.time, cycFrom := s.cycles, allot := j.regs, tiles := j.tileCount, tileBase := j.tileBase
            trapvec := j.handler &&& 0x01FFFFFFFFFFFFFC#64
            splits := [⟨0, j.entry, BitVec.allOnes 32, .ready, none, false, 0, s.time, false⟩], g := h.g, pdh := h.pdh, pdl := h.pdl } ∧
          pedigree h.pdh h.pdl = [(g, t')] ∧
          ∀ r, h.gGet r = if r = 91 then (s.cursors j t' g).1 else if r = 92 then (s.cursors j t' g).2.1
            else if r = 93 then (s.cursors j t' g).2.2.1 else if r = 94 then (s.cursors j t' g).2.2.2 else 0#64) ∧
      (j.phase = .waiting → t' = 0 → 1 ≤ j.teamCount → ∃ t, exec (.teamDispatch j.id core) s = .next t ∧
        (t = { s with tick := s.tick + 1 } ∨ ∃ l, look t.jobs j.id = some l ∧ l.phase = .running ∧ l.nextTeam = j.teamCount ∧
          ∀ m, m < j.teamCount → (t.teamOf j.id m).resident = true ∧ j.hasCore (t.teamOf j.id m).core = true)))

/-- 02 R30, R33 to R35: tasks on cores. That a task takes the lowest free slot, and which logical core it shows (log 28), what makes a core
idle, that a stolen entry lies in the thief's own deque until its TASK_START, and which parent gives up its slot (log 29) are the model's
choices. -/
def Obligations.TaskScheduling : Prop :=
  ∀ (s : State) (core victim : Nat) (e : TaskEntry) (j : Job) (p : Group) (sp : Split) (q : BitVec 2) (u : State),
    let ticked := fun u : State => ({ u with tick := s.tick + 1 } : State)
    (s.nextEntry core = some e → look s.jobs e.job = some j → j.running = true → s.room core 1 j.regs 0 = true →
      ∃ g, exec (.taskStart core) s = .next (ticked { s with
          deques := put s.deques core ((s.deque core).erase e), groups := put s.groups s.nextId g, nextId := s.nextId + 1 }) ∧
        g = { Group.blank with
          gid := s.nextId, kind := .task, job := j.id, team := e.team, grp := e.grp, lcore := j.lcoreAt core e.lcore, core
          slot := (s.freeSlots core).headD 0, resident := true, born := s.time, cycFrom := s.cycles, allot := j.regs, tiles := j.tileCount, tileBase := j.tileBase
          trapvec := j.handler &&& 0x01FFFFFFFFFFFFFC#64, splits := [⟨0, e.pc, BitVec.allOnes 32, .ready, none, false, 0, s.time, false⟩]
          g := g.g, pdh := e.pdh, pdl := e.pdl, fpmode := e.fpmode, parent := e.parent, rank := e.rank, stolen := e.stolen } ∧
        ∀ r, g.gGet r = if r = 1 then e.arg else if r = 91 then e.heap else if r = 92 then e.heapEnd else if r = 93 then e.log
          else if r = 94 then e.logEnd else 0#64) ∧
    (let d := (s.deque core).filter (fun e => ((look s.jobs e.job).map Job.running).getD false)
     let waits := fun e : TaskEntry => e.stolen = false ∧ ∃ p, s.groupOf e.parent = some p ∧ p.job = e.job ∧ p.joining = true
     ((∀ e ∈ d, ¬waits e) → s.nextEntry core = d.head?) ∧
     ((∃ e ∈ d, waits e) → ∃ e newer older, s.nextEntry core = some e ∧ waits e ∧ d = newer ++ e :: older ∧ ∀ y ∈ newer, ¬waits y) ∧
     (∀ newer older, d = newer ++ e :: older → (∀ y ∈ newer, s.startFor core y = none) → (∀ y ∈ d, s.room core 1 ((look s.jobs y.job).getD Job.blank).regs 0 = false) →
       look s.jobs e.job = some j → e.stolen = false → s.groupOf e.parent = some p → p.gid = e.parent → p.job = e.job → p.joining = true → p.resident = true → p.core = core →
       (j.images + 1) * imageBytes j.regs ≤ s.arenaSize j 48 →
       let away : State := { (s.putGroup { p.saveRepeat with resident := false, away := true, cycAcc := s.cycOf p }).putJob { j with images := j.images + 1 } with
         images := s.images ++ [⟨j.id, parentRef p.gid, .group, s.time, j.bstUse, j.engUse, imageBytes j.regs, .imgb⟩] }
       away.room core 1 j.regs 0 = true → ∃ g, exec (.taskStart core) s = .next (ticked { away with
           deques := put s.deques core ((s.deque core).erase e), groups := put away.groups s.nextId g, nextId := s.nextId + 1 }) ∧
         g.kind = .task ∧ g.gid = s.nextId ∧ g.job = j.id ∧ g.parent = e.parent ∧ g.rank = e.rank ∧ g.core = core ∧ g.resident = true ∧
         g.splits = [⟨0, e.pc, BitVec.allOnes 32, .ready, none, false, 0, s.time, false⟩])) ∧
    ((s.deque victim).getLast? = some e → (look s.jobs e.job).map Job.running = some true → core ≠ victim → core / 96 = victim / 96 → s.deque core = [] → s.freeSlots core ≠ [] →
      ∃ t, exec (.taskSteal core victim) s = .next t ∧ t = ticked { s with deques := t.deques } ∧ t.deque core = [{ e with stolen := true }] ∧
        t.deque victim = (s.deque victim).dropLast ∧ ∀ k, k ≠ core → k ≠ victim → t.deque k = s.deque k) ∧
    (s.cur.kind = .task → s.cur.done = true →
      let freed : State := { s with cur := Group.blank, split := 0, limm := none }
      (s.cur.gid ≠ s.cur.parent → look s.groups s.cur.parent = some p → p.gid = s.cur.parent → p.job = s.cur.job →
        exec .taskCompletionReport s = .next (ticked { freed with groups := put s.groups p.gid { p with
          children := p.children - 1, childFlags := p.childFlags ||| s.cur.fflags
          childViews := p.childViews ++ s.cur.views.map (fun v => { v with ord := 2 * s.cur.rank - 1 }) } })) ∧
      ((∀ x, s.groupOf s.cur.parent = some x → x.job ≠ s.cur.job) → exec .taskCompletionReport s = .next (ticked freed))) ∧
    (s.cur.joinSplit = some sp → s.cur.children = 0 → s.cur.away = false → s.live s.cur = true → u = { s with split := sp.entry, limm := none } →
      (u.issue = .run (.join q) u → exec .joinComplete s = exec (.join q) u ∧ ∃ t, exec (.join q) u = .next t) ∧
      (u.issue = .run (.exit q) u → exec .joinComplete s = exec (.exit q) u ∧ ∃ t, exec (.exit q) u = .next t))

/-- 02 R27, R36, 03 R62, 13 R249, R261 to R266, 11 R211, R232: leaving a core and coming back. The numbers that name a task or a context and
the moments of slicing, racking and swapping (logs 28, 29), that FEAT and ENG of a header count for the whole launch (log 35), the sizes of
images and the parts of a partition's (log 40) and which split resumes a repeat (log 12) are the model's choices. -/
def Obligations.SwitchResults : Prop :=
  ∀ (s : State) (g : Group) (j : Job) (job lc core tm c : Nat) (m : Image) (e : TaskEntry),
    let ticked := fun u : State => ({ u with tick := s.tick + 1 } : State)
    let T := s.teamOf j.id tm
    let stopped := ticked { s with jobs := put s.jobs j.id (j.stop 3) }
    let gone := s.images.filter (fun x => !(x.job == j.id && x.team == 2 ^ 32 + g.gid))
    let idle := s.ops.any (fun o => o.inFlight j.id tm) = false
    (let x := g.out s
     x = { g with resident := false, cycAcc := s.cycOf g, region := none, splits := x.splits, repc := x.repc, monitor := x.monitor } ∧
      (g.region = none → (∀ p ∈ g.splits, p.rep = none) → x.repc = g.repc ∧
        x.splits = g.splits.map (fun p : Split => ({ p with fresh := p.fresh || (g.repc.getLsbD 63 && g.splits.all (fun q => !q.fresh)) } : Split).saved)) ∧
      (∀ p r, g.region = none → g.splits = [p] → p.rep = some r →
        x.splits = [({ p with rep := none, fresh := true } : Split).saved] ∧ x.repc = repcOf r.total r.done) ∧
      (∀ p r, g.region = some r → g.splits = [p] → p.rep = none → p.entry = r.split → x.splits.map Split.pc = [r.pc])) ∧
    (let x := g.back s core c
     x = { g with resident := true, core, slot := c, cycFrom := s.cycles, holds := [], monitor := x.monitor } ∧ x.monitor.isSome = g.monitor.isSome) ∧
    (∀ p : Split, p.saved = match p.st with
      | .blocked .monitor _ | .blocked .phase _ | .blocked (.record _ _) _ | .blocked (.slot (some _)) _ => p
      | .blocked _ _ => { p with st := .ready } | _ => p) ∧
    (s.Records → look s.jobs job = some j → j.running = true → look s.teams (teamKey job tm) = some T →
      ((j.lcoreOf lc).team = some tm → j.cor = false → lc < j.logical → j.seqEntry = 0#64 →
        (T.resident = true → idle → ∃ t, exec (.timeSlice job lc core) s = .next t ∧ s.TeamSaved j tm t) ∧
        (T.resident = false → s.imageOf job tm = some m → s.headerOk m = true → s.teamReturns j tm core = true →
          ∃ t, exec (.timeSlice job lc core) s = .next t ∧ s.TeamBack j tm core t) ∧
        (T.resident = false → s.imageOf job tm = some m → s.headerOk m = false → exec (.timeSlice job lc core) s = .next stopped)) ∧
      ((j.lcoreOf lc).team = some tm → lc < 4096 → j.seqEntry = 0#64 → T.resident = false → idle → j.hasCore core = true →
        s.advertises (core / 96) = true → T.core / 96 ≠ core / 96 →
        (s.restorable j.id tm = true → s.teamReturns j tm core = true → ∃ t, exec (.racking job lc core) s = .next t ∧ s.TeamBack j tm core t) ∧
        (s.restorable j.id tm = false → exec (.racking job lc core) s = .next stopped)) ∧
      (tm < 2 ^ 32 → T.resident = true → j.seqEntry = 0#64 → idle →
        (∃ k ∈ s.jobs, s.needsRoom k.2 T.core = true ∧ ∃ v, s.firstCandidate k.2 T.core = some v ∧ v.job = job ∧ v.ref = tm) →
        ∃ t, exec (.switchOut job tm) s = .next t ∧ s.TeamSaved j tm t) ∧
      (tm < 2 ^ 32 → j.seqEntry = 0#64 → s.imageOf job tm = some m →
        (s.headerOk m = true → s.teamReturns j tm core = true → ∃ t, exec (.restore job tm core) s = .next t ∧ s.TeamBack j tm core t) ∧
        (s.headerOk m = false → exec (.restore job tm core) s = .next stopped))) ∧
    (look s.jobs job = some j → j.running = true → 4096 ≤ lc → lc < 2 ^ 32 → (s.deque (lc - 4096)).getLast? = some e → e.job = j.id →
      (lc - 4096) / 96 ≠ core / 96 → j.hasCore core = true → s.advertises (core / 96) = true →
      ∃ t, exec (.racking job lc core) s = .next t ∧ t = ticked { s with deques := t.deques } ∧ t.deque core = { e with stolen := true } :: s.deque core ∧
        t.deque (lc - 4096) = (s.deque (lc - 4096)).dropLast ∧ ∀ k, k ≠ core → k ≠ lc - 4096 → t.deque k = s.deque k) ∧
    (s.Records → look s.jobs job = some j → look s.groups g.gid = some g → g.kind = .task → g.job = job →
      (g.resident = true → s.ops.any (fun o => o.task && o.gid == g.gid) = false →
        (∃ k ∈ s.jobs, s.needsRoom k.2 g.core = true ∧ ∃ v, s.firstCandidate k.2 g.core = some v ∧ v.job = job ∧ v.ref = 2 ^ 32 + g.gid) →
        exec (.switchOut job (2 ^ 32 + g.gid)) s = .next (ticked { s with
          groups := put s.groups g.gid (g.out s), images := s.images ++
            [⟨j.id, 2 ^ 32 + g.gid, .group, s.time, j.bstUse, j.engUse, Config.imageBytes 0 s.tick, s.imagePlace g.core⟩] })) ∧
      (g.resident = false → g.done = false → g.away = false → j.running = true → g.core / 96 ≠ core / 96 → j.hasCore core = true →
        s.advertises (core / 96) = true → s.restorable j.id (2 ^ 32 + g.gid) = true → s.room core 1 g.allot g.windowBytes = true →
        exec (.racking job (2 ^ 32 + g.gid) core) s = .next (ticked { s with
          groups := put s.groups g.gid ({ g with stolen := true }.back s core ((s.freeSlots core).headD 0)), images := gone })) ∧
      (j.running = true → s.imageOf job (2 ^ 32 + g.gid) = some m → s.headerOk m = true → j.hasCore core = true → s.room core 1 g.allot g.windowBytes = true →
        exec (.restore job (2 ^ 32 + g.gid) core) s = .next (ticked { s with
          groups := put s.groups g.gid (g.back s core ((s.freeSlots core).headD 0)), images := gone }))) ∧
    (s.Records → look s.jobs job = some j → j.running = true → j.seqEntry ≠ 0#64 → c < (j.logical + 7) / 8 → j.clusterTeams c = [] →
      let strand := fun (f : Group → Group) (x : Group) => if x.kind = .seq ∧ x.job = j.id ∧ x.grp = c then f x else x
      let moved := fun (f : Group → Group) (here : Option Nat) (res : Bool) (turn : Nat) => ({ s with
        cur := strand f s.cur, groups := s.groups.map (fun p => (p.1, strand f p.2))
        jobs := put s.jobs j.id ((j.clusterCores c).foldl (fun k l => k.putLcore l { j.lcoreOf l with core := here.map (fun p => 8 * p + l % 8) })
          { j with engines := put j.engines c { j.engine c with resident := res, since := turn } }) } : State)
      let evicted := s.jobs.any (fun k => s.needsContext k.2 j (8 * j.clusterAt c))
      let leaves := j.slices c = true ∨ evicted = true
      let turn := if evicted then (j.engine c).since else s.tick + 1
      ((j.engine c).resident = true → ¬leaves → exec (.engineContextSwitch job c) s = .next (ticked s)) ∧
      ((j.engine c).resident = true → leaves → exec (.engineContextSwitch job c) s = .next (ticked { moved (fun x => x.out s) none false turn with
        images := s.images ++ [⟨j.id, 2 ^ 64 + c, .context, s.time, j.bstUse, j.engUse, Config.imageBytes 2 s.tick, s.imagePlace (8 * j.clusterAt c)⟩] })) ∧
      ((j.engine c).resident = false → s.contextOn (j.clusterAt c) = false → s.contextAhead j c = false →
        (∀ y ∈ s.images, y.job = j.id → y.team = 2 ^ 64 + c → s.headerOk y = true) →
        exec (.engineContextSwitch job c) s = .next (ticked { moved (fun x => x.back s (8 * j.clusterAt c) 0) (some (j.clusterAt c)) true (j.engine c).since with
          images := s.images.filter (fun y => !(y.job == j.id && y.team == 2 ^ 64 + c)) }))) ∧
    (s.Records → look s.jobs job = some j → j.field 0 1 = 1 →
      let t := s.swap job
      let together := fun k : Job => (∃ n, look s.jobs n = some k) ∧ k.field 0 1 = 1 ∧ k.dies = j.dies
      (j.running = true → (∀ k, together k → k.running = true → s.swappable k = true) → ∀ k, together k → k.running = true →
        (∃ l, look t.jobs k.id = some l ∧ l = { k with phase := .swapped, lcores := l.lcores, engines := l.engines } ∧
          ((k.engines.map Prod.fst).Nodup → ∀ c, l.engine c = k.engine c)) ∧
        (∀ n x, look t.teams (teamKey k.id n) = some x → x.job = k.id → x.resident = false) ∧
        ∃ m ∈ t.images, m = ⟨k.id, partitionRef, .partition, s.time, k.bstUse, k.engUse, m.size, m.place⟩) ∧
      (j.running = true → (∃ k, together k ∧ k.running = true ∧ s.swappable k = false) → t = s) ∧
      (j.phase = .swapped → ∀ k, together k → k.phase = .swapped →
        (s.restorable k.id partitionRef = false → look t.jobs k.id = some (k.stop 3)) ∧
        (s.restorable k.id partitionRef = true → (∀ e ∈ k.engines, e.2.resident = false) →
          look t.jobs k.id = some { k with phase := .running } ∧ ∀ m ∈ t.images, m.job = k.id → m.team ≠ partitionRef) ∧
        (s.restorable k.id partitionRef = true → ∃ l, look t.jobs k.id = some l ∧ (l = k ∨ l.phase = .ending 3 ∨
          (l = { k with phase := .running, lcores := l.lcores, engines := l.engines } ∧ ∀ m ∈ t.images, m.job = k.id → m.team ≠ partitionRef)))))

/-- 09 R177 to R184, 13 R259: the end of a launch. That one step folds a whole view from the element reached on, and that views are folded
after DAB_SPILL_FULL too, are the model's readings (log 31). -/
def Obligations.LaunchEndEvents : Prop :=
  ∀ (s u : State) (j : Job) (tg : Nat × Nat) (vs : List View) (v : View) (p : Page) (loc w n k x : Nat), s.Records → look s.jobs s.sel = some j →
    let mine := s.cur.job = j.id ∧ s.cur.kind ≠ .idle
    let cleared := fun u : State => ({ u with
      groups := s.groups.filter (fun p => p.2.job != j.id || p.2.kind == .idle)
      deques := s.deques.map (fun d => (d.1, d.2.filter (fun e => e.job != j.id))), images := s.images.filter (fun m => m.job != j.id)
      cur := if mine then Group.blank else s.cur, split := if mine then 0 else s.split, limm := if mine then none else s.limm
      tick := s.tick + 1 } : State)
    let desc := (look j.redDescs v.red).getD []
    let wd := groupWidth (redType desc)
    let elems := redSize desc / max 1 wd - j.foldElem
    let rest := j.folds.filter (fun f => f.1 != tg)
    let ps := sortBy (fun x y : Partial => decide (x.team < y.team)) (j.partials.filter (fun q => q.loc == loc && q.width == w))
    ((∃ st, j.phase = .ending st) → exec .launchEnd s = .next (cleared s)) ∧
    (j.running = true → s.strandsDone j = true → j.folds = [] → (j.feat = true ∨ (j.adds = [] ∧ j.partials = [])) → j.armed.any Armed.fired = false →
      exec .launchEnd s = .next (cleared (s.putJob (j.stop (if j.feat then 1 else 0))))) ∧
    (j.running = true → s.nextFold j = some (tg, vs) → v ∈ vs → (∀ y ∈ vs, y ≠ v → v.red < y.red) →
      ∃ r, r = s.foldFrom j v desc elems j.foldElem ∧ exec .rootViewFold s = .next { (if r.2 then
          r.1.putJob { j with folds := rest ++ (if vs.erase v = [] then [] else [(tg, vs.erase v)]), foldElem := 0 } else r.1) with tick := r.1.tick + 1 }) ∧
    (u.foldFrom j v desc 0 k = (u, true) ∧
      (u.devPage (keyFold j.id) j.root j.queue (redBase desc + k * wd) true = .page p → p.attr = 0 → u.isMmio p.pa = false →
        u.poisoned p.pa wd = false → u.poisoned (viewLoc v.key (k * wd)) wd = false → u.foldFrom j v desc (n + 1) k =
          (u.storeNat p.pa wd (combine desc (u.natAt p.pa wd) (u.natAt (viewLoc v.key (k * wd)) wd))).foldFrom j v desc n (k + 1))) ∧
    (j.running = true → s.strandsDone j = true → j.folds = [] → j.armed.any Armed.fired = false → j.feat = false → (∀ a ∈ j.adds, a.width = 4 ∨ a.width = 8) →
      (∀ a ∈ j.adds, s.farFails a.loc = false) → (∀ q ∈ j.partials, s.farFails q.loc = false) →
      ∃ t, exec .deferredAddApply s = .next t ∧
        t = { s with mem := t.mem, hist := t.hist, jobs := put s.jobs j.id { j with adds := [], partials := [] }, tick := s.tick + 1 } ∧
        (∀ y, (∀ a ∈ j.adds, y < a.loc ∨ a.loc + a.width ≤ y) → (∀ q ∈ j.partials, y < q.loc ∨ q.loc + q.width ≤ y) → t.byteAt y = s.byteAt y) ∧
        (j.partials = [] → (w = 4 ∨ w = 8) → (∀ a ∈ j.adds, a.loc = loc ∧ a.width = w ∨ NoOverlap loc w a.loc a.width) → t.natAt loc w =
          ((sortBy DefAdd.before j.adds).filter (fun a => a.loc == loc && a.width == w)).foldl
            (fun x a => (faddW (if w = 8 then fp64 else fp32) .rne false x a.operand.toNat).bits % 2 ^ (8 * w)) (s.natAt loc w)) ∧
        (j.adds = [] → (w = 4 ∨ w = 8) → (∀ q ∈ j.partials, q.loc = loc ∧ q.width = w ∨ NoOverlap loc w q.loc q.width) →
          (pairTree (fun x y => faddW (if w = 8 then fp64 else fp32) .rne false x y) (ps.length + 1) (ps.map (fun q => q.sum.toNat)) 0).1 = [x] →
          t.natAt loc w = (faddW (if w = 8 then fp64 else fp32) .rne false (s.natAt loc w) x).bits % 2 ^ (8 * w)))
end

