-- ==== Sys2Proof/Laws/Cells.lean ====
section
/-! SUPPORT. Laws of the sparse stores, of keyed records and of little-endian bytes. -/
namespace Sys2Proof.Machine

/-! ## The canonical form -/

theorem Cells.wfAbove_mono {w : Nat} {c : Cells w} {lo hi : Nat} (h : Cells.wfAbove hi c = true) (hl : lo ≤ hi) :
    Cells.wfAbove lo c = true := by
  cases c with
  | nil => rfl
  | cons p c =>
    simp only [Cells.wfAbove, Bool.and_eq_true, decide_eq_true_eq] at h ⊢
    exact ⟨⟨by omega, h.1.2⟩, h.2⟩

theorem Cells.wfAbove_insert {w : Nat} {c : Cells w} {lo k : Nat} (x : BitVec w) (h : Cells.wfAbove lo c = true) (hk : lo ≤ k)
    (hx : x ≠ 0#w) : Cells.wfAbove lo (Cells.insert c k x) = true := by
  induction c generalizing lo with
  | nil => simp [Cells.insert, Cells.wfAbove, hx, hk]
  | cons p c ih =>
    obtain ⟨a, y⟩ := p
    simp only [Cells.wfAbove, Bool.and_eq_true, decide_eq_true_eq, bne_iff_ne, ne_eq] at h
    by_cases e : k = a
    · subst e
      simp [Cells.insert, hx, Cells.wfAbove, h.1.1, h.2]
    · by_cases l : k < a
      · simp only [Cells.insert, if_neg e, if_pos l, Cells.wfAbove, Bool.and_eq_true, decide_eq_true_eq, bne_iff_ne, ne_eq]
        exact ⟨⟨hk, hx⟩, ⟨by omega, h.1.2⟩, h.2⟩
      · simp only [Cells.insert, if_neg e, if_neg l, Cells.wfAbove, Bool.and_eq_true, decide_eq_true_eq, bne_iff_ne, ne_eq]
        exact ⟨h.1, ih h.2 (by omega)⟩

/-- Keeping entries that pass a test keeps the canonical form. -/
theorem Cells.wfAbove_filter {w : Nat} {c : Cells w} {lo : Nat} (f : Nat × BitVec w → Bool) (h : Cells.wfAbove lo c = true) :
    Cells.wfAbove lo (c.filter f) = true := by
  induction c generalizing lo with
  | nil => rfl
  | cons p c ih =>
    simp only [Cells.wfAbove, Bool.and_eq_true, decide_eq_true_eq] at h
    by_cases e : f p = true
    · simp only [List.filter_cons, e, if_true, Cells.wfAbove, Bool.and_eq_true, decide_eq_true_eq]
      exact ⟨h.1, ih h.2⟩
    · simpa [List.filter_cons, e] using Cells.wfAbove_mono (ih h.2) (by omega)

/-- A write keeps the canonical form. -/
theorem Cells.wf_set {w : Nat} {c : Cells w} (k : Nat) (x : BitVec w) (h : Cells.wf c = true) : Cells.wf (Cells.set c k x) = true := by
  unfold Cells.set
  split
  · exact Cells.wfAbove_filter _ h
  · exact Cells.wfAbove_insert x h (Nat.zero_le k) ‹_›

/-! ## Reading after writing -/

theorem Cells.get_insert {w : Nat} (c : Cells w) (k j : Nat) (x : BitVec w) :
    Cells.get (Cells.insert c k x) j = if j = k then x else Cells.get c j := by
  induction c with
  | nil => by_cases hj : j = k <;> simp [Cells.insert, Cells.get, hj]
  | cons p c ih =>
    obtain ⟨a, y⟩ := p
    by_cases e : k = a
    · subst e; by_cases hj : j = k <;> simp [Cells.insert, Cells.get, hj]
    · by_cases l : k < a
      · by_cases hj : j = k <;> simp [Cells.insert, e, l, Cells.get, hj]
      · by_cases ja : j = a
        · simp [Cells.insert, e, l, Cells.get, ja, Ne.symm e]
        · by_cases hj : j = k
          · subst hj; simp [Cells.insert, e, l, Cells.get, ih]
          · simp [Cells.insert, e, l, Cells.get, ja, hj, ih]

theorem Cells.get_remove {w : Nat} (c : Cells w) (k j : Nat) :
    Cells.get (c.filter (fun p => p.1 != k)) j = if j = k then 0#w else Cells.get c j := by
  induction c with
  | nil => simp [Cells.get]
  | cons p c ih =>
    obtain ⟨a, y⟩ := p
    by_cases e : a = k
    · subst e
      by_cases hj : j = a
      · subst hj; simpa using ih
      · simp [ih, Cells.get, hj]
    · by_cases ja : j = a
      · subst ja; simp [e, Cells.get]
      · simp [e, Cells.get, ja, ih]

/-- Reading after a write: the value written, elsewhere the old one. -/
theorem Cells.get_set {w : Nat} (c : Cells w) (k j : Nat) (x : BitVec w) :
    Cells.get (Cells.set c k x) j = if j = k then x else Cells.get c j := by
  unfold Cells.set
  split
  · rename_i h; rw [Cells.get_remove, h]
  · exact Cells.get_insert c k j x

/-! ## Keyed records -/

theorem look_put {α : Type} (l : List (Nat × α)) (k j : Nat) (x : α) : look (put l k x) j = if j = k then some x else look l j := by
  induction l with
  | nil => by_cases hj : j = k <;> simp [put, look, hj]
  | cons p l ih =>
    obtain ⟨a, y⟩ := p
    by_cases e : k = a
    · subst e; by_cases hj : j = k <;> simp [put, look, hj]
    · by_cases ja : j = a
      · have hj : j ≠ k := fun q => e (q.symm.trans ja)
        simp [put, look, e, ja, Ne.symm e]
      · by_cases hj : j = k
        · subst hj; simp [put, look, e, ih]
        · simp [put, look, e, ja, hj, ih]

/-! ## Little-endian bytes (00 R6) -/

@[simp] theorem leBytes_length (n x : Nat) : (leBytes n x).length = n := by
  induction n generalizing x with
  | zero => rfl
  | succ n ih => simp [leBytes, ih]

theorem leNat_leBytes (n x : Nat) : leNat (leBytes n x) = x % 256 ^ n := by
  induction n generalizing x with
  | zero => simp [leBytes, leNat, Nat.mod_one]
  | succ n ih =>
    have h : x % 256 + 256 * (x / 256 % 256 ^ n) = x % (256 * 256 ^ n) := (Nat.mod_mul).symm
    rw [← Nat.pow_succ'] at h
    rw [leBytes, leNat, ih, BitVec.toNat_ofNat]
    exact h

/-! ## Memory -/

theorem memPut_wf {m : List Host.Cell} (loc : Nat) (bs : List Byte) (h : Memory.wf m = true) : Memory.wf (memPut m loc bs) = true := by
  induction bs generalizing m loc with
  | nil => exact h
  | cons b bs ih => exact ih (loc + 1) (Cells.wf_set loc b h)

theorem memPut_get (m : List Host.Cell) (loc a : Nat) (bs : List Byte) :
    Cells.get (memPut m loc bs) a = if loc ≤ a ∧ a < loc + bs.length then bs.getD (a - loc) 0 else Cells.get m a := by
  induction bs generalizing m loc with
  | nil => simp [memPut]
  | cons b bs ih =>
    rw [memPut, ih, Cells.get_set]
    by_cases e : a = loc
    · subst e; simp
    · by_cases l : loc + 1 ≤ a ∧ a < loc + 1 + bs.length
      · have h2 : loc ≤ a ∧ a < loc + (b :: bs).length := by simp; omega
        have h3 : a - loc = (a - (loc + 1)) + 1 := by omega
        rw [if_pos l, if_pos h2, h3, List.getD_cons_succ]
      · have h2 : ¬(loc ≤ a ∧ a < loc + (b :: bs).length) := by simp; omega
        rw [if_neg l, if_neg e, if_neg h2]

end Sys2Proof.Machine
end

