-- ==== Sys2Proof/Laws/State.lean ====
section
/-! SUPPORT. What each update of the state reads as, one lemma per field. -/
namespace Sys2Proof.Machine

@[simp] theorem State.setCur_time (s : State) (g : Group) : (s.setCur g).time = s.time := rfl
@[simp] theorem State.setCur_cycles (s : State) (g : Group) : (s.setCur g).cycles = s.cycles := rfl
@[simp] theorem State.setCur_boot (s : State) (g : Group) : (s.setCur g).boot = s.boot := rfl
@[simp] theorem State.setCur_part (s : State) (g : Group) : (s.setCur g).part = s.part := rfl
@[simp] theorem State.setCur_kiln (s : State) (g : Group) : (s.setCur g).kiln = s.kiln := rfl
@[simp] theorem State.setCur_tdp (s : State) (g : Group) : (s.setCur g).tdp = s.tdp := rfl
@[simp] theorem State.setCur_pkg (s : State) (g : Group) : (s.setCur g).pkg = s.pkg := rfl
@[simp] theorem State.setCur_measure (s : State) (g : Group) : (s.setCur g).measure = s.measure := rfl
@[simp] theorem State.setCur_recordHash (s : State) (g : Group) : (s.setCur g).recordHash = s.recordHash := rfl
@[simp] theorem State.setCur_links (s : State) (g : Group) : (s.setCur g).links = s.links := rfl
@[simp] theorem State.setCur_regs (s : State) (g : Group) : (s.setCur g).regs = s.regs := rfl
@[simp] theorem State.setCur_mem (s : State) (g : Group) : (s.setCur g).mem = s.mem := rfl
@[simp] theorem State.setCur_hist (s : State) (g : Group) : (s.setCur g).hist = s.hist := rfl
@[simp] theorem State.setCur_cur (s : State) (g : Group) : (s.setCur g).cur = g := rfl
@[simp] theorem State.setCur_groups (s : State) (g : Group) : (s.setCur g).groups = s.groups := rfl
@[simp] theorem State.setCur_split (s : State) (g : Group) : (s.setCur g).split = s.split := rfl
@[simp] theorem State.setCur_limm (s : State) (g : Group) : (s.setCur g).limm = s.limm := rfl
@[simp] theorem State.setCur_sel (s : State) (g : Group) : (s.setCur g).sel = s.sel := rfl
@[simp] theorem State.setCur_teams (s : State) (g : Group) : (s.setCur g).teams = s.teams := rfl
@[simp] theorem State.setCur_jobs (s : State) (g : Group) : (s.setCur g).jobs = s.jobs := rfl
@[simp] theorem State.setCur_ops (s : State) (g : Group) : (s.setCur g).ops = s.ops := rfl
@[simp] theorem State.setCur_deques (s : State) (g : Group) : (s.setCur g).deques = s.deques := rfl
@[simp] theorem State.setCur_queues (s : State) (g : Group) : (s.setCur g).queues = s.queues := rfl
@[simp] theorem State.setCur_lastTap (s : State) (g : Group) : (s.setCur g).lastTap = s.lastTap := rfl
@[simp] theorem State.setCur_quantum (s : State) (g : Group) : (s.setCur g).quantum = s.quantum := rfl
@[simp] theorem State.setCur_nextQuantum (s : State) (g : Group) : (s.setCur g).nextQuantum = s.nextQuantum := rfl
@[simp] theorem State.setCur_commands (s : State) (g : Group) : (s.setCur g).commands = s.commands := rfl
@[simp] theorem State.setCur_reqs (s : State) (g : Group) : (s.setCur g).reqs = s.reqs := rfl
@[simp] theorem State.setCur_nextReq (s : State) (g : Group) : (s.setCur g).nextReq = s.nextReq := rfl
@[simp] theorem State.setCur_msi (s : State) (g : Group) : (s.setCur g).msi = s.msi := rfl
@[simp] theorem State.setCur_refused (s : State) (g : Group) : (s.setCur g).refused = s.refused := rfl
@[simp] theorem State.setCur_invals (s : State) (g : Group) : (s.setCur g).invals = s.invals := rfl
@[simp] theorem State.setCur_records (s : State) (g : Group) : (s.setCur g).records = s.records := rfl
@[simp] theorem State.setCur_silent (s : State) (g : Group) : (s.setCur g).silent = s.silent := rfl
@[simp] theorem State.setCur_steps (s : State) (g : Group) : (s.setCur g).steps = s.steps := rfl
@[simp] theorem State.setCur_hot (s : State) (g : Group) : (s.setCur g).hot = s.hot := rfl
@[simp] theorem State.setCur_poison (s : State) (g : Group) : (s.setCur g).poison = s.poison := rfl
@[simp] theorem State.setCur_powerStep (s : State) (g : Group) : (s.setCur g).powerStep = s.powerStep := rfl
@[simp] theorem State.setCur_droop (s : State) (g : Group) : (s.setCur g).droop = s.droop := rfl
@[simp] theorem State.setCur_report (s : State) (g : Group) : (s.setCur g).report = s.report := rfl
@[simp] theorem State.setCur_hostData (s : State) (g : Group) : (s.setCur g).hostData = s.hostData := rfl
@[simp] theorem State.setCur_remoteData (s : State) (g : Group) : (s.setCur g).remoteData = s.remoteData := rfl
@[simp] theorem State.setCur_images (s : State) (g : Group) : (s.setCur g).images = s.images := rfl
@[simp] theorem State.setCur_lastIssue (s : State) (g : Group) : (s.setCur g).lastIssue = s.lastIssue := rfl
@[simp] theorem State.setCur_nextId (s : State) (g : Group) : (s.setCur g).nextId = s.nextId := rfl
@[simp] theorem State.setCur_tick (s : State) (g : Group) : (s.setCur g).tick = s.tick := rfl
@[simp] theorem State.setCur_agenda (s : State) (g : Group) : (s.setCur g).agenda = s.agenda := rfl

@[simp] theorem State.putJob_time (s : State) (j : Job) : (s.putJob j).time = s.time := rfl
@[simp] theorem State.putJob_cycles (s : State) (j : Job) : (s.putJob j).cycles = s.cycles := rfl
@[simp] theorem State.putJob_boot (s : State) (j : Job) : (s.putJob j).boot = s.boot := rfl
@[simp] theorem State.putJob_part (s : State) (j : Job) : (s.putJob j).part = s.part := rfl
@[simp] theorem State.putJob_kiln (s : State) (j : Job) : (s.putJob j).kiln = s.kiln := rfl
@[simp] theorem State.putJob_tdp (s : State) (j : Job) : (s.putJob j).tdp = s.tdp := rfl
@[simp] theorem State.putJob_pkg (s : State) (j : Job) : (s.putJob j).pkg = s.pkg := rfl
@[simp] theorem State.putJob_measure (s : State) (j : Job) : (s.putJob j).measure = s.measure := rfl
@[simp] theorem State.putJob_recordHash (s : State) (j : Job) : (s.putJob j).recordHash = s.recordHash := rfl
@[simp] theorem State.putJob_links (s : State) (j : Job) : (s.putJob j).links = s.links := rfl
@[simp] theorem State.putJob_regs (s : State) (j : Job) : (s.putJob j).regs = s.regs := rfl
@[simp] theorem State.putJob_mem (s : State) (j : Job) : (s.putJob j).mem = s.mem := rfl
@[simp] theorem State.putJob_hist (s : State) (j : Job) : (s.putJob j).hist = s.hist := rfl
@[simp] theorem State.putJob_cur (s : State) (j : Job) : (s.putJob j).cur = s.cur := rfl
@[simp] theorem State.putJob_groups (s : State) (j : Job) : (s.putJob j).groups = s.groups := rfl
@[simp] theorem State.putJob_split (s : State) (j : Job) : (s.putJob j).split = s.split := rfl
@[simp] theorem State.putJob_limm (s : State) (j : Job) : (s.putJob j).limm = s.limm := rfl
@[simp] theorem State.putJob_sel (s : State) (j : Job) : (s.putJob j).sel = s.sel := rfl
@[simp] theorem State.putJob_teams (s : State) (j : Job) : (s.putJob j).teams = s.teams := rfl
@[simp] theorem State.putJob_jobs (s : State) (j : Job) : (s.putJob j).jobs = put s.jobs j.id j := rfl
@[simp] theorem State.putJob_ops (s : State) (j : Job) : (s.putJob j).ops = s.ops := rfl
@[simp] theorem State.putJob_deques (s : State) (j : Job) : (s.putJob j).deques = s.deques := rfl
@[simp] theorem State.putJob_queues (s : State) (j : Job) : (s.putJob j).queues = s.queues := rfl
@[simp] theorem State.putJob_lastTap (s : State) (j : Job) : (s.putJob j).lastTap = s.lastTap := rfl
@[simp] theorem State.putJob_quantum (s : State) (j : Job) : (s.putJob j).quantum = s.quantum := rfl
@[simp] theorem State.putJob_nextQuantum (s : State) (j : Job) : (s.putJob j).nextQuantum = s.nextQuantum := rfl
@[simp] theorem State.putJob_commands (s : State) (j : Job) : (s.putJob j).commands = s.commands := rfl
@[simp] theorem State.putJob_reqs (s : State) (j : Job) : (s.putJob j).reqs = s.reqs := rfl
@[simp] theorem State.putJob_nextReq (s : State) (j : Job) : (s.putJob j).nextReq = s.nextReq := rfl
@[simp] theorem State.putJob_msi (s : State) (j : Job) : (s.putJob j).msi = s.msi := rfl
@[simp] theorem State.putJob_refused (s : State) (j : Job) : (s.putJob j).refused = s.refused := rfl
@[simp] theorem State.putJob_invals (s : State) (j : Job) : (s.putJob j).invals = s.invals := rfl
@[simp] theorem State.putJob_records (s : State) (j : Job) : (s.putJob j).records = s.records := rfl
@[simp] theorem State.putJob_silent (s : State) (j : Job) : (s.putJob j).silent = s.silent := rfl
@[simp] theorem State.putJob_steps (s : State) (j : Job) : (s.putJob j).steps = s.steps := rfl
@[simp] theorem State.putJob_hot (s : State) (j : Job) : (s.putJob j).hot = s.hot := rfl
@[simp] theorem State.putJob_poison (s : State) (j : Job) : (s.putJob j).poison = s.poison := rfl
@[simp] theorem State.putJob_powerStep (s : State) (j : Job) : (s.putJob j).powerStep = s.powerStep := rfl
@[simp] theorem State.putJob_droop (s : State) (j : Job) : (s.putJob j).droop = s.droop := rfl
@[simp] theorem State.putJob_report (s : State) (j : Job) : (s.putJob j).report = s.report := rfl
@[simp] theorem State.putJob_hostData (s : State) (j : Job) : (s.putJob j).hostData = s.hostData := rfl
@[simp] theorem State.putJob_remoteData (s : State) (j : Job) : (s.putJob j).remoteData = s.remoteData := rfl
@[simp] theorem State.putJob_images (s : State) (j : Job) : (s.putJob j).images = s.images := rfl
@[simp] theorem State.putJob_lastIssue (s : State) (j : Job) : (s.putJob j).lastIssue = s.lastIssue := rfl
@[simp] theorem State.putJob_nextId (s : State) (j : Job) : (s.putJob j).nextId = s.nextId := rfl
@[simp] theorem State.putJob_tick (s : State) (j : Job) : (s.putJob j).tick = s.tick := rfl
@[simp] theorem State.putJob_agenda (s : State) (j : Job) : (s.putJob j).agenda = s.agenda := rfl

@[simp] theorem State.putTeam_time (s : State) (t : Team) : (s.putTeam t).time = s.time := rfl
@[simp] theorem State.putTeam_cycles (s : State) (t : Team) : (s.putTeam t).cycles = s.cycles := rfl
@[simp] theorem State.putTeam_boot (s : State) (t : Team) : (s.putTeam t).boot = s.boot := rfl
@[simp] theorem State.putTeam_part (s : State) (t : Team) : (s.putTeam t).part = s.part := rfl
@[simp] theorem State.putTeam_kiln (s : State) (t : Team) : (s.putTeam t).kiln = s.kiln := rfl
@[simp] theorem State.putTeam_tdp (s : State) (t : Team) : (s.putTeam t).tdp = s.tdp := rfl
@[simp] theorem State.putTeam_pkg (s : State) (t : Team) : (s.putTeam t).pkg = s.pkg := rfl
@[simp] theorem State.putTeam_measure (s : State) (t : Team) : (s.putTeam t).measure = s.measure := rfl
@[simp] theorem State.putTeam_recordHash (s : State) (t : Team) : (s.putTeam t).recordHash = s.recordHash := rfl
@[simp] theorem State.putTeam_links (s : State) (t : Team) : (s.putTeam t).links = s.links := rfl
@[simp] theorem State.putTeam_regs (s : State) (t : Team) : (s.putTeam t).regs = s.regs := rfl
@[simp] theorem State.putTeam_mem (s : State) (t : Team) : (s.putTeam t).mem = s.mem := rfl
@[simp] theorem State.putTeam_hist (s : State) (t : Team) : (s.putTeam t).hist = s.hist := rfl
@[simp] theorem State.putTeam_cur (s : State) (t : Team) : (s.putTeam t).cur = s.cur := rfl
@[simp] theorem State.putTeam_groups (s : State) (t : Team) : (s.putTeam t).groups = s.groups := rfl
@[simp] theorem State.putTeam_split (s : State) (t : Team) : (s.putTeam t).split = s.split := rfl
@[simp] theorem State.putTeam_limm (s : State) (t : Team) : (s.putTeam t).limm = s.limm := rfl
@[simp] theorem State.putTeam_sel (s : State) (t : Team) : (s.putTeam t).sel = s.sel := rfl
@[simp] theorem State.putTeam_teams (s : State) (t : Team) : (s.putTeam t).teams = put s.teams (teamKey t.job t.idx) t := rfl
@[simp] theorem State.putTeam_jobs (s : State) (t : Team) : (s.putTeam t).jobs = s.jobs := rfl
@[simp] theorem State.putTeam_ops (s : State) (t : Team) : (s.putTeam t).ops = s.ops := rfl
@[simp] theorem State.putTeam_deques (s : State) (t : Team) : (s.putTeam t).deques = s.deques := rfl
@[simp] theorem State.putTeam_queues (s : State) (t : Team) : (s.putTeam t).queues = s.queues := rfl
@[simp] theorem State.putTeam_lastTap (s : State) (t : Team) : (s.putTeam t).lastTap = s.lastTap := rfl
@[simp] theorem State.putTeam_quantum (s : State) (t : Team) : (s.putTeam t).quantum = s.quantum := rfl
@[simp] theorem State.putTeam_nextQuantum (s : State) (t : Team) : (s.putTeam t).nextQuantum = s.nextQuantum := rfl
@[simp] theorem State.putTeam_commands (s : State) (t : Team) : (s.putTeam t).commands = s.commands := rfl
@[simp] theorem State.putTeam_reqs (s : State) (t : Team) : (s.putTeam t).reqs = s.reqs := rfl
@[simp] theorem State.putTeam_nextReq (s : State) (t : Team) : (s.putTeam t).nextReq = s.nextReq := rfl
@[simp] theorem State.putTeam_msi (s : State) (t : Team) : (s.putTeam t).msi = s.msi := rfl
@[simp] theorem State.putTeam_refused (s : State) (t : Team) : (s.putTeam t).refused = s.refused := rfl
@[simp] theorem State.putTeam_invals (s : State) (t : Team) : (s.putTeam t).invals = s.invals := rfl
@[simp] theorem State.putTeam_records (s : State) (t : Team) : (s.putTeam t).records = s.records := rfl
@[simp] theorem State.putTeam_silent (s : State) (t : Team) : (s.putTeam t).silent = s.silent := rfl
@[simp] theorem State.putTeam_steps (s : State) (t : Team) : (s.putTeam t).steps = s.steps := rfl
@[simp] theorem State.putTeam_hot (s : State) (t : Team) : (s.putTeam t).hot = s.hot := rfl
@[simp] theorem State.putTeam_poison (s : State) (t : Team) : (s.putTeam t).poison = s.poison := rfl
@[simp] theorem State.putTeam_powerStep (s : State) (t : Team) : (s.putTeam t).powerStep = s.powerStep := rfl
@[simp] theorem State.putTeam_droop (s : State) (t : Team) : (s.putTeam t).droop = s.droop := rfl
@[simp] theorem State.putTeam_report (s : State) (t : Team) : (s.putTeam t).report = s.report := rfl
@[simp] theorem State.putTeam_hostData (s : State) (t : Team) : (s.putTeam t).hostData = s.hostData := rfl
@[simp] theorem State.putTeam_remoteData (s : State) (t : Team) : (s.putTeam t).remoteData = s.remoteData := rfl
@[simp] theorem State.putTeam_images (s : State) (t : Team) : (s.putTeam t).images = s.images := rfl
@[simp] theorem State.putTeam_lastIssue (s : State) (t : Team) : (s.putTeam t).lastIssue = s.lastIssue := rfl
@[simp] theorem State.putTeam_nextId (s : State) (t : Team) : (s.putTeam t).nextId = s.nextId := rfl
@[simp] theorem State.putTeam_tick (s : State) (t : Team) : (s.putTeam t).tick = s.tick := rfl
@[simp] theorem State.putTeam_agenda (s : State) (t : Team) : (s.putTeam t).agenda = s.agenda := rfl

@[simp] theorem State.store_time (s : State) (loc : Nat) (bs : List Byte) : (s.store loc bs).time = s.time := rfl
@[simp] theorem State.store_cycles (s : State) (loc : Nat) (bs : List Byte) : (s.store loc bs).cycles = s.cycles := rfl
@[simp] theorem State.store_boot (s : State) (loc : Nat) (bs : List Byte) : (s.store loc bs).boot = s.boot := rfl
@[simp] theorem State.store_part (s : State) (loc : Nat) (bs : List Byte) : (s.store loc bs).part = s.part := rfl
@[simp] theorem State.store_kiln (s : State) (loc : Nat) (bs : List Byte) : (s.store loc bs).kiln = s.kiln := rfl
@[simp] theorem State.store_tdp (s : State) (loc : Nat) (bs : List Byte) : (s.store loc bs).tdp = s.tdp := rfl
@[simp] theorem State.store_pkg (s : State) (loc : Nat) (bs : List Byte) : (s.store loc bs).pkg = s.pkg := rfl
@[simp] theorem State.store_measure (s : State) (loc : Nat) (bs : List Byte) : (s.store loc bs).measure = s.measure := rfl
@[simp] theorem State.store_recordHash (s : State) (loc : Nat) (bs : List Byte) : (s.store loc bs).recordHash = s.recordHash := rfl
@[simp] theorem State.store_links (s : State) (loc : Nat) (bs : List Byte) : (s.store loc bs).links = s.links := rfl
@[simp] theorem State.store_regs (s : State) (loc : Nat) (bs : List Byte) : (s.store loc bs).regs = s.regs := rfl
@[simp] theorem State.store_mem (s : State) (loc : Nat) (bs : List Byte) : (s.store loc bs).mem = memPut s.mem loc bs := rfl
@[simp] theorem State.store_hist (s : State) (loc : Nat) (bs : List Byte) : (s.store loc bs).hist = ⟨loc, s.bytesAt loc bs.length⟩ :: s.hist := rfl
@[simp] theorem State.store_cur (s : State) (loc : Nat) (bs : List Byte) : (s.store loc bs).cur = s.cur := rfl
@[simp] theorem State.store_groups (s : State) (loc : Nat) (bs : List Byte) : (s.store loc bs).groups = s.groups := rfl
@[simp] theorem State.store_split (s : State) (loc : Nat) (bs : List Byte) : (s.store loc bs).split = s.split := rfl
@[simp] theorem State.store_limm (s : State) (loc : Nat) (bs : List Byte) : (s.store loc bs).limm = s.limm := rfl
@[simp] theorem State.store_sel (s : State) (loc : Nat) (bs : List Byte) : (s.store loc bs).sel = s.sel := rfl
@[simp] theorem State.store_teams (s : State) (loc : Nat) (bs : List Byte) : (s.store loc bs).teams = s.teams := rfl
@[simp] theorem State.store_jobs (s : State) (loc : Nat) (bs : List Byte) : (s.store loc bs).jobs = s.jobs := rfl
@[simp] theorem State.store_ops (s : State) (loc : Nat) (bs : List Byte) : (s.store loc bs).ops = s.ops := rfl
@[simp] theorem State.store_deques (s : State) (loc : Nat) (bs : List Byte) : (s.store loc bs).deques = s.deques := rfl
@[simp] theorem State.store_queues (s : State) (loc : Nat) (bs : List Byte) : (s.store loc bs).queues = s.queues := rfl
@[simp] theorem State.store_lastTap (s : State) (loc : Nat) (bs : List Byte) : (s.store loc bs).lastTap = s.lastTap := rfl
@[simp] theorem State.store_quantum (s : State) (loc : Nat) (bs : List Byte) : (s.store loc bs).quantum = s.quantum := rfl
@[simp] theorem State.store_nextQuantum (s : State) (loc : Nat) (bs : List Byte) : (s.store loc bs).nextQuantum = s.nextQuantum := rfl
@[simp] theorem State.store_commands (s : State) (loc : Nat) (bs : List Byte) : (s.store loc bs).commands = s.commands := rfl
@[simp] theorem State.store_reqs (s : State) (loc : Nat) (bs : List Byte) : (s.store loc bs).reqs = s.reqs := rfl
@[simp] theorem State.store_nextReq (s : State) (loc : Nat) (bs : List Byte) : (s.store loc bs).nextReq = s.nextReq := rfl
@[simp] theorem State.store_msi (s : State) (loc : Nat) (bs : List Byte) : (s.store loc bs).msi = s.msi := rfl
@[simp] theorem State.store_refused (s : State) (loc : Nat) (bs : List Byte) : (s.store loc bs).refused = s.refused := rfl
@[simp] theorem State.store_invals (s : State) (loc : Nat) (bs : List Byte) : (s.store loc bs).invals = s.invals := rfl
@[simp] theorem State.store_records (s : State) (loc : Nat) (bs : List Byte) : (s.store loc bs).records = s.records := rfl
@[simp] theorem State.store_silent (s : State) (loc : Nat) (bs : List Byte) : (s.store loc bs).silent = s.silent := rfl
@[simp] theorem State.store_steps (s : State) (loc : Nat) (bs : List Byte) : (s.store loc bs).steps = s.steps := rfl
@[simp] theorem State.store_hot (s : State) (loc : Nat) (bs : List Byte) : (s.store loc bs).hot = s.hot := rfl
@[simp] theorem State.store_poison (s : State) (loc : Nat) (bs : List Byte) : (s.store loc bs).poison = s.poison := rfl
@[simp] theorem State.store_powerStep (s : State) (loc : Nat) (bs : List Byte) : (s.store loc bs).powerStep = s.powerStep := rfl
@[simp] theorem State.store_droop (s : State) (loc : Nat) (bs : List Byte) : (s.store loc bs).droop = s.droop := rfl
@[simp] theorem State.store_report (s : State) (loc : Nat) (bs : List Byte) : (s.store loc bs).report = s.report := rfl
@[simp] theorem State.store_hostData (s : State) (loc : Nat) (bs : List Byte) : (s.store loc bs).hostData = s.hostData := rfl
@[simp] theorem State.store_remoteData (s : State) (loc : Nat) (bs : List Byte) : (s.store loc bs).remoteData = s.remoteData := rfl
@[simp] theorem State.store_images (s : State) (loc : Nat) (bs : List Byte) : (s.store loc bs).images = s.images := rfl
@[simp] theorem State.store_lastIssue (s : State) (loc : Nat) (bs : List Byte) : (s.store loc bs).lastIssue = s.lastIssue := rfl
@[simp] theorem State.store_nextId (s : State) (loc : Nat) (bs : List Byte) : (s.store loc bs).nextId = s.nextId := rfl
@[simp] theorem State.store_tick (s : State) (loc : Nat) (bs : List Byte) : (s.store loc bs).tick = s.tick := rfl
@[simp] theorem State.store_agenda (s : State) (loc : Nat) (bs : List Byte) : (s.store loc bs).agenda = s.agenda := rfl

@[simp] theorem State.leaveAt_time (s : State) (p : Split) : (s.leaveAt p).time = s.time := rfl
@[simp] theorem State.leaveAt_cycles (s : State) (p : Split) : (s.leaveAt p).cycles = s.cycles := rfl
@[simp] theorem State.leaveAt_boot (s : State) (p : Split) : (s.leaveAt p).boot = s.boot := rfl
@[simp] theorem State.leaveAt_part (s : State) (p : Split) : (s.leaveAt p).part = s.part := rfl
@[simp] theorem State.leaveAt_kiln (s : State) (p : Split) : (s.leaveAt p).kiln = s.kiln := rfl
@[simp] theorem State.leaveAt_tdp (s : State) (p : Split) : (s.leaveAt p).tdp = s.tdp := rfl
@[simp] theorem State.leaveAt_pkg (s : State) (p : Split) : (s.leaveAt p).pkg = s.pkg := rfl
@[simp] theorem State.leaveAt_measure (s : State) (p : Split) : (s.leaveAt p).measure = s.measure := rfl
@[simp] theorem State.leaveAt_recordHash (s : State) (p : Split) : (s.leaveAt p).recordHash = s.recordHash := rfl
@[simp] theorem State.leaveAt_links (s : State) (p : Split) : (s.leaveAt p).links = s.links := rfl
@[simp] theorem State.leaveAt_regs (s : State) (p : Split) : (s.leaveAt p).regs = s.regs := rfl
@[simp] theorem State.leaveAt_mem (s : State) (p : Split) : (s.leaveAt p).mem = s.mem := rfl
@[simp] theorem State.leaveAt_hist (s : State) (p : Split) : (s.leaveAt p).hist = s.hist := rfl
@[simp] theorem State.leaveAt_groups (s : State) (p : Split) : (s.leaveAt p).groups = s.groups := rfl
@[simp] theorem State.leaveAt_split (s : State) (p : Split) : (s.leaveAt p).split = s.split := rfl
@[simp] theorem State.leaveAt_limm (s : State) (p : Split) : (s.leaveAt p).limm = none := rfl
@[simp] theorem State.leaveAt_sel (s : State) (p : Split) : (s.leaveAt p).sel = s.sel := rfl
@[simp] theorem State.leaveAt_teams (s : State) (p : Split) : (s.leaveAt p).teams = s.teams := rfl
@[simp] theorem State.leaveAt_jobs (s : State) (p : Split) : (s.leaveAt p).jobs = s.jobs := rfl
@[simp] theorem State.leaveAt_ops (s : State) (p : Split) : (s.leaveAt p).ops = s.ops := rfl
@[simp] theorem State.leaveAt_deques (s : State) (p : Split) : (s.leaveAt p).deques = s.deques := rfl
@[simp] theorem State.leaveAt_queues (s : State) (p : Split) : (s.leaveAt p).queues = s.queues := rfl
@[simp] theorem State.leaveAt_lastTap (s : State) (p : Split) : (s.leaveAt p).lastTap = s.lastTap := rfl
@[simp] theorem State.leaveAt_quantum (s : State) (p : Split) : (s.leaveAt p).quantum = s.quantum := rfl
@[simp] theorem State.leaveAt_nextQuantum (s : State) (p : Split) : (s.leaveAt p).nextQuantum = s.nextQuantum := rfl
@[simp] theorem State.leaveAt_commands (s : State) (p : Split) : (s.leaveAt p).commands = s.commands := rfl
@[simp] theorem State.leaveAt_reqs (s : State) (p : Split) : (s.leaveAt p).reqs = s.reqs := rfl
@[simp] theorem State.leaveAt_nextReq (s : State) (p : Split) : (s.leaveAt p).nextReq = s.nextReq := rfl
@[simp] theorem State.leaveAt_msi (s : State) (p : Split) : (s.leaveAt p).msi = s.msi := rfl
@[simp] theorem State.leaveAt_refused (s : State) (p : Split) : (s.leaveAt p).refused = s.refused := rfl
@[simp] theorem State.leaveAt_invals (s : State) (p : Split) : (s.leaveAt p).invals = s.invals := rfl
@[simp] theorem State.leaveAt_records (s : State) (p : Split) : (s.leaveAt p).records = s.records := rfl
@[simp] theorem State.leaveAt_silent (s : State) (p : Split) : (s.leaveAt p).silent = s.silent := rfl
@[simp] theorem State.leaveAt_steps (s : State) (p : Split) : (s.leaveAt p).steps = s.steps := rfl
@[simp] theorem State.leaveAt_hot (s : State) (p : Split) : (s.leaveAt p).hot = s.hot := rfl
@[simp] theorem State.leaveAt_poison (s : State) (p : Split) : (s.leaveAt p).poison = s.poison := rfl
@[simp] theorem State.leaveAt_powerStep (s : State) (p : Split) : (s.leaveAt p).powerStep = s.powerStep := rfl
@[simp] theorem State.leaveAt_droop (s : State) (p : Split) : (s.leaveAt p).droop = s.droop := rfl
@[simp] theorem State.leaveAt_report (s : State) (p : Split) : (s.leaveAt p).report = s.report := rfl
@[simp] theorem State.leaveAt_hostData (s : State) (p : Split) : (s.leaveAt p).hostData = s.hostData := rfl
@[simp] theorem State.leaveAt_remoteData (s : State) (p : Split) : (s.leaveAt p).remoteData = s.remoteData := rfl
@[simp] theorem State.leaveAt_images (s : State) (p : Split) : (s.leaveAt p).images = s.images := rfl
@[simp] theorem State.leaveAt_lastIssue (s : State) (p : Split) : (s.leaveAt p).lastIssue = s.lastIssue := rfl
@[simp] theorem State.leaveAt_nextId (s : State) (p : Split) : (s.leaveAt p).nextId = s.nextId := rfl
@[simp] theorem State.leaveAt_tick (s : State) (p : Split) : (s.leaveAt p).tick = s.tick + 1 := rfl
@[simp] theorem State.leaveAt_agenda (s : State) (p : Split) : (s.leaveAt p).agenda = s.agenda := rfl

@[simp] theorem Group.vSet_gid (g : Group) (m : W32) (n : Nat) (f : Nat → W32) : (g.vSet m n f).gid = g.gid := rfl
@[simp] theorem Group.vSet_kind (g : Group) (m : W32) (n : Nat) (f : Nat → W32) : (g.vSet m n f).kind = g.kind := rfl
@[simp] theorem Group.vSet_job (g : Group) (m : W32) (n : Nat) (f : Nat → W32) : (g.vSet m n f).job = g.job := rfl
@[simp] theorem Group.vSet_team (g : Group) (m : W32) (n : Nat) (f : Nat → W32) : (g.vSet m n f).team = g.team := rfl
@[simp] theorem Group.vSet_grp (g : Group) (m : W32) (n : Nat) (f : Nat → W32) : (g.vSet m n f).grp = g.grp := rfl
@[simp] theorem Group.vSet_lcore (g : Group) (m : W32) (n : Nat) (f : Nat → W32) : (g.vSet m n f).lcore = g.lcore := rfl
@[simp] theorem Group.vSet_core (g : Group) (m : W32) (n : Nat) (f : Nat → W32) : (g.vSet m n f).core = g.core := rfl
@[simp] theorem Group.vSet_slot (g : Group) (m : W32) (n : Nat) (f : Nat → W32) : (g.vSet m n f).slot = g.slot := rfl
@[simp] theorem Group.vSet_resident (g : Group) (m : W32) (n : Nat) (f : Nat → W32) : (g.vSet m n f).resident = g.resident := rfl
@[simp] theorem Group.vSet_born (g : Group) (m : W32) (n : Nat) (f : Nat → W32) : (g.vSet m n f).born = g.born := rfl
@[simp] theorem Group.vSet_allot (g : Group) (m : W32) (n : Nat) (f : Nat → W32) : (g.vSet m n f).allot = g.allot := rfl
@[simp] theorem Group.vSet_tiles (g : Group) (m : W32) (n : Nat) (f : Nat → W32) : (g.vSet m n f).tiles = g.tiles := rfl
@[simp] theorem Group.vSet_tileBase (g : Group) (m : W32) (n : Nat) (f : Nat → W32) : (g.vSet m n f).tileBase = g.tileBase := rfl
@[simp] theorem Group.vSet_wbase (g : Group) (m : W32) (n : Nat) (f : Nat → W32) : (g.vSet m n f).wbase = g.wbase := rfl
@[simp] theorem Group.vSet_g (g : Group) (m : W32) (n : Nat) (f : Nat → W32) : (g.vSet m n f).g = g.g := rfl
@[simp] theorem Group.vSet_p1 (g : Group) (m : W32) (n : Nat) (f : Nat → W32) : (g.vSet m n f).p1 = g.p1 := rfl
@[simp] theorem Group.vSet_p2 (g : Group) (m : W32) (n : Nat) (f : Nat → W32) : (g.vSet m n f).p2 = g.p2 := rfl
@[simp] theorem Group.vSet_p3 (g : Group) (m : W32) (n : Nat) (f : Nat → W32) : (g.vSet m n f).p3 = g.p3 := rfl
@[simp] theorem Group.vSet_gp1 (g : Group) (m : W32) (n : Nat) (f : Nat → W32) : (g.vSet m n f).gp1 = g.gp1 := rfl
@[simp] theorem Group.vSet_gp2 (g : Group) (m : W32) (n : Nat) (f : Nat → W32) : (g.vSet m n f).gp2 = g.gp2 := rfl
@[simp] theorem Group.vSet_gp3 (g : Group) (m : W32) (n : Nat) (f : Nat → W32) : (g.vSet m n f).gp3 = g.gp3 := rfl
@[simp] theorem Group.vSet_splits (g : Group) (m : W32) (n : Nat) (f : Nat → W32) : (g.vSet m n f).splits = g.splits := rfl
@[simp] theorem Group.vSet_stack (g : Group) (m : W32) (n : Nat) (f : Nat → W32) : (g.vSet m n f).stack = g.stack := rfl
@[simp] theorem Group.vSet_pdh (g : Group) (m : W32) (n : Nat) (f : Nat → W32) : (g.vSet m n f).pdh = g.pdh := rfl
@[simp] theorem Group.vSet_pdl (g : Group) (m : W32) (n : Nat) (f : Nat → W32) : (g.vSet m n f).pdl = g.pdl := rfl
@[simp] theorem Group.vSet_begun (g : Group) (m : W32) (n : Nat) (f : Nat → W32) : (g.vSet m n f).begun = g.begun := rfl
@[simp] theorem Group.vSet_cycAcc (g : Group) (m : W32) (n : Nat) (f : Nat → W32) : (g.vSet m n f).cycAcc = g.cycAcc := rfl
@[simp] theorem Group.vSet_cycFrom (g : Group) (m : W32) (n : Nat) (f : Nat → W32) : (g.vSet m n f).cycFrom = g.cycFrom := rfl
@[simp] theorem Group.vSet_fpmode (g : Group) (m : W32) (n : Nat) (f : Nat → W32) : (g.vSet m n f).fpmode = g.fpmode := rfl
@[simp] theorem Group.vSet_fflags (g : Group) (m : W32) (n : Nat) (f : Nat → W32) : (g.vSet m n f).fflags = g.fflags := rfl
@[simp] theorem Group.vSet_lfm (g : Group) (m : W32) (n : Nat) (f : Nat → W32) : (g.vSet m n f).lfm = g.lfm := rfl
@[simp] theorem Group.vSet_repc (g : Group) (m : W32) (n : Nat) (f : Nat → W32) : (g.vSet m n f).repc = g.repc := rfl
@[simp] theorem Group.vSet_tmr (g : Group) (m : W32) (n : Nat) (f : Nat → W32) : (g.vSet m n f).tmr = g.tmr := rfl
@[simp] theorem Group.vSet_alarm (g : Group) (m : W32) (n : Nat) (f : Nat → W32) : (g.vSet m n f).alarm = g.alarm := rfl
@[simp] theorem Group.vSet_trapvec (g : Group) (m : W32) (n : Nat) (f : Nat → W32) : (g.vSet m n f).trapvec = g.trapvec := rfl
@[simp] theorem Group.vSet_trapinfo (g : Group) (m : W32) (n : Nat) (f : Nat → W32) : (g.vSet m n f).trapinfo = g.trapinfo := rfl
@[simp] theorem Group.vSet_gtimeout (g : Group) (m : W32) (n : Nat) (f : Nat → W32) : (g.vSet m n f).gtimeout = g.gtimeout := rfl
@[simp] theorem Group.vSet_off (g : Group) (m : W32) (n : Nat) (f : Nat → W32) : (g.vSet m n f).off = g.off := rfl
@[simp] theorem Group.vSet_children (g : Group) (m : W32) (n : Nat) (f : Nat → W32) : (g.vSet m n f).children = g.children := rfl
@[simp] theorem Group.vSet_childFlags (g : Group) (m : W32) (n : Nat) (f : Nat → W32) : (g.vSet m n f).childFlags = g.childFlags := rfl
@[simp] theorem Group.vSet_spawned (g : Group) (m : W32) (n : Nat) (f : Nat → W32) : (g.vSet m n f).spawned = g.spawned := rfl
@[simp] theorem Group.vSet_monitor (g : Group) (m : W32) (n : Nat) (f : Nat → W32) : (g.vSet m n f).monitor = g.monitor := rfl
@[simp] theorem Group.vSet_pend (g : Group) (m : W32) (n : Nat) (f : Nat → W32) : (g.vSet m n f).pend = g.pend := rfl
@[simp] theorem Group.vSet_handler (g : Group) (m : W32) (n : Nat) (f : Nat → W32) : (g.vSet m n f).handler = g.handler := rfl
@[simp] theorem Group.vSet_held (g : Group) (m : W32) (n : Nat) (f : Nat → W32) : (g.vSet m n f).held = g.held := rfl
@[simp] theorem Group.vSet_region (g : Group) (m : W32) (n : Nat) (f : Nat → W32) : (g.vSet m n f).region = g.region := rfl
@[simp] theorem Group.vSet_holds (g : Group) (m : W32) (n : Nat) (f : Nat → W32) : (g.vSet m n f).holds = g.holds := rfl
@[simp] theorem Group.vSet_holdSplit (g : Group) (m : W32) (n : Nat) (f : Nat → W32) : (g.vSet m n f).holdSplit = g.holdSplit := rfl
@[simp] theorem Group.vSet_holdEpc (g : Group) (m : W32) (n : Nat) (f : Nat → W32) : (g.vSet m n f).holdEpc = g.holdEpc := rfl
@[simp] theorem Group.vSet_holdPc (g : Group) (m : W32) (n : Nat) (f : Nat → W32) : (g.vSet m n f).holdPc = g.holdPc := rfl
@[simp] theorem Group.vSet_reds (g : Group) (m : W32) (n : Nat) (f : Nat → W32) : (g.vSet m n f).reds = g.reds := rfl
@[simp] theorem Group.vSet_views (g : Group) (m : W32) (n : Nat) (f : Nat → W32) : (g.vSet m n f).views = g.views := rfl
@[simp] theorem Group.vSet_childViews (g : Group) (m : W32) (n : Nat) (f : Nat → W32) : (g.vSet m n f).childViews = g.childViews := rfl
@[simp] theorem Group.vSet_parent (g : Group) (m : W32) (n : Nat) (f : Nat → W32) : (g.vSet m n f).parent = g.parent := rfl
@[simp] theorem Group.vSet_rank (g : Group) (m : W32) (n : Nat) (f : Nat → W32) : (g.vSet m n f).rank = g.rank := rfl
@[simp] theorem Group.vSet_stolen (g : Group) (m : W32) (n : Nat) (f : Nat → W32) : (g.vSet m n f).stolen = g.stolen := rfl
@[simp] theorem Group.vSet_done (g : Group) (m : W32) (n : Nat) (f : Nat → W32) : (g.vSet m n f).done = g.done := rfl
@[simp] theorem Group.vSet_away (g : Group) (m : W32) (n : Nat) (f : Nat → W32) : (g.vSet m n f).away = g.away := rfl
@[simp] theorem Group.vSet_seqNo (g : Group) (m : W32) (n : Nat) (f : Nat → W32) : (g.vSet m n f).seqNo = g.seqNo := rfl
@[simp] theorem Group.vSet_mark (g : Group) (m : W32) (n : Nat) (f : Nat → W32) : (g.vSet m n f).mark = g.mark := rfl

@[simp] theorem Group.vSet2_gid (g : Group) (m : W32) (n : Nat) (f : Nat → W64) : (g.vSet2 m n f).gid = g.gid := rfl
@[simp] theorem Group.vSet2_kind (g : Group) (m : W32) (n : Nat) (f : Nat → W64) : (g.vSet2 m n f).kind = g.kind := rfl
@[simp] theorem Group.vSet2_job (g : Group) (m : W32) (n : Nat) (f : Nat → W64) : (g.vSet2 m n f).job = g.job := rfl
@[simp] theorem Group.vSet2_team (g : Group) (m : W32) (n : Nat) (f : Nat → W64) : (g.vSet2 m n f).team = g.team := rfl
@[simp] theorem Group.vSet2_grp (g : Group) (m : W32) (n : Nat) (f : Nat → W64) : (g.vSet2 m n f).grp = g.grp := rfl
@[simp] theorem Group.vSet2_lcore (g : Group) (m : W32) (n : Nat) (f : Nat → W64) : (g.vSet2 m n f).lcore = g.lcore := rfl
@[simp] theorem Group.vSet2_core (g : Group) (m : W32) (n : Nat) (f : Nat → W64) : (g.vSet2 m n f).core = g.core := rfl
@[simp] theorem Group.vSet2_slot (g : Group) (m : W32) (n : Nat) (f : Nat → W64) : (g.vSet2 m n f).slot = g.slot := rfl
@[simp] theorem Group.vSet2_resident (g : Group) (m : W32) (n : Nat) (f : Nat → W64) : (g.vSet2 m n f).resident = g.resident := rfl
@[simp] theorem Group.vSet2_born (g : Group) (m : W32) (n : Nat) (f : Nat → W64) : (g.vSet2 m n f).born = g.born := rfl
@[simp] theorem Group.vSet2_allot (g : Group) (m : W32) (n : Nat) (f : Nat → W64) : (g.vSet2 m n f).allot = g.allot := rfl
@[simp] theorem Group.vSet2_tiles (g : Group) (m : W32) (n : Nat) (f : Nat → W64) : (g.vSet2 m n f).tiles = g.tiles := rfl
@[simp] theorem Group.vSet2_tileBase (g : Group) (m : W32) (n : Nat) (f : Nat → W64) : (g.vSet2 m n f).tileBase = g.tileBase := rfl
@[simp] theorem Group.vSet2_wbase (g : Group) (m : W32) (n : Nat) (f : Nat → W64) : (g.vSet2 m n f).wbase = g.wbase := rfl
@[simp] theorem Group.vSet2_g (g : Group) (m : W32) (n : Nat) (f : Nat → W64) : (g.vSet2 m n f).g = g.g := rfl
@[simp] theorem Group.vSet2_p1 (g : Group) (m : W32) (n : Nat) (f : Nat → W64) : (g.vSet2 m n f).p1 = g.p1 := rfl
@[simp] theorem Group.vSet2_p2 (g : Group) (m : W32) (n : Nat) (f : Nat → W64) : (g.vSet2 m n f).p2 = g.p2 := rfl
@[simp] theorem Group.vSet2_p3 (g : Group) (m : W32) (n : Nat) (f : Nat → W64) : (g.vSet2 m n f).p3 = g.p3 := rfl
@[simp] theorem Group.vSet2_gp1 (g : Group) (m : W32) (n : Nat) (f : Nat → W64) : (g.vSet2 m n f).gp1 = g.gp1 := rfl
@[simp] theorem Group.vSet2_gp2 (g : Group) (m : W32) (n : Nat) (f : Nat → W64) : (g.vSet2 m n f).gp2 = g.gp2 := rfl
@[simp] theorem Group.vSet2_gp3 (g : Group) (m : W32) (n : Nat) (f : Nat → W64) : (g.vSet2 m n f).gp3 = g.gp3 := rfl
@[simp] theorem Group.vSet2_splits (g : Group) (m : W32) (n : Nat) (f : Nat → W64) : (g.vSet2 m n f).splits = g.splits := rfl
@[simp] theorem Group.vSet2_stack (g : Group) (m : W32) (n : Nat) (f : Nat → W64) : (g.vSet2 m n f).stack = g.stack := rfl
@[simp] theorem Group.vSet2_pdh (g : Group) (m : W32) (n : Nat) (f : Nat → W64) : (g.vSet2 m n f).pdh = g.pdh := rfl
@[simp] theorem Group.vSet2_pdl (g : Group) (m : W32) (n : Nat) (f : Nat → W64) : (g.vSet2 m n f).pdl = g.pdl := rfl
@[simp] theorem Group.vSet2_begun (g : Group) (m : W32) (n : Nat) (f : Nat → W64) : (g.vSet2 m n f).begun = g.begun := rfl
@[simp] theorem Group.vSet2_cycAcc (g : Group) (m : W32) (n : Nat) (f : Nat → W64) : (g.vSet2 m n f).cycAcc = g.cycAcc := rfl
@[simp] theorem Group.vSet2_cycFrom (g : Group) (m : W32) (n : Nat) (f : Nat → W64) : (g.vSet2 m n f).cycFrom = g.cycFrom := rfl
@[simp] theorem Group.vSet2_fpmode (g : Group) (m : W32) (n : Nat) (f : Nat → W64) : (g.vSet2 m n f).fpmode = g.fpmode := rfl
@[simp] theorem Group.vSet2_fflags (g : Group) (m : W32) (n : Nat) (f : Nat → W64) : (g.vSet2 m n f).fflags = g.fflags := rfl
@[simp] theorem Group.vSet2_lfm (g : Group) (m : W32) (n : Nat) (f : Nat → W64) : (g.vSet2 m n f).lfm = g.lfm := rfl
@[simp] theorem Group.vSet2_repc (g : Group) (m : W32) (n : Nat) (f : Nat → W64) : (g.vSet2 m n f).repc = g.repc := rfl
@[simp] theorem Group.vSet2_tmr (g : Group) (m : W32) (n : Nat) (f : Nat → W64) : (g.vSet2 m n f).tmr = g.tmr := rfl
@[simp] theorem Group.vSet2_alarm (g : Group) (m : W32) (n : Nat) (f : Nat → W64) : (g.vSet2 m n f).alarm = g.alarm := rfl
@[simp] theorem Group.vSet2_trapvec (g : Group) (m : W32) (n : Nat) (f : Nat → W64) : (g.vSet2 m n f).trapvec = g.trapvec := rfl
@[simp] theorem Group.vSet2_trapinfo (g : Group) (m : W32) (n : Nat) (f : Nat → W64) : (g.vSet2 m n f).trapinfo = g.trapinfo := rfl
@[simp] theorem Group.vSet2_gtimeout (g : Group) (m : W32) (n : Nat) (f : Nat → W64) : (g.vSet2 m n f).gtimeout = g.gtimeout := rfl
@[simp] theorem Group.vSet2_off (g : Group) (m : W32) (n : Nat) (f : Nat → W64) : (g.vSet2 m n f).off = g.off := rfl
@[simp] theorem Group.vSet2_children (g : Group) (m : W32) (n : Nat) (f : Nat → W64) : (g.vSet2 m n f).children = g.children := rfl
@[simp] theorem Group.vSet2_childFlags (g : Group) (m : W32) (n : Nat) (f : Nat → W64) : (g.vSet2 m n f).childFlags = g.childFlags := rfl
@[simp] theorem Group.vSet2_spawned (g : Group) (m : W32) (n : Nat) (f : Nat → W64) : (g.vSet2 m n f).spawned = g.spawned := rfl
@[simp] theorem Group.vSet2_monitor (g : Group) (m : W32) (n : Nat) (f : Nat → W64) : (g.vSet2 m n f).monitor = g.monitor := rfl
@[simp] theorem Group.vSet2_pend (g : Group) (m : W32) (n : Nat) (f : Nat → W64) : (g.vSet2 m n f).pend = g.pend := rfl
@[simp] theorem Group.vSet2_handler (g : Group) (m : W32) (n : Nat) (f : Nat → W64) : (g.vSet2 m n f).handler = g.handler := rfl
@[simp] theorem Group.vSet2_held (g : Group) (m : W32) (n : Nat) (f : Nat → W64) : (g.vSet2 m n f).held = g.held := rfl
@[simp] theorem Group.vSet2_region (g : Group) (m : W32) (n : Nat) (f : Nat → W64) : (g.vSet2 m n f).region = g.region := rfl
@[simp] theorem Group.vSet2_holds (g : Group) (m : W32) (n : Nat) (f : Nat → W64) : (g.vSet2 m n f).holds = g.holds := rfl
@[simp] theorem Group.vSet2_holdSplit (g : Group) (m : W32) (n : Nat) (f : Nat → W64) : (g.vSet2 m n f).holdSplit = g.holdSplit := rfl
@[simp] theorem Group.vSet2_holdEpc (g : Group) (m : W32) (n : Nat) (f : Nat → W64) : (g.vSet2 m n f).holdEpc = g.holdEpc := rfl
@[simp] theorem Group.vSet2_holdPc (g : Group) (m : W32) (n : Nat) (f : Nat → W64) : (g.vSet2 m n f).holdPc = g.holdPc := rfl
@[simp] theorem Group.vSet2_reds (g : Group) (m : W32) (n : Nat) (f : Nat → W64) : (g.vSet2 m n f).reds = g.reds := rfl
@[simp] theorem Group.vSet2_views (g : Group) (m : W32) (n : Nat) (f : Nat → W64) : (g.vSet2 m n f).views = g.views := rfl
@[simp] theorem Group.vSet2_childViews (g : Group) (m : W32) (n : Nat) (f : Nat → W64) : (g.vSet2 m n f).childViews = g.childViews := rfl
@[simp] theorem Group.vSet2_parent (g : Group) (m : W32) (n : Nat) (f : Nat → W64) : (g.vSet2 m n f).parent = g.parent := rfl
@[simp] theorem Group.vSet2_rank (g : Group) (m : W32) (n : Nat) (f : Nat → W64) : (g.vSet2 m n f).rank = g.rank := rfl
@[simp] theorem Group.vSet2_stolen (g : Group) (m : W32) (n : Nat) (f : Nat → W64) : (g.vSet2 m n f).stolen = g.stolen := rfl
@[simp] theorem Group.vSet2_done (g : Group) (m : W32) (n : Nat) (f : Nat → W64) : (g.vSet2 m n f).done = g.done := rfl
@[simp] theorem Group.vSet2_away (g : Group) (m : W32) (n : Nat) (f : Nat → W64) : (g.vSet2 m n f).away = g.away := rfl
@[simp] theorem Group.vSet2_seqNo (g : Group) (m : W32) (n : Nat) (f : Nat → W64) : (g.vSet2 m n f).seqNo = g.seqNo := rfl
@[simp] theorem Group.vSet2_mark (g : Group) (m : W32) (n : Nat) (f : Nat → W64) : (g.vSet2 m n f).mark = g.mark := rfl

@[simp] theorem Group.gSet_gid (g : Group) (n : Nat) (x : W64) : (g.gSet n x).gid = g.gid := rfl
@[simp] theorem Group.gSet_kind (g : Group) (n : Nat) (x : W64) : (g.gSet n x).kind = g.kind := rfl
@[simp] theorem Group.gSet_job (g : Group) (n : Nat) (x : W64) : (g.gSet n x).job = g.job := rfl
@[simp] theorem Group.gSet_team (g : Group) (n : Nat) (x : W64) : (g.gSet n x).team = g.team := rfl
@[simp] theorem Group.gSet_grp (g : Group) (n : Nat) (x : W64) : (g.gSet n x).grp = g.grp := rfl
@[simp] theorem Group.gSet_lcore (g : Group) (n : Nat) (x : W64) : (g.gSet n x).lcore = g.lcore := rfl
@[simp] theorem Group.gSet_core (g : Group) (n : Nat) (x : W64) : (g.gSet n x).core = g.core := rfl
@[simp] theorem Group.gSet_slot (g : Group) (n : Nat) (x : W64) : (g.gSet n x).slot = g.slot := rfl
@[simp] theorem Group.gSet_resident (g : Group) (n : Nat) (x : W64) : (g.gSet n x).resident = g.resident := rfl
@[simp] theorem Group.gSet_born (g : Group) (n : Nat) (x : W64) : (g.gSet n x).born = g.born := rfl
@[simp] theorem Group.gSet_allot (g : Group) (n : Nat) (x : W64) : (g.gSet n x).allot = g.allot := rfl
@[simp] theorem Group.gSet_tiles (g : Group) (n : Nat) (x : W64) : (g.gSet n x).tiles = g.tiles := rfl
@[simp] theorem Group.gSet_tileBase (g : Group) (n : Nat) (x : W64) : (g.gSet n x).tileBase = g.tileBase := rfl
@[simp] theorem Group.gSet_wbase (g : Group) (n : Nat) (x : W64) : (g.gSet n x).wbase = g.wbase := rfl
@[simp] theorem Group.gSet_v (g : Group) (n : Nat) (x : W64) : (g.gSet n x).v = g.v := rfl
@[simp] theorem Group.gSet_p1 (g : Group) (n : Nat) (x : W64) : (g.gSet n x).p1 = g.p1 := rfl
@[simp] theorem Group.gSet_p2 (g : Group) (n : Nat) (x : W64) : (g.gSet n x).p2 = g.p2 := rfl
@[simp] theorem Group.gSet_p3 (g : Group) (n : Nat) (x : W64) : (g.gSet n x).p3 = g.p3 := rfl
@[simp] theorem Group.gSet_gp1 (g : Group) (n : Nat) (x : W64) : (g.gSet n x).gp1 = g.gp1 := rfl
@[simp] theorem Group.gSet_gp2 (g : Group) (n : Nat) (x : W64) : (g.gSet n x).gp2 = g.gp2 := rfl
@[simp] theorem Group.gSet_gp3 (g : Group) (n : Nat) (x : W64) : (g.gSet n x).gp3 = g.gp3 := rfl
@[simp] theorem Group.gSet_splits (g : Group) (n : Nat) (x : W64) : (g.gSet n x).splits = g.splits := rfl
@[simp] theorem Group.gSet_stack (g : Group) (n : Nat) (x : W64) : (g.gSet n x).stack = g.stack := rfl
@[simp] theorem Group.gSet_pdh (g : Group) (n : Nat) (x : W64) : (g.gSet n x).pdh = g.pdh := rfl
@[simp] theorem Group.gSet_pdl (g : Group) (n : Nat) (x : W64) : (g.gSet n x).pdl = g.pdl := rfl
@[simp] theorem Group.gSet_begun (g : Group) (n : Nat) (x : W64) : (g.gSet n x).begun = g.begun := rfl
@[simp] theorem Group.gSet_cycAcc (g : Group) (n : Nat) (x : W64) : (g.gSet n x).cycAcc = g.cycAcc := rfl
@[simp] theorem Group.gSet_cycFrom (g : Group) (n : Nat) (x : W64) : (g.gSet n x).cycFrom = g.cycFrom := rfl
@[simp] theorem Group.gSet_fpmode (g : Group) (n : Nat) (x : W64) : (g.gSet n x).fpmode = g.fpmode := rfl
@[simp] theorem Group.gSet_fflags (g : Group) (n : Nat) (x : W64) : (g.gSet n x).fflags = g.fflags := rfl
@[simp] theorem Group.gSet_lfm (g : Group) (n : Nat) (x : W64) : (g.gSet n x).lfm = g.lfm := rfl
@[simp] theorem Group.gSet_repc (g : Group) (n : Nat) (x : W64) : (g.gSet n x).repc = g.repc := rfl
@[simp] theorem Group.gSet_tmr (g : Group) (n : Nat) (x : W64) : (g.gSet n x).tmr = g.tmr := rfl
@[simp] theorem Group.gSet_alarm (g : Group) (n : Nat) (x : W64) : (g.gSet n x).alarm = g.alarm := rfl
@[simp] theorem Group.gSet_trapvec (g : Group) (n : Nat) (x : W64) : (g.gSet n x).trapvec = g.trapvec := rfl
@[simp] theorem Group.gSet_trapinfo (g : Group) (n : Nat) (x : W64) : (g.gSet n x).trapinfo = g.trapinfo := rfl
@[simp] theorem Group.gSet_gtimeout (g : Group) (n : Nat) (x : W64) : (g.gSet n x).gtimeout = g.gtimeout := rfl
@[simp] theorem Group.gSet_off (g : Group) (n : Nat) (x : W64) : (g.gSet n x).off = g.off := rfl
@[simp] theorem Group.gSet_children (g : Group) (n : Nat) (x : W64) : (g.gSet n x).children = g.children := rfl
@[simp] theorem Group.gSet_childFlags (g : Group) (n : Nat) (x : W64) : (g.gSet n x).childFlags = g.childFlags := rfl
@[simp] theorem Group.gSet_spawned (g : Group) (n : Nat) (x : W64) : (g.gSet n x).spawned = g.spawned := rfl
@[simp] theorem Group.gSet_monitor (g : Group) (n : Nat) (x : W64) : (g.gSet n x).monitor = g.monitor := rfl
@[simp] theorem Group.gSet_pend (g : Group) (n : Nat) (x : W64) : (g.gSet n x).pend = g.pend := rfl
@[simp] theorem Group.gSet_handler (g : Group) (n : Nat) (x : W64) : (g.gSet n x).handler = g.handler := rfl
@[simp] theorem Group.gSet_held (g : Group) (n : Nat) (x : W64) : (g.gSet n x).held = g.held := rfl
@[simp] theorem Group.gSet_region (g : Group) (n : Nat) (x : W64) : (g.gSet n x).region = g.region := rfl
@[simp] theorem Group.gSet_holds (g : Group) (n : Nat) (x : W64) : (g.gSet n x).holds = g.holds := rfl
@[simp] theorem Group.gSet_holdSplit (g : Group) (n : Nat) (x : W64) : (g.gSet n x).holdSplit = g.holdSplit := rfl
@[simp] theorem Group.gSet_holdEpc (g : Group) (n : Nat) (x : W64) : (g.gSet n x).holdEpc = g.holdEpc := rfl
@[simp] theorem Group.gSet_holdPc (g : Group) (n : Nat) (x : W64) : (g.gSet n x).holdPc = g.holdPc := rfl
@[simp] theorem Group.gSet_reds (g : Group) (n : Nat) (x : W64) : (g.gSet n x).reds = g.reds := rfl
@[simp] theorem Group.gSet_views (g : Group) (n : Nat) (x : W64) : (g.gSet n x).views = g.views := rfl
@[simp] theorem Group.gSet_childViews (g : Group) (n : Nat) (x : W64) : (g.gSet n x).childViews = g.childViews := rfl
@[simp] theorem Group.gSet_parent (g : Group) (n : Nat) (x : W64) : (g.gSet n x).parent = g.parent := rfl
@[simp] theorem Group.gSet_rank (g : Group) (n : Nat) (x : W64) : (g.gSet n x).rank = g.rank := rfl
@[simp] theorem Group.gSet_stolen (g : Group) (n : Nat) (x : W64) : (g.gSet n x).stolen = g.stolen := rfl
@[simp] theorem Group.gSet_done (g : Group) (n : Nat) (x : W64) : (g.gSet n x).done = g.done := rfl
@[simp] theorem Group.gSet_away (g : Group) (n : Nat) (x : W64) : (g.gSet n x).away = g.away := rfl
@[simp] theorem Group.gSet_seqNo (g : Group) (n : Nat) (x : W64) : (g.gSet n x).seqNo = g.seqNo := rfl
@[simp] theorem Group.gSet_mark (g : Group) (n : Nat) (x : W64) : (g.gSet n x).mark = g.mark := rfl

@[simp] theorem Group.pSet_gid (g : Group) (m : W32) (n : Nat) (x : W32) : (g.pSet m n x).gid = g.gid := rfl
@[simp] theorem Group.pSet_kind (g : Group) (m : W32) (n : Nat) (x : W32) : (g.pSet m n x).kind = g.kind := rfl
@[simp] theorem Group.pSet_job (g : Group) (m : W32) (n : Nat) (x : W32) : (g.pSet m n x).job = g.job := rfl
@[simp] theorem Group.pSet_team (g : Group) (m : W32) (n : Nat) (x : W32) : (g.pSet m n x).team = g.team := rfl
@[simp] theorem Group.pSet_grp (g : Group) (m : W32) (n : Nat) (x : W32) : (g.pSet m n x).grp = g.grp := rfl
@[simp] theorem Group.pSet_lcore (g : Group) (m : W32) (n : Nat) (x : W32) : (g.pSet m n x).lcore = g.lcore := rfl
@[simp] theorem Group.pSet_core (g : Group) (m : W32) (n : Nat) (x : W32) : (g.pSet m n x).core = g.core := rfl
@[simp] theorem Group.pSet_slot (g : Group) (m : W32) (n : Nat) (x : W32) : (g.pSet m n x).slot = g.slot := rfl
@[simp] theorem Group.pSet_resident (g : Group) (m : W32) (n : Nat) (x : W32) : (g.pSet m n x).resident = g.resident := rfl
@[simp] theorem Group.pSet_born (g : Group) (m : W32) (n : Nat) (x : W32) : (g.pSet m n x).born = g.born := rfl
@[simp] theorem Group.pSet_allot (g : Group) (m : W32) (n : Nat) (x : W32) : (g.pSet m n x).allot = g.allot := rfl
@[simp] theorem Group.pSet_tiles (g : Group) (m : W32) (n : Nat) (x : W32) : (g.pSet m n x).tiles = g.tiles := rfl
@[simp] theorem Group.pSet_tileBase (g : Group) (m : W32) (n : Nat) (x : W32) : (g.pSet m n x).tileBase = g.tileBase := rfl
@[simp] theorem Group.pSet_wbase (g : Group) (m : W32) (n : Nat) (x : W32) : (g.pSet m n x).wbase = g.wbase := rfl
@[simp] theorem Group.pSet_v (g : Group) (m : W32) (n : Nat) (x : W32) : (g.pSet m n x).v = g.v := rfl
@[simp] theorem Group.pSet_g (g : Group) (m : W32) (n : Nat) (x : W32) : (g.pSet m n x).g = g.g := rfl
@[simp] theorem Group.pSet_gp1 (g : Group) (m : W32) (n : Nat) (x : W32) : (g.pSet m n x).gp1 = g.gp1 := rfl
@[simp] theorem Group.pSet_gp2 (g : Group) (m : W32) (n : Nat) (x : W32) : (g.pSet m n x).gp2 = g.gp2 := rfl
@[simp] theorem Group.pSet_gp3 (g : Group) (m : W32) (n : Nat) (x : W32) : (g.pSet m n x).gp3 = g.gp3 := rfl
@[simp] theorem Group.pSet_splits (g : Group) (m : W32) (n : Nat) (x : W32) : (g.pSet m n x).splits = g.splits := rfl
@[simp] theorem Group.pSet_stack (g : Group) (m : W32) (n : Nat) (x : W32) : (g.pSet m n x).stack = g.stack := rfl
@[simp] theorem Group.pSet_pdh (g : Group) (m : W32) (n : Nat) (x : W32) : (g.pSet m n x).pdh = g.pdh := rfl
@[simp] theorem Group.pSet_pdl (g : Group) (m : W32) (n : Nat) (x : W32) : (g.pSet m n x).pdl = g.pdl := rfl
@[simp] theorem Group.pSet_begun (g : Group) (m : W32) (n : Nat) (x : W32) : (g.pSet m n x).begun = g.begun := rfl
@[simp] theorem Group.pSet_cycAcc (g : Group) (m : W32) (n : Nat) (x : W32) : (g.pSet m n x).cycAcc = g.cycAcc := rfl
@[simp] theorem Group.pSet_cycFrom (g : Group) (m : W32) (n : Nat) (x : W32) : (g.pSet m n x).cycFrom = g.cycFrom := rfl
@[simp] theorem Group.pSet_fpmode (g : Group) (m : W32) (n : Nat) (x : W32) : (g.pSet m n x).fpmode = g.fpmode := rfl
@[simp] theorem Group.pSet_fflags (g : Group) (m : W32) (n : Nat) (x : W32) : (g.pSet m n x).fflags = g.fflags := rfl
@[simp] theorem Group.pSet_lfm (g : Group) (m : W32) (n : Nat) (x : W32) : (g.pSet m n x).lfm = g.lfm := rfl
@[simp] theorem Group.pSet_repc (g : Group) (m : W32) (n : Nat) (x : W32) : (g.pSet m n x).repc = g.repc := rfl
@[simp] theorem Group.pSet_tmr (g : Group) (m : W32) (n : Nat) (x : W32) : (g.pSet m n x).tmr = g.tmr := rfl
@[simp] theorem Group.pSet_alarm (g : Group) (m : W32) (n : Nat) (x : W32) : (g.pSet m n x).alarm = g.alarm := rfl
@[simp] theorem Group.pSet_trapvec (g : Group) (m : W32) (n : Nat) (x : W32) : (g.pSet m n x).trapvec = g.trapvec := rfl
@[simp] theorem Group.pSet_trapinfo (g : Group) (m : W32) (n : Nat) (x : W32) : (g.pSet m n x).trapinfo = g.trapinfo := rfl
@[simp] theorem Group.pSet_gtimeout (g : Group) (m : W32) (n : Nat) (x : W32) : (g.pSet m n x).gtimeout = g.gtimeout := rfl
@[simp] theorem Group.pSet_off (g : Group) (m : W32) (n : Nat) (x : W32) : (g.pSet m n x).off = g.off := rfl
@[simp] theorem Group.pSet_children (g : Group) (m : W32) (n : Nat) (x : W32) : (g.pSet m n x).children = g.children := rfl
@[simp] theorem Group.pSet_childFlags (g : Group) (m : W32) (n : Nat) (x : W32) : (g.pSet m n x).childFlags = g.childFlags := rfl
@[simp] theorem Group.pSet_spawned (g : Group) (m : W32) (n : Nat) (x : W32) : (g.pSet m n x).spawned = g.spawned := rfl
@[simp] theorem Group.pSet_monitor (g : Group) (m : W32) (n : Nat) (x : W32) : (g.pSet m n x).monitor = g.monitor := rfl
@[simp] theorem Group.pSet_pend (g : Group) (m : W32) (n : Nat) (x : W32) : (g.pSet m n x).pend = g.pend := rfl
@[simp] theorem Group.pSet_handler (g : Group) (m : W32) (n : Nat) (x : W32) : (g.pSet m n x).handler = g.handler := rfl
@[simp] theorem Group.pSet_held (g : Group) (m : W32) (n : Nat) (x : W32) : (g.pSet m n x).held = g.held := rfl
@[simp] theorem Group.pSet_region (g : Group) (m : W32) (n : Nat) (x : W32) : (g.pSet m n x).region = g.region := rfl
@[simp] theorem Group.pSet_holds (g : Group) (m : W32) (n : Nat) (x : W32) : (g.pSet m n x).holds = g.holds := rfl
@[simp] theorem Group.pSet_holdSplit (g : Group) (m : W32) (n : Nat) (x : W32) : (g.pSet m n x).holdSplit = g.holdSplit := rfl
@[simp] theorem Group.pSet_holdEpc (g : Group) (m : W32) (n : Nat) (x : W32) : (g.pSet m n x).holdEpc = g.holdEpc := rfl
@[simp] theorem Group.pSet_holdPc (g : Group) (m : W32) (n : Nat) (x : W32) : (g.pSet m n x).holdPc = g.holdPc := rfl
@[simp] theorem Group.pSet_reds (g : Group) (m : W32) (n : Nat) (x : W32) : (g.pSet m n x).reds = g.reds := rfl
@[simp] theorem Group.pSet_views (g : Group) (m : W32) (n : Nat) (x : W32) : (g.pSet m n x).views = g.views := rfl
@[simp] theorem Group.pSet_childViews (g : Group) (m : W32) (n : Nat) (x : W32) : (g.pSet m n x).childViews = g.childViews := rfl
@[simp] theorem Group.pSet_parent (g : Group) (m : W32) (n : Nat) (x : W32) : (g.pSet m n x).parent = g.parent := rfl
@[simp] theorem Group.pSet_rank (g : Group) (m : W32) (n : Nat) (x : W32) : (g.pSet m n x).rank = g.rank := rfl
@[simp] theorem Group.pSet_stolen (g : Group) (m : W32) (n : Nat) (x : W32) : (g.pSet m n x).stolen = g.stolen := rfl
@[simp] theorem Group.pSet_done (g : Group) (m : W32) (n : Nat) (x : W32) : (g.pSet m n x).done = g.done := rfl
@[simp] theorem Group.pSet_away (g : Group) (m : W32) (n : Nat) (x : W32) : (g.pSet m n x).away = g.away := rfl
@[simp] theorem Group.pSet_seqNo (g : Group) (m : W32) (n : Nat) (x : W32) : (g.pSet m n x).seqNo = g.seqNo := rfl
@[simp] theorem Group.pSet_mark (g : Group) (m : W32) (n : Nat) (x : W32) : (g.pSet m n x).mark = g.mark := rfl

@[simp] theorem Group.gpSet_gid (g : Group) (n : Nat) (x : Bool) : (g.gpSet n x).gid = g.gid := rfl
@[simp] theorem Group.gpSet_kind (g : Group) (n : Nat) (x : Bool) : (g.gpSet n x).kind = g.kind := rfl
@[simp] theorem Group.gpSet_job (g : Group) (n : Nat) (x : Bool) : (g.gpSet n x).job = g.job := rfl
@[simp] theorem Group.gpSet_team (g : Group) (n : Nat) (x : Bool) : (g.gpSet n x).team = g.team := rfl
@[simp] theorem Group.gpSet_grp (g : Group) (n : Nat) (x : Bool) : (g.gpSet n x).grp = g.grp := rfl
@[simp] theorem Group.gpSet_lcore (g : Group) (n : Nat) (x : Bool) : (g.gpSet n x).lcore = g.lcore := rfl
@[simp] theorem Group.gpSet_core (g : Group) (n : Nat) (x : Bool) : (g.gpSet n x).core = g.core := rfl
@[simp] theorem Group.gpSet_slot (g : Group) (n : Nat) (x : Bool) : (g.gpSet n x).slot = g.slot := rfl
@[simp] theorem Group.gpSet_resident (g : Group) (n : Nat) (x : Bool) : (g.gpSet n x).resident = g.resident := rfl
@[simp] theorem Group.gpSet_born (g : Group) (n : Nat) (x : Bool) : (g.gpSet n x).born = g.born := rfl
@[simp] theorem Group.gpSet_allot (g : Group) (n : Nat) (x : Bool) : (g.gpSet n x).allot = g.allot := rfl
@[simp] theorem Group.gpSet_tiles (g : Group) (n : Nat) (x : Bool) : (g.gpSet n x).tiles = g.tiles := rfl
@[simp] theorem Group.gpSet_tileBase (g : Group) (n : Nat) (x : Bool) : (g.gpSet n x).tileBase = g.tileBase := rfl
@[simp] theorem Group.gpSet_wbase (g : Group) (n : Nat) (x : Bool) : (g.gpSet n x).wbase = g.wbase := rfl
@[simp] theorem Group.gpSet_v (g : Group) (n : Nat) (x : Bool) : (g.gpSet n x).v = g.v := rfl
@[simp] theorem Group.gpSet_g (g : Group) (n : Nat) (x : Bool) : (g.gpSet n x).g = g.g := rfl
@[simp] theorem Group.gpSet_p1 (g : Group) (n : Nat) (x : Bool) : (g.gpSet n x).p1 = g.p1 := rfl
@[simp] theorem Group.gpSet_p2 (g : Group) (n : Nat) (x : Bool) : (g.gpSet n x).p2 = g.p2 := rfl
@[simp] theorem Group.gpSet_p3 (g : Group) (n : Nat) (x : Bool) : (g.gpSet n x).p3 = g.p3 := rfl
@[simp] theorem Group.gpSet_splits (g : Group) (n : Nat) (x : Bool) : (g.gpSet n x).splits = g.splits := rfl
@[simp] theorem Group.gpSet_stack (g : Group) (n : Nat) (x : Bool) : (g.gpSet n x).stack = g.stack := rfl
@[simp] theorem Group.gpSet_pdh (g : Group) (n : Nat) (x : Bool) : (g.gpSet n x).pdh = g.pdh := rfl
@[simp] theorem Group.gpSet_pdl (g : Group) (n : Nat) (x : Bool) : (g.gpSet n x).pdl = g.pdl := rfl
@[simp] theorem Group.gpSet_begun (g : Group) (n : Nat) (x : Bool) : (g.gpSet n x).begun = g.begun := rfl
@[simp] theorem Group.gpSet_cycAcc (g : Group) (n : Nat) (x : Bool) : (g.gpSet n x).cycAcc = g.cycAcc := rfl
@[simp] theorem Group.gpSet_cycFrom (g : Group) (n : Nat) (x : Bool) : (g.gpSet n x).cycFrom = g.cycFrom := rfl
@[simp] theorem Group.gpSet_fpmode (g : Group) (n : Nat) (x : Bool) : (g.gpSet n x).fpmode = g.fpmode := rfl
@[simp] theorem Group.gpSet_fflags (g : Group) (n : Nat) (x : Bool) : (g.gpSet n x).fflags = g.fflags := rfl
@[simp] theorem Group.gpSet_lfm (g : Group) (n : Nat) (x : Bool) : (g.gpSet n x).lfm = g.lfm := rfl
@[simp] theorem Group.gpSet_repc (g : Group) (n : Nat) (x : Bool) : (g.gpSet n x).repc = g.repc := rfl
@[simp] theorem Group.gpSet_tmr (g : Group) (n : Nat) (x : Bool) : (g.gpSet n x).tmr = g.tmr := rfl
@[simp] theorem Group.gpSet_alarm (g : Group) (n : Nat) (x : Bool) : (g.gpSet n x).alarm = g.alarm := rfl
@[simp] theorem Group.gpSet_trapvec (g : Group) (n : Nat) (x : Bool) : (g.gpSet n x).trapvec = g.trapvec := rfl
@[simp] theorem Group.gpSet_trapinfo (g : Group) (n : Nat) (x : Bool) : (g.gpSet n x).trapinfo = g.trapinfo := rfl
@[simp] theorem Group.gpSet_gtimeout (g : Group) (n : Nat) (x : Bool) : (g.gpSet n x).gtimeout = g.gtimeout := rfl
@[simp] theorem Group.gpSet_off (g : Group) (n : Nat) (x : Bool) : (g.gpSet n x).off = g.off := rfl
@[simp] theorem Group.gpSet_children (g : Group) (n : Nat) (x : Bool) : (g.gpSet n x).children = g.children := rfl
@[simp] theorem Group.gpSet_childFlags (g : Group) (n : Nat) (x : Bool) : (g.gpSet n x).childFlags = g.childFlags := rfl
@[simp] theorem Group.gpSet_spawned (g : Group) (n : Nat) (x : Bool) : (g.gpSet n x).spawned = g.spawned := rfl
@[simp] theorem Group.gpSet_monitor (g : Group) (n : Nat) (x : Bool) : (g.gpSet n x).monitor = g.monitor := rfl
@[simp] theorem Group.gpSet_pend (g : Group) (n : Nat) (x : Bool) : (g.gpSet n x).pend = g.pend := rfl
@[simp] theorem Group.gpSet_handler (g : Group) (n : Nat) (x : Bool) : (g.gpSet n x).handler = g.handler := rfl
@[simp] theorem Group.gpSet_held (g : Group) (n : Nat) (x : Bool) : (g.gpSet n x).held = g.held := rfl
@[simp] theorem Group.gpSet_region (g : Group) (n : Nat) (x : Bool) : (g.gpSet n x).region = g.region := rfl
@[simp] theorem Group.gpSet_holds (g : Group) (n : Nat) (x : Bool) : (g.gpSet n x).holds = g.holds := rfl
@[simp] theorem Group.gpSet_holdSplit (g : Group) (n : Nat) (x : Bool) : (g.gpSet n x).holdSplit = g.holdSplit := rfl
@[simp] theorem Group.gpSet_holdEpc (g : Group) (n : Nat) (x : Bool) : (g.gpSet n x).holdEpc = g.holdEpc := rfl
@[simp] theorem Group.gpSet_holdPc (g : Group) (n : Nat) (x : Bool) : (g.gpSet n x).holdPc = g.holdPc := rfl
@[simp] theorem Group.gpSet_reds (g : Group) (n : Nat) (x : Bool) : (g.gpSet n x).reds = g.reds := rfl
@[simp] theorem Group.gpSet_views (g : Group) (n : Nat) (x : Bool) : (g.gpSet n x).views = g.views := rfl
@[simp] theorem Group.gpSet_childViews (g : Group) (n : Nat) (x : Bool) : (g.gpSet n x).childViews = g.childViews := rfl
@[simp] theorem Group.gpSet_parent (g : Group) (n : Nat) (x : Bool) : (g.gpSet n x).parent = g.parent := rfl
@[simp] theorem Group.gpSet_rank (g : Group) (n : Nat) (x : Bool) : (g.gpSet n x).rank = g.rank := rfl
@[simp] theorem Group.gpSet_stolen (g : Group) (n : Nat) (x : Bool) : (g.gpSet n x).stolen = g.stolen := rfl
@[simp] theorem Group.gpSet_done (g : Group) (n : Nat) (x : Bool) : (g.gpSet n x).done = g.done := rfl
@[simp] theorem Group.gpSet_away (g : Group) (n : Nat) (x : Bool) : (g.gpSet n x).away = g.away := rfl
@[simp] theorem Group.gpSet_seqNo (g : Group) (n : Nat) (x : Bool) : (g.gpSet n x).seqNo = g.seqNo := rfl
@[simp] theorem Group.gpSet_mark (g : Group) (n : Nat) (x : Bool) : (g.gpSet n x).mark = g.mark := rfl

@[simp] theorem Group.orFlags_gid (g : Group) (f : Nat) : (g.orFlags f).gid = g.gid := rfl
@[simp] theorem Group.orFlags_kind (g : Group) (f : Nat) : (g.orFlags f).kind = g.kind := rfl
@[simp] theorem Group.orFlags_job (g : Group) (f : Nat) : (g.orFlags f).job = g.job := rfl
@[simp] theorem Group.orFlags_team (g : Group) (f : Nat) : (g.orFlags f).team = g.team := rfl
@[simp] theorem Group.orFlags_grp (g : Group) (f : Nat) : (g.orFlags f).grp = g.grp := rfl
@[simp] theorem Group.orFlags_lcore (g : Group) (f : Nat) : (g.orFlags f).lcore = g.lcore := rfl
@[simp] theorem Group.orFlags_core (g : Group) (f : Nat) : (g.orFlags f).core = g.core := rfl
@[simp] theorem Group.orFlags_slot (g : Group) (f : Nat) : (g.orFlags f).slot = g.slot := rfl
@[simp] theorem Group.orFlags_resident (g : Group) (f : Nat) : (g.orFlags f).resident = g.resident := rfl
@[simp] theorem Group.orFlags_born (g : Group) (f : Nat) : (g.orFlags f).born = g.born := rfl
@[simp] theorem Group.orFlags_allot (g : Group) (f : Nat) : (g.orFlags f).allot = g.allot := rfl
@[simp] theorem Group.orFlags_tiles (g : Group) (f : Nat) : (g.orFlags f).tiles = g.tiles := rfl
@[simp] theorem Group.orFlags_tileBase (g : Group) (f : Nat) : (g.orFlags f).tileBase = g.tileBase := rfl
@[simp] theorem Group.orFlags_wbase (g : Group) (f : Nat) : (g.orFlags f).wbase = g.wbase := rfl
@[simp] theorem Group.orFlags_v (g : Group) (f : Nat) : (g.orFlags f).v = g.v := rfl
@[simp] theorem Group.orFlags_g (g : Group) (f : Nat) : (g.orFlags f).g = g.g := rfl
@[simp] theorem Group.orFlags_p1 (g : Group) (f : Nat) : (g.orFlags f).p1 = g.p1 := rfl
@[simp] theorem Group.orFlags_p2 (g : Group) (f : Nat) : (g.orFlags f).p2 = g.p2 := rfl
@[simp] theorem Group.orFlags_p3 (g : Group) (f : Nat) : (g.orFlags f).p3 = g.p3 := rfl
@[simp] theorem Group.orFlags_gp1 (g : Group) (f : Nat) : (g.orFlags f).gp1 = g.gp1 := rfl
@[simp] theorem Group.orFlags_gp2 (g : Group) (f : Nat) : (g.orFlags f).gp2 = g.gp2 := rfl
@[simp] theorem Group.orFlags_gp3 (g : Group) (f : Nat) : (g.orFlags f).gp3 = g.gp3 := rfl
@[simp] theorem Group.orFlags_splits (g : Group) (f : Nat) : (g.orFlags f).splits = g.splits := rfl
@[simp] theorem Group.orFlags_stack (g : Group) (f : Nat) : (g.orFlags f).stack = g.stack := rfl
@[simp] theorem Group.orFlags_pdh (g : Group) (f : Nat) : (g.orFlags f).pdh = g.pdh := rfl
@[simp] theorem Group.orFlags_pdl (g : Group) (f : Nat) : (g.orFlags f).pdl = g.pdl := rfl
@[simp] theorem Group.orFlags_begun (g : Group) (f : Nat) : (g.orFlags f).begun = g.begun := rfl
@[simp] theorem Group.orFlags_cycAcc (g : Group) (f : Nat) : (g.orFlags f).cycAcc = g.cycAcc := rfl
@[simp] theorem Group.orFlags_cycFrom (g : Group) (f : Nat) : (g.orFlags f).cycFrom = g.cycFrom := rfl
@[simp] theorem Group.orFlags_fpmode (g : Group) (f : Nat) : (g.orFlags f).fpmode = g.fpmode := rfl
@[simp] theorem Group.orFlags_lfm (g : Group) (f : Nat) : (g.orFlags f).lfm = g.lfm := rfl
@[simp] theorem Group.orFlags_repc (g : Group) (f : Nat) : (g.orFlags f).repc = g.repc := rfl
@[simp] theorem Group.orFlags_tmr (g : Group) (f : Nat) : (g.orFlags f).tmr = g.tmr := rfl
@[simp] theorem Group.orFlags_alarm (g : Group) (f : Nat) : (g.orFlags f).alarm = g.alarm := rfl
@[simp] theorem Group.orFlags_trapvec (g : Group) (f : Nat) : (g.orFlags f).trapvec = g.trapvec := rfl
@[simp] theorem Group.orFlags_trapinfo (g : Group) (f : Nat) : (g.orFlags f).trapinfo = g.trapinfo := rfl
@[simp] theorem Group.orFlags_gtimeout (g : Group) (f : Nat) : (g.orFlags f).gtimeout = g.gtimeout := rfl
@[simp] theorem Group.orFlags_off (g : Group) (f : Nat) : (g.orFlags f).off = g.off := rfl
@[simp] theorem Group.orFlags_children (g : Group) (f : Nat) : (g.orFlags f).children = g.children := rfl
@[simp] theorem Group.orFlags_childFlags (g : Group) (f : Nat) : (g.orFlags f).childFlags = g.childFlags := rfl
@[simp] theorem Group.orFlags_spawned (g : Group) (f : Nat) : (g.orFlags f).spawned = g.spawned := rfl
@[simp] theorem Group.orFlags_monitor (g : Group) (f : Nat) : (g.orFlags f).monitor = g.monitor := rfl
@[simp] theorem Group.orFlags_pend (g : Group) (f : Nat) : (g.orFlags f).pend = g.pend := rfl
@[simp] theorem Group.orFlags_handler (g : Group) (f : Nat) : (g.orFlags f).handler = g.handler := rfl
@[simp] theorem Group.orFlags_held (g : Group) (f : Nat) : (g.orFlags f).held = g.held := rfl
@[simp] theorem Group.orFlags_region (g : Group) (f : Nat) : (g.orFlags f).region = g.region := rfl
@[simp] theorem Group.orFlags_holds (g : Group) (f : Nat) : (g.orFlags f).holds = g.holds := rfl
@[simp] theorem Group.orFlags_holdSplit (g : Group) (f : Nat) : (g.orFlags f).holdSplit = g.holdSplit := rfl
@[simp] theorem Group.orFlags_holdEpc (g : Group) (f : Nat) : (g.orFlags f).holdEpc = g.holdEpc := rfl
@[simp] theorem Group.orFlags_holdPc (g : Group) (f : Nat) : (g.orFlags f).holdPc = g.holdPc := rfl
@[simp] theorem Group.orFlags_reds (g : Group) (f : Nat) : (g.orFlags f).reds = g.reds := rfl
@[simp] theorem Group.orFlags_views (g : Group) (f : Nat) : (g.orFlags f).views = g.views := rfl
@[simp] theorem Group.orFlags_childViews (g : Group) (f : Nat) : (g.orFlags f).childViews = g.childViews := rfl
@[simp] theorem Group.orFlags_parent (g : Group) (f : Nat) : (g.orFlags f).parent = g.parent := rfl
@[simp] theorem Group.orFlags_rank (g : Group) (f : Nat) : (g.orFlags f).rank = g.rank := rfl
@[simp] theorem Group.orFlags_stolen (g : Group) (f : Nat) : (g.orFlags f).stolen = g.stolen := rfl
@[simp] theorem Group.orFlags_done (g : Group) (f : Nat) : (g.orFlags f).done = g.done := rfl
@[simp] theorem Group.orFlags_away (g : Group) (f : Nat) : (g.orFlags f).away = g.away := rfl
@[simp] theorem Group.orFlags_seqNo (g : Group) (f : Nat) : (g.orFlags f).seqNo = g.seqNo := rfl
@[simp] theorem Group.orFlags_mark (g : Group) (f : Nat) : (g.orFlags f).mark = g.mark := rfl

@[simp] theorem Group.rowSet_gid (g : Group) (m : W32) (row : Nat) (f : Nat → W32) : (g.rowSet m row f).gid = g.gid := rfl
@[simp] theorem Group.rowSet_kind (g : Group) (m : W32) (row : Nat) (f : Nat → W32) : (g.rowSet m row f).kind = g.kind := rfl
@[simp] theorem Group.rowSet_job (g : Group) (m : W32) (row : Nat) (f : Nat → W32) : (g.rowSet m row f).job = g.job := rfl
@[simp] theorem Group.rowSet_team (g : Group) (m : W32) (row : Nat) (f : Nat → W32) : (g.rowSet m row f).team = g.team := rfl
@[simp] theorem Group.rowSet_grp (g : Group) (m : W32) (row : Nat) (f : Nat → W32) : (g.rowSet m row f).grp = g.grp := rfl
@[simp] theorem Group.rowSet_lcore (g : Group) (m : W32) (row : Nat) (f : Nat → W32) : (g.rowSet m row f).lcore = g.lcore := rfl
@[simp] theorem Group.rowSet_core (g : Group) (m : W32) (row : Nat) (f : Nat → W32) : (g.rowSet m row f).core = g.core := rfl
@[simp] theorem Group.rowSet_slot (g : Group) (m : W32) (row : Nat) (f : Nat → W32) : (g.rowSet m row f).slot = g.slot := rfl
@[simp] theorem Group.rowSet_resident (g : Group) (m : W32) (row : Nat) (f : Nat → W32) : (g.rowSet m row f).resident = g.resident := rfl
@[simp] theorem Group.rowSet_born (g : Group) (m : W32) (row : Nat) (f : Nat → W32) : (g.rowSet m row f).born = g.born := rfl
@[simp] theorem Group.rowSet_allot (g : Group) (m : W32) (row : Nat) (f : Nat → W32) : (g.rowSet m row f).allot = g.allot := rfl
@[simp] theorem Group.rowSet_tiles (g : Group) (m : W32) (row : Nat) (f : Nat → W32) : (g.rowSet m row f).tiles = g.tiles := rfl
@[simp] theorem Group.rowSet_tileBase (g : Group) (m : W32) (row : Nat) (f : Nat → W32) : (g.rowSet m row f).tileBase = g.tileBase := rfl
@[simp] theorem Group.rowSet_wbase (g : Group) (m : W32) (row : Nat) (f : Nat → W32) : (g.rowSet m row f).wbase = g.wbase := rfl
@[simp] theorem Group.rowSet_g (g : Group) (m : W32) (row : Nat) (f : Nat → W32) : (g.rowSet m row f).g = g.g := rfl
@[simp] theorem Group.rowSet_p1 (g : Group) (m : W32) (row : Nat) (f : Nat → W32) : (g.rowSet m row f).p1 = g.p1 := rfl
@[simp] theorem Group.rowSet_p2 (g : Group) (m : W32) (row : Nat) (f : Nat → W32) : (g.rowSet m row f).p2 = g.p2 := rfl
@[simp] theorem Group.rowSet_p3 (g : Group) (m : W32) (row : Nat) (f : Nat → W32) : (g.rowSet m row f).p3 = g.p3 := rfl
@[simp] theorem Group.rowSet_gp1 (g : Group) (m : W32) (row : Nat) (f : Nat → W32) : (g.rowSet m row f).gp1 = g.gp1 := rfl
@[simp] theorem Group.rowSet_gp2 (g : Group) (m : W32) (row : Nat) (f : Nat → W32) : (g.rowSet m row f).gp2 = g.gp2 := rfl
@[simp] theorem Group.rowSet_gp3 (g : Group) (m : W32) (row : Nat) (f : Nat → W32) : (g.rowSet m row f).gp3 = g.gp3 := rfl
@[simp] theorem Group.rowSet_splits (g : Group) (m : W32) (row : Nat) (f : Nat → W32) : (g.rowSet m row f).splits = g.splits := rfl
@[simp] theorem Group.rowSet_stack (g : Group) (m : W32) (row : Nat) (f : Nat → W32) : (g.rowSet m row f).stack = g.stack := rfl
@[simp] theorem Group.rowSet_pdh (g : Group) (m : W32) (row : Nat) (f : Nat → W32) : (g.rowSet m row f).pdh = g.pdh := rfl
@[simp] theorem Group.rowSet_pdl (g : Group) (m : W32) (row : Nat) (f : Nat → W32) : (g.rowSet m row f).pdl = g.pdl := rfl
@[simp] theorem Group.rowSet_begun (g : Group) (m : W32) (row : Nat) (f : Nat → W32) : (g.rowSet m row f).begun = g.begun := rfl
@[simp] theorem Group.rowSet_cycAcc (g : Group) (m : W32) (row : Nat) (f : Nat → W32) : (g.rowSet m row f).cycAcc = g.cycAcc := rfl
@[simp] theorem Group.rowSet_cycFrom (g : Group) (m : W32) (row : Nat) (f : Nat → W32) : (g.rowSet m row f).cycFrom = g.cycFrom := rfl
@[simp] theorem Group.rowSet_fpmode (g : Group) (m : W32) (row : Nat) (f : Nat → W32) : (g.rowSet m row f).fpmode = g.fpmode := rfl
@[simp] theorem Group.rowSet_fflags (g : Group) (m : W32) (row : Nat) (f : Nat → W32) : (g.rowSet m row f).fflags = g.fflags := rfl
@[simp] theorem Group.rowSet_lfm (g : Group) (m : W32) (row : Nat) (f : Nat → W32) : (g.rowSet m row f).lfm = g.lfm := rfl
@[simp] theorem Group.rowSet_repc (g : Group) (m : W32) (row : Nat) (f : Nat → W32) : (g.rowSet m row f).repc = g.repc := rfl
@[simp] theorem Group.rowSet_tmr (g : Group) (m : W32) (row : Nat) (f : Nat → W32) : (g.rowSet m row f).tmr = g.tmr := rfl
@[simp] theorem Group.rowSet_alarm (g : Group) (m : W32) (row : Nat) (f : Nat → W32) : (g.rowSet m row f).alarm = g.alarm := rfl
@[simp] theorem Group.rowSet_trapvec (g : Group) (m : W32) (row : Nat) (f : Nat → W32) : (g.rowSet m row f).trapvec = g.trapvec := rfl
@[simp] theorem Group.rowSet_trapinfo (g : Group) (m : W32) (row : Nat) (f : Nat → W32) : (g.rowSet m row f).trapinfo = g.trapinfo := rfl
@[simp] theorem Group.rowSet_gtimeout (g : Group) (m : W32) (row : Nat) (f : Nat → W32) : (g.rowSet m row f).gtimeout = g.gtimeout := rfl
@[simp] theorem Group.rowSet_off (g : Group) (m : W32) (row : Nat) (f : Nat → W32) : (g.rowSet m row f).off = g.off := rfl
@[simp] theorem Group.rowSet_children (g : Group) (m : W32) (row : Nat) (f : Nat → W32) : (g.rowSet m row f).children = g.children := rfl
@[simp] theorem Group.rowSet_childFlags (g : Group) (m : W32) (row : Nat) (f : Nat → W32) : (g.rowSet m row f).childFlags = g.childFlags := rfl
@[simp] theorem Group.rowSet_spawned (g : Group) (m : W32) (row : Nat) (f : Nat → W32) : (g.rowSet m row f).spawned = g.spawned := rfl
@[simp] theorem Group.rowSet_monitor (g : Group) (m : W32) (row : Nat) (f : Nat → W32) : (g.rowSet m row f).monitor = g.monitor := rfl
@[simp] theorem Group.rowSet_pend (g : Group) (m : W32) (row : Nat) (f : Nat → W32) : (g.rowSet m row f).pend = g.pend := rfl
@[simp] theorem Group.rowSet_handler (g : Group) (m : W32) (row : Nat) (f : Nat → W32) : (g.rowSet m row f).handler = g.handler := rfl
@[simp] theorem Group.rowSet_held (g : Group) (m : W32) (row : Nat) (f : Nat → W32) : (g.rowSet m row f).held = g.held := rfl
@[simp] theorem Group.rowSet_region (g : Group) (m : W32) (row : Nat) (f : Nat → W32) : (g.rowSet m row f).region = g.region := rfl
@[simp] theorem Group.rowSet_holds (g : Group) (m : W32) (row : Nat) (f : Nat → W32) : (g.rowSet m row f).holds = g.holds := rfl
@[simp] theorem Group.rowSet_holdSplit (g : Group) (m : W32) (row : Nat) (f : Nat → W32) : (g.rowSet m row f).holdSplit = g.holdSplit := rfl
@[simp] theorem Group.rowSet_holdEpc (g : Group) (m : W32) (row : Nat) (f : Nat → W32) : (g.rowSet m row f).holdEpc = g.holdEpc := rfl
@[simp] theorem Group.rowSet_holdPc (g : Group) (m : W32) (row : Nat) (f : Nat → W32) : (g.rowSet m row f).holdPc = g.holdPc := rfl
@[simp] theorem Group.rowSet_reds (g : Group) (m : W32) (row : Nat) (f : Nat → W32) : (g.rowSet m row f).reds = g.reds := rfl
@[simp] theorem Group.rowSet_views (g : Group) (m : W32) (row : Nat) (f : Nat → W32) : (g.rowSet m row f).views = g.views := rfl
@[simp] theorem Group.rowSet_childViews (g : Group) (m : W32) (row : Nat) (f : Nat → W32) : (g.rowSet m row f).childViews = g.childViews := rfl
@[simp] theorem Group.rowSet_parent (g : Group) (m : W32) (row : Nat) (f : Nat → W32) : (g.rowSet m row f).parent = g.parent := rfl
@[simp] theorem Group.rowSet_rank (g : Group) (m : W32) (row : Nat) (f : Nat → W32) : (g.rowSet m row f).rank = g.rank := rfl
@[simp] theorem Group.rowSet_stolen (g : Group) (m : W32) (row : Nat) (f : Nat → W32) : (g.rowSet m row f).stolen = g.stolen := rfl
@[simp] theorem Group.rowSet_done (g : Group) (m : W32) (row : Nat) (f : Nat → W32) : (g.rowSet m row f).done = g.done := rfl
@[simp] theorem Group.rowSet_away (g : Group) (m : W32) (row : Nat) (f : Nat → W32) : (g.rowSet m row f).away = g.away := rfl
@[simp] theorem Group.rowSet_seqNo (g : Group) (m : W32) (row : Nat) (f : Nat → W32) : (g.rowSet m row f).seqNo = g.seqNo := rfl
@[simp] theorem Group.rowSet_mark (g : Group) (m : W32) (row : Nat) (f : Nat → W32) : (g.rowSet m row f).mark = g.mark := rfl

@[simp] theorem Group.sliceSet_gid (g : Group) (m : W32) (t : Nat) (c : Bool) (x : Nat) (f : Nat → W32) : (g.sliceSet m t c x f).gid = g.gid := rfl
@[simp] theorem Group.sliceSet_kind (g : Group) (m : W32) (t : Nat) (c : Bool) (x : Nat) (f : Nat → W32) : (g.sliceSet m t c x f).kind = g.kind := rfl
@[simp] theorem Group.sliceSet_job (g : Group) (m : W32) (t : Nat) (c : Bool) (x : Nat) (f : Nat → W32) : (g.sliceSet m t c x f).job = g.job := rfl
@[simp] theorem Group.sliceSet_team (g : Group) (m : W32) (t : Nat) (c : Bool) (x : Nat) (f : Nat → W32) : (g.sliceSet m t c x f).team = g.team := rfl
@[simp] theorem Group.sliceSet_grp (g : Group) (m : W32) (t : Nat) (c : Bool) (x : Nat) (f : Nat → W32) : (g.sliceSet m t c x f).grp = g.grp := rfl
@[simp] theorem Group.sliceSet_lcore (g : Group) (m : W32) (t : Nat) (c : Bool) (x : Nat) (f : Nat → W32) : (g.sliceSet m t c x f).lcore = g.lcore := rfl
@[simp] theorem Group.sliceSet_core (g : Group) (m : W32) (t : Nat) (c : Bool) (x : Nat) (f : Nat → W32) : (g.sliceSet m t c x f).core = g.core := rfl
@[simp] theorem Group.sliceSet_slot (g : Group) (m : W32) (t : Nat) (c : Bool) (x : Nat) (f : Nat → W32) : (g.sliceSet m t c x f).slot = g.slot := rfl
@[simp] theorem Group.sliceSet_resident (g : Group) (m : W32) (t : Nat) (c : Bool) (x : Nat) (f : Nat → W32) : (g.sliceSet m t c x f).resident = g.resident := rfl
@[simp] theorem Group.sliceSet_born (g : Group) (m : W32) (t : Nat) (c : Bool) (x : Nat) (f : Nat → W32) : (g.sliceSet m t c x f).born = g.born := rfl
@[simp] theorem Group.sliceSet_allot (g : Group) (m : W32) (t : Nat) (c : Bool) (x : Nat) (f : Nat → W32) : (g.sliceSet m t c x f).allot = g.allot := rfl
@[simp] theorem Group.sliceSet_tiles (g : Group) (m : W32) (t : Nat) (c : Bool) (x : Nat) (f : Nat → W32) : (g.sliceSet m t c x f).tiles = g.tiles := rfl
@[simp] theorem Group.sliceSet_tileBase (g : Group) (m : W32) (t : Nat) (c : Bool) (x : Nat) (f : Nat → W32) : (g.sliceSet m t c x f).tileBase = g.tileBase := rfl
@[simp] theorem Group.sliceSet_wbase (g : Group) (m : W32) (t : Nat) (c : Bool) (x : Nat) (f : Nat → W32) : (g.sliceSet m t c x f).wbase = g.wbase := rfl
@[simp] theorem Group.sliceSet_g (g : Group) (m : W32) (t : Nat) (c : Bool) (x : Nat) (f : Nat → W32) : (g.sliceSet m t c x f).g = g.g := rfl
@[simp] theorem Group.sliceSet_p1 (g : Group) (m : W32) (t : Nat) (c : Bool) (x : Nat) (f : Nat → W32) : (g.sliceSet m t c x f).p1 = g.p1 := rfl
@[simp] theorem Group.sliceSet_p2 (g : Group) (m : W32) (t : Nat) (c : Bool) (x : Nat) (f : Nat → W32) : (g.sliceSet m t c x f).p2 = g.p2 := rfl
@[simp] theorem Group.sliceSet_p3 (g : Group) (m : W32) (t : Nat) (c : Bool) (x : Nat) (f : Nat → W32) : (g.sliceSet m t c x f).p3 = g.p3 := rfl
@[simp] theorem Group.sliceSet_gp1 (g : Group) (m : W32) (t : Nat) (c : Bool) (x : Nat) (f : Nat → W32) : (g.sliceSet m t c x f).gp1 = g.gp1 := rfl
@[simp] theorem Group.sliceSet_gp2 (g : Group) (m : W32) (t : Nat) (c : Bool) (x : Nat) (f : Nat → W32) : (g.sliceSet m t c x f).gp2 = g.gp2 := rfl
@[simp] theorem Group.sliceSet_gp3 (g : Group) (m : W32) (t : Nat) (c : Bool) (x : Nat) (f : Nat → W32) : (g.sliceSet m t c x f).gp3 = g.gp3 := rfl
@[simp] theorem Group.sliceSet_splits (g : Group) (m : W32) (t : Nat) (c : Bool) (x : Nat) (f : Nat → W32) : (g.sliceSet m t c x f).splits = g.splits := rfl
@[simp] theorem Group.sliceSet_stack (g : Group) (m : W32) (t : Nat) (c : Bool) (x : Nat) (f : Nat → W32) : (g.sliceSet m t c x f).stack = g.stack := rfl
@[simp] theorem Group.sliceSet_pdh (g : Group) (m : W32) (t : Nat) (c : Bool) (x : Nat) (f : Nat → W32) : (g.sliceSet m t c x f).pdh = g.pdh := rfl
@[simp] theorem Group.sliceSet_pdl (g : Group) (m : W32) (t : Nat) (c : Bool) (x : Nat) (f : Nat → W32) : (g.sliceSet m t c x f).pdl = g.pdl := rfl
@[simp] theorem Group.sliceSet_begun (g : Group) (m : W32) (t : Nat) (c : Bool) (x : Nat) (f : Nat → W32) : (g.sliceSet m t c x f).begun = g.begun := rfl
@[simp] theorem Group.sliceSet_cycAcc (g : Group) (m : W32) (t : Nat) (c : Bool) (x : Nat) (f : Nat → W32) : (g.sliceSet m t c x f).cycAcc = g.cycAcc := rfl
@[simp] theorem Group.sliceSet_cycFrom (g : Group) (m : W32) (t : Nat) (c : Bool) (x : Nat) (f : Nat → W32) : (g.sliceSet m t c x f).cycFrom = g.cycFrom := rfl
@[simp] theorem Group.sliceSet_fpmode (g : Group) (m : W32) (t : Nat) (c : Bool) (x : Nat) (f : Nat → W32) : (g.sliceSet m t c x f).fpmode = g.fpmode := rfl
@[simp] theorem Group.sliceSet_fflags (g : Group) (m : W32) (t : Nat) (c : Bool) (x : Nat) (f : Nat → W32) : (g.sliceSet m t c x f).fflags = g.fflags := rfl
@[simp] theorem Group.sliceSet_lfm (g : Group) (m : W32) (t : Nat) (c : Bool) (x : Nat) (f : Nat → W32) : (g.sliceSet m t c x f).lfm = g.lfm := rfl
@[simp] theorem Group.sliceSet_repc (g : Group) (m : W32) (t : Nat) (c : Bool) (x : Nat) (f : Nat → W32) : (g.sliceSet m t c x f).repc = g.repc := rfl
@[simp] theorem Group.sliceSet_tmr (g : Group) (m : W32) (t : Nat) (c : Bool) (x : Nat) (f : Nat → W32) : (g.sliceSet m t c x f).tmr = g.tmr := rfl
@[simp] theorem Group.sliceSet_alarm (g : Group) (m : W32) (t : Nat) (c : Bool) (x : Nat) (f : Nat → W32) : (g.sliceSet m t c x f).alarm = g.alarm := rfl
@[simp] theorem Group.sliceSet_trapvec (g : Group) (m : W32) (t : Nat) (c : Bool) (x : Nat) (f : Nat → W32) : (g.sliceSet m t c x f).trapvec = g.trapvec := rfl
@[simp] theorem Group.sliceSet_trapinfo (g : Group) (m : W32) (t : Nat) (c : Bool) (x : Nat) (f : Nat → W32) : (g.sliceSet m t c x f).trapinfo = g.trapinfo := rfl
@[simp] theorem Group.sliceSet_gtimeout (g : Group) (m : W32) (t : Nat) (c : Bool) (x : Nat) (f : Nat → W32) : (g.sliceSet m t c x f).gtimeout = g.gtimeout := rfl
@[simp] theorem Group.sliceSet_off (g : Group) (m : W32) (t : Nat) (c : Bool) (x : Nat) (f : Nat → W32) : (g.sliceSet m t c x f).off = g.off := rfl
@[simp] theorem Group.sliceSet_children (g : Group) (m : W32) (t : Nat) (c : Bool) (x : Nat) (f : Nat → W32) : (g.sliceSet m t c x f).children = g.children := rfl
@[simp] theorem Group.sliceSet_childFlags (g : Group) (m : W32) (t : Nat) (c : Bool) (x : Nat) (f : Nat → W32) : (g.sliceSet m t c x f).childFlags = g.childFlags := rfl
@[simp] theorem Group.sliceSet_spawned (g : Group) (m : W32) (t : Nat) (c : Bool) (x : Nat) (f : Nat → W32) : (g.sliceSet m t c x f).spawned = g.spawned := rfl
@[simp] theorem Group.sliceSet_monitor (g : Group) (m : W32) (t : Nat) (c : Bool) (x : Nat) (f : Nat → W32) : (g.sliceSet m t c x f).monitor = g.monitor := rfl
@[simp] theorem Group.sliceSet_pend (g : Group) (m : W32) (t : Nat) (c : Bool) (x : Nat) (f : Nat → W32) : (g.sliceSet m t c x f).pend = g.pend := rfl
@[simp] theorem Group.sliceSet_handler (g : Group) (m : W32) (t : Nat) (c : Bool) (x : Nat) (f : Nat → W32) : (g.sliceSet m t c x f).handler = g.handler := rfl
@[simp] theorem Group.sliceSet_held (g : Group) (m : W32) (t : Nat) (c : Bool) (x : Nat) (f : Nat → W32) : (g.sliceSet m t c x f).held = g.held := rfl
@[simp] theorem Group.sliceSet_region (g : Group) (m : W32) (t : Nat) (c : Bool) (x : Nat) (f : Nat → W32) : (g.sliceSet m t c x f).region = g.region := rfl
@[simp] theorem Group.sliceSet_holds (g : Group) (m : W32) (t : Nat) (c : Bool) (x : Nat) (f : Nat → W32) : (g.sliceSet m t c x f).holds = g.holds := rfl
@[simp] theorem Group.sliceSet_holdSplit (g : Group) (m : W32) (t : Nat) (c : Bool) (x : Nat) (f : Nat → W32) : (g.sliceSet m t c x f).holdSplit = g.holdSplit := rfl
@[simp] theorem Group.sliceSet_holdEpc (g : Group) (m : W32) (t : Nat) (c : Bool) (x : Nat) (f : Nat → W32) : (g.sliceSet m t c x f).holdEpc = g.holdEpc := rfl
@[simp] theorem Group.sliceSet_holdPc (g : Group) (m : W32) (t : Nat) (c : Bool) (x : Nat) (f : Nat → W32) : (g.sliceSet m t c x f).holdPc = g.holdPc := rfl
@[simp] theorem Group.sliceSet_reds (g : Group) (m : W32) (t : Nat) (c : Bool) (x : Nat) (f : Nat → W32) : (g.sliceSet m t c x f).reds = g.reds := rfl
@[simp] theorem Group.sliceSet_views (g : Group) (m : W32) (t : Nat) (c : Bool) (x : Nat) (f : Nat → W32) : (g.sliceSet m t c x f).views = g.views := rfl
@[simp] theorem Group.sliceSet_childViews (g : Group) (m : W32) (t : Nat) (c : Bool) (x : Nat) (f : Nat → W32) : (g.sliceSet m t c x f).childViews = g.childViews := rfl
@[simp] theorem Group.sliceSet_parent (g : Group) (m : W32) (t : Nat) (c : Bool) (x : Nat) (f : Nat → W32) : (g.sliceSet m t c x f).parent = g.parent := rfl
@[simp] theorem Group.sliceSet_rank (g : Group) (m : W32) (t : Nat) (c : Bool) (x : Nat) (f : Nat → W32) : (g.sliceSet m t c x f).rank = g.rank := rfl
@[simp] theorem Group.sliceSet_stolen (g : Group) (m : W32) (t : Nat) (c : Bool) (x : Nat) (f : Nat → W32) : (g.sliceSet m t c x f).stolen = g.stolen := rfl
@[simp] theorem Group.sliceSet_done (g : Group) (m : W32) (t : Nat) (c : Bool) (x : Nat) (f : Nat → W32) : (g.sliceSet m t c x f).done = g.done := rfl
@[simp] theorem Group.sliceSet_away (g : Group) (m : W32) (t : Nat) (c : Bool) (x : Nat) (f : Nat → W32) : (g.sliceSet m t c x f).away = g.away := rfl
@[simp] theorem Group.sliceSet_seqNo (g : Group) (m : W32) (t : Nat) (c : Bool) (x : Nat) (f : Nat → W32) : (g.sliceSet m t c x f).seqNo = g.seqNo := rfl
@[simp] theorem Group.sliceSet_mark (g : Group) (m : W32) (t : Nat) (c : Bool) (x : Nat) (f : Nat → W32) : (g.sliceSet m t c x f).mark = g.mark := rfl

@[simp] theorem Group.putSplit_gid (g : Group) (p : Split) : (g.putSplit p).gid = g.gid := rfl
@[simp] theorem Group.putSplit_kind (g : Group) (p : Split) : (g.putSplit p).kind = g.kind := rfl
@[simp] theorem Group.putSplit_job (g : Group) (p : Split) : (g.putSplit p).job = g.job := rfl
@[simp] theorem Group.putSplit_team (g : Group) (p : Split) : (g.putSplit p).team = g.team := rfl
@[simp] theorem Group.putSplit_grp (g : Group) (p : Split) : (g.putSplit p).grp = g.grp := rfl
@[simp] theorem Group.putSplit_lcore (g : Group) (p : Split) : (g.putSplit p).lcore = g.lcore := rfl
@[simp] theorem Group.putSplit_core (g : Group) (p : Split) : (g.putSplit p).core = g.core := rfl
@[simp] theorem Group.putSplit_slot (g : Group) (p : Split) : (g.putSplit p).slot = g.slot := rfl
@[simp] theorem Group.putSplit_resident (g : Group) (p : Split) : (g.putSplit p).resident = g.resident := rfl
@[simp] theorem Group.putSplit_born (g : Group) (p : Split) : (g.putSplit p).born = g.born := rfl
@[simp] theorem Group.putSplit_allot (g : Group) (p : Split) : (g.putSplit p).allot = g.allot := rfl
@[simp] theorem Group.putSplit_tiles (g : Group) (p : Split) : (g.putSplit p).tiles = g.tiles := rfl
@[simp] theorem Group.putSplit_tileBase (g : Group) (p : Split) : (g.putSplit p).tileBase = g.tileBase := rfl
@[simp] theorem Group.putSplit_wbase (g : Group) (p : Split) : (g.putSplit p).wbase = g.wbase := rfl
@[simp] theorem Group.putSplit_v (g : Group) (p : Split) : (g.putSplit p).v = g.v := rfl
@[simp] theorem Group.putSplit_g (g : Group) (p : Split) : (g.putSplit p).g = g.g := rfl
@[simp] theorem Group.putSplit_p1 (g : Group) (p : Split) : (g.putSplit p).p1 = g.p1 := rfl
@[simp] theorem Group.putSplit_p2 (g : Group) (p : Split) : (g.putSplit p).p2 = g.p2 := rfl
@[simp] theorem Group.putSplit_p3 (g : Group) (p : Split) : (g.putSplit p).p3 = g.p3 := rfl
@[simp] theorem Group.putSplit_gp1 (g : Group) (p : Split) : (g.putSplit p).gp1 = g.gp1 := rfl
@[simp] theorem Group.putSplit_gp2 (g : Group) (p : Split) : (g.putSplit p).gp2 = g.gp2 := rfl
@[simp] theorem Group.putSplit_gp3 (g : Group) (p : Split) : (g.putSplit p).gp3 = g.gp3 := rfl
@[simp] theorem Group.putSplit_stack (g : Group) (p : Split) : (g.putSplit p).stack = g.stack := rfl
@[simp] theorem Group.putSplit_pdh (g : Group) (p : Split) : (g.putSplit p).pdh = g.pdh := rfl
@[simp] theorem Group.putSplit_pdl (g : Group) (p : Split) : (g.putSplit p).pdl = g.pdl := rfl
@[simp] theorem Group.putSplit_begun (g : Group) (p : Split) : (g.putSplit p).begun = g.begun := rfl
@[simp] theorem Group.putSplit_cycAcc (g : Group) (p : Split) : (g.putSplit p).cycAcc = g.cycAcc := rfl
@[simp] theorem Group.putSplit_cycFrom (g : Group) (p : Split) : (g.putSplit p).cycFrom = g.cycFrom := rfl
@[simp] theorem Group.putSplit_fpmode (g : Group) (p : Split) : (g.putSplit p).fpmode = g.fpmode := rfl
@[simp] theorem Group.putSplit_fflags (g : Group) (p : Split) : (g.putSplit p).fflags = g.fflags := rfl
@[simp] theorem Group.putSplit_lfm (g : Group) (p : Split) : (g.putSplit p).lfm = g.lfm := rfl
@[simp] theorem Group.putSplit_repc (g : Group) (p : Split) : (g.putSplit p).repc = g.repc := rfl
@[simp] theorem Group.putSplit_tmr (g : Group) (p : Split) : (g.putSplit p).tmr = g.tmr := rfl
@[simp] theorem Group.putSplit_alarm (g : Group) (p : Split) : (g.putSplit p).alarm = g.alarm := rfl
@[simp] theorem Group.putSplit_trapvec (g : Group) (p : Split) : (g.putSplit p).trapvec = g.trapvec := rfl
@[simp] theorem Group.putSplit_trapinfo (g : Group) (p : Split) : (g.putSplit p).trapinfo = g.trapinfo := rfl
@[simp] theorem Group.putSplit_gtimeout (g : Group) (p : Split) : (g.putSplit p).gtimeout = g.gtimeout := rfl
@[simp] theorem Group.putSplit_off (g : Group) (p : Split) : (g.putSplit p).off = g.off := rfl
@[simp] theorem Group.putSplit_children (g : Group) (p : Split) : (g.putSplit p).children = g.children := rfl
@[simp] theorem Group.putSplit_childFlags (g : Group) (p : Split) : (g.putSplit p).childFlags = g.childFlags := rfl
@[simp] theorem Group.putSplit_spawned (g : Group) (p : Split) : (g.putSplit p).spawned = g.spawned := rfl
@[simp] theorem Group.putSplit_monitor (g : Group) (p : Split) : (g.putSplit p).monitor = g.monitor := rfl
@[simp] theorem Group.putSplit_pend (g : Group) (p : Split) : (g.putSplit p).pend = g.pend := rfl
@[simp] theorem Group.putSplit_handler (g : Group) (p : Split) : (g.putSplit p).handler = g.handler := rfl
@[simp] theorem Group.putSplit_held (g : Group) (p : Split) : (g.putSplit p).held = g.held := rfl
@[simp] theorem Group.putSplit_region (g : Group) (p : Split) : (g.putSplit p).region = g.region := rfl
@[simp] theorem Group.putSplit_holds (g : Group) (p : Split) : (g.putSplit p).holds = g.holds := rfl
@[simp] theorem Group.putSplit_holdSplit (g : Group) (p : Split) : (g.putSplit p).holdSplit = g.holdSplit := rfl
@[simp] theorem Group.putSplit_holdEpc (g : Group) (p : Split) : (g.putSplit p).holdEpc = g.holdEpc := rfl
@[simp] theorem Group.putSplit_holdPc (g : Group) (p : Split) : (g.putSplit p).holdPc = g.holdPc := rfl
@[simp] theorem Group.putSplit_reds (g : Group) (p : Split) : (g.putSplit p).reds = g.reds := rfl
@[simp] theorem Group.putSplit_views (g : Group) (p : Split) : (g.putSplit p).views = g.views := rfl
@[simp] theorem Group.putSplit_childViews (g : Group) (p : Split) : (g.putSplit p).childViews = g.childViews := rfl
@[simp] theorem Group.putSplit_parent (g : Group) (p : Split) : (g.putSplit p).parent = g.parent := rfl
@[simp] theorem Group.putSplit_rank (g : Group) (p : Split) : (g.putSplit p).rank = g.rank := rfl
@[simp] theorem Group.putSplit_stolen (g : Group) (p : Split) : (g.putSplit p).stolen = g.stolen := rfl
@[simp] theorem Group.putSplit_done (g : Group) (p : Split) : (g.putSplit p).done = g.done := rfl
@[simp] theorem Group.putSplit_away (g : Group) (p : Split) : (g.putSplit p).away = g.away := rfl
@[simp] theorem Group.putSplit_seqNo (g : Group) (p : Split) : (g.putSplit p).seqNo = g.seqNo := rfl
@[simp] theorem Group.putSplit_mark (g : Group) (p : Split) : (g.putSplit p).mark = g.mark := rfl

@[simp] theorem State.forget_time (s : State) (k : Nat) : (s.forget k).time = s.time := rfl
@[simp] theorem State.forget_cycles (s : State) (k : Nat) : (s.forget k).cycles = s.cycles := rfl
@[simp] theorem State.forget_boot (s : State) (k : Nat) : (s.forget k).boot = s.boot := rfl
@[simp] theorem State.forget_part (s : State) (k : Nat) : (s.forget k).part = s.part := rfl
@[simp] theorem State.forget_kiln (s : State) (k : Nat) : (s.forget k).kiln = s.kiln := rfl
@[simp] theorem State.forget_tdp (s : State) (k : Nat) : (s.forget k).tdp = s.tdp := rfl
@[simp] theorem State.forget_pkg (s : State) (k : Nat) : (s.forget k).pkg = s.pkg := rfl
@[simp] theorem State.forget_measure (s : State) (k : Nat) : (s.forget k).measure = s.measure := rfl
@[simp] theorem State.forget_recordHash (s : State) (k : Nat) : (s.forget k).recordHash = s.recordHash := rfl
@[simp] theorem State.forget_links (s : State) (k : Nat) : (s.forget k).links = s.links := rfl
@[simp] theorem State.forget_regs (s : State) (k : Nat) : (s.forget k).regs = s.regs := rfl
@[simp] theorem State.forget_mem (s : State) (k : Nat) : (s.forget k).mem = s.mem := rfl
@[simp] theorem State.forget_hist (s : State) (k : Nat) : (s.forget k).hist = s.hist := rfl
@[simp] theorem State.forget_cur (s : State) (k : Nat) : (s.forget k).cur = s.cur := rfl
@[simp] theorem State.forget_groups (s : State) (k : Nat) : (s.forget k).groups = s.groups := rfl
@[simp] theorem State.forget_split (s : State) (k : Nat) : (s.forget k).split = s.split := rfl
@[simp] theorem State.forget_limm (s : State) (k : Nat) : (s.forget k).limm = s.limm := rfl
@[simp] theorem State.forget_sel (s : State) (k : Nat) : (s.forget k).sel = s.sel := rfl
@[simp] theorem State.forget_teams (s : State) (k : Nat) : (s.forget k).teams = s.teams := rfl
@[simp] theorem State.forget_jobs (s : State) (k : Nat) : (s.forget k).jobs = s.jobs := rfl
@[simp] theorem State.forget_ops (s : State) (k : Nat) : (s.forget k).ops = s.ops := rfl
@[simp] theorem State.forget_deques (s : State) (k : Nat) : (s.forget k).deques = s.deques := rfl
@[simp] theorem State.forget_queues (s : State) (k : Nat) : (s.forget k).queues = s.queues := rfl
@[simp] theorem State.forget_lastTap (s : State) (k : Nat) : (s.forget k).lastTap = s.lastTap := rfl
@[simp] theorem State.forget_quantum (s : State) (k : Nat) : (s.forget k).quantum = s.quantum := rfl
@[simp] theorem State.forget_nextQuantum (s : State) (k : Nat) : (s.forget k).nextQuantum = s.nextQuantum := rfl
@[simp] theorem State.forget_commands (s : State) (k : Nat) : (s.forget k).commands = s.commands := rfl
@[simp] theorem State.forget_nextReq (s : State) (k : Nat) : (s.forget k).nextReq = s.nextReq := rfl
@[simp] theorem State.forget_msi (s : State) (k : Nat) : (s.forget k).msi = s.msi := rfl
@[simp] theorem State.forget_invals (s : State) (k : Nat) : (s.forget k).invals = s.invals := rfl
@[simp] theorem State.forget_records (s : State) (k : Nat) : (s.forget k).records = s.records := rfl
@[simp] theorem State.forget_silent (s : State) (k : Nat) : (s.forget k).silent = s.silent := rfl
@[simp] theorem State.forget_steps (s : State) (k : Nat) : (s.forget k).steps = s.steps := rfl
@[simp] theorem State.forget_hot (s : State) (k : Nat) : (s.forget k).hot = s.hot := rfl
@[simp] theorem State.forget_poison (s : State) (k : Nat) : (s.forget k).poison = s.poison := rfl
@[simp] theorem State.forget_powerStep (s : State) (k : Nat) : (s.forget k).powerStep = s.powerStep := rfl
@[simp] theorem State.forget_droop (s : State) (k : Nat) : (s.forget k).droop = s.droop := rfl
@[simp] theorem State.forget_report (s : State) (k : Nat) : (s.forget k).report = s.report := rfl
@[simp] theorem State.forget_hostData (s : State) (k : Nat) : (s.forget k).hostData = s.hostData := rfl
@[simp] theorem State.forget_remoteData (s : State) (k : Nat) : (s.forget k).remoteData = s.remoteData := rfl
@[simp] theorem State.forget_images (s : State) (k : Nat) : (s.forget k).images = s.images := rfl
@[simp] theorem State.forget_lastIssue (s : State) (k : Nat) : (s.forget k).lastIssue = s.lastIssue := rfl
@[simp] theorem State.forget_nextId (s : State) (k : Nat) : (s.forget k).nextId = s.nextId := rfl
@[simp] theorem State.forget_tick (s : State) (k : Nat) : (s.forget k).tick = s.tick := rfl
@[simp] theorem State.forget_agenda (s : State) (k : Nat) : (s.forget k).agenda = s.agenda := rfl

end Sys2Proof.Machine
end

