-- ==== Sys2Proof/Laws/Device.lean ====
section
/-! SUPPORT. What a device access that may wait can answer, and what an operation that has read words still moves. -/
namespace Sys2Proof.Machine
open Host

/-! ## The device's page (14 R270) -/

/-- A page is answered only where no refusal and no request of that access stand, the address translates, and the page allows it. -/
theorem devPage_page {s : State} {key queue va : Nat} {root : W64} {write : Bool} {p : Page}
    (h : s.devPage key root queue va write = .page p) :
    (key, va / 2 ^ 16 * 2 ^ 16) ∉ s.refused ∧ asksFor (s.asked root (.device key)) (va / 2 ^ 16 * 2 ^ 16) write = false ∧
    va / 2 ^ 48 < 0x1FF ∧ s.translate root va = some p ∧ (write = true → p.w = true) ∧ s.farFails p.pa = false := by
  unfold State.devPage at h
  simp only at h
  split at h
  · cases h
  rename_i hr
  split at h
  · cases h
  rename_i ha
  split at h
  · cases h
  rename_i q ht
  split at h
  · cases h
  rename_i hw
  split at h
  · cases h
  rename_i hf
  cases h
  split at ht
  · cases ht
  rename_i hv
  refine ⟨by simpa using hr, by simpa using ha, by omega, ht, ?_, by simpa using hf⟩
  intro h1
  simpa [h1] using hw

/-- While a request of the access stands, it waits and nothing changes. -/
theorem devPage_waits {s : State} {key queue va : Nat} {root : W64} {write : Bool}
    (hr : (key, va / 2 ^ 16 * 2 ^ 16) ∉ s.refused)
    (ha : asksFor (s.asked root (.device key)) (va / 2 ^ 16 * 2 ^ 16) write = true) :
    s.devPage key root queue va write = .waits s := by
  unfold State.devPage
  simp only [List.contains_iff_mem, hr, ha, if_true, if_false]

/-- A refusal is met once, with ECAUSE 1, whatever the page is by then. -/
theorem devPage_refused {s : State} {key queue va : Nat} {root : W64} {write : Bool}
    (hr : (key, va / 2 ^ 16 * 2 ^ 16) ∈ s.refused) :
    s.devPage key root queue va write =
      .refused { s with refused := s.refused.filter (· != (key, va / 2 ^ 16 * 2 ^ 16)) } 1 := by
  unfold State.devPage
  simp only [List.contains_iff_mem, hr, if_true]

/-! ## What an operation has read (07 R144) -/

@[simp] theorem keptElem_nil (a : Aimed) : keptElem [] a = a := by
  unfold keptElem
  split
  · simp
  · rfl

/-- An operation that has read nothing ahead moves its elements as they are. -/
theorem opLeft_of_kept {s : State} {o : EngOp} (h : o.kept = []) : s.opLeft o = leftOf o.early (s.opElems o) := by
  unfold State.opLeft
  rw [h, List.map_congr_left (fun a _ => keptElem_nil a), List.map_id']

/-! ## Barrier words (10 R194, 13 R252) -/

theorem onWord_clean {s : State} {va : W64} {team off : Nat} {f : State → State}
    (h : s.poisoned (scratchLoc s.cur.job team off) 8 = false) : s.onWord va team off f = f s := by
  unfold State.onWord
  simp [h]

theorem onWord_spoilt {s : State} {va : W64} {team off : Nat} {f : State → State}
    (h : s.poisoned (scratchLoc s.cur.job team off) 8 = true) : s.onWord va team off f = s.spadUpset va := by
  unfold State.onWord
  simp [h]

end Sys2Proof.Machine
end

