-- ==== Sys2Proof/Laws/Dispatch.lean ====
section
/-! SUPPORT. What each arm of the dispatch calls. -/
namespace Sys2Proof.Machine
open Host

@[simp] theorem exec_createQueue {q ring size prio dies root headva status rsv} (s : State) : exec (.createQueue q ring size prio dies root headva status rsv) s = execCreateQueue q ring size prio dies root headva status rsv s := rfl
@[simp] theorem exec_destroyQueue {q status rsv} (s : State) : exec (.destroyQueue q status rsv) s = execDestroyQueue q status rsv s := rfl
@[simp] theorem exec_resetQueue {q status rsv} (s : State) : exec (.resetQueue q status rsv) s = execResetQueue q status rsv s := rfl
@[simp] theorem exec_abortQueue {q status rsv} (s : State) : exec (.abortQueue q status rsv) s = execAbortQueue q status rsv s := rfl
@[simp] theorem exec_setQuantum {us status rsv} (s : State) : exec (.setQuantum us status rsv) s = execSetQuantum us status rsv s := rfl
@[simp] theorem exec_invalidate {root va pages status rsv} (s : State) : exec (.invalidate root va pages status rsv) s = execInvalidate root va pages status rsv s := rfl
@[simp] theorem exec_pageResponse {id answer status rsv} (s : State) : exec (.pageResponse id answer status rsv) s = execPageResponse id answer status rsv s := rfl
@[simp] theorem exec_doorbell {q value} (s : State) : exec (.doorbell q value) s = execDoorbell q value s := rfl
@[simp] theorem exec_registerWrite {offset size value} (s : State) : exec (.registerWrite offset size value) s = execRegisterWrite offset size value s := rfl
@[simp] theorem exec_attestationRequest {nonce} (s : State) : exec (.attestationRequest nonce) s = execAttestationRequest nonce s := rfl
@[simp] theorem exec_hostWrite {pa data} (s : State) : exec (.hostWrite pa data) s = execHostWrite pa data s := rfl
@[simp] theorem exec_hostRead {pa len} (s : State) : exec (.hostRead pa len) s = execHostRead pa len s := rfl
@[simp] theorem exec_linkTraining {m trained} (s : State) : exec (.linkTraining m trained) s = execLinkTraining m trained s := rfl
@[simp] theorem exec_resetBoot {firmware fwSig record recSig} (s : State) : exec (.resetBoot firmware fwSig record recSig) s = execResetBoot firmware fwSig record recSig s := rfl
@[simp] theorem exec_remoteRequest {kind code pa data} (s : State) : exec (.remoteRequest kind code pa data) s = execRemoteRequest kind code pa data s := rfl
@[simp] theorem exec_remoteRequestTimeout {pkg} (s : State) : exec (.remoteRequestTimeout pkg) s = execRemoteRequestTimeout pkg s := rfl
@[simp] theorem exec_thermalStepChange {die celsius} (s : State) : exec (.thermalStepChange die celsius) s = execThermalStepChange die celsius s := rfl
@[simp] theorem exec_powerThrottle {watts} (s : State) : exec (.powerThrottle watts) s = execPowerThrottle watts s := rfl
@[simp] theorem exec_droopEvent {die cycles} (s : State) : exec (.droopEvent die cycles) s = execDroopEvent die cycles s := rfl
@[simp] theorem exec_packetRead {q} (s : State) : exec (.packetRead q) s = execPacketRead q s := rfl
@[simp] theorem exec_headPublish {q} (s : State) : exec (.headPublish q) s = execHeadPublish q s := rfl
@[simp] theorem exec_launchPacket {q} (s : State) : exec (.launchPacket q) s = execLaunchPacket q s := rfl
@[simp] theorem exec_copyPacket {q} (s : State) : exec (.copyPacket q) s = execCopyPacket q s := rfl
@[simp] theorem exec_waitSignalPacket {q} (s : State) : exec (.waitSignalPacket q) s = execWaitSignalPacket q s := rfl
@[simp] theorem exec_setSignalPacket {q} (s : State) : exec (.setSignalPacket q) s = execSetSignalPacket q s := rfl
@[simp] theorem exec_teamDispatch {job core} (s : State) : exec (.teamDispatch job core) s = execTeamDispatch job core s := rfl
@[simp] theorem exec_taskStart {core} (s : State) : exec (.taskStart core) s = execTaskStart core s := rfl
@[simp] theorem exec_taskSteal {thief victim} (s : State) : exec (.taskSteal thief victim) s = execTaskSteal thief victim s := rfl
@[simp] theorem exec_timeSlice {job lcore core} (s : State) : exec (.timeSlice job lcore core) s = execTimeSlice job lcore core s := rfl
@[simp] theorem exec_racking {job lcore core} (s : State) : exec (.racking job lcore core) s = execRacking job lcore core s := rfl
@[simp] theorem exec_switchOut {job team} (s : State) : exec (.switchOut job team) s = execSwitchOut job team s := rfl
@[simp] theorem exec_restore {job team core} (s : State) : exec (.restore job team core) s = execRestore job team core s := rfl
@[simp] theorem exec_engineContextSwitch {job cluster} (s : State) : exec (.engineContextSwitch job cluster) s = execEngineContextSwitch job cluster s := rfl
@[simp] theorem exec_engineArrival {op} (s : State) : exec (.engineArrival op) s = execEngineArrival op s := rfl
@[simp] theorem exec_triggeredOpComplete {k} (s : State) : exec (.triggeredOpComplete k) s = execTriggeredOpComplete k s := rfl
@[simp] theorem exec_iaddV {q d a b} (s : State) : exec (.iaddV q d a b) s = execIaddV q d a b s := rfl
@[simp] theorem exec_isubV {q d a b} (s : State) : exec (.isubV q d a b) s = execIsubV q d a b s := rfl
@[simp] theorem exec_imulV {q d a b} (s : State) : exec (.imulV q d a b) s = execImulV q d a b s := rfl
@[simp] theorem exec_imulhS32V {q d a b} (s : State) : exec (.imulhS32V q d a b) s = execImulhS32V q d a b s := rfl
@[simp] theorem exec_imulhZ32V {q d a b} (s : State) : exec (.imulhZ32V q d a b) s = execImulhZ32V q d a b s := rfl
@[simp] theorem exec_imadV {q d a b} (s : State) : exec (.imadV q d a b) s = execImadV q d a b s := rfl
@[simp] theorem exec_iabsV {q d a} (s : State) : exec (.iabsV q d a) s = execIabsV q d a s := rfl
@[simp] theorem exec_iaddV64 {q d a b} (s : State) : exec (.iaddV64 q d a b) s = execIaddV64 q d a b s := rfl
@[simp] theorem exec_isubV64 {q d a b} (s : State) : exec (.isubV64 q d a b) s = execIsubV64 q d a b s := rfl
@[simp] theorem exec_imulV64 {q d a b} (s : State) : exec (.imulV64 q d a b) s = execImulV64 q d a b s := rfl
@[simp] theorem exec_imulhS64V {q d a b} (s : State) : exec (.imulhS64V q d a b) s = execImulhS64V q d a b s := rfl
@[simp] theorem exec_imulhZ64V {q d a b} (s : State) : exec (.imulhZ64V q d a b) s = execImulhZ64V q d a b s := rfl
@[simp] theorem exec_imadV64 {q d a b} (s : State) : exec (.imadV64 q d a b) s = execImadV64 q d a b s := rfl
@[simp] theorem exec_iabsV64 {q d a} (s : State) : exec (.iabsV64 q d a) s = execIabsV64 q d a s := rfl
@[simp] theorem exec_iaddG32 {q d a b} (s : State) : exec (.iaddG32 q d a b) s = execIaddG32 q d a b s := rfl
@[simp] theorem exec_isubG32 {q d a b} (s : State) : exec (.isubG32 q d a b) s = execIsubG32 q d a b s := rfl
@[simp] theorem exec_imulG32 {q d a b} (s : State) : exec (.imulG32 q d a b) s = execImulG32 q d a b s := rfl
@[simp] theorem exec_imulhS32G {q d a b} (s : State) : exec (.imulhS32G q d a b) s = execImulhS32G q d a b s := rfl
@[simp] theorem exec_imulhZ32G {q d a b} (s : State) : exec (.imulhZ32G q d a b) s = execImulhZ32G q d a b s := rfl
@[simp] theorem exec_imadG32 {q d a b} (s : State) : exec (.imadG32 q d a b) s = execImadG32 q d a b s := rfl
@[simp] theorem exec_iabsG32 {q d a} (s : State) : exec (.iabsG32 q d a) s = execIabsG32 q d a s := rfl
@[simp] theorem exec_iaddG64 {q d a b} (s : State) : exec (.iaddG64 q d a b) s = execIaddG64 q d a b s := rfl
@[simp] theorem exec_isubG64 {q d a b} (s : State) : exec (.isubG64 q d a b) s = execIsubG64 q d a b s := rfl
@[simp] theorem exec_imulG64 {q d a b} (s : State) : exec (.imulG64 q d a b) s = execImulG64 q d a b s := rfl
@[simp] theorem exec_imulhS64G {q d a b} (s : State) : exec (.imulhS64G q d a b) s = execImulhS64G q d a b s := rfl
@[simp] theorem exec_imulhZ64G {q d a b} (s : State) : exec (.imulhZ64G q d a b) s = execImulhZ64G q d a b s := rfl
@[simp] theorem exec_imadG64 {q d a b} (s : State) : exec (.imadG64 q d a b) s = execImadG64 q d a b s := rfl
@[simp] theorem exec_iabsG64 {q d a} (s : State) : exec (.iabsG64 q d a) s = execIabsG64 q d a s := rfl
@[simp] theorem exec_iaddImmV {q d a i} (s : State) : exec (.iaddImmV q d a i) s = execIaddImmV q d a i s := rfl
@[simp] theorem exec_iaddImmV64 {q d a i} (s : State) : exec (.iaddImmV64 q d a i) s = execIaddImmV64 q d a i s := rfl
@[simp] theorem exec_iaddImmG32 {q d a i} (s : State) : exec (.iaddImmG32 q d a i) s = execIaddImmG32 q d a i s := rfl
@[simp] theorem exec_iaddImmG64 {q d a i} (s : State) : exec (.iaddImmG64 q d a i) s = execIaddImmG64 q d a i s := rfl
@[simp] theorem exec_imaxV {q w sz d a b} (s : State) : exec (.imaxV q w sz d a b) s = execImaxV q w sz d a b s := rfl
@[simp] theorem exec_iminV {q w sz d a b} (s : State) : exec (.iminV q w sz d a b) s = execIminV q w sz d a b s := rfl
@[simp] theorem exec_imaxG {q w sz d a b} (s : State) : exec (.imaxG q w sz d a b) s = execImaxG q w sz d a b s := rfl
@[simp] theorem exec_iminG {q w sz d a b} (s : State) : exec (.iminG q w sz d a b) s = execIminG q w sz d a b s := rfl
@[simp] theorem exec_andV {q w d a b} (s : State) : exec (.andV q w d a b) s = execAndV q w d a b s := rfl
@[simp] theorem exec_orV {q w d a b} (s : State) : exec (.orV q w d a b) s = execOrV q w d a b s := rfl
@[simp] theorem exec_xorV {q w d a b} (s : State) : exec (.xorV q w d a b) s = execXorV q w d a b s := rfl
@[simp] theorem exec_andnV {q w d a b} (s : State) : exec (.andnV q w d a b) s = execAndnV q w d a b s := rfl
@[simp] theorem exec_andG {q w d a b} (s : State) : exec (.andG q w d a b) s = execAndG q w d a b s := rfl
@[simp] theorem exec_orG {q w d a b} (s : State) : exec (.orG q w d a b) s = execOrG q w d a b s := rfl
@[simp] theorem exec_xorG {q w d a b} (s : State) : exec (.xorG q w d a b) s = execXorG q w d a b s := rfl
@[simp] theorem exec_andnG {q w d a b} (s : State) : exec (.andnG q w d a b) s = execAndnG q w d a b s := rfl
@[simp] theorem exec_shlV {q i d a b} (s : State) : exec (.shlV q i d a b) s = execShlV q i d a b s := rfl
@[simp] theorem exec_shrV {q i d a b} (s : State) : exec (.shrV q i d a b) s = execShrV q i d a b s := rfl
@[simp] theorem exec_sarV {q i d a b} (s : State) : exec (.sarV q i d a b) s = execSarV q i d a b s := rfl
@[simp] theorem exec_rotV {q i d a b} (s : State) : exec (.rotV q i d a b) s = execRotV q i d a b s := rfl
@[simp] theorem exec_shlV64 {q i d a b} (s : State) : exec (.shlV64 q i d a b) s = execShlV64 q i d a b s := rfl
@[simp] theorem exec_shrV64 {q i d a b} (s : State) : exec (.shrV64 q i d a b) s = execShrV64 q i d a b s := rfl
@[simp] theorem exec_sarV64 {q i d a b} (s : State) : exec (.sarV64 q i d a b) s = execSarV64 q i d a b s := rfl
@[simp] theorem exec_rotV64 {q i d a b} (s : State) : exec (.rotV64 q i d a b) s = execRotV64 q i d a b s := rfl
@[simp] theorem exec_shlG32 {q i d a b} (s : State) : exec (.shlG32 q i d a b) s = execShlG32 q i d a b s := rfl
@[simp] theorem exec_shrG32 {q i d a b} (s : State) : exec (.shrG32 q i d a b) s = execShrG32 q i d a b s := rfl
@[simp] theorem exec_sarG32 {q i d a b} (s : State) : exec (.sarG32 q i d a b) s = execSarG32 q i d a b s := rfl
@[simp] theorem exec_rotG32 {q i d a b} (s : State) : exec (.rotG32 q i d a b) s = execRotG32 q i d a b s := rfl
@[simp] theorem exec_shlG64 {q i d a b} (s : State) : exec (.shlG64 q i d a b) s = execShlG64 q i d a b s := rfl
@[simp] theorem exec_shrG64 {q i d a b} (s : State) : exec (.shrG64 q i d a b) s = execShrG64 q i d a b s := rfl
@[simp] theorem exec_sarG64 {q i d a b} (s : State) : exec (.sarG64 q i d a b) s = execSarG64 q i d a b s := rfl
@[simp] theorem exec_rotG64 {q i d a b} (s : State) : exec (.rotG64 q i d a b) s = execRotG64 q i d a b s := rfl
@[simp] theorem exec_clzV {q d a} (s : State) : exec (.clzV q d a) s = execClzV q d a s := rfl
@[simp] theorem exec_clzV64 {q d a} (s : State) : exec (.clzV64 q d a) s = execClzV64 q d a s := rfl
@[simp] theorem exec_clzG32 {q d a} (s : State) : exec (.clzG32 q d a) s = execClzG32 q d a s := rfl
@[simp] theorem exec_clzG64 {q d a} (s : State) : exec (.clzG64 q d a) s = execClzG64 q d a s := rfl
@[simp] theorem exec_popcV {q d a} (s : State) : exec (.popcV q d a) s = execPopcV q d a s := rfl
@[simp] theorem exec_popcV64 {q d a} (s : State) : exec (.popcV64 q d a) s = execPopcV64 q d a s := rfl
@[simp] theorem exec_popcG32 {q d a} (s : State) : exec (.popcG32 q d a) s = execPopcG32 q d a s := rfl
@[simp] theorem exec_popcG64 {q d a} (s : State) : exec (.popcG64 q d a) s = execPopcG64 q d a s := rfl
@[simp] theorem exec_brevV {q d a} (s : State) : exec (.brevV q d a) s = execBrevV q d a s := rfl
@[simp] theorem exec_brevG {q d a} (s : State) : exec (.brevG q d a) s = execBrevG q d a s := rfl
@[simp] theorem exec_bfxZV {q d a b} (s : State) : exec (.bfxZV q d a b) s = execBfxZV q d a b s := rfl
@[simp] theorem exec_bfxSV {q d a b} (s : State) : exec (.bfxSV q d a b) s = execBfxSV q d a b s := rfl
@[simp] theorem exec_bfxZG {q d a b} (s : State) : exec (.bfxZG q d a b) s = execBfxZG q d a b s := rfl
@[simp] theorem exec_bfxSG {q d a b} (s : State) : exec (.bfxSG q d a b) s = execBfxSG q d a b s := rfl
@[simp] theorem exec_bfiV {q d a b} (s : State) : exec (.bfiV q d a b) s = execBfiV q d a b s := rfl
@[simp] theorem exec_bfiG {q d a b} (s : State) : exec (.bfiG q d a b) s = execBfiG q d a b s := rfl
@[simp] theorem exec_icmpV {q f w p a b} (s : State) : exec (.icmpV q f w p a b) s = execIcmpV q f w p a b s := rfl
@[simp] theorem exec_icmpG {q f w p a b} (s : State) : exec (.icmpG q f w p a b) s = execIcmpG q f w p a b s := rfl
@[simp] theorem exec_movV {q d a} (s : State) : exec (.movV q d a) s = execMovV q d a s := rfl
@[simp] theorem exec_movV64 {q d a} (s : State) : exec (.movV64 q d a) s = execMovV64 q d a s := rfl
@[simp] theorem exec_movG32 {q d a} (s : State) : exec (.movG32 q d a) s = execMovG32 q d a s := rfl
@[simp] theorem exec_movG64 {q d a} (s : State) : exec (.movG64 q d a) s = execMovG64 q d a s := rfl
@[simp] theorem exec_selV {q w p d a b} (s : State) : exec (.selV q w p d a b) s = execSelV q w p d a b s := rfl
@[simp] theorem exec_selG {q w p d a b} (s : State) : exec (.selG q w p d a b) s = execSelG q w p d a b s := rfl
@[simp] theorem exec_psetV {q f d a b} (s : State) : exec (.psetV q f d a b) s = execPsetV q f d a b s := rfl
@[simp] theorem exec_psetG {q f d a b} (s : State) : exec (.psetG q f d a b) s = execPsetG q f d a b s := rfl
@[simp] theorem exec_psetNzV {q d a w} (s : State) : exec (.psetNzV q d a w) s = execPsetNzV q d a w s := rfl
@[simp] theorem exec_psetNzG {q d a w} (s : State) : exec (.psetNzG q d a w) s = execPsetNzG q d a w s := rfl
@[simp] theorem exec_movSpecialV {q d sz} (s : State) : exec (.movSpecialV q d sz) s = execMovSpecialV q d sz s := rfl
@[simp] theorem exec_movSpecialG {q d sz} (s : State) : exec (.movSpecialG q d sz) s = execMovSpecialG q d sz s := rfl
@[simp] theorem exec_moviV {q d i} (s : State) : exec (.moviV q d i) s = execMoviV q d i s := rfl
@[simp] theorem exec_moviG {q d i} (s : State) : exec (.moviG q d i) s = execMoviG q d i s := rfl
@[simp] theorem exec_brxV {q a} (s : State) : exec (.brxV q a) s = execBrxV q a s := rfl
@[simp] theorem exec_brxG {q a} (s : State) : exec (.brxG q a) s = execBrxG q a s := rfl
@[simp] theorem exec_retV {q a} (s : State) : exec (.retV q a) s = execRetV q a s := rfl
@[simp] theorem exec_retG {q a} (s : State) : exec (.retG q a) s = execRetG q a s := rfl
@[simp] theorem exec_leaV {q sz d a b} (s : State) : exec (.leaV q sz d a b) s = execLeaV q sz d a b s := rfl
@[simp] theorem exec_leaG {q sz d a b} (s : State) : exec (.leaG q sz d a b) s = execLeaG q sz d a b s := rfl
@[simp] theorem exec_callV {q i} (s : State) : exec (.callV q i) s = execCallV q i s := rfl
@[simp] theorem exec_callG {q i} (s : State) : exec (.callG q i) s = execCallG q i s := rfl
@[simp] theorem exec_braV {q i} (s : State) : exec (.braV q i) s = execBraV q i s := rfl
@[simp] theorem exec_braG {q i} (s : State) : exec (.braG q i) s = execBraG q i s := rfl
@[simp] theorem exec_fadd {q d a b} (s : State) : exec (.fadd q d a b) s = execFadd q d a b s := rfl
@[simp] theorem exec_fsub {q d a b} (s : State) : exec (.fsub q d a b) s = execFsub q d a b s := rfl
@[simp] theorem exec_fmul {q d a b} (s : State) : exec (.fmul q d a b) s = execFmul q d a b s := rfl
@[simp] theorem exec_ffma {q d a b} (s : State) : exec (.ffma q d a b) s = execFfma q d a b s := rfl
@[simp] theorem exec_fdiv {q d a b} (s : State) : exec (.fdiv q d a b) s = execFdiv q d a b s := rfl
@[simp] theorem exec_fmin {q d a b} (s : State) : exec (.fmin q d a b) s = execFmin q d a b s := rfl
@[simp] theorem exec_fmax {q d a b} (s : State) : exec (.fmax q d a b) s = execFmax q d a b s := rfl
@[simp] theorem exec_faddF64 {q d a b} (s : State) : exec (.faddF64 q d a b) s = execFaddF64 q d a b s := rfl
@[simp] theorem exec_fsubF64 {q d a b} (s : State) : exec (.fsubF64 q d a b) s = execFsubF64 q d a b s := rfl
@[simp] theorem exec_fmulF64 {q d a b} (s : State) : exec (.fmulF64 q d a b) s = execFmulF64 q d a b s := rfl
@[simp] theorem exec_ffmaF64 {q d a b} (s : State) : exec (.ffmaF64 q d a b) s = execFfmaF64 q d a b s := rfl
@[simp] theorem exec_fdivF64 {q d a b} (s : State) : exec (.fdivF64 q d a b) s = execFdivF64 q d a b s := rfl
@[simp] theorem exec_fminF64 {q d a b} (s : State) : exec (.fminF64 q d a b) s = execFminF64 q d a b s := rfl
@[simp] theorem exec_fmaxF64 {q d a b} (s : State) : exec (.fmaxF64 q d a b) s = execFmaxF64 q d a b s := rfl
@[simp] theorem exec_fsqrt {q d a r} (s : State) : exec (.fsqrt q d a r) s = execFsqrt q d a r s := rfl
@[simp] theorem exec_frcp {q d a r} (s : State) : exec (.frcp q d a r) s = execFrcp q d a r s := rfl
@[simp] theorem exec_frsq {q d a r} (s : State) : exec (.frsq q d a r) s = execFrsq q d a r s := rfl
@[simp] theorem exec_fexp2 {q d a r} (s : State) : exec (.fexp2 q d a r) s = execFexp2 q d a r s := rfl
@[simp] theorem exec_flog2 {q d a r} (s : State) : exec (.flog2 q d a r) s = execFlog2 q d a r s := rfl
@[simp] theorem exec_ftrigSinpi {q d a r} (s : State) : exec (.ftrigSinpi q d a r) s = execFtrigSinpi q d a r s := rfl
@[simp] theorem exec_ftrigCospi {q d a r} (s : State) : exec (.ftrigCospi q d a r) s = execFtrigCospi q d a r s := rfl
@[simp] theorem exec_frnd {q d a r} (s : State) : exec (.frnd q d a r) s = execFrnd q d a r s := rfl
@[simp] theorem exec_fsqrtF64 {q d a r} (s : State) : exec (.fsqrtF64 q d a r) s = execFsqrtF64 q d a r s := rfl
@[simp] theorem exec_frndF64 {q d a r} (s : State) : exec (.frndF64 q d a r) s = execFrndF64 q d a r s := rfl
@[simp] theorem exec_fclass {q w d a r} (s : State) : exec (.fclass q w d a r) s = execFclass q w d a r s := rfl
@[simp] theorem exec_hfuse {q h d a b} (s : State) : exec (.hfuse q h d a b) s = execHfuse q h d a b s := rfl
@[simp] theorem exec_fcmp {q f w p a b} (s : State) : exec (.fcmp q f w p a b) s = execFcmp q f w p a b s := rfl
@[simp] theorem exec_cvt {q r d a p} (s : State) : exec (.cvt q r d a p) s = execCvt q r d a p s := rfl
@[simp] theorem exec_cvtGxEncode {q d a sz c} (s : State) : exec (.cvtGxEncode q d a sz c) s = execCvtGxEncode q d a sz c s := rfl
@[simp] theorem exec_cvtGxDecode {q d a c} (s : State) : exec (.cvtGxDecode q d a c) s = execCvtGxDecode q d a c s := rfl
@[simp] theorem exec_dp4 {q z d a b} (s : State) : exec (.dp4 q z d a b) s = execDp4 q z d a b s := rfl
@[simp] theorem exec_rand {q f d} (s : State) : exec (.rand q f d) s = execRand q f d s := rfl
@[simp] theorem exec_pitch {q a} (s : State) : exec (.pitch q a) s = execPitch q a s := rfl
@[simp] theorem exec_shfl {q m d a b} (s : State) : exec (.shfl q m d a b) s = execShfl q m d a b s := rfl
@[simp] theorem exec_vote {q d p k} (s : State) : exec (.vote q d p k) s = execVote q d p k s := rfl
@[simp] theorem exec_bcast {q d a w} (s : State) : exec (.bcast q d a w) s = execBcast q d a w s := rfl
@[simp] theorem exec_redux {q d a t o} (s : State) : exec (.redux q d a t o) s = execRedux q d a t o s := rfl
@[simp] theorem exec_scan {q d a x t o} (s : State) : exec (.scan q d a x t o) s = execScan q d a x t o s := rfl
@[simp] theorem exec_nzscan {q d a b} (s : State) : exec (.nzscan q d a b) s = execNzscan q d a b s := rfl
@[simp] theorem exec_isect {q d a b} (s : State) : exec (.isect q d a b) s = execIsect q d a b s := rfl
@[simp] theorem exec_movQueuePush {q d a} (s : State) : exec (.movQueuePush q d a) s = execMovQueuePush q d a s := rfl
@[simp] theorem exec_movQueuePop {q d} (s : State) : exec (.movQueuePop q d) s = execMovQueuePop q d s := rfl
@[simp] theorem exec_cpy {q d a b} (s : State) : exec (.cpy q d a b) s = execCpy q d a b s := rfl
@[simp] theorem exec_cpyr {q d a b} (s : State) : exec (.cpyr q d a b) s = execCpyr q d a b s := rfl
@[simp] theorem exec_ldV {q sz d a b} (s : State) : exec (.ldV q sz d a b) s = execLdV q sz d a b s := rfl
@[simp] theorem exec_stV {q sz d a b} (s : State) : exec (.stV q sz d a b) s = execStV q sz d a b s := rfl
@[simp] theorem exec_ldOrdered {q d a o sz} (s : State) : exec (.ldOrdered q d a o sz) s = execLdOrdered q d a o sz s := rfl
@[simp] theorem exec_stOrdered {q d a o sz} (s : State) : exec (.stOrdered q d a o sz) s = execStOrdered q d a o sz s := rfl
@[simp] theorem exec_atom {q d a o c} (s : State) : exec (.atom q d a o c) s = execAtom q d a o c s := rfl
@[simp] theorem exec_red {q d a o c} (s : State) : exec (.red q d a o c) s = execRed q d a o c s := rfl
@[simp] theorem exec_ldt {q d a t r k} (s : State) : exec (.ldt q d a t r k) s = execLdt q d a t r k s := rfl
@[simp] theorem exec_stt {q d a t r k} (s : State) : exec (.stt q d a t r k) s = execStt q d a t r k s := rfl
@[simp] theorem exec_movSlicePush {q d a t r k} (s : State) : exec (.movSlicePush q d a t r k) s = execMovSlicePush q d a t r k s := rfl
@[simp] theorem exec_movSlicePop {q a t r k} (s : State) : exec (.movSlicePop q a t r k) s = execMovSlicePop q a t r k s := rfl
@[simp] theorem exec_movSliceToV {q d a t r k} (s : State) : exec (.movSliceToV q d a t r k) s = execMovSliceToV q d a t r k s := rfl
@[simp] theorem exec_movVToSlice {q d a t r k} (s : State) : exec (.movVToSlice q d a t r k) s = execMovVToSlice q d a t r k s := rfl
@[simp] theorem exec_nop {q} (s : State) : exec (.nop q) s = execNop q s := rfl
@[simp] theorem exec_exit {q} (s : State) : exec (.exit q) s = execExit q s := rfl
@[simp] theorem exec_trap {q n} (s : State) : exec (.trap q n) s = execTrap q n s := rfl
@[simp] theorem exec_eret {q} (s : State) : exec (.eret q) s = execEret q s := rfl
@[simp] theorem exec_yield {q} (s : State) : exec (.yield q) s = execYield q s := rfl
@[simp] theorem exec_fence {q o} (s : State) : exec (.fence q o) s = execFence q o s := rfl
@[simp] theorem exec_wbaseImm {q c} (s : State) : exec (.wbaseImm q c) s = execWbaseImm q c s := rfl
@[simp] theorem exec_wbaseReg {q a} (s : State) : exec (.wbaseReg q a) s = execWbaseReg q a s := rfl
@[simp] theorem exec_qpoll {q p a} (s : State) : exec (.qpoll q p a) s = execQpoll q p a s := rfl
@[simp] theorem exec_spawn {q d a b} (s : State) : exec (.spawn q d a b) s = execSpawn q d a b s := rfl
@[simp] theorem exec_join {q} (s : State) : exec (.join q) s = execJoin q s := rfl
@[simp] theorem exec_allocHeap {q d a} (s : State) : exec (.allocHeap q d a) s = execAllocHeap q d a s := rfl
@[simp] theorem exec_allocLog {q d a} (s : State) : exec (.allocLog q d a) s = execAllocLog q d a s := rfl
@[simp] theorem exec_rdecl {q a n} (s : State) : exec (.rdecl q a n) s = execRdecl q a n s := rfl
@[simp] theorem exec_rview {q d n} (s : State) : exec (.rview q d n) s = execRview q d n s := rfl
@[simp] theorem exec_ctlrd {q d sz} (s : State) : exec (.ctlrd q d sz) s = execCtlrd q d sz s := rfl
@[simp] theorem exec_ctlrdFflags {q d} (s : State) : exec (.ctlrdFflags q d) s = execCtlrdFflags q d s := rfl
@[simp] theorem exec_ctlwr {q a sz} (s : State) : exec (.ctlwr q a sz) s = execCtlwr q a sz s := rfl
@[simp] theorem exec_ctlwrFflags {q a} (s : State) : exec (.ctlwrFflags q a) s = execCtlwrFflags q a s := rfl
@[simp] theorem exec_ctlwrLfm {q a} (s : State) : exec (.ctlwrLfm q a) s = execCtlwrLfm q a s := rfl
@[simp] theorem exec_ctlwrRepc {q a} (s : State) : exec (.ctlwrRepc q a) s = execCtlwrRepc q a s := rfl
@[simp] theorem exec_ctlwrTmr {q a} (s : State) : exec (.ctlwrTmr q a) s = execCtlwrTmr q a s := rfl
@[simp] theorem exec_ctlwrAlarm {q a} (s : State) : exec (.ctlwrAlarm q a) s = execCtlwrAlarm q a s := rfl
@[simp] theorem exec_bara {q d n} (s : State) : exec (.bara q d n) s = execBara q d n s := rfl
@[simp] theorem exec_barw {q a n} (s : State) : exec (.barw q a n) s = execBarw q a n s := rfl
@[simp] theorem exec_barm {q a n} (s : State) : exec (.barm q a n) s = execBarm q a n s := rfl
@[simp] theorem exec_bbinit {q a b} (s : State) : exec (.bbinit q a b) s = execBbinit q a b s := rfl
@[simp] theorem exec_bbexp {q a b} (s : State) : exec (.bbexp q a b) s = execBbexp q a b s := rfl
@[simp] theorem exec_bbarr {q a b} (s : State) : exec (.bbarr q a b) s = execBbarr q a b s := rfl
@[simp] theorem exec_bbwait {q a b} (s : State) : exec (.bbwait q a b) s = execBbwait q a b s := rfl
@[simp] theorem exec_ckinit {q a n} (s : State) : exec (.ckinit q a n) s = execCkinit q a n s := rfl
@[simp] theorem exec_ckres {q d c n} (s : State) : exec (.ckres q d c n) s = execCkres q d c n s := rfl
@[simp] theorem exec_ckpub {q a c n} (s : State) : exec (.ckpub q a c n) s = execCkpub q a c n s := rfl
@[simp] theorem exec_ckacq {q d c n} (s : State) : exec (.ckacq q d c n) s = execCkacq q d c n s := rfl
@[simp] theorem exec_ckrel {q a c n} (s : State) : exec (.ckrel q a c n) s = execCkrel q a c n s := rfl
@[simp] theorem exec_wait {q a b} (s : State) : exec (.wait q a b) s = execWait q a b s := rfl
@[simp] theorem exec_abeg {q a} (s : State) : exec (.abeg q a) s = execAbeg q a s := rfl
@[simp] theorem exec_acom {q o} (s : State) : exec (.acom q o) s = execAcom q o s := rfl
@[simp] theorem exec_cpyt {q d a b} (s : State) : exec (.cpyt q d a b) s = execCpyt q d a b s := rfl
@[simp] theorem exec_tsrf {q} (s : State) : exec (.tsrf q) s = execTsrf q s := rfl
@[simp] theorem exec_trig {q p a} (s : State) : exec (.trig q p a) s = execTrig q p a s := rfl
@[simp] theorem exec_ldG {q sz d a b} (s : State) : exec (.ldG q sz d a b) s = execLdG q sz d a b s := rfl
@[simp] theorem exec_stG {q sz d a b} (s : State) : exec (.stG q sz d a b) s = execStG q sz d a b s := rfl
@[simp] theorem exec_mma {q a b c d} (s : State) : exec (.mma q a b c d) s = execMma q a b c d s := rfl
@[simp] theorem exec_mmag {q a b c d} (s : State) : exec (.mmag q a b c d) s = execMmag q a b c d s := rfl
@[simp] theorem exec_mmav {q a b c d} (s : State) : exec (.mmav q a b c d) s = execMmav q a b c d s := rfl
@[simp] theorem exec_msca {q a c d} (s : State) : exec (.msca q a c d) s = execMsca q a c d s := rfl
@[simp] theorem exec_mzero {q c} (s : State) : exec (.mzero q c) s = execMzero q c s := rfl
@[simp] theorem exec_mdrn {q a c d} (s : State) : exec (.mdrn q a c d) s = execMdrn q a c d s := rfl
@[simp] theorem exec_limm {i} (s : State) : exec (.limm i) s = execLimm i s := rfl
@[simp] theorem exec_rep {n m sz g} (s : State) : exec (.rep n m sz g) s = execRep n m sz g s := rfl
@[simp] theorem exec_pageRequest (s : State) : exec .pageRequest s = execPageRequest s := rfl
@[simp] theorem exec_thermalHalt (s : State) : exec .thermalHalt s = execThermalHalt s := rfl
@[simp] theorem exec_tapRebind (s : State) : exec .tapRebind s = execTapRebind s := rfl
@[simp] theorem exec_waitSignalTimeout (s : State) : exec .waitSignalTimeout s = execWaitSignalTimeout s := rfl
@[simp] theorem exec_completionSignal (s : State) : exec .completionSignal s = execCompletionSignal s := rfl
@[simp] theorem exec_launchEnd (s : State) : exec .launchEnd s = execLaunchEnd s := rfl
@[simp] theorem exec_taskCompletionReport (s : State) : exec .taskCompletionReport s = execTaskCompletionReport s := rfl
@[simp] theorem exec_joinComplete (s : State) : exec .joinComplete s = execJoinComplete s := rfl
@[simp] theorem exec_rootViewFold (s : State) : exec .rootViewFold s = execRootViewFold s := rfl
@[simp] theorem exec_deferredAddApply (s : State) : exec .deferredAddApply s = execDeferredAddApply s := rfl
@[simp] theorem exec_trapEntry (s : State) : exec .trapEntry s = execTrapEntry s := rfl
@[simp] theorem exec_timer (s : State) : exec .timer s = execTimer s := rfl
@[simp] theorem exec_alarm (s : State) : exec .alarm s = execAlarm s := rfl
@[simp] theorem exec_grpAbsent (s : State) : exec .grpAbsent s = execGrpAbsent s := rfl

end Sys2Proof.Machine
end

