-- ==== Sys2Proof/Laws/Registers.lean ====
section
/-! SUPPORT. Reading a register after a write to one (03 R46 to R52). -/
namespace Sys2Proof.Machine

/-! ## v registers -/

theorem writeRow_range {c : Cells 32} (m : W32) (row n k : Nat) (f : Nat → W32) :
    Cells.get ((List.range n).foldl (fun c l => if m.getLsbD l then c.set (row * 32 + l) (f l) else c) c) k =
      if row * 32 ≤ k ∧ k < row * 32 + n ∧ m.getLsbD (k - row * 32) then f (k - row * 32) else Cells.get c k := by
  induction n with
  | zero => rw [if_neg (by omega)]; rfl
  | succ n ih =>
    rw [List.range_succ, List.foldl_append, List.foldl_cons, List.foldl_nil]
    by_cases hm : m.getLsbD n = true
    · rw [if_pos hm, Cells.get_set, ih]
      by_cases e : k = row * 32 + n
      · subst e; simp [hm]
      · rw [if_neg e]
        congr 1
        apply propext
        constructor <;> (rintro ⟨h1, h2, h3⟩; exact ⟨h1, by omega, h3⟩)
    · rw [if_neg hm, ih]
      congr 1
      apply propext
      constructor
      · rintro ⟨h1, h2, h3⟩; exact ⟨h1, by omega, h3⟩
      · rintro ⟨h1, h2, h3⟩
        refine ⟨h1, ?_, h3⟩
        by_cases e : k = row * 32 + n
        · subst e; simp [hm] at h3
        · omega

theorem writeRow_get (c : Cells 32) (m : W32) (row r l : Nat) (f : Nat → W32) (hl : l < 32) :
    Cells.get (Cells.writeRow c m row f) (r * 32 + l) = if r = row ∧ m.getLsbD l then f l else Cells.get c (r * 32 + l) := by
  rw [Cells.writeRow, writeRow_range]
  by_cases e : r = row
  · subst e; simp [hl]
  · rw [if_neg (by omega), if_neg (by simp [e])]

/-- Lane `l` of an allotment row after a write of vd: the new value in the written lanes of its row, else as before. -/
theorem rowGet_vSet (g : Group) (m : W32) (d r l : Nat) (f : Nat → W32) (hl : l < 32) :
    (g.vSet m d f).rowGet r l = if r = g.row d ∧ m.getLsbD l then f l else g.rowGet r l := writeRow_get g.v m (g.row d) r l f hl

theorem rowGet_rowSet (g : Group) (m : W32) (row r l : Nat) (f : Nat → W32) (hl : l < 32) :
    (g.rowSet m row f).rowGet r l = if r = row ∧ m.getLsbD l then f l else g.rowGet r l := writeRow_get g.v m row r l f hl

/-- Lane `l` of an allotment row after a write of the pair vd, vd+1. -/
theorem rowGet_vSet2 (g : Group) (m : W32) (d r l : Nat) (f : Nat → W64) (hl : l < 32) :
    (g.vSet2 m d f).rowGet r l = if m.getLsbD l then
      (if r = g.row d then (f l).extractLsb' 0 32 else if r = g.row d + 1 then (f l).extractLsb' 32 32 else g.rowGet r l) else g.rowGet r l := by
  have h1 := rowGet_vSet (g.vSet m d (fun l => (f l).extractLsb' 0 32)) m (d + 1) r l (fun l => (f l).extractLsb' 32 32) hl
  rw [rowGet_vSet g m d r l _ hl] at h1
  refine Eq.trans h1 ?_
  have e : (g.vSet m d (fun l => (f l).extractLsb' 0 32)).row (d + 1) = g.row d + 1 := rfl
  rw [e]
  by_cases hm : m.getLsbD l = true
  · by_cases e1 : r = g.row d
    · subst e1; simp [hm]
    · by_cases e2 : r = g.row d + 1 <;> simp [hm, e1, e2]
  · simp [hm]

/-- Lane `l` of vn after a write of vd. -/
theorem vGet_vSet (g : Group) (m : W32) (d n l : Nat) (f : Nat → W32) (hl : l < 32) :
    (g.vSet m d f).vGet n l = if n = d ∧ m.getLsbD l then f l else g.vGet n l := by
  refine Eq.trans (rowGet_vSet g m d (g.row n) l f hl) (if_congr (and_congr_left' ?_) rfl rfl)
  simp [Group.row]

/-! ## Slices and several registers -/

theorem setMany_get (pos : Nat → Nat) (m : W32) (f : Nat → W32) (hp : ∀ a b, pos a = pos b → a = b) (n : Nat) (c : Cells 32) (k : Nat) :
    (∀ l, l < n → m.getLsbD l = true → k = pos l →
      Cells.get ((List.range n).foldl (fun c l => if m.getLsbD l then c.set (pos l) (f l) else c) c) k = f l) ∧
    ((∀ l, l < n → m.getLsbD l = true → k ≠ pos l) →
      Cells.get ((List.range n).foldl (fun c l => if m.getLsbD l then c.set (pos l) (f l) else c) c) k = Cells.get c k) := by
  induction n with
  | zero => exact ⟨fun l h => absurd h (by omega), fun _ => rfl⟩
  | succ n ih =>
    obtain ⟨h1, h2⟩ := ih
    rw [List.range_succ, List.foldl_append, List.foldl_cons, List.foldl_nil]
    cases hm : m.getLsbD n with
    | false =>
      rw [if_neg (by simp)]
      refine ⟨fun l hl hml e => h1 l ?_ hml e, fun h => h2 fun l hl => h l (by omega)⟩
      by_cases e2 : l = n
      · subst e2; rw [hm] at hml; cases hml
      · omega
    | true =>
      rw [if_pos rfl, Cells.get_set]
      refine ⟨fun l hl hml e => ?_, fun h => ?_⟩
      · by_cases e2 : l = n
        · subst e2; rw [if_pos e]
        · rw [if_neg (fun e3 => e2 (hp _ _ (e.symm.trans e3)))]; exact h1 l (by omega) hml e
      · rw [if_neg (h n (by omega) hm)]; exact h2 fun l hl => h l (by omega)

/-- Lane `l` of an allotment row after a write of a slice. -/
theorem rowGet_sliceSet (g : Group) (m : W32) (tile : Nat) (col : Bool) (x r l : Nat) (f : Nat → W32) (hl : l < 32) (hx : x < 32) :
    (g.sliceSet m tile col x f).rowGet r l =
      if col then (if l = x ∧ g.tileBase + 32 * tile ≤ r ∧ m.getLsbD (r - (g.tileBase + 32 * tile)) then f (r - (g.tileBase + 32 * tile)) else g.rowGet r l)
      else (if r = g.tileBase + 32 * tile + x ∧ m.getLsbD l then f l else g.rowGet r l) := by
  have hv : (g.sliceSet m tile col x f).v = (List.range 32).foldl (fun c l =>
      if m.getLsbD l then c.set ((g.sliceAt tile col x l).1 * 32 + (g.sliceAt tile col x l).2) (f l) else c) g.v := rfl
  have hg : ∀ g : Group, g.rowGet r l = Cells.get g.v (r * 32 + l) := fun _ => rfl
  rw [hg, hg, hv]
  clear hv hg
  have key := setMany_get (fun l => (g.sliceAt tile col x l).1 * 32 + (g.sliceAt tile col x l).2) m f (by
    intro a b h; cases col <;> simp [Group.sliceAt] at h <;> omega) 32 g.v (r * 32 + l)
  generalize (List.range 32).foldl _ g.v = c at key ⊢
  obtain ⟨h1, h2⟩ := key
  cases col with
  | false =>
    simp only [Group.sliceAt, Bool.false_eq_true, if_false] at h1 h2 ⊢
    by_cases c : r = g.tileBase + 32 * tile + x ∧ m.getLsbD l = true
    · rw [if_pos c]; exact h1 l hl c.2 (by rw [c.1])
    · rw [if_neg c]; refine h2 fun k hk hm e => c ?_
      have : l = k := by omega
      subst this; exact ⟨by omega, hm⟩
  | true =>
    simp only [Group.sliceAt, if_true] at h1 h2 ⊢
    by_cases c : l = x ∧ g.tileBase + 32 * tile ≤ r ∧ m.getLsbD (r - (g.tileBase + 32 * tile)) = true
    · rw [if_pos c]
      have hlt : r - (g.tileBase + 32 * tile) < 32 := by
        rcases Nat.lt_or_ge (r - (g.tileBase + 32 * tile)) 32 with h | h
        · exact h
        · have := BitVec.getLsbD_of_ge m _ h; rw [this] at c; exact absurd c.2.2 (by simp)
      exact h1 _ hlt c.2.2 (by rw [c.1]; omega)
    · rw [if_neg c]; refine h2 fun k hk hm e => c ?_
      have e2 : r - (g.tileBase + 32 * tile) = k := by omega
      rw [e2]; exact ⟨by omega, by omega, hm⟩

/-- Lane `l` of an allotment row after a write of four registers. -/
theorem rowGet_vSetN4 (g : Group) (m : W32) (d r l : Nat) (f : Nat → Nat) (hl : l < 32) :
    (g.vSetN m d f 4).rowGet r l = if m.getLsbD l ∧ g.row d ≤ r ∧ r < g.row d + 4
      then BitVec.ofNat 32 (f l / 2 ^ (32 * (r - g.row d))) else g.rowGet r l := by
  simp only [Group.vSetN, rowGet_vSet _ _ _ _ _ _ hl]
  have e : ∀ (g : Group) (m : W32) (n k : Nat) (f : Nat → W32), (g.vSet m n f).row k = g.row k := fun _ _ _ _ _ => rfl
  have e2 : ∀ k, g.row (d + k) = g.row d + k := fun k => by simp [Group.row]; omega
  simp only [e]
  rw [show d + 1 + 1 + 1 = d + 3 from rfl, show d + 1 + 1 = d + 2 from rfl, e2, e2, e2]
  cases hm : m.getLsbD l with
  | false => simp
  | true =>
    by_cases h0 : r = g.row d
    · subst h0; simp
    · by_cases h1 : r = g.row d + 1
      · subst h1; simp
      · by_cases h2 : r = g.row d + 2
        · subst h2; simp [Nat.div_div_eq_div_mul]
        · by_cases h3 : r = g.row d + 3
          · subst h3; simp [Nat.div_div_eq_div_mul]
          · have : ¬ (g.row d ≤ r ∧ r < g.row d + 4) := by omega
            simp [h0, h1, h2, h3, this]

/-- A write of several registers changes v only. -/
theorem vSetN_only (g : Group) (m : W32) (n : Nat) (f : Nat → Nat) (k : Nat) : ∃ c, g.vSetN m n f k = { g with v := c } := by
  induction k generalizing g n f with
  | zero => exact ⟨g.v, rfl⟩
  | succ k ih =>
    obtain ⟨c, h⟩ := ih (g.vSet m n (fun l => BitVec.ofNat 32 (f l))) (n + 1) (fun l => f l / 2 ^ 32)
    exact ⟨c, h⟩

/-! ## g registers and predicates -/

@[simp] theorem gGet_zero (g : Group) : g.gGet 0 = 0#64 := rfl

/-- gn after a write of gd; g0 reads zero and discards writes. -/
theorem gGet_gSet (g : Group) (d n : Nat) (x : W64) : (g.gSet d x).gGet n = if n = d ∧ n ≠ 0 then x else g.gGet n := by
  by_cases n0 : n = 0
  · subst n0; simp
  · by_cases d0 : d = 0
    · subst d0; simp [Group.gSet, Group.gGet, n0]
    · simp only [Group.gSet, Group.gGet, if_neg n0, if_neg d0, Cells.get_set]
      by_cases e : n = d <;> simp [e, d0]

/-- Lane `l` of pn after a write of pd; p0 reads true and discards writes. -/
theorem pGet_pSet (g : Group) (m : W32) (d n l : Nat) (x : W32) (hn : n < 4) (hd : d < 4) (hl : l < 32) :
    ((g.pSet m d x).pGet n).getLsbD l = if n = d ∧ n ≠ 0 ∧ m.getLsbD l then x.getLsbD l else (g.pGet n).getLsbD l := by
  rw [BitVec.getLsbD_eq_getElem hl, BitVec.getLsbD_eq_getElem hl, BitVec.getLsbD_eq_getElem hl, BitVec.getLsbD_eq_getElem hl]
  cases hm : m[l] <;>
    (interval_cases n <;> interval_cases d <;> simp [Group.pSet, Group.pGet, hm])

/-- gpn after a write of gpd; gp0 is true and discards writes. -/
theorem gpGet_gpSet (g : Group) (d n : Nat) (x : Bool) (hn : n < 4) (hd : d < 4) :
    (g.gpSet d x).gpGet n = if n = d ∧ n ≠ 0 then x else g.gpGet n := by
  interval_cases n <;> interval_cases d <;> simp [Group.gpSet, Group.gpGet]

/-! ## Masks of lanes -/

theorem maskOf_range (f : Nat → Bool) (n : Nat) :
    (List.range n).foldl (fun x l => if f l then x + 2 ^ l else x) 0 < 2 ^ n ∧
    ∀ l, ((List.range n).foldl (fun x l => if f l then x + 2 ^ l else x) 0).testBit l = (decide (l < n) && f l) := by
  induction n with
  | zero => simp
  | succ n ih =>
    obtain ⟨h1, h2⟩ := ih
    rw [List.range_succ, List.foldl_append, List.foldl_cons, List.foldl_nil]
    by_cases hf : f n = true
    · rw [if_pos hf]
      refine ⟨by rw [Nat.pow_succ]; omega, fun l => ?_⟩
      rw [Nat.add_comm]
      by_cases e : l = n
      · subst e; rw [Nat.testBit_two_pow_add_eq, h2]; simp [hf]
      · by_cases lt : l < n
        · rw [Nat.testBit_two_pow_add_gt lt, h2]; simp [lt, Nat.lt_succ_of_lt lt]
        · rw [Nat.testBit_lt_two_pow]
          · simp; omega
          · calc 2 ^ n + _ < 2 ^ n + 2 ^ n := by omega
              _ = 2 ^ (n + 1) := by rw [Nat.pow_succ]; omega
              _ ≤ 2 ^ l := Nat.pow_le_pow_right (by decide) (by omega)
    · rw [if_neg hf]
      refine ⟨by rw [Nat.pow_succ]; omega, fun l => ?_⟩
      rw [h2]
      by_cases e : l = n
      · subst e; simp [hf]
      · have : (l < n) = (l < n + 1) := by apply propext; omega
        simp [this]

/-- Lane `l` of the mask of a test. -/
theorem maskOf_getLsbD (f : Nat → Bool) (l : Nat) (hl : l < 32) : (maskOf f).getLsbD l = f l := by
  rw [maskOf, BitVec.getLsbD_ofNat, (maskOf_range f 32).2]
  simp [hl]

theorem mem_lanesOfMask (m : W32) (l : Nat) : l ∈ lanesOfMask m ↔ l < 32 ∧ m.getLsbD l = true := by
  simp [lanesOfMask]

end Sys2Proof.Machine
end

