-- ==== Sys2Proof/Laws/Forms.lean ====
section
/-! SUPPORT. What the shared forms of the register instructions do. -/
namespace Sys2Proof.Machine
open Host

/-! ## Splits -/

theorem find_map_put (l : List Split) (p : Split) (e : Nat) :
    (l.map (fun x => if x.entry = p.entry then p else x)).find? (fun x => x.entry == e) =
      if e = p.entry then (l.find? (fun x => x.entry == e)).map (fun _ => p) else l.find? (fun x => x.entry == e) := by
  induction l with
  | nil => simp
  | cons x l ih =>
    rw [List.map_cons, List.find?_cons, List.find?_cons, ih]
    by_cases h : x.entry = p.entry
    · by_cases he : e = p.entry
      · subst he; simp [h]
      · have h2 : (p.entry == e) = false := beq_false_of_ne (Ne.symm he)
        simp [h, he, h2]
    · by_cases he : e = p.entry
      · subst he
        have h2 : (x.entry == p.entry) = false := beq_false_of_ne h
        simp [h, h2]
      · simp [h, he]

/-- The split of an entry after a split of the table was replaced. -/
theorem splitAt_putSplit (g : Group) (p : Split) (e : Nat) :
    (g.putSplit p).splitAt e = if e = p.entry then (g.splitAt e).map (fun _ => p) else g.splitAt e := find_map_put g.splits p e

theorem splitAt_entry {g : Group} {e : Nat} {p : Split} (h : g.splitAt e = some p) : p.entry = e := by
  have := List.find?_some h
  simpa using this

theorem sp_of_splitAt {s : State} {p : Split} (h : s.cur.splitAt s.split = some p) : s.sp = p := by
  rw [State.sp, h]; rfl

theorem sp_entry (s : State) : s.sp.entry = s.split := by
  unfold State.sp
  cases h : s.cur.splitAt s.split with
  | none => rfl
  | some p => exact splitAt_entry h

/-! ## Completion -/

/-- A group that differs from the one in focus in registers of `Writes` only. -/
def RegistersOf (s : State) (g : Group) : Prop :=
  g = { s.cur with v := g.v, g := g.g, p1 := g.p1, p2 := g.p2, p3 := g.p3, gp1 := g.gp1, gp2 := g.gp2, gp3 := g.gp3, fflags := g.fflags }

/-- What the writes say, of a group's registers. -/
def Writes.HoldIn (w : Writes) (s : State) (g : Group) : Prop :=
  (∀ r l, l < 32 → g.rowGet r l = (w.v r l).getD (s.cur.rowGet r l)) ∧
  (∀ n, g.gGet n = (w.g n).getD (s.cur.gGet n)) ∧
  (∀ n l, n < 4 → l < 32 → (g.pGet n).getLsbD l = (w.p n l).getD ((s.cur.pGet n).getLsbD l)) ∧
  (∀ n, n < 4 → g.gpGet n = (w.gp n).getD (s.cur.gpGet n)) ∧
  g.fflags = s.cur.fflags ||| w.flags

theorem sp_setCur {s : State} {g : Group} (h : RegistersOf s g) : (s.setCur g).sp = s.sp := by
  unfold RegistersOf at h; unfold State.sp Group.splitAt; rw [State.setCur_cur, h]; rfl

/-- Moving past the instruction changes the split in focus and what R62 consumes, nothing else. -/
theorem finish_advanced {s : State} {g : Group} (h : RegistersOf s g) : s.Advanced (s.setCur g).finish := by
  have hsp := sp_setCur h
  have hsplits : g.splits = s.cur.splits := by unfold RegistersOf at h; rw [h]
  have hat : ∀ e, g.splitAt e = s.cur.splitAt e := fun e => by unfold Group.splitAt; rw [hsplits]
  have key : ∀ q : Split, q.entry = s.split → ∀ e, ((s.setCur g).leaveAt q).cur.splitAt e =
      if e = s.split then (s.cur.splitAt e).map (fun _ => { q with st := .ready, fresh := false }) else s.cur.splitAt e := by
    intro q hq e
    have := splitAt_putSplit g { q with st := .ready, fresh := false } e
    rw [hat e] at this
    rw [← hq]
    exact this
  have he := sp_entry s
  unfold State.finish
  simp only [hsp, State.setCur_limm]
  constructor
  · intro e ne
    rw [key _ (by cases s.sp.rep <;> simp only <;> (try split) <;> simpa using he) e, if_neg ne]
  · intro p hp
    have hs := sp_of_splitAt hp
    rw [hs] at he ⊢
    rw [key _ (by cases p.rep <;> simp only <;> (try split) <;> simpa using he), if_pos rfl, hp]
    refine ⟨_, rfl, ?_⟩
    cases hr : p.rep with
    | none => simp; rfl
    | some r => by_cases hd : r.done + 1 < r.total <;> simp [hd] <;> omega

/-- An instruction that writes registers and moves on completes with those writes. -/
theorem completes_finish {s : State} {g : Group} {w : Writes} {i : Instr} (h : RegistersOf s g) (hw : w.HoldIn s g)
    (he : exec i s = .next (s.setCur g).finish) : Completes i s w := by
  refine ⟨_, he, ?_, ?_, finish_advanced h⟩
  · exact hw
  · have hsp := sp_setCur h
    refine ⟨rfl, ?_, ?_, fun _ => rfl⟩
    · unfold RegistersOf at h
      show ({ (g.putSplit _) with repc := _ } : Group) = _
      rw [Group.putSplit, h]; rfl
    · show (if (s.setCur g).sp.fresh then repcDone g.repc else g.repc) = _
      unfold RegistersOf at h
      rw [hsp, h]

/-- Without writes. -/
theorem completes_skip {s : State} {i : Instr} (he : exec i s = .next s.finish) : Completes i s {} :=
  completes_finish (g := s.cur) rfl ⟨by simp, by simp, by simp, by simp, by simp⟩ he

/-! ## The forms -/

theorem laneForm_run {i : Instr} {f : W32 → State → State} {s : State} (h : Runs i s) :
    laneForm i f s = .next (f (s.active i.guardOf) s) := by
  unfold laneForm; rw [h.1, h.2]; rfl

theorem laneFormIf_run {b : Bool} {i : Instr} {f : W32 → State → State} {s : State} (h : Runs i s) (hb : b = false) :
    laneFormIf b i f s = .next (f (s.active i.guardOf) s) := by
  unfold laneFormIf; rw [hb]; exact laneForm_run h

theorem groupForm_run {i : Instr} {f : State → State} {s : State} (h : Runs i s) :
    groupForm i f s = .next (if s.gpGuard i.guardOf then f s else s.finish) := by
  unfold groupForm; rw [h.1]
  cases s.gpGuard i.guardOf <;> rfl

/-! ## Writes of the forms -/

theorem holds_toV (s : State) (d : BitVec 7) (m : W32) (f : Nat → W32) : (toV s d m f).HoldIn s (s.cur.vSet m d.toNat f) := by
  refine ⟨fun r l hl => ?_, by simp [toV]; intro n; rfl, by simp [toV]; intros; rfl, by simp [toV]; intros; rfl, by simp [toV]⟩
  rw [rowGet_vSet _ _ _ _ _ _ hl]
  unfold toV
  by_cases h : r = s.cur.row d.toNat ∧ m.getLsbD l = true
  · rw [if_pos h]; simp only [if_pos h]; rfl
  · rw [if_neg h]; simp only [if_neg h]; rfl

theorem holds_toPair (s : State) (d : BitVec 7) (m : W32) (f : Nat → W64) : (toPair s d m f).HoldIn s (s.cur.vSet2 m d.toNat f) := by
  refine ⟨fun r l hl => ?_, by simp [toPair]; intro n; rfl, by simp [toPair]; intros; rfl, by simp [toPair]; intros; rfl, by simp [toPair]⟩
  rw [rowGet_vSet2 _ _ _ _ _ _ hl]
  unfold toPair
  by_cases hm : m.getLsbD l = true
  · by_cases h1 : r = s.cur.row d.toNat
    · simp [hm, h1]
    · by_cases h2 : r = s.cur.row d.toNat + 1 <;> simp [hm, h1, h2]
  · simp [hm]

theorem holds_toQuad (s : State) (d : BitVec 7) (m : W32) (f : Nat → Nat) : (toQuad s d m f).HoldIn s (s.cur.vSetN m d.toNat f 4) := by
  have hr := fun r l hl => rowGet_vSetN4 s.cur m d.toNat r l f hl
  obtain ⟨c, hc⟩ := vSetN_only s.cur m d.toNat f 4
  rw [hc] at hr ⊢
  refine ⟨fun r l hl => ?_, by simp [toQuad]; intro n; rfl, by simp [toQuad]; intros; rfl, by simp [toQuad]; intros; rfl, by simp [toQuad]⟩
  rw [hr r l hl]
  unfold toQuad
  by_cases h : m.getLsbD l = true ∧ s.cur.row d.toNat ≤ r ∧ r < s.cur.row d.toNat + 4
  · rw [if_pos h]; simp only [if_pos h]; rfl
  · rw [if_neg h]; simp only [if_neg h]; rfl

theorem holds_toSlice (s : State) (tile : Nat) (col : Bool) (x : Nat) (m : W32) (f : Nat → W32) (hx : x < 32) :
    (toSlice s tile col x m f).HoldIn s (s.cur.sliceSet m tile col x f) := by
  refine ⟨fun r l hl => ?_, by simp [toSlice]; intro n; rfl, by simp [toSlice]; intros; rfl, by simp [toSlice]; intros; rfl, by simp [toSlice]⟩
  rw [rowGet_sliceSet _ _ _ _ _ _ _ _ hl hx]
  unfold toSlice
  cases col with
  | false =>
    simp only [Bool.false_eq_true, if_false]
    split <;> rfl
  | true =>
    simp only [if_true]
    split <;> rfl
theorem holds_toG (s : State) (d : BitVec 7) (x : W64) : (toG d x).HoldIn s (s.cur.gSet d.toNat x) := by
  refine ⟨by simp [toG]; intros; rfl, fun n => ?_, by simp [toG]; intros; rfl, by simp [toG]; intros; rfl, by simp [toG]⟩
  rw [gGet_gSet]
  unfold toG
  by_cases h : n = d.toNat ∧ n ≠ 0
  · rw [if_pos h]; simp only [if_pos h]; rfl
  · rw [if_neg h]; simp only [if_neg h]; rfl

theorem holds_toP (s : State) (d : Nat) (m : W32) (f : Nat → Bool) (hd : d < 4) : (toP d m f).HoldIn s (s.cur.pSet m d (maskOf f)) := by
  refine ⟨by simp [toP]; intros; rfl, by simp [toP]; intros; rfl, fun n l hn hl => ?_, by simp [toP]; intros; rfl, by simp [toP]⟩
  rw [pGet_pSet _ _ _ _ _ _ hn hd hl, maskOf_getLsbD f l hl]
  unfold toP
  by_cases h : n = d ∧ n ≠ 0 ∧ m.getLsbD l = true
  · rw [if_pos h]; simp only [if_pos h]; rfl
  · rw [if_neg h]; simp only [if_neg h]; rfl

theorem holds_toGp (s : State) (d : Nat) (x : Bool) (hd : d < 4) : (toGp d x).HoldIn s (s.cur.gpSet d x) := by
  refine ⟨by simp [toGp]; intros; rfl, by simp [toGp]; intros; rfl, by simp [toGp]; intros; rfl, fun n hn => ?_, by simp [toGp]⟩
  rw [gpGet_gpSet _ _ _ _ hn hd]
  unfold toGp
  by_cases h : n = d ∧ n ≠ 0
  · rw [if_pos h]; simp only [if_pos h]; rfl
  · rw [if_neg h]; simp only [if_neg h]; rfl

/-- Flags are ORed on top of writes that leave ctl.fflags. -/
theorem holds_withFlags {s : State} {g : Group} {w : Writes} (f : Nat) (h : w.HoldIn s g) (h0 : w.flags = 0#64) :
    (w.withFlags f).HoldIn s (g.orFlags f) := by
  obtain ⟨h1, h2, h3, h4, h5⟩ := h
  refine ⟨h1, h2, h3, h4, ?_⟩
  show g.fflags ||| _ = _
  rw [h5, h0]; simp [Writes.withFlags]

/-- A form that runs under its guard. -/
theorem completes_guarded {i : Instr} {s : State} {f : State → State} {g : Group} {w : Writes} (h : Runs i s)
    (he : exec i s = groupForm i f s) (hg : RegistersOf s g) (hw : w.HoldIn s g) (hf : f s = (s.setCur g).finish) :
    Completes i s (guarded s i.guardOf w) := by
  rw [groupForm_run h] at he
  unfold guarded
  cases hq : s.gpGuard i.guardOf with
  | false => rw [hq] at he; exact completes_skip he
  | true => rw [hq] at he; exact completes_finish hg hw (he.trans (congrArg Outcome.next hf))

/-- A lane form that writes registers. -/
theorem completes_lane {i : Instr} {s : State} {f : W32 → State → State} {g : Group} {w : Writes} (h : Runs i s)
    (he : exec i s = laneForm i f s) (hg : RegistersOf s g) (hw : w.HoldIn s g) (hf : f (s.active i.guardOf) s = (s.setCur g).finish) :
    Completes i s w :=
  completes_finish hg hw (by rw [he, laneForm_run h, hf])

/-! ## One lemma for each way to write -/

theorem toV_congr {s : State} {d : BitVec 7} {m : W32} {f f' : Nat → W32} (h : ∀ l, f l = f' l) : toV s d m f = toV s d m f' := by
  rw [funext h]
theorem toPair_congr {s : State} {d : BitVec 7} {m : W32} {f f' : Nat → W64} (h : ∀ l, f l = f' l) : toPair s d m f = toPair s d m f' := by
  rw [funext h]
theorem toP_congr {d : Nat} {m : W32} {f f' : Nat → Bool} (h : ∀ l, f l = f' l) : toP d m f = toP d m f' := by
  rw [funext h]

theorem completes_laneWrite {i : Instr} {s : State} {d : BitVec 7} {f : State → Nat → W32} {f' : Nat → W32} (h : Runs i s)
    (he : exec i s = laneForm i (fun m s => laneWrite d (f s) m s) s) (hf : ∀ l, f s l = f' l) : Completes i s (toV s d (s.active i.guardOf) f') := by
  rw [← toV_congr hf]; exact completes_finish (by exact rfl) (holds_toV s _ _ _) (he.trans (laneForm_run h))

theorem completes_laneWrite2 {i : Instr} {s : State} {d : BitVec 7} {f : State → Nat → W64} {f' : Nat → W64} (h : Runs i s)
    (he : exec i s = laneForm i (fun m s => laneWrite2 d (f s) m s) s) (hf : ∀ l, f s l = f' l) : Completes i s (toPair s d (s.active i.guardOf) f') := by
  rw [← toPair_congr hf]; exact completes_finish (by exact rfl) (holds_toPair s _ _ _) (he.trans (laneForm_run h))

theorem completes_groupWrite {i : Instr} {s : State} {d : BitVec 7} {x : State → W64} {x' : W64} (h : Runs i s)
    (he : exec i s = groupForm i (fun s => groupWrite d (x s) s) s) (hx : x s = x') : Completes i s (guarded s i.guardOf (toG d x')) := by
  rw [← hx]; exact completes_guarded h he (by exact rfl) (holds_toG s _ _) rfl

theorem completes_predWrite {i : Instr} {s : State} {d : Nat} {f : State → Nat → Bool} {f' : Nat → Bool} (h : Runs i s)
    (he : exec i s = laneForm i (fun m s => predWrite d (f s) m s) s) (hd : d < 4) (hf : ∀ l, f s l = f' l) : Completes i s (toP d (s.active i.guardOf) f') := by
  rw [← toP_congr hf]; exact completes_finish (by exact rfl) (holds_toP s _ _ _ hd) (he.trans (laneForm_run h))

theorem completes_gpredWrite {i : Instr} {s : State} {d : Nat} {x : State → Bool} {x' : Bool} (h : Runs i s)
    (he : exec i s = groupForm i (fun s => gpredWrite d (x s) s) s) (hd : d < 4) (hx : x s = x') :
    Completes i s (guarded s i.guardOf (toGp d x')) := by
  rw [← hx]; exact completes_guarded h he (by exact rfl) (holds_toGp s _ _ hd) rfl

theorem completes_laneFloat {i : Instr} {s : State} {d : BitVec 7} {f : State → Nat → FRes} {f' : Nat → FRes} (h : Runs i s)
    (he : exec i s = laneForm i (fun m s => laneFloat d (f s) m s) s) (hf : ∀ l, f s l = f' l) :
    Completes i s (toFloat s d (s.active i.guardOf) f') := by
  rw [← funext hf]; exact completes_finish (by exact rfl) (holds_withFlags _ (holds_toV s _ _ _) rfl) (he.trans (laneForm_run h))

theorem completes_laneFloat2 {i : Instr} {s : State} {d : BitVec 7} {f : State → Nat → FRes} {f' : Nat → FRes} (h : Runs i s)
    (he : exec i s = laneForm i (fun m s => laneFloat2 d (f s) m s) s) (hf : ∀ l, f s l = f' l) :
    Completes i s (toFloat2 s d (s.active i.guardOf) f') := by
  rw [← funext hf]; exact completes_finish (by exact rfl) (holds_withFlags _ (holds_toPair s _ _ _) rfl) (he.trans (laneForm_run h))


end Sys2Proof.Machine
end

