-- ==== Sys2Proof/Laws/Effects.lean ====
section
/-! SUPPORT. What an instruction that moves on, jumps or waits leaves, for an effect on more than registers. -/
namespace Sys2Proof.Machine
open Host

/-! ## Moving on -/

theorem sp_of_splits {s u : State} (hs : u.split = s.split) (hp : u.cur.splits = s.cur.splits) : u.sp = s.sp := by
  unfold State.sp Group.splitAt; rw [hs, hp]

theorem splitAt_of_splits {g h : Group} (hp : g.splits = h.splits) (e : Nat) : g.splitAt e = h.splitAt e := by
  unfold Group.splitAt; rw [hp]

/-- Where a split goes, every other split stays. -/
theorem splitAt_leaveAt {u : State} {q : Split} (hq : q.entry = u.split) (e : Nat) :
    (u.leaveAt q).cur.splitAt e =
      if e = u.split then (u.cur.splitAt e).map (fun _ => { q with st := .ready, fresh := false }) else u.cur.splitAt e := by
  have := splitAt_putSplit u.cur { q with st := .ready, fresh := false } e
  rw [← hq]
  exact this

/-- An effect on a state whose splits are those before it, moved past the instruction. -/
theorem movedFrom_finish {s u : State} (ht : u.tick = s.tick) (hl : u.limm = s.limm) (hs : u.split = s.split)
    (hp : u.cur.splits = s.cur.splits) : s.MovedFrom u u.finish := by
  have hsp := sp_of_splits hs hp
  refine ⟨?_, ?_, ?_, ?_, ?_⟩
  · show ({ u with cur := _, tick := u.tick + 1, limm := none } : State) = _
    rw [ht]; rfl
  · show ({ (u.cur.putSplit _) with repc := _ } : Group) = _
    rfl
  · show (if u.sp.fresh then repcDone u.cur.repc else u.cur.repc) = _
    rw [hsp]
  · intro e he
    have hq := sp_entry u
    unfold State.finish
    rw [splitAt_leaveAt (by cases h : u.sp.rep <;> simp only <;> (try split) <;> simpa using hq) e, hs, if_neg he]
    exact splitAt_of_splits hp e
  · intro p h
    have hq := sp_entry u
    have h2 := sp_of_splitAt h
    unfold State.finish
    rw [splitAt_leaveAt (by cases h : u.sp.rep <;> simp only <;> (try split) <;> simpa using hq) s.split, if_pos hs.symm, splitAt_of_splits hp, h, hsp, h2, hl]
    refine ⟨_, rfl, ?_⟩
    cases hr : p.rep with
    | none => simp
    | some r => by_cases hd : r.done + 1 < r.total <;> simp [hd] <;> omega

theorem effects_finish {s u : State} {i : Instr} (he : exec i s = .next u.finish) (ht : u.tick = s.tick) (hl : u.limm = s.limm)
    (hs : u.split = s.split) (hp : u.cur.splits = s.cur.splits) : Effects i s u := ⟨_, he, movedFrom_finish ht hl hs hp⟩

/-- A group-wide form with an effect under a true guard. -/
theorem effects_group {s u : State} {i : Instr} {f : State → State} (h : Runs i s) (he : exec i s = groupForm i f s)
    (hg : s.gpGuard i.guardOf = true) (hf : f s = u.finish) (ht : u.tick = s.tick) (hl : u.limm = s.limm)
    (hs : u.split = s.split) (hp : u.cur.splits = s.cur.splits) : Effects i s u :=
  effects_finish (by rw [he, groupForm_run h, hg]; exact congrArg Outcome.next hf) ht hl hs hp

/-- A group-wide form under a false guard. -/
theorem completes_group_skip {s : State} {i : Instr} {f : State → State} (h : Runs i s) (he : exec i s = groupForm i f s)
    (hg : s.gpGuard i.guardOf = false) : Completes i s {} :=
  completes_skip (by rw [he, groupForm_run h, hg]; rfl)

/-! ## Convergent instructions -/

theorem convergentForm_run {i : Instr} {f : State → State} {s : State} (h : Runs i s) (hc : s.Converged) :
    convergentForm i f s = .next (if s.gpGuard i.guardOf then f s.mergeParked else s.mergeParked.finish) := by
  unfold convergentForm
  rw [h.1, hc.1, hc.2]
  have : s.mergeParked.gpGuard i.guardOf = s.gpGuard i.guardOf := rfl
  rw [this]
  cases s.gpGuard i.guardOf <;> rfl

theorem converges_finish {s u : State} {i : Instr} {f : State → State} (h : Runs i s) (hc : s.Converged)
    (he : exec i s = convergentForm i f s) (hg : s.gpGuard i.guardOf = true) (hf : f s.mergeParked = u.finish) (ht : u.tick = s.tick)
    (hl : u.limm = s.limm) (hs : u.split = s.mergeParked.split) (hp : u.cur.splits = s.mergeParked.cur.splits) : Converges i s u :=
  ⟨u.finish, by rw [he, convergentForm_run h hc, hg]; exact congrArg Outcome.next hf, movedFrom_finish ht hl hs hp⟩

/-! ## Jumping and waiting -/

theorem jumped {s u : State} {target : W64} (ht : u.tick = s.tick) (hs : u.split = s.split) (hp : u.cur.splits = s.cur.splits) :
    s.Jumped u (u.jump target) target := by
  have hsp := sp_of_splits hs hp
  have hq := sp_entry u
  refine ⟨?_, rfl, ?_, ?_, ?_⟩
  · show ({ u with cur := _, tick := u.tick + 1, limm := none } : State) = _
    rw [ht]; rfl
  · show (if u.sp.fresh then repcDone u.cur.repc else u.cur.repc) = _
    rw [hsp]
  · intro e he
    unfold State.jump
    rw [splitAt_leaveAt (by exact hq) e, hs, if_neg he]
    exact splitAt_of_splits hp e
  · intro p h
    unfold State.jump
    rw [splitAt_leaveAt (by exact hq) s.split, if_pos hs.symm, splitAt_of_splits hp, h, hsp, sp_of_splitAt h]
    rfl

theorem branches_group {s u : State} {i : Instr} {f : State → State} {target : W64} (h : Runs i s) (he : exec i s = groupForm i f s)
    (hg : s.gpGuard i.guardOf = true) (hf : f s = u.jump target) (ht : u.tick = s.tick) (hs : u.split = s.split)
    (hp : u.cur.splits = s.cur.splits) : Branches i s u target :=
  ⟨_, by rw [he, groupForm_run h, hg]; exact congrArg Outcome.next hf, jumped ht hs hp⟩

theorem splitAt_setSplit {u : State} {q : Split} (hq : q.entry = u.split) (e : Nat) :
    (u.setSplit q).cur.splitAt e = if e = u.split then (u.cur.splitAt e).map (fun _ => q) else u.cur.splitAt e := by
  have := splitAt_putSplit u.cur q e
  rw [hq] at this
  exact this

/-- What blocking does. -/
theorem waiting_block {s u : State} {w : Wait} (hs : u.split = s.split) : s.Waiting u (u.block w) w := by
  have hq := sp_entry u
  refine ⟨rfl, rfl, ?_, ?_⟩
  · intro e he
    exact (splitAt_setSplit (by exact hq) e).trans (by rw [hs, if_neg he])
  · intro p h
    have hp : u.sp = p := sp_of_splitAt (by rw [hs]; exact h)
    refine ⟨(match u.sp.st with | .blocked w' t => if w' = w ∨ (w'.onCores ∧ w.onCores) then t else u.time | _ => u.time),
      (splitAt_setSplit (by exact hq) s.split).trans ?_⟩
    rw [if_pos hs.symm, h, hp]
    rfl

theorem waits_group {s u : State} {i : Instr} {f : State → State} {w : Wait} (h : Runs i s) (he : exec i s = groupForm i f s)
    (hg : s.gpGuard i.guardOf = true) (hf : f s = u.block w) (hs : u.split = s.split) : Waits i s u w :=
  ⟨_, by rw [he, groupForm_run h, hg]; exact congrArg Outcome.next hf, waiting_block hs⟩

end Sys2Proof.Machine
end

