-- ==== Sys2Proof/Laws/Memory.lean ====
section
/-! SUPPORT. Memory: its canonical form, and what a read after a store gives. -/
namespace Sys2Proof.Machine
open Host

/-! ## The canonical form -/

theorem reset_mem_wf : Memory.wf State.reset.mem = true := rfl

theorem store_wf {s : State} (loc : Nat) (bs : List Byte) (h : Memory.wf s.mem = true) : Memory.wf (s.store loc bs).mem = true :=
  memPut_wf loc bs h

theorem storeNat_wf {s : State} (loc n x : Nat) (h : Memory.wf s.mem = true) : Memory.wf (s.storeNat loc n x).mem = true :=
  memPut_wf loc _ h

/-- RESET_BOOT clears the on-chip locations and keeps the form (14 R273). -/
theorem filter_wf {m : List Cell} (f : Cell → Bool) (h : Memory.wf m = true) : Memory.wf (m.filter f) = true :=
  Cells.wfAbove_filter f h

theorem foldl_memPut_wf {α : Type} (at' : α → Nat) (bs : α → List Byte) (l : List α) {m : List Cell} (h : Memory.wf m = true) :
    Memory.wf (l.foldl (fun m x => memPut m (at' x) (bs x)) m) = true := by
  induction l generalizing m with
  | nil => exact h
  | cons x l ih => exact ih (memPut_wf _ _ h)

theorem withSolo_mem_wf {s : State} (nbits w : Nat) (h : Memory.wf s.mem = true) : Memory.wf (s.withSolo nbits w).mem = true :=
  memPut_wf _ _ (foldl_memPut_wf (fun e : Nat × Nat => e.1) (fun e => leBytes 8 e.2) soloTables h)

theorem withFetchWord_mem_wf {s : State} (nbits w : Nat) (h : Memory.wf s.mem = true) :
    Memory.wf (s.withFetchWord nbits w).mem = true := by
  unfold State.withFetchWord
  generalize (if w / 2 ^ 26 % 64 = 0x39 ∧ s.cur.kind ≠ .seq then none else s.fetchLoc) = o
  cases o with
  | some pa => exact memPut_wf _ _ h
  | none => exact withSolo_mem_wf nbits w h

/-! ## Reads after stores -/

theorem byteAt_store (s : State) (loc a : Nat) (bs : List Byte) :
    (s.store loc bs).byteAt a = if loc ≤ a ∧ a < loc + bs.length then bs.getD (a - loc) 0 else s.byteAt a :=
  memPut_get s.mem loc a bs

/-- A store leaves every byte outside it. -/
theorem byteAt_store_outside (s : State) {loc a : Nat} {bs : List Byte} (h : a < loc ∨ loc + bs.length ≤ a) :
    (s.store loc bs).byteAt a = s.byteAt a := by
  rw [byteAt_store, if_neg (by omega)]

@[simp] theorem bytesAt_length (s : State) (loc n : Nat) : (s.bytesAt loc n).length = n := by
  induction n generalizing loc with
  | zero => rfl
  | succ n ih => simp [State.bytesAt, ih]

theorem bytesAt_getD (s : State) (loc n i : Nat) (h : i < n) : (s.bytesAt loc n).getD i 0 = s.byteAt (loc + i) := by
  induction n generalizing loc i with
  | zero => omega
  | succ n ih =>
    cases i with
    | zero => rfl
    | succ i =>
      have := ih (loc + 1) i (by omega)
      rw [State.bytesAt, List.getD_cons_succ, this]
      congr 1
      omega

theorem bytesAt_congr {s t : State} {loc n : Nat} (h : ∀ a, loc ≤ a → a < loc + n → t.byteAt a = s.byteAt a) :
    t.bytesAt loc n = s.bytesAt loc n := by
  induction n generalizing loc with
  | zero => rfl
  | succ n ih =>
    rw [State.bytesAt, State.bytesAt, h loc (Nat.le_refl _) (by omega), ih (fun a l1 l2 => h a (by omega) (by omega))]

/-- A read inside a store gives the bytes stored. -/
theorem bytesAt_store (s : State) (loc : Nat) (bs : List Byte) : (s.store loc bs).bytesAt loc bs.length = bs := by
  apply List.ext_getElem (by simp)
  intro i h1 h2
  have hd := bytesAt_getD (s.store loc bs) loc bs.length i h2
  rw [byteAt_store, if_pos ⟨by omega, by omega⟩, Nat.add_sub_cancel_left] at hd
  simpa [List.getD_eq_getElem?_getD, h2, h1] using hd

/-- A read outside a store gives what stood there. -/
theorem bytesAt_store_outside (s : State) {loc a n : Nat} {bs : List Byte} (h : a + n ≤ loc ∨ loc + bs.length ≤ a) :
    (s.store loc bs).bytesAt a n = s.bytesAt a n :=
  bytesAt_congr (fun b l1 l2 => byteAt_store_outside s (by omega))

/-- The number stored, narrowed to its bytes (00 R6). -/
theorem natAt_storeNat (s : State) (loc n x : Nat) : (s.storeNat loc n x).natAt loc n = x % 256 ^ n := by
  have h := bytesAt_store s loc (leBytes n x)
  rw [leBytes_length] at h
  rw [State.natAt, State.storeNat, h, leNat_leBytes]

theorem natAt_storeNat_outside (s : State) {loc a n k x : Nat} (h : a + k ≤ loc ∨ loc + n ≤ a) :
    (s.storeNat loc n x).natAt a k = s.natAt a k := by
  rw [State.natAt, State.storeNat, bytesAt_store_outside s (by simpa using h)]
  rfl

end Sys2Proof.Machine
end

