-- ==== Sys2Proof/Laws/PerInstr.lean ====
section
/-! SUPPORT. The statement about the encoding of every instruction, and its lemma for each constructor: the row
of the opcode map that the word of a well-formed instruction falls in is that instruction (04 R67, R70, R81). -/
namespace Sys2Proof.Laws.Encoding

/-- The word of a well-formed instruction falls in the instruction's own row of the opcode map (04 R81). -/
def Statement (i : Instr) : Prop := i.fieldsOk = true → rowOf (encode i) = some i

theorem fmtA_m (m : BitVec 6) (q : BitVec 2) (fn : BitVec 3) (d : BitVec 7) (a : BitVec 7) (b : BitVec 7) :
    (fmtA m q fn d a b).extractLsb' 26 6 = m := by
  rw [fmtA, BitVec.extractLsb'_append_eq_of_le (by decide), BitVec.extractLsb'_append_eq_of_le (by decide), BitVec.extractLsb'_append_eq_of_le (by decide), BitVec.extractLsb'_append_eq_of_le (by decide), BitVec.extractLsb'_append_eq_of_le (by decide)]
  exact BitVec.extractLsb'_eq_self

theorem fmtA_q (m : BitVec 6) (q : BitVec 2) (fn : BitVec 3) (d : BitVec 7) (a : BitVec 7) (b : BitVec 7) :
    (fmtA m q fn d a b).extractLsb' 24 2 = q := by
  rw [fmtA, BitVec.extractLsb'_append_eq_of_le (by decide), BitVec.extractLsb'_append_eq_of_le (by decide), BitVec.extractLsb'_append_eq_of_le (by decide), BitVec.extractLsb'_append_eq_of_le (by decide), BitVec.extractLsb'_append_eq_of_add_le (by decide)]
  exact BitVec.extractLsb'_eq_self

theorem fmtA_fn (m : BitVec 6) (q : BitVec 2) (fn : BitVec 3) (d : BitVec 7) (a : BitVec 7) (b : BitVec 7) :
    (fmtA m q fn d a b).extractLsb' 21 3 = fn := by
  rw [fmtA, BitVec.extractLsb'_append_eq_of_le (by decide), BitVec.extractLsb'_append_eq_of_le (by decide), BitVec.extractLsb'_append_eq_of_le (by decide), BitVec.extractLsb'_append_eq_of_add_le (by decide)]
  exact BitVec.extractLsb'_eq_self

theorem fmtA_d (m : BitVec 6) (q : BitVec 2) (fn : BitVec 3) (d : BitVec 7) (a : BitVec 7) (b : BitVec 7) :
    (fmtA m q fn d a b).extractLsb' 14 7 = d := by
  rw [fmtA, BitVec.extractLsb'_append_eq_of_le (by decide), BitVec.extractLsb'_append_eq_of_le (by decide), BitVec.extractLsb'_append_eq_of_add_le (by decide)]
  exact BitVec.extractLsb'_eq_self

theorem fmtA_a (m : BitVec 6) (q : BitVec 2) (fn : BitVec 3) (d : BitVec 7) (a : BitVec 7) (b : BitVec 7) :
    (fmtA m q fn d a b).extractLsb' 7 7 = a := by
  rw [fmtA, BitVec.extractLsb'_append_eq_of_le (by decide), BitVec.extractLsb'_append_eq_of_add_le (by decide)]
  exact BitVec.extractLsb'_eq_self

theorem fmtA_b (m : BitVec 6) (q : BitVec 2) (fn : BitVec 3) (d : BitVec 7) (a : BitVec 7) (b : BitVec 7) :
    (fmtA m q fn d a b).extractLsb' 0 7 = b := by
  rw [fmtA, BitVec.extractLsb'_append_eq_of_add_le (by decide)]
  exact BitVec.extractLsb'_eq_self

theorem fmtB_m (m : BitVec 6) (q : BitVec 2) (d : BitVec 7) (a : BitVec 7) (i : BitVec 10) :
    (fmtB m q d a i).extractLsb' 26 6 = m := by
  rw [fmtB, BitVec.extractLsb'_append_eq_of_le (by decide), BitVec.extractLsb'_append_eq_of_le (by decide), BitVec.extractLsb'_append_eq_of_le (by decide), BitVec.extractLsb'_append_eq_of_le (by decide)]
  exact BitVec.extractLsb'_eq_self

theorem fmtB_q (m : BitVec 6) (q : BitVec 2) (d : BitVec 7) (a : BitVec 7) (i : BitVec 10) :
    (fmtB m q d a i).extractLsb' 24 2 = q := by
  rw [fmtB, BitVec.extractLsb'_append_eq_of_le (by decide), BitVec.extractLsb'_append_eq_of_le (by decide), BitVec.extractLsb'_append_eq_of_le (by decide), BitVec.extractLsb'_append_eq_of_add_le (by decide)]
  exact BitVec.extractLsb'_eq_self

theorem fmtB_d (m : BitVec 6) (q : BitVec 2) (d : BitVec 7) (a : BitVec 7) (i : BitVec 10) :
    (fmtB m q d a i).extractLsb' 17 7 = d := by
  rw [fmtB, BitVec.extractLsb'_append_eq_of_le (by decide), BitVec.extractLsb'_append_eq_of_le (by decide), BitVec.extractLsb'_append_eq_of_add_le (by decide)]
  exact BitVec.extractLsb'_eq_self

theorem fmtB_a (m : BitVec 6) (q : BitVec 2) (d : BitVec 7) (a : BitVec 7) (i : BitVec 10) :
    (fmtB m q d a i).extractLsb' 10 7 = a := by
  rw [fmtB, BitVec.extractLsb'_append_eq_of_le (by decide), BitVec.extractLsb'_append_eq_of_add_le (by decide)]
  exact BitVec.extractLsb'_eq_self

theorem fmtB_i (m : BitVec 6) (q : BitVec 2) (d : BitVec 7) (a : BitVec 7) (i : BitVec 10) :
    (fmtB m q d a i).extractLsb' 0 10 = i := by
  rw [fmtB, BitVec.extractLsb'_append_eq_of_add_le (by decide)]
  exact BitVec.extractLsb'_eq_self

theorem fmtI_m (m : BitVec 6) (q : BitVec 2) (d : BitVec 7) (i : BitVec 17) :
    (fmtI m q d i).extractLsb' 26 6 = m := by
  rw [fmtI, BitVec.extractLsb'_append_eq_of_le (by decide), BitVec.extractLsb'_append_eq_of_le (by decide), BitVec.extractLsb'_append_eq_of_le (by decide)]
  exact BitVec.extractLsb'_eq_self

theorem fmtI_q (m : BitVec 6) (q : BitVec 2) (d : BitVec 7) (i : BitVec 17) :
    (fmtI m q d i).extractLsb' 24 2 = q := by
  rw [fmtI, BitVec.extractLsb'_append_eq_of_le (by decide), BitVec.extractLsb'_append_eq_of_le (by decide), BitVec.extractLsb'_append_eq_of_add_le (by decide)]
  exact BitVec.extractLsb'_eq_self

theorem fmtI_d (m : BitVec 6) (q : BitVec 2) (d : BitVec 7) (i : BitVec 17) :
    (fmtI m q d i).extractLsb' 17 7 = d := by
  rw [fmtI, BitVec.extractLsb'_append_eq_of_le (by decide), BitVec.extractLsb'_append_eq_of_add_le (by decide)]
  exact BitVec.extractLsb'_eq_self

theorem fmtI_i (m : BitVec 6) (q : BitVec 2) (d : BitVec 7) (i : BitVec 17) :
    (fmtI m q d i).extractLsb' 0 17 = i := by
  rw [fmtI, BitVec.extractLsb'_append_eq_of_add_le (by decide)]
  exact BitVec.extractLsb'_eq_self

theorem fmtC_m (m : BitVec 6) (q : BitVec 2) (i : BitVec 24) :
    (fmtC m q i).extractLsb' 26 6 = m := by
  rw [fmtC, BitVec.extractLsb'_append_eq_of_le (by decide), BitVec.extractLsb'_append_eq_of_le (by decide)]
  exact BitVec.extractLsb'_eq_self

theorem fmtC_q (m : BitVec 6) (q : BitVec 2) (i : BitVec 24) :
    (fmtC m q i).extractLsb' 24 2 = q := by
  rw [fmtC, BitVec.extractLsb'_append_eq_of_le (by decide), BitVec.extractLsb'_append_eq_of_add_le (by decide)]
  exact BitVec.extractLsb'_eq_self

theorem fmtC_i (m : BitVec 6) (q : BitVec 2) (i : BitVec 24) :
    (fmtC m q i).extractLsb' 0 24 = i := by
  rw [fmtC, BitVec.extractLsb'_append_eq_of_add_le (by decide)]
  exact BitVec.extractLsb'_eq_self

theorem fmtX_m (m : BitVec 6) (q : BitVec 2) (a : BitVec 4) (b : BitVec 4) (c : BitVec 3) (d : BitVec 7) (f : BitVec 6) :
    (fmtX m q a b c d f).extractLsb' 26 6 = m := by
  rw [fmtX, BitVec.extractLsb'_append_eq_of_le (by decide), BitVec.extractLsb'_append_eq_of_le (by decide), BitVec.extractLsb'_append_eq_of_le (by decide), BitVec.extractLsb'_append_eq_of_le (by decide), BitVec.extractLsb'_append_eq_of_le (by decide), BitVec.extractLsb'_append_eq_of_le (by decide)]
  exact BitVec.extractLsb'_eq_self

theorem fmtX_q (m : BitVec 6) (q : BitVec 2) (a : BitVec 4) (b : BitVec 4) (c : BitVec 3) (d : BitVec 7) (f : BitVec 6) :
    (fmtX m q a b c d f).extractLsb' 24 2 = q := by
  rw [fmtX, BitVec.extractLsb'_append_eq_of_le (by decide), BitVec.extractLsb'_append_eq_of_le (by decide), BitVec.extractLsb'_append_eq_of_le (by decide), BitVec.extractLsb'_append_eq_of_le (by decide), BitVec.extractLsb'_append_eq_of_le (by decide), BitVec.extractLsb'_append_eq_of_add_le (by decide)]
  exact BitVec.extractLsb'_eq_self

theorem fmtX_a (m : BitVec 6) (q : BitVec 2) (a : BitVec 4) (b : BitVec 4) (c : BitVec 3) (d : BitVec 7) (f : BitVec 6) :
    (fmtX m q a b c d f).extractLsb' 20 4 = a := by
  rw [fmtX, BitVec.extractLsb'_append_eq_of_le (by decide), BitVec.extractLsb'_append_eq_of_le (by decide), BitVec.extractLsb'_append_eq_of_le (by decide), BitVec.extractLsb'_append_eq_of_le (by decide), BitVec.extractLsb'_append_eq_of_add_le (by decide)]
  exact BitVec.extractLsb'_eq_self

theorem fmtX_b (m : BitVec 6) (q : BitVec 2) (a : BitVec 4) (b : BitVec 4) (c : BitVec 3) (d : BitVec 7) (f : BitVec 6) :
    (fmtX m q a b c d f).extractLsb' 16 4 = b := by
  rw [fmtX, BitVec.extractLsb'_append_eq_of_le (by decide), BitVec.extractLsb'_append_eq_of_le (by decide), BitVec.extractLsb'_append_eq_of_le (by decide), BitVec.extractLsb'_append_eq_of_add_le (by decide)]
  exact BitVec.extractLsb'_eq_self

theorem fmtX_c (m : BitVec 6) (q : BitVec 2) (a : BitVec 4) (b : BitVec 4) (c : BitVec 3) (d : BitVec 7) (f : BitVec 6) :
    (fmtX m q a b c d f).extractLsb' 13 3 = c := by
  rw [fmtX, BitVec.extractLsb'_append_eq_of_le (by decide), BitVec.extractLsb'_append_eq_of_le (by decide), BitVec.extractLsb'_append_eq_of_add_le (by decide)]
  exact BitVec.extractLsb'_eq_self

theorem fmtX_d (m : BitVec 6) (q : BitVec 2) (a : BitVec 4) (b : BitVec 4) (c : BitVec 3) (d : BitVec 7) (f : BitVec 6) :
    (fmtX m q a b c d f).extractLsb' 6 7 = d := by
  rw [fmtX, BitVec.extractLsb'_append_eq_of_le (by decide), BitVec.extractLsb'_append_eq_of_add_le (by decide)]
  exact BitVec.extractLsb'_eq_self

theorem fmtX_f (m : BitVec 6) (q : BitVec 2) (a : BitVec 4) (b : BitVec 4) (c : BitVec 3) (d : BitVec 7) (f : BitVec 6) :
    (fmtX m q a b c d f).extractLsb' 0 6 = f := by
  rw [fmtX, BitVec.extractLsb'_append_eq_of_add_le (by decide)]
  exact BitVec.extractLsb'_eq_self

theorem fmtP_m (m : BitVec 6) (q : BitVec 2) (n : BitVec 6) (k : BitVec 3) (s : BitVec 3) (g : BitVec 7) (z : BitVec 5) :
    (fmtP m q n k s g z).extractLsb' 26 6 = m := by
  rw [fmtP, BitVec.extractLsb'_append_eq_of_le (by decide), BitVec.extractLsb'_append_eq_of_le (by decide), BitVec.extractLsb'_append_eq_of_le (by decide), BitVec.extractLsb'_append_eq_of_le (by decide), BitVec.extractLsb'_append_eq_of_le (by decide), BitVec.extractLsb'_append_eq_of_le (by decide)]
  exact BitVec.extractLsb'_eq_self

theorem fmtP_q (m : BitVec 6) (q : BitVec 2) (n : BitVec 6) (k : BitVec 3) (s : BitVec 3) (g : BitVec 7) (z : BitVec 5) :
    (fmtP m q n k s g z).extractLsb' 24 2 = q := by
  rw [fmtP, BitVec.extractLsb'_append_eq_of_le (by decide), BitVec.extractLsb'_append_eq_of_le (by decide), BitVec.extractLsb'_append_eq_of_le (by decide), BitVec.extractLsb'_append_eq_of_le (by decide), BitVec.extractLsb'_append_eq_of_le (by decide), BitVec.extractLsb'_append_eq_of_add_le (by decide)]
  exact BitVec.extractLsb'_eq_self

theorem fmtP_n (m : BitVec 6) (q : BitVec 2) (n : BitVec 6) (k : BitVec 3) (s : BitVec 3) (g : BitVec 7) (z : BitVec 5) :
    (fmtP m q n k s g z).extractLsb' 18 6 = n := by
  rw [fmtP, BitVec.extractLsb'_append_eq_of_le (by decide), BitVec.extractLsb'_append_eq_of_le (by decide), BitVec.extractLsb'_append_eq_of_le (by decide), BitVec.extractLsb'_append_eq_of_le (by decide), BitVec.extractLsb'_append_eq_of_add_le (by decide)]
  exact BitVec.extractLsb'_eq_self

theorem fmtP_k (m : BitVec 6) (q : BitVec 2) (n : BitVec 6) (k : BitVec 3) (s : BitVec 3) (g : BitVec 7) (z : BitVec 5) :
    (fmtP m q n k s g z).extractLsb' 15 3 = k := by
  rw [fmtP, BitVec.extractLsb'_append_eq_of_le (by decide), BitVec.extractLsb'_append_eq_of_le (by decide), BitVec.extractLsb'_append_eq_of_le (by decide), BitVec.extractLsb'_append_eq_of_add_le (by decide)]
  exact BitVec.extractLsb'_eq_self

theorem fmtP_s (m : BitVec 6) (q : BitVec 2) (n : BitVec 6) (k : BitVec 3) (s : BitVec 3) (g : BitVec 7) (z : BitVec 5) :
    (fmtP m q n k s g z).extractLsb' 12 3 = s := by
  rw [fmtP, BitVec.extractLsb'_append_eq_of_le (by decide), BitVec.extractLsb'_append_eq_of_le (by decide), BitVec.extractLsb'_append_eq_of_add_le (by decide)]
  exact BitVec.extractLsb'_eq_self

theorem fmtP_g (m : BitVec 6) (q : BitVec 2) (n : BitVec 6) (k : BitVec 3) (s : BitVec 3) (g : BitVec 7) (z : BitVec 5) :
    (fmtP m q n k s g z).extractLsb' 5 7 = g := by
  rw [fmtP, BitVec.extractLsb'_append_eq_of_le (by decide), BitVec.extractLsb'_append_eq_of_add_le (by decide)]
  exact BitVec.extractLsb'_eq_self

theorem fmtP_z (m : BitVec 6) (q : BitVec 2) (n : BitVec 6) (k : BitVec 3) (s : BitVec 3) (g : BitVec 7) (z : BitVec 5) :
    (fmtP m q n k s g z).extractLsb' 0 5 = z := by
  rw [fmtP, BitVec.extractLsb'_append_eq_of_add_le (by decide)]
  exact BitVec.extractLsb'_eq_self

@[simp] theorem join_1_1_1_x (x : BitVec 1) (y : BitVec 1) (z : BitVec 1) :
    BitVec.extractLsb' (n := 3) 2 1 (x ++ y ++ z) = x := by
  rw [BitVec.extractLsb'_append_eq_of_le (by decide), BitVec.extractLsb'_append_eq_of_le (by decide)]
  exact BitVec.extractLsb'_eq_self

@[simp] theorem join_1_1_1_y (x : BitVec 1) (y : BitVec 1) (z : BitVec 1) :
    BitVec.extractLsb' (n := 3) 1 1 (x ++ y ++ z) = y := by
  rw [BitVec.extractLsb'_append_eq_of_le (by decide), BitVec.extractLsb'_append_eq_of_add_le (by decide)]
  exact BitVec.extractLsb'_eq_self

@[simp] theorem join_1_1_1_z (x : BitVec 1) (y : BitVec 1) (z : BitVec 1) :
    BitVec.extractLsb' (n := 3) 0 1 (x ++ y ++ z) = z := by
  rw [BitVec.extractLsb'_append_eq_of_add_le (by decide)]
  exact BitVec.extractLsb'_eq_self

@[simp] theorem join_1_2_x (x : BitVec 1) (y : BitVec 2) :
    BitVec.extractLsb' (n := 3) 2 1 (x ++ y) = x := by
  rw [BitVec.extractLsb'_append_eq_of_le (by decide)]
  exact BitVec.extractLsb'_eq_self

@[simp] theorem join_1_2_y (x : BitVec 1) (y : BitVec 2) :
    BitVec.extractLsb' (n := 3) 0 2 (x ++ y) = y := by
  rw [BitVec.extractLsb'_append_eq_of_add_le (by decide)]
  exact BitVec.extractLsb'_eq_self

@[simp] theorem join_2_1_x (x : BitVec 2) (y : BitVec 1) :
    BitVec.extractLsb' (n := 3) 1 2 (x ++ y) = x := by
  rw [BitVec.extractLsb'_append_eq_of_le (by decide)]
  exact BitVec.extractLsb'_eq_self

@[simp] theorem join_2_1_y (x : BitVec 2) (y : BitVec 1) :
    BitVec.extractLsb' (n := 3) 0 1 (x ++ y) = y := by
  rw [BitVec.extractLsb'_append_eq_of_add_le (by decide)]
  exact BitVec.extractLsb'_eq_self

@[simp] theorem join_4_1_2_x (x : BitVec 4) (y : BitVec 1) (z : BitVec 2) :
    BitVec.extractLsb' (n := 7) 3 4 (x ++ y ++ z) = x := by
  rw [BitVec.extractLsb'_append_eq_of_le (by decide), BitVec.extractLsb'_append_eq_of_le (by decide)]
  exact BitVec.extractLsb'_eq_self

@[simp] theorem join_4_1_2_y (x : BitVec 4) (y : BitVec 1) (z : BitVec 2) :
    BitVec.extractLsb' (n := 7) 2 1 (x ++ y ++ z) = y := by
  rw [BitVec.extractLsb'_append_eq_of_le (by decide), BitVec.extractLsb'_append_eq_of_add_le (by decide)]
  exact BitVec.extractLsb'_eq_self

@[simp] theorem join_4_1_2_z (x : BitVec 4) (y : BitVec 1) (z : BitVec 2) :
    BitVec.extractLsb' (n := 7) 0 2 (x ++ y ++ z) = z := by
  rw [BitVec.extractLsb'_append_eq_of_add_le (by decide)]
  exact BitVec.extractLsb'_eq_self

@[simp] theorem join_5_2_x (x : BitVec 5) (y : BitVec 2) :
    BitVec.extractLsb' (n := 7) 2 5 (x ++ y) = x := by
  rw [BitVec.extractLsb'_append_eq_of_le (by decide)]
  exact BitVec.extractLsb'_eq_self

@[simp] theorem join_5_2_y (x : BitVec 5) (y : BitVec 2) :
    BitVec.extractLsb' (n := 7) 0 2 (x ++ y) = y := by
  rw [BitVec.extractLsb'_append_eq_of_add_le (by decide)]
  exact BitVec.extractLsb'_eq_self

@[simp] theorem join_6_1_x (x : BitVec 6) (y : BitVec 1) :
    BitVec.extractLsb' (n := 7) 1 6 (x ++ y) = x := by
  rw [BitVec.extractLsb'_append_eq_of_le (by decide)]
  exact BitVec.extractLsb'_eq_self

@[simp] theorem join_6_1_y (x : BitVec 6) (y : BitVec 1) :
    BitVec.extractLsb' (n := 7) 0 1 (x ++ y) = y := by
  rw [BitVec.extractLsb'_append_eq_of_add_le (by decide)]
  exact BitVec.extractLsb'_eq_self

@[simp] theorem join_3_4_x (x : BitVec 3) (y : BitVec 4) :
    BitVec.extractLsb' (n := 7) 4 3 (x ++ y) = x := by
  rw [BitVec.extractLsb'_append_eq_of_le (by decide)]
  exact BitVec.extractLsb'_eq_self

@[simp] theorem join_3_4_y (x : BitVec 3) (y : BitVec 4) :
    BitVec.extractLsb' (n := 7) 0 4 (x ++ y) = y := by
  rw [BitVec.extractLsb'_append_eq_of_add_le (by decide)]
  exact BitVec.extractLsb'_eq_self

@[simp] theorem join_2_1_4_x (x : BitVec 2) (y : BitVec 1) (z : BitVec 4) :
    BitVec.extractLsb' (n := 7) 5 2 (x ++ y ++ z) = x := by
  rw [BitVec.extractLsb'_append_eq_of_le (by decide), BitVec.extractLsb'_append_eq_of_le (by decide)]
  exact BitVec.extractLsb'_eq_self

@[simp] theorem join_2_1_4_y (x : BitVec 2) (y : BitVec 1) (z : BitVec 4) :
    BitVec.extractLsb' (n := 7) 4 1 (x ++ y ++ z) = y := by
  rw [BitVec.extractLsb'_append_eq_of_le (by decide), BitVec.extractLsb'_append_eq_of_add_le (by decide)]
  exact BitVec.extractLsb'_eq_self

@[simp] theorem join_2_1_4_z (x : BitVec 2) (y : BitVec 1) (z : BitVec 4) :
    BitVec.extractLsb' (n := 7) 0 4 (x ++ y ++ z) = z := by
  rw [BitVec.extractLsb'_append_eq_of_add_le (by decide)]
  exact BitVec.extractLsb'_eq_self

@[simp] theorem join_1_3_3_x (x : BitVec 1) (y : BitVec 3) (z : BitVec 3) :
    BitVec.extractLsb' (n := 7) 6 1 (x ++ y ++ z) = x := by
  rw [BitVec.extractLsb'_append_eq_of_le (by decide), BitVec.extractLsb'_append_eq_of_le (by decide)]
  exact BitVec.extractLsb'_eq_self

@[simp] theorem join_1_3_3_y (x : BitVec 1) (y : BitVec 3) (z : BitVec 3) :
    BitVec.extractLsb' (n := 7) 3 3 (x ++ y ++ z) = y := by
  rw [BitVec.extractLsb'_append_eq_of_le (by decide), BitVec.extractLsb'_append_eq_of_add_le (by decide)]
  exact BitVec.extractLsb'_eq_self

@[simp] theorem join_1_3_3_z (x : BitVec 1) (y : BitVec 3) (z : BitVec 3) :
    BitVec.extractLsb' (n := 7) 0 3 (x ++ y ++ z) = z := by
  rw [BitVec.extractLsb'_append_eq_of_add_le (by decide)]
  exact BitVec.extractLsb'_eq_self

@[simp] theorem join_3_1_3_x (x : BitVec 3) (y : BitVec 1) (z : BitVec 3) :
    BitVec.extractLsb' (n := 7) 4 3 (x ++ y ++ z) = x := by
  rw [BitVec.extractLsb'_append_eq_of_le (by decide), BitVec.extractLsb'_append_eq_of_le (by decide)]
  exact BitVec.extractLsb'_eq_self

@[simp] theorem join_3_1_3_y (x : BitVec 3) (y : BitVec 1) (z : BitVec 3) :
    BitVec.extractLsb' (n := 7) 3 1 (x ++ y ++ z) = y := by
  rw [BitVec.extractLsb'_append_eq_of_le (by decide), BitVec.extractLsb'_append_eq_of_add_le (by decide)]
  exact BitVec.extractLsb'_eq_self

@[simp] theorem join_3_1_3_z (x : BitVec 3) (y : BitVec 1) (z : BitVec 3) :
    BitVec.extractLsb' (n := 7) 0 3 (x ++ y ++ z) = z := by
  rw [BitVec.extractLsb'_append_eq_of_add_le (by decide)]
  exact BitVec.extractLsb'_eq_self

@[simp] theorem join_2_5_3_x (x : BitVec 2) (y : BitVec 5) (z : BitVec 3) :
    BitVec.extractLsb' (n := 10) 8 2 (x ++ y ++ z) = x := by
  rw [BitVec.extractLsb'_append_eq_of_le (by decide), BitVec.extractLsb'_append_eq_of_le (by decide)]
  exact BitVec.extractLsb'_eq_self

@[simp] theorem join_2_5_3_y (x : BitVec 2) (y : BitVec 5) (z : BitVec 3) :
    BitVec.extractLsb' (n := 10) 3 5 (x ++ y ++ z) = y := by
  rw [BitVec.extractLsb'_append_eq_of_le (by decide), BitVec.extractLsb'_append_eq_of_add_le (by decide)]
  exact BitVec.extractLsb'_eq_self

@[simp] theorem join_2_5_3_z (x : BitVec 2) (y : BitVec 5) (z : BitVec 3) :
    BitVec.extractLsb' (n := 10) 0 3 (x ++ y ++ z) = z := by
  rw [BitVec.extractLsb'_append_eq_of_add_le (by decide)]
  exact BitVec.extractLsb'_eq_self

@[simp] theorem join_5_5_x (x : BitVec 5) (y : BitVec 5) :
    BitVec.extractLsb' (n := 10) 5 5 (x ++ y) = x := by
  rw [BitVec.extractLsb'_append_eq_of_le (by decide)]
  exact BitVec.extractLsb'_eq_self

@[simp] theorem join_5_5_y (x : BitVec 5) (y : BitVec 5) :
    BitVec.extractLsb' (n := 10) 0 5 (x ++ y) = y := by
  rw [BitVec.extractLsb'_append_eq_of_add_le (by decide)]
  exact BitVec.extractLsb'_eq_self

theorem row00 (q : BitVec 2) (fn : BitVec 3) (d : BitVec 7) (a : BitVec 7) (b : BitVec 7) :
    rowOf (fmtA 0#6 q fn d a b) = decodeMajor00 q fn d a b := by
  rw [rowOf, majorOf, fmtA_m]
  show decodeMajor00 (guardBits (fmtA 0#6 q fn d a b)) ((fmtA 0#6 q fn d a b).extractLsb' 21 3) ((fmtA 0#6 q fn d a b).extractLsb' 14 7) ((fmtA 0#6 q fn d a b).extractLsb' 7 7) ((fmtA 0#6 q fn d a b).extractLsb' 0 7) = _
  rw [guardBits, fmtA_q, fmtA_fn, fmtA_d, fmtA_a, fmtA_b]

theorem row01 (q : BitVec 2) (fn : BitVec 3) (d : BitVec 7) (a : BitVec 7) (b : BitVec 7) :
    rowOf (fmtA 1#6 q fn d a b) = decodeMajor01 q fn d a b := by
  rw [rowOf, majorOf, fmtA_m]
  show decodeMajor01 (guardBits (fmtA 1#6 q fn d a b)) ((fmtA 1#6 q fn d a b).extractLsb' 21 3) ((fmtA 1#6 q fn d a b).extractLsb' 14 7) ((fmtA 1#6 q fn d a b).extractLsb' 7 7) ((fmtA 1#6 q fn d a b).extractLsb' 0 7) = _
  rw [guardBits, fmtA_q, fmtA_fn, fmtA_d, fmtA_a, fmtA_b]

theorem row02 (q : BitVec 2) (fn : BitVec 3) (d : BitVec 7) (a : BitVec 7) (b : BitVec 7) :
    rowOf (fmtA 2#6 q fn d a b) = decodeMajor02 q fn d a b := by
  rw [rowOf, majorOf, fmtA_m]
  show decodeMajor02 (guardBits (fmtA 2#6 q fn d a b)) ((fmtA 2#6 q fn d a b).extractLsb' 21 3) ((fmtA 2#6 q fn d a b).extractLsb' 14 7) ((fmtA 2#6 q fn d a b).extractLsb' 7 7) ((fmtA 2#6 q fn d a b).extractLsb' 0 7) = _
  rw [guardBits, fmtA_q, fmtA_fn, fmtA_d, fmtA_a, fmtA_b]

theorem row03 (q : BitVec 2) (fn : BitVec 3) (d : BitVec 7) (a : BitVec 7) (b : BitVec 7) :
    rowOf (fmtA 3#6 q fn d a b) = decodeMajor03 q fn d a b := by
  rw [rowOf, majorOf, fmtA_m]
  show decodeMajor03 (guardBits (fmtA 3#6 q fn d a b)) ((fmtA 3#6 q fn d a b).extractLsb' 21 3) ((fmtA 3#6 q fn d a b).extractLsb' 14 7) ((fmtA 3#6 q fn d a b).extractLsb' 7 7) ((fmtA 3#6 q fn d a b).extractLsb' 0 7) = _
  rw [guardBits, fmtA_q, fmtA_fn, fmtA_d, fmtA_a, fmtA_b]

theorem row04 (q : BitVec 2) (fn : BitVec 3) (d : BitVec 7) (a : BitVec 7) (b : BitVec 7) :
    rowOf (fmtA 4#6 q fn d a b) = decodeMajor04 q fn d a b := by
  rw [rowOf, majorOf, fmtA_m]
  show decodeMajor04 (guardBits (fmtA 4#6 q fn d a b)) ((fmtA 4#6 q fn d a b).extractLsb' 21 3) ((fmtA 4#6 q fn d a b).extractLsb' 14 7) ((fmtA 4#6 q fn d a b).extractLsb' 7 7) ((fmtA 4#6 q fn d a b).extractLsb' 0 7) = _
  rw [guardBits, fmtA_q, fmtA_fn, fmtA_d, fmtA_a, fmtA_b]

theorem row05 (q : BitVec 2) (fn : BitVec 3) (d : BitVec 7) (a : BitVec 7) (b : BitVec 7) :
    rowOf (fmtA 5#6 q fn d a b) = decodeMajor05 q fn d a b := by
  rw [rowOf, majorOf, fmtA_m]
  show decodeMajor05 (guardBits (fmtA 5#6 q fn d a b)) ((fmtA 5#6 q fn d a b).extractLsb' 21 3) ((fmtA 5#6 q fn d a b).extractLsb' 14 7) ((fmtA 5#6 q fn d a b).extractLsb' 7 7) ((fmtA 5#6 q fn d a b).extractLsb' 0 7) = _
  rw [guardBits, fmtA_q, fmtA_fn, fmtA_d, fmtA_a, fmtA_b]

theorem row06 (q : BitVec 2) (fn : BitVec 3) (d : BitVec 7) (a : BitVec 7) (b : BitVec 7) :
    rowOf (fmtA 6#6 q fn d a b) = decodeMajor06 q fn d a b := by
  rw [rowOf, majorOf, fmtA_m]
  show decodeMajor06 (guardBits (fmtA 6#6 q fn d a b)) ((fmtA 6#6 q fn d a b).extractLsb' 21 3) ((fmtA 6#6 q fn d a b).extractLsb' 14 7) ((fmtA 6#6 q fn d a b).extractLsb' 7 7) ((fmtA 6#6 q fn d a b).extractLsb' 0 7) = _
  rw [guardBits, fmtA_q, fmtA_fn, fmtA_d, fmtA_a, fmtA_b]

theorem row07 (q : BitVec 2) (fn : BitVec 3) (d : BitVec 7) (a : BitVec 7) (b : BitVec 7) :
    rowOf (fmtA 7#6 q fn d a b) = decodeMajor07 q fn d a b := by
  rw [rowOf, majorOf, fmtA_m]
  show decodeMajor07 (guardBits (fmtA 7#6 q fn d a b)) ((fmtA 7#6 q fn d a b).extractLsb' 21 3) ((fmtA 7#6 q fn d a b).extractLsb' 14 7) ((fmtA 7#6 q fn d a b).extractLsb' 7 7) ((fmtA 7#6 q fn d a b).extractLsb' 0 7) = _
  rw [guardBits, fmtA_q, fmtA_fn, fmtA_d, fmtA_a, fmtA_b]

theorem row08 (q : BitVec 2) (fn : BitVec 3) (d : BitVec 7) (a : BitVec 7) (b : BitVec 7) :
    rowOf (fmtA 8#6 q fn d a b) = decodeMajor08 q fn d a b := by
  rw [rowOf, majorOf, fmtA_m]
  show decodeMajor08 (guardBits (fmtA 8#6 q fn d a b)) ((fmtA 8#6 q fn d a b).extractLsb' 21 3) ((fmtA 8#6 q fn d a b).extractLsb' 14 7) ((fmtA 8#6 q fn d a b).extractLsb' 7 7) ((fmtA 8#6 q fn d a b).extractLsb' 0 7) = _
  rw [guardBits, fmtA_q, fmtA_fn, fmtA_d, fmtA_a, fmtA_b]

theorem row09 (q : BitVec 2) (fn : BitVec 3) (d : BitVec 7) (a : BitVec 7) (b : BitVec 7) :
    rowOf (fmtA 9#6 q fn d a b) = decodeMajor09 q fn d a b := by
  rw [rowOf, majorOf, fmtA_m]
  show decodeMajor09 (guardBits (fmtA 9#6 q fn d a b)) ((fmtA 9#6 q fn d a b).extractLsb' 21 3) ((fmtA 9#6 q fn d a b).extractLsb' 14 7) ((fmtA 9#6 q fn d a b).extractLsb' 7 7) ((fmtA 9#6 q fn d a b).extractLsb' 0 7) = _
  rw [guardBits, fmtA_q, fmtA_fn, fmtA_d, fmtA_a, fmtA_b]

theorem row0A (q : BitVec 2) (d : BitVec 7) (a : BitVec 7) (i : BitVec 10) :
    rowOf (fmtB 10#6 q d a i) = decodeMajor0A q d a i := by
  rw [rowOf, majorOf, fmtB_m]
  show decodeMajor0A (guardBits (fmtB 10#6 q d a i)) ((fmtB 10#6 q d a i).extractLsb' 17 7) ((fmtB 10#6 q d a i).extractLsb' 10 7) ((fmtB 10#6 q d a i).extractLsb' 0 10) = _
  rw [guardBits, fmtB_q, fmtB_d, fmtB_a, fmtB_i]

theorem row0B (q : BitVec 2) (d : BitVec 7) (a : BitVec 7) (i : BitVec 10) :
    rowOf (fmtB 11#6 q d a i) = decodeMajor0B q d a i := by
  rw [rowOf, majorOf, fmtB_m]
  show decodeMajor0B (guardBits (fmtB 11#6 q d a i)) ((fmtB 11#6 q d a i).extractLsb' 17 7) ((fmtB 11#6 q d a i).extractLsb' 10 7) ((fmtB 11#6 q d a i).extractLsb' 0 10) = _
  rw [guardBits, fmtB_q, fmtB_d, fmtB_a, fmtB_i]

theorem row0C (q : BitVec 2) (d : BitVec 7) (i : BitVec 17) :
    rowOf (fmtI 12#6 q d i) = decodeMajor0C q d i := by
  rw [rowOf, majorOf, fmtI_m]
  show decodeMajor0C (guardBits (fmtI 12#6 q d i)) ((fmtI 12#6 q d i).extractLsb' 17 7) ((fmtI 12#6 q d i).extractLsb' 0 17) = _
  rw [guardBits, fmtI_q, fmtI_d, fmtI_i]

theorem row0D (q : BitVec 2) (fn : BitVec 3) (d : BitVec 7) (a : BitVec 7) (b : BitVec 7) :
    rowOf (fmtA 13#6 q fn d a b) = decodeMajor0D q fn d a b := by
  rw [rowOf, majorOf, fmtA_m]
  show decodeMajor0D (guardBits (fmtA 13#6 q fn d a b)) ((fmtA 13#6 q fn d a b).extractLsb' 21 3) ((fmtA 13#6 q fn d a b).extractLsb' 14 7) ((fmtA 13#6 q fn d a b).extractLsb' 7 7) ((fmtA 13#6 q fn d a b).extractLsb' 0 7) = _
  rw [guardBits, fmtA_q, fmtA_fn, fmtA_d, fmtA_a, fmtA_b]

theorem row0E (q : BitVec 2) (i : BitVec 24) :
    rowOf (fmtC 14#6 q i) = decodeMajor0E q i := by
  rw [rowOf, majorOf, fmtC_m]
  show decodeMajor0E (guardBits (fmtC 14#6 q i)) ((fmtC 14#6 q i).extractLsb' 0 24) = _
  rw [guardBits, fmtC_q, fmtC_i]

theorem row0F (q : BitVec 2) (i : BitVec 24) :
    rowOf (fmtC 15#6 q i) = decodeMajor0F q i := by
  rw [rowOf, majorOf, fmtC_m]
  show decodeMajor0F (guardBits (fmtC 15#6 q i)) ((fmtC 15#6 q i).extractLsb' 0 24) = _
  rw [guardBits, fmtC_q, fmtC_i]

theorem row10 (q : BitVec 2) (fn : BitVec 3) (d : BitVec 7) (a : BitVec 7) (b : BitVec 7) :
    rowOf (fmtA 16#6 q fn d a b) = decodeMajor10 q fn d a b := by
  rw [rowOf, majorOf, fmtA_m]
  show decodeMajor10 (guardBits (fmtA 16#6 q fn d a b)) ((fmtA 16#6 q fn d a b).extractLsb' 21 3) ((fmtA 16#6 q fn d a b).extractLsb' 14 7) ((fmtA 16#6 q fn d a b).extractLsb' 7 7) ((fmtA 16#6 q fn d a b).extractLsb' 0 7) = _
  rw [guardBits, fmtA_q, fmtA_fn, fmtA_d, fmtA_a, fmtA_b]

theorem row11 (q : BitVec 2) (fn : BitVec 3) (d : BitVec 7) (a : BitVec 7) (b : BitVec 7) :
    rowOf (fmtA 17#6 q fn d a b) = decodeMajor11 q fn d a b := by
  rw [rowOf, majorOf, fmtA_m]
  show decodeMajor11 (guardBits (fmtA 17#6 q fn d a b)) ((fmtA 17#6 q fn d a b).extractLsb' 21 3) ((fmtA 17#6 q fn d a b).extractLsb' 14 7) ((fmtA 17#6 q fn d a b).extractLsb' 7 7) ((fmtA 17#6 q fn d a b).extractLsb' 0 7) = _
  rw [guardBits, fmtA_q, fmtA_fn, fmtA_d, fmtA_a, fmtA_b]

theorem row12 (q : BitVec 2) (fn : BitVec 3) (d : BitVec 7) (a : BitVec 7) (b : BitVec 7) :
    rowOf (fmtA 18#6 q fn d a b) = decodeMajor12 q fn d a b := by
  rw [rowOf, majorOf, fmtA_m]
  show decodeMajor12 (guardBits (fmtA 18#6 q fn d a b)) ((fmtA 18#6 q fn d a b).extractLsb' 21 3) ((fmtA 18#6 q fn d a b).extractLsb' 14 7) ((fmtA 18#6 q fn d a b).extractLsb' 7 7) ((fmtA 18#6 q fn d a b).extractLsb' 0 7) = _
  rw [guardBits, fmtA_q, fmtA_fn, fmtA_d, fmtA_a, fmtA_b]

theorem row13 (q : BitVec 2) (fn : BitVec 3) (d : BitVec 7) (a : BitVec 7) (b : BitVec 7) :
    rowOf (fmtA 19#6 q fn d a b) = decodeMajor13 q fn d a b := by
  rw [rowOf, majorOf, fmtA_m]
  show decodeMajor13 (guardBits (fmtA 19#6 q fn d a b)) ((fmtA 19#6 q fn d a b).extractLsb' 21 3) ((fmtA 19#6 q fn d a b).extractLsb' 14 7) ((fmtA 19#6 q fn d a b).extractLsb' 7 7) ((fmtA 19#6 q fn d a b).extractLsb' 0 7) = _
  rw [guardBits, fmtA_q, fmtA_fn, fmtA_d, fmtA_a, fmtA_b]

theorem row14 (q : BitVec 2) (fn : BitVec 3) (d : BitVec 7) (a : BitVec 7) (b : BitVec 7) :
    rowOf (fmtA 20#6 q fn d a b) = decodeMajor14 q fn d a b := by
  rw [rowOf, majorOf, fmtA_m]
  show decodeMajor14 (guardBits (fmtA 20#6 q fn d a b)) ((fmtA 20#6 q fn d a b).extractLsb' 21 3) ((fmtA 20#6 q fn d a b).extractLsb' 14 7) ((fmtA 20#6 q fn d a b).extractLsb' 7 7) ((fmtA 20#6 q fn d a b).extractLsb' 0 7) = _
  rw [guardBits, fmtA_q, fmtA_fn, fmtA_d, fmtA_a, fmtA_b]

theorem row15 (q : BitVec 2) (fn : BitVec 3) (d : BitVec 7) (a : BitVec 7) (b : BitVec 7) :
    rowOf (fmtA 21#6 q fn d a b) = decodeMajor15 q fn d a b := by
  rw [rowOf, majorOf, fmtA_m]
  show decodeMajor15 (guardBits (fmtA 21#6 q fn d a b)) ((fmtA 21#6 q fn d a b).extractLsb' 21 3) ((fmtA 21#6 q fn d a b).extractLsb' 14 7) ((fmtA 21#6 q fn d a b).extractLsb' 7 7) ((fmtA 21#6 q fn d a b).extractLsb' 0 7) = _
  rw [guardBits, fmtA_q, fmtA_fn, fmtA_d, fmtA_a, fmtA_b]

theorem row16 (q : BitVec 2) (fn : BitVec 3) (d : BitVec 7) (a : BitVec 7) (b : BitVec 7) :
    rowOf (fmtA 22#6 q fn d a b) = decodeMajor16 q fn d a b := by
  rw [rowOf, majorOf, fmtA_m]
  show decodeMajor16 (guardBits (fmtA 22#6 q fn d a b)) ((fmtA 22#6 q fn d a b).extractLsb' 21 3) ((fmtA 22#6 q fn d a b).extractLsb' 14 7) ((fmtA 22#6 q fn d a b).extractLsb' 7 7) ((fmtA 22#6 q fn d a b).extractLsb' 0 7) = _
  rw [guardBits, fmtA_q, fmtA_fn, fmtA_d, fmtA_a, fmtA_b]

theorem row17 (q : BitVec 2) (fn : BitVec 3) (d : BitVec 7) (a : BitVec 7) (b : BitVec 7) :
    rowOf (fmtA 23#6 q fn d a b) = decodeMajor17 q fn d a b := by
  rw [rowOf, majorOf, fmtA_m]
  show decodeMajor17 (guardBits (fmtA 23#6 q fn d a b)) ((fmtA 23#6 q fn d a b).extractLsb' 21 3) ((fmtA 23#6 q fn d a b).extractLsb' 14 7) ((fmtA 23#6 q fn d a b).extractLsb' 7 7) ((fmtA 23#6 q fn d a b).extractLsb' 0 7) = _
  rw [guardBits, fmtA_q, fmtA_fn, fmtA_d, fmtA_a, fmtA_b]

theorem row18 (q : BitVec 2) (fn : BitVec 3) (d : BitVec 7) (a : BitVec 7) (b : BitVec 7) :
    rowOf (fmtA 24#6 q fn d a b) = decodeMajor18 q fn d a b := by
  rw [rowOf, majorOf, fmtA_m]
  show decodeMajor18 (guardBits (fmtA 24#6 q fn d a b)) ((fmtA 24#6 q fn d a b).extractLsb' 21 3) ((fmtA 24#6 q fn d a b).extractLsb' 14 7) ((fmtA 24#6 q fn d a b).extractLsb' 7 7) ((fmtA 24#6 q fn d a b).extractLsb' 0 7) = _
  rw [guardBits, fmtA_q, fmtA_fn, fmtA_d, fmtA_a, fmtA_b]

theorem row19 (q : BitVec 2) (fn : BitVec 3) (d : BitVec 7) (a : BitVec 7) (b : BitVec 7) :
    rowOf (fmtA 25#6 q fn d a b) = decodeMajor19 q fn d a b := by
  rw [rowOf, majorOf, fmtA_m]
  show decodeMajor19 (guardBits (fmtA 25#6 q fn d a b)) ((fmtA 25#6 q fn d a b).extractLsb' 21 3) ((fmtA 25#6 q fn d a b).extractLsb' 14 7) ((fmtA 25#6 q fn d a b).extractLsb' 7 7) ((fmtA 25#6 q fn d a b).extractLsb' 0 7) = _
  rw [guardBits, fmtA_q, fmtA_fn, fmtA_d, fmtA_a, fmtA_b]

theorem row1A (q : BitVec 2) (fn : BitVec 3) (d : BitVec 7) (a : BitVec 7) (b : BitVec 7) :
    rowOf (fmtA 26#6 q fn d a b) = decodeMajor1A q fn d a b := by
  rw [rowOf, majorOf, fmtA_m]
  show decodeMajor1A (guardBits (fmtA 26#6 q fn d a b)) ((fmtA 26#6 q fn d a b).extractLsb' 21 3) ((fmtA 26#6 q fn d a b).extractLsb' 14 7) ((fmtA 26#6 q fn d a b).extractLsb' 7 7) ((fmtA 26#6 q fn d a b).extractLsb' 0 7) = _
  rw [guardBits, fmtA_q, fmtA_fn, fmtA_d, fmtA_a, fmtA_b]

theorem row1B (q : BitVec 2) (d : BitVec 7) (a : BitVec 7) (i : BitVec 10) :
    rowOf (fmtB 27#6 q d a i) = decodeMajor1B q d a i := by
  rw [rowOf, majorOf, fmtB_m]
  show decodeMajor1B (guardBits (fmtB 27#6 q d a i)) ((fmtB 27#6 q d a i).extractLsb' 17 7) ((fmtB 27#6 q d a i).extractLsb' 10 7) ((fmtB 27#6 q d a i).extractLsb' 0 10) = _
  rw [guardBits, fmtB_q, fmtB_d, fmtB_a, fmtB_i]

theorem row1C (q : BitVec 2) (d : BitVec 7) (a : BitVec 7) (i : BitVec 10) :
    rowOf (fmtB 28#6 q d a i) = decodeMajor1C q d a i := by
  rw [rowOf, majorOf, fmtB_m]
  show decodeMajor1C (guardBits (fmtB 28#6 q d a i)) ((fmtB 28#6 q d a i).extractLsb' 17 7) ((fmtB 28#6 q d a i).extractLsb' 10 7) ((fmtB 28#6 q d a i).extractLsb' 0 10) = _
  rw [guardBits, fmtB_q, fmtB_d, fmtB_a, fmtB_i]

theorem row1D (q : BitVec 2) (d : BitVec 7) (a : BitVec 7) (i : BitVec 10) :
    rowOf (fmtB 29#6 q d a i) = decodeMajor1D q d a i := by
  rw [rowOf, majorOf, fmtB_m]
  show decodeMajor1D (guardBits (fmtB 29#6 q d a i)) ((fmtB 29#6 q d a i).extractLsb' 17 7) ((fmtB 29#6 q d a i).extractLsb' 10 7) ((fmtB 29#6 q d a i).extractLsb' 0 10) = _
  rw [guardBits, fmtB_q, fmtB_d, fmtB_a, fmtB_i]

theorem row1E (q : BitVec 2) (d : BitVec 7) (a : BitVec 7) (i : BitVec 10) :
    rowOf (fmtB 30#6 q d a i) = decodeMajor1E q d a i := by
  rw [rowOf, majorOf, fmtB_m]
  show decodeMajor1E (guardBits (fmtB 30#6 q d a i)) ((fmtB 30#6 q d a i).extractLsb' 17 7) ((fmtB 30#6 q d a i).extractLsb' 10 7) ((fmtB 30#6 q d a i).extractLsb' 0 10) = _
  rw [guardBits, fmtB_q, fmtB_d, fmtB_a, fmtB_i]

theorem row1F (q : BitVec 2) (fn : BitVec 3) (d : BitVec 7) (a : BitVec 7) (b : BitVec 7) :
    rowOf (fmtA 31#6 q fn d a b) = decodeMajor1F q fn d a b := by
  rw [rowOf, majorOf, fmtA_m]
  show decodeMajor1F (guardBits (fmtA 31#6 q fn d a b)) ((fmtA 31#6 q fn d a b).extractLsb' 21 3) ((fmtA 31#6 q fn d a b).extractLsb' 14 7) ((fmtA 31#6 q fn d a b).extractLsb' 7 7) ((fmtA 31#6 q fn d a b).extractLsb' 0 7) = _
  rw [guardBits, fmtA_q, fmtA_fn, fmtA_d, fmtA_a, fmtA_b]

theorem row20 (q : BitVec 2) (fn : BitVec 3) (d : BitVec 7) (a : BitVec 7) (b : BitVec 7) :
    rowOf (fmtA 32#6 q fn d a b) = decodeMajor20 q fn d a b := by
  rw [rowOf, majorOf, fmtA_m]
  show decodeMajor20 (guardBits (fmtA 32#6 q fn d a b)) ((fmtA 32#6 q fn d a b).extractLsb' 21 3) ((fmtA 32#6 q fn d a b).extractLsb' 14 7) ((fmtA 32#6 q fn d a b).extractLsb' 7 7) ((fmtA 32#6 q fn d a b).extractLsb' 0 7) = _
  rw [guardBits, fmtA_q, fmtA_fn, fmtA_d, fmtA_a, fmtA_b]

theorem row21 (q : BitVec 2) (fn : BitVec 3) (d : BitVec 7) (a : BitVec 7) (b : BitVec 7) :
    rowOf (fmtA 33#6 q fn d a b) = decodeMajor21 q fn d a b := by
  rw [rowOf, majorOf, fmtA_m]
  show decodeMajor21 (guardBits (fmtA 33#6 q fn d a b)) ((fmtA 33#6 q fn d a b).extractLsb' 21 3) ((fmtA 33#6 q fn d a b).extractLsb' 14 7) ((fmtA 33#6 q fn d a b).extractLsb' 7 7) ((fmtA 33#6 q fn d a b).extractLsb' 0 7) = _
  rw [guardBits, fmtA_q, fmtA_fn, fmtA_d, fmtA_a, fmtA_b]

theorem row22 (q : BitVec 2) (fn : BitVec 3) (d : BitVec 7) (a : BitVec 7) (b : BitVec 7) :
    rowOf (fmtA 34#6 q fn d a b) = decodeMajor22 q fn d a b := by
  rw [rowOf, majorOf, fmtA_m]
  show decodeMajor22 (guardBits (fmtA 34#6 q fn d a b)) ((fmtA 34#6 q fn d a b).extractLsb' 21 3) ((fmtA 34#6 q fn d a b).extractLsb' 14 7) ((fmtA 34#6 q fn d a b).extractLsb' 7 7) ((fmtA 34#6 q fn d a b).extractLsb' 0 7) = _
  rw [guardBits, fmtA_q, fmtA_fn, fmtA_d, fmtA_a, fmtA_b]

theorem row23 (q : BitVec 2) (fn : BitVec 3) (d : BitVec 7) (a : BitVec 7) (b : BitVec 7) :
    rowOf (fmtA 35#6 q fn d a b) = decodeMajor23 q fn d a b := by
  rw [rowOf, majorOf, fmtA_m]
  show decodeMajor23 (guardBits (fmtA 35#6 q fn d a b)) ((fmtA 35#6 q fn d a b).extractLsb' 21 3) ((fmtA 35#6 q fn d a b).extractLsb' 14 7) ((fmtA 35#6 q fn d a b).extractLsb' 7 7) ((fmtA 35#6 q fn d a b).extractLsb' 0 7) = _
  rw [guardBits, fmtA_q, fmtA_fn, fmtA_d, fmtA_a, fmtA_b]

theorem row24 (q : BitVec 2) (fn : BitVec 3) (d : BitVec 7) (a : BitVec 7) (b : BitVec 7) :
    rowOf (fmtA 36#6 q fn d a b) = decodeMajor24 q fn d a b := by
  rw [rowOf, majorOf, fmtA_m]
  show decodeMajor24 (guardBits (fmtA 36#6 q fn d a b)) ((fmtA 36#6 q fn d a b).extractLsb' 21 3) ((fmtA 36#6 q fn d a b).extractLsb' 14 7) ((fmtA 36#6 q fn d a b).extractLsb' 7 7) ((fmtA 36#6 q fn d a b).extractLsb' 0 7) = _
  rw [guardBits, fmtA_q, fmtA_fn, fmtA_d, fmtA_a, fmtA_b]

theorem row25 (q : BitVec 2) (fn : BitVec 3) (d : BitVec 7) (a : BitVec 7) (b : BitVec 7) :
    rowOf (fmtA 37#6 q fn d a b) = decodeMajor25 q fn d a b := by
  rw [rowOf, majorOf, fmtA_m]
  show decodeMajor25 (guardBits (fmtA 37#6 q fn d a b)) ((fmtA 37#6 q fn d a b).extractLsb' 21 3) ((fmtA 37#6 q fn d a b).extractLsb' 14 7) ((fmtA 37#6 q fn d a b).extractLsb' 7 7) ((fmtA 37#6 q fn d a b).extractLsb' 0 7) = _
  rw [guardBits, fmtA_q, fmtA_fn, fmtA_d, fmtA_a, fmtA_b]

theorem row26 (q : BitVec 2) (fn : BitVec 3) (d : BitVec 7) (a : BitVec 7) (b : BitVec 7) :
    rowOf (fmtA 38#6 q fn d a b) = decodeMajor26 q fn d a b := by
  rw [rowOf, majorOf, fmtA_m]
  show decodeMajor26 (guardBits (fmtA 38#6 q fn d a b)) ((fmtA 38#6 q fn d a b).extractLsb' 21 3) ((fmtA 38#6 q fn d a b).extractLsb' 14 7) ((fmtA 38#6 q fn d a b).extractLsb' 7 7) ((fmtA 38#6 q fn d a b).extractLsb' 0 7) = _
  rw [guardBits, fmtA_q, fmtA_fn, fmtA_d, fmtA_a, fmtA_b]

theorem row27 (q : BitVec 2) (fn : BitVec 3) (d : BitVec 7) (a : BitVec 7) (b : BitVec 7) :
    rowOf (fmtA 39#6 q fn d a b) = decodeMajor27 q fn d a b := by
  rw [rowOf, majorOf, fmtA_m]
  show decodeMajor27 (guardBits (fmtA 39#6 q fn d a b)) ((fmtA 39#6 q fn d a b).extractLsb' 21 3) ((fmtA 39#6 q fn d a b).extractLsb' 14 7) ((fmtA 39#6 q fn d a b).extractLsb' 7 7) ((fmtA 39#6 q fn d a b).extractLsb' 0 7) = _
  rw [guardBits, fmtA_q, fmtA_fn, fmtA_d, fmtA_a, fmtA_b]

theorem row28 (q : BitVec 2) (fn : BitVec 3) (d : BitVec 7) (a : BitVec 7) (b : BitVec 7) :
    rowOf (fmtA 40#6 q fn d a b) = decodeMajor28 q fn d a b := by
  rw [rowOf, majorOf, fmtA_m]
  show decodeMajor28 (guardBits (fmtA 40#6 q fn d a b)) ((fmtA 40#6 q fn d a b).extractLsb' 21 3) ((fmtA 40#6 q fn d a b).extractLsb' 14 7) ((fmtA 40#6 q fn d a b).extractLsb' 7 7) ((fmtA 40#6 q fn d a b).extractLsb' 0 7) = _
  rw [guardBits, fmtA_q, fmtA_fn, fmtA_d, fmtA_a, fmtA_b]

theorem row29 (q : BitVec 2) (fn : BitVec 3) (d : BitVec 7) (a : BitVec 7) (b : BitVec 7) :
    rowOf (fmtA 41#6 q fn d a b) = decodeMajor29 q fn d a b := by
  rw [rowOf, majorOf, fmtA_m]
  show decodeMajor29 (guardBits (fmtA 41#6 q fn d a b)) ((fmtA 41#6 q fn d a b).extractLsb' 21 3) ((fmtA 41#6 q fn d a b).extractLsb' 14 7) ((fmtA 41#6 q fn d a b).extractLsb' 7 7) ((fmtA 41#6 q fn d a b).extractLsb' 0 7) = _
  rw [guardBits, fmtA_q, fmtA_fn, fmtA_d, fmtA_a, fmtA_b]

theorem row2A (q : BitVec 2) (d : BitVec 7) (a : BitVec 7) (i : BitVec 10) :
    rowOf (fmtB 42#6 q d a i) = decodeMajor2A q d a i := by
  rw [rowOf, majorOf, fmtB_m]
  show decodeMajor2A (guardBits (fmtB 42#6 q d a i)) ((fmtB 42#6 q d a i).extractLsb' 17 7) ((fmtB 42#6 q d a i).extractLsb' 10 7) ((fmtB 42#6 q d a i).extractLsb' 0 10) = _
  rw [guardBits, fmtB_q, fmtB_d, fmtB_a, fmtB_i]

theorem row2B (q : BitVec 2) (d : BitVec 7) (a : BitVec 7) (i : BitVec 10) :
    rowOf (fmtB 43#6 q d a i) = decodeMajor2B q d a i := by
  rw [rowOf, majorOf, fmtB_m]
  show decodeMajor2B (guardBits (fmtB 43#6 q d a i)) ((fmtB 43#6 q d a i).extractLsb' 17 7) ((fmtB 43#6 q d a i).extractLsb' 10 7) ((fmtB 43#6 q d a i).extractLsb' 0 10) = _
  rw [guardBits, fmtB_q, fmtB_d, fmtB_a, fmtB_i]

theorem row2C (q : BitVec 2) (d : BitVec 7) (i : BitVec 17) :
    rowOf (fmtI 44#6 q d i) = decodeMajor2C q d i := by
  rw [rowOf, majorOf, fmtI_m]
  show decodeMajor2C (guardBits (fmtI 44#6 q d i)) ((fmtI 44#6 q d i).extractLsb' 17 7) ((fmtI 44#6 q d i).extractLsb' 0 17) = _
  rw [guardBits, fmtI_q, fmtI_d, fmtI_i]

theorem row2D (q : BitVec 2) (fn : BitVec 3) (d : BitVec 7) (a : BitVec 7) (b : BitVec 7) :
    rowOf (fmtA 45#6 q fn d a b) = decodeMajor2D q fn d a b := by
  rw [rowOf, majorOf, fmtA_m]
  show decodeMajor2D (guardBits (fmtA 45#6 q fn d a b)) ((fmtA 45#6 q fn d a b).extractLsb' 21 3) ((fmtA 45#6 q fn d a b).extractLsb' 14 7) ((fmtA 45#6 q fn d a b).extractLsb' 7 7) ((fmtA 45#6 q fn d a b).extractLsb' 0 7) = _
  rw [guardBits, fmtA_q, fmtA_fn, fmtA_d, fmtA_a, fmtA_b]

theorem row2E (q : BitVec 2) (i : BitVec 24) :
    rowOf (fmtC 46#6 q i) = decodeMajor2E q i := by
  rw [rowOf, majorOf, fmtC_m]
  show decodeMajor2E (guardBits (fmtC 46#6 q i)) ((fmtC 46#6 q i).extractLsb' 0 24) = _
  rw [guardBits, fmtC_q, fmtC_i]

theorem row2F (q : BitVec 2) (i : BitVec 24) :
    rowOf (fmtC 47#6 q i) = decodeMajor2F q i := by
  rw [rowOf, majorOf, fmtC_m]
  show decodeMajor2F (guardBits (fmtC 47#6 q i)) ((fmtC 47#6 q i).extractLsb' 0 24) = _
  rw [guardBits, fmtC_q, fmtC_i]

theorem row30 (q : BitVec 2) (fn : BitVec 3) (d : BitVec 7) (a : BitVec 7) (b : BitVec 7) :
    rowOf (fmtA 48#6 q fn d a b) = decodeMajor30 q fn d a b := by
  rw [rowOf, majorOf, fmtA_m]
  show decodeMajor30 (guardBits (fmtA 48#6 q fn d a b)) ((fmtA 48#6 q fn d a b).extractLsb' 21 3) ((fmtA 48#6 q fn d a b).extractLsb' 14 7) ((fmtA 48#6 q fn d a b).extractLsb' 7 7) ((fmtA 48#6 q fn d a b).extractLsb' 0 7) = _
  rw [guardBits, fmtA_q, fmtA_fn, fmtA_d, fmtA_a, fmtA_b]

theorem row31 (q : BitVec 2) (fn : BitVec 3) (d : BitVec 7) (a : BitVec 7) (b : BitVec 7) :
    rowOf (fmtA 49#6 q fn d a b) = decodeMajor31 q fn d a b := by
  rw [rowOf, majorOf, fmtA_m]
  show decodeMajor31 (guardBits (fmtA 49#6 q fn d a b)) ((fmtA 49#6 q fn d a b).extractLsb' 21 3) ((fmtA 49#6 q fn d a b).extractLsb' 14 7) ((fmtA 49#6 q fn d a b).extractLsb' 7 7) ((fmtA 49#6 q fn d a b).extractLsb' 0 7) = _
  rw [guardBits, fmtA_q, fmtA_fn, fmtA_d, fmtA_a, fmtA_b]

theorem row32 (q : BitVec 2) (d : BitVec 7) (a : BitVec 7) (i : BitVec 10) :
    rowOf (fmtB 50#6 q d a i) = decodeMajor32 q d a i := by
  rw [rowOf, majorOf, fmtB_m]
  show decodeMajor32 (guardBits (fmtB 50#6 q d a i)) ((fmtB 50#6 q d a i).extractLsb' 17 7) ((fmtB 50#6 q d a i).extractLsb' 10 7) ((fmtB 50#6 q d a i).extractLsb' 0 10) = _
  rw [guardBits, fmtB_q, fmtB_d, fmtB_a, fmtB_i]

theorem row33 (q : BitVec 2) (d : BitVec 7) (a : BitVec 7) (i : BitVec 10) :
    rowOf (fmtB 51#6 q d a i) = decodeMajor33 q d a i := by
  rw [rowOf, majorOf, fmtB_m]
  show decodeMajor33 (guardBits (fmtB 51#6 q d a i)) ((fmtB 51#6 q d a i).extractLsb' 17 7) ((fmtB 51#6 q d a i).extractLsb' 10 7) ((fmtB 51#6 q d a i).extractLsb' 0 10) = _
  rw [guardBits, fmtB_q, fmtB_d, fmtB_a, fmtB_i]

theorem row34 (q : BitVec 2) (fn : BitVec 3) (d : BitVec 7) (a : BitVec 7) (b : BitVec 7) :
    rowOf (fmtA 52#6 q fn d a b) = decodeMajor34 q fn d a b := by
  rw [rowOf, majorOf, fmtA_m]
  show decodeMajor34 (guardBits (fmtA 52#6 q fn d a b)) ((fmtA 52#6 q fn d a b).extractLsb' 21 3) ((fmtA 52#6 q fn d a b).extractLsb' 14 7) ((fmtA 52#6 q fn d a b).extractLsb' 7 7) ((fmtA 52#6 q fn d a b).extractLsb' 0 7) = _
  rw [guardBits, fmtA_q, fmtA_fn, fmtA_d, fmtA_a, fmtA_b]

theorem row35 (q : BitVec 2) (fn : BitVec 3) (d : BitVec 7) (a : BitVec 7) (b : BitVec 7) :
    rowOf (fmtA 53#6 q fn d a b) = decodeMajor35 q fn d a b := by
  rw [rowOf, majorOf, fmtA_m]
  show decodeMajor35 (guardBits (fmtA 53#6 q fn d a b)) ((fmtA 53#6 q fn d a b).extractLsb' 21 3) ((fmtA 53#6 q fn d a b).extractLsb' 14 7) ((fmtA 53#6 q fn d a b).extractLsb' 7 7) ((fmtA 53#6 q fn d a b).extractLsb' 0 7) = _
  rw [guardBits, fmtA_q, fmtA_fn, fmtA_d, fmtA_a, fmtA_b]

theorem row36 (q : BitVec 2) (fn : BitVec 3) (d : BitVec 7) (a : BitVec 7) (b : BitVec 7) :
    rowOf (fmtA 54#6 q fn d a b) = decodeMajor36 q fn d a b := by
  rw [rowOf, majorOf, fmtA_m]
  show decodeMajor36 (guardBits (fmtA 54#6 q fn d a b)) ((fmtA 54#6 q fn d a b).extractLsb' 21 3) ((fmtA 54#6 q fn d a b).extractLsb' 14 7) ((fmtA 54#6 q fn d a b).extractLsb' 7 7) ((fmtA 54#6 q fn d a b).extractLsb' 0 7) = _
  rw [guardBits, fmtA_q, fmtA_fn, fmtA_d, fmtA_a, fmtA_b]

theorem row37 (q : BitVec 2) (fn : BitVec 3) (d : BitVec 7) (a : BitVec 7) (b : BitVec 7) :
    rowOf (fmtA 55#6 q fn d a b) = decodeMajor37 q fn d a b := by
  rw [rowOf, majorOf, fmtA_m]
  show decodeMajor37 (guardBits (fmtA 55#6 q fn d a b)) ((fmtA 55#6 q fn d a b).extractLsb' 21 3) ((fmtA 55#6 q fn d a b).extractLsb' 14 7) ((fmtA 55#6 q fn d a b).extractLsb' 7 7) ((fmtA 55#6 q fn d a b).extractLsb' 0 7) = _
  rw [guardBits, fmtA_q, fmtA_fn, fmtA_d, fmtA_a, fmtA_b]

theorem row38 (q : BitVec 2) (fn : BitVec 3) (d : BitVec 7) (a : BitVec 7) (b : BitVec 7) :
    rowOf (fmtA 56#6 q fn d a b) = decodeMajor38 q fn d a b := by
  rw [rowOf, majorOf, fmtA_m]
  show decodeMajor38 (guardBits (fmtA 56#6 q fn d a b)) ((fmtA 56#6 q fn d a b).extractLsb' 21 3) ((fmtA 56#6 q fn d a b).extractLsb' 14 7) ((fmtA 56#6 q fn d a b).extractLsb' 7 7) ((fmtA 56#6 q fn d a b).extractLsb' 0 7) = _
  rw [guardBits, fmtA_q, fmtA_fn, fmtA_d, fmtA_a, fmtA_b]

theorem row39 (q : BitVec 2) (a : BitVec 4) (b : BitVec 4) (c : BitVec 3) (d : BitVec 7) (f : BitVec 6) :
    rowOf (fmtX 57#6 q a b c d f) = decodeMajor39 q a b c d f := by
  rw [rowOf, majorOf, fmtX_m]
  show decodeMajor39 (guardBits (fmtX 57#6 q a b c d f)) ((fmtX 57#6 q a b c d f).extractLsb' 20 4) ((fmtX 57#6 q a b c d f).extractLsb' 16 4) ((fmtX 57#6 q a b c d f).extractLsb' 13 3) ((fmtX 57#6 q a b c d f).extractLsb' 6 7) ((fmtX 57#6 q a b c d f).extractLsb' 0 6) = _
  rw [guardBits, fmtX_q, fmtX_a, fmtX_b, fmtX_c, fmtX_d, fmtX_f]

theorem row3A (q : BitVec 2) (i : BitVec 24) :
    rowOf (fmtC 58#6 q i) = decodeMajor3A q i := by
  rw [rowOf, majorOf, fmtC_m]
  show decodeMajor3A (guardBits (fmtC 58#6 q i)) ((fmtC 58#6 q i).extractLsb' 0 24) = _
  rw [guardBits, fmtC_q, fmtC_i]

theorem row3B (q : BitVec 2) (n : BitVec 6) (k : BitVec 3) (s : BitVec 3) (g : BitVec 7) (z : BitVec 5) :
    rowOf (fmtP 59#6 q n k s g z) = decodeMajor3B q n k s g z := by
  rw [rowOf, majorOf, fmtP_m]
  show decodeMajor3B (guardBits (fmtP 59#6 q n k s g z)) ((fmtP 59#6 q n k s g z).extractLsb' 18 6) ((fmtP 59#6 q n k s g z).extractLsb' 15 3) ((fmtP 59#6 q n k s g z).extractLsb' 12 3) ((fmtP 59#6 q n k s g z).extractLsb' 5 7) ((fmtP 59#6 q n k s g z).extractLsb' 0 5) = _
  rw [guardBits, fmtP_q, fmtP_n, fmtP_k, fmtP_s, fmtP_g, fmtP_z]

/-- The pairs of values a joined opcode field cannot take. -/
theorem join_high_ne : (∀ s : BitVec 2, (1#1 ++ s : BitVec 3) ≠ 0#3) ∧ (∀ s : BitVec 2, (1#1 ++ s : BitVec 3) ≠ 1#3) ∧
    (∀ s : BitVec 2, (0#1 ++ s : BitVec 3) ≠ 4#3) ∧ (∀ s : BitVec 2, (0#1 ++ s : BitVec 3) ≠ 5#3) ∧
    (∀ s : BitVec 2, (0#1 ++ s : BitVec 3) ≠ 6#3) ∧ (∀ s : BitVec 2, (0#1 ++ s : BitVec 3) ≠ 7#3) ∧
    (∀ w : BitVec 1, (1#2 ++ w : BitVec 3) ≠ 0#3) ∧ (∀ w : BitVec 1, (1#2 ++ w : BitVec 3) ≠ 1#3) ∧
    (∀ w : BitVec 1, (2#2 ++ w : BitVec 3) ≠ 0#3) ∧ (∀ w : BitVec 1, (2#2 ++ w : BitVec 3) ≠ 1#3) ∧
    (∀ w : BitVec 1, (0#2 ++ w : BitVec 3) ≠ 4#3) ∧ (∀ w : BitVec 1, (1#2 ++ w : BitVec 3) ≠ 4#3) := by decide

/-- The rows of MOV are the rows of SEL whose predicate is P0 (04 R81). -/
theorem sel_not_mov : ∀ (w : BitVec 1) (p : BitVec 2), p ≠ 0#2 → (w ++ p : BitVec 3) ≠ 0#3 ∧ (w ++ p : BitVec 3) ≠ 4#3 := by decide

/-- The functions of PSET leave its other rows free (04 R81). -/
theorem pset_codes : ∀ f : BitVec 3, f.toNat < 4 ∨ f = 4#3 → f ≠ 5#3 ∧ f ≠ 6#3 := by decide

/-- The rounding codes of CVT leave its other rows free (04 R81). -/
theorem cvt_codes : ∀ f : BitVec 3, f.toNat < 6 → f ≠ 6#3 ∧ f ≠ 7#3 := by decide

theorem createQueue (q : Nat) (ring : BitVec 64) (size : Nat) (prio : Nat) (dies : List Nat) (root : BitVec 64) (headva : BitVec 64) (status : Nat) (rsv : Bool) : Statement (.createQueue q ring size prio dies root headva status rsv) :=
  fun ok => Bool.noConfusion (show false = true from ok)

theorem destroyQueue (q : Nat) (status : Nat) (rsv : Bool) : Statement (.destroyQueue q status rsv) :=
  fun ok => Bool.noConfusion (show false = true from ok)

theorem resetQueue (q : Nat) (status : Nat) (rsv : Bool) : Statement (.resetQueue q status rsv) :=
  fun ok => Bool.noConfusion (show false = true from ok)

theorem abortQueue (q : Nat) (status : Nat) (rsv : Bool) : Statement (.abortQueue q status rsv) :=
  fun ok => Bool.noConfusion (show false = true from ok)

theorem setQuantum (us : Nat) (status : Nat) (rsv : Bool) : Statement (.setQuantum us status rsv) :=
  fun ok => Bool.noConfusion (show false = true from ok)

theorem invalidate (root : BitVec 64) (va : BitVec 64) (pages : Nat) (status : Nat) (rsv : Bool) : Statement (.invalidate root va pages status rsv) :=
  fun ok => Bool.noConfusion (show false = true from ok)

theorem pageResponse (id : Nat) (answer : Nat) (status : Nat) (rsv : Bool) : Statement (.pageResponse id answer status rsv) :=
  fun ok => Bool.noConfusion (show false = true from ok)

theorem doorbell (q : Nat) (value : BitVec 64) : Statement (.doorbell q value) :=
  fun ok => Bool.noConfusion (show false = true from ok)

theorem registerWrite (offset : Nat) (size : Nat) (value : BitVec 64) : Statement (.registerWrite offset size value) :=
  fun ok => Bool.noConfusion (show false = true from ok)

theorem attestationRequest (nonce : List (BitVec 8)) : Statement (.attestationRequest nonce) :=
  fun ok => Bool.noConfusion (show false = true from ok)

theorem hostWrite (pa : Nat) (data : List (BitVec 8)) : Statement (.hostWrite pa data) :=
  fun ok => Bool.noConfusion (show false = true from ok)

theorem hostRead (pa : Nat) (len : Nat) : Statement (.hostRead pa len) :=
  fun ok => Bool.noConfusion (show false = true from ok)

theorem linkTraining (m : Nat) (trained : Bool) : Statement (.linkTraining m trained) :=
  fun ok => Bool.noConfusion (show false = true from ok)

theorem resetBoot (firmware : List (BitVec 8)) (fwSig : List (BitVec 8)) (record : List (BitVec 8)) (recSig : List (BitVec 8)) : Statement (.resetBoot firmware fwSig record recSig) :=
  fun ok => Bool.noConfusion (show false = true from ok)

theorem remoteRequest (kind : Nat) (code : Nat) (pa : Nat) (data : List (BitVec 8)) : Statement (.remoteRequest kind code pa data) :=
  fun ok => Bool.noConfusion (show false = true from ok)

theorem remoteRequestTimeout (pkg : Nat) : Statement (.remoteRequestTimeout pkg) :=
  fun ok => Bool.noConfusion (show false = true from ok)

theorem thermalStepChange (die : Nat) (celsius : Nat) : Statement (.thermalStepChange die celsius) :=
  fun ok => Bool.noConfusion (show false = true from ok)

theorem powerThrottle (watts : Nat) : Statement (.powerThrottle watts) :=
  fun ok => Bool.noConfusion (show false = true from ok)

theorem droopEvent (die : Nat) (cycles : Nat) : Statement (.droopEvent die cycles) :=
  fun ok => Bool.noConfusion (show false = true from ok)

theorem packetRead (q : Nat) : Statement (.packetRead q) :=
  fun ok => Bool.noConfusion (show false = true from ok)

theorem headPublish (q : Nat) : Statement (.headPublish q) :=
  fun ok => Bool.noConfusion (show false = true from ok)

theorem launchPacket (q : Nat) : Statement (.launchPacket q) :=
  fun ok => Bool.noConfusion (show false = true from ok)

theorem copyPacket (q : Nat) : Statement (.copyPacket q) :=
  fun ok => Bool.noConfusion (show false = true from ok)

theorem waitSignalPacket (q : Nat) : Statement (.waitSignalPacket q) :=
  fun ok => Bool.noConfusion (show false = true from ok)

theorem setSignalPacket (q : Nat) : Statement (.setSignalPacket q) :=
  fun ok => Bool.noConfusion (show false = true from ok)

theorem teamDispatch (job : Nat) (core : Nat) : Statement (.teamDispatch job core) :=
  fun ok => Bool.noConfusion (show false = true from ok)

theorem taskStart (core : Nat) : Statement (.taskStart core) :=
  fun ok => Bool.noConfusion (show false = true from ok)

theorem taskSteal (thief : Nat) (victim : Nat) : Statement (.taskSteal thief victim) :=
  fun ok => Bool.noConfusion (show false = true from ok)

theorem timeSlice (job : Nat) (lcore : Nat) (core : Nat) : Statement (.timeSlice job lcore core) :=
  fun ok => Bool.noConfusion (show false = true from ok)

theorem racking (job : Nat) (lcore : Nat) (core : Nat) : Statement (.racking job lcore core) :=
  fun ok => Bool.noConfusion (show false = true from ok)

theorem switchOut (job : Nat) (team : Nat) : Statement (.switchOut job team) :=
  fun ok => Bool.noConfusion (show false = true from ok)

theorem restore (job : Nat) (team : Nat) (core : Nat) : Statement (.restore job team core) :=
  fun ok => Bool.noConfusion (show false = true from ok)

theorem engineContextSwitch (job : Nat) (cluster : Nat) : Statement (.engineContextSwitch job cluster) :=
  fun ok => Bool.noConfusion (show false = true from ok)

theorem engineArrival (op : Nat) : Statement (.engineArrival op) :=
  fun ok => Bool.noConfusion (show false = true from ok)

theorem triggeredOpComplete (k : Nat) : Statement (.triggeredOpComplete k) :=
  fun ok => Bool.noConfusion (show false = true from ok)

theorem iaddV (q : BitVec 2) (d : BitVec 7) (a : BitVec 7) (b : BitVec 7) : Statement (.iaddV q d a b) := by
  intro ok
  show rowOf (fmtA 0#6 q 0#3 d a b) = _
  rw [row00]
  simp [decodeMajor00]

theorem isubV (q : BitVec 2) (d : BitVec 7) (a : BitVec 7) (b : BitVec 7) : Statement (.isubV q d a b) := by
  intro ok
  show rowOf (fmtA 0#6 q 1#3 d a b) = _
  rw [row00]
  simp [decodeMajor00]

theorem imulV (q : BitVec 2) (d : BitVec 7) (a : BitVec 7) (b : BitVec 7) : Statement (.imulV q d a b) := by
  intro ok
  show rowOf (fmtA 0#6 q 2#3 d a b) = _
  rw [row00]
  simp [decodeMajor00]

theorem imulhS32V (q : BitVec 2) (d : BitVec 7) (a : BitVec 7) (b : BitVec 7) : Statement (.imulhS32V q d a b) := by
  intro ok
  show rowOf (fmtA 0#6 q 3#3 d a b) = _
  rw [row00]
  simp [decodeMajor00]

theorem imulhZ32V (q : BitVec 2) (d : BitVec 7) (a : BitVec 7) (b : BitVec 7) : Statement (.imulhZ32V q d a b) := by
  intro ok
  show rowOf (fmtA 0#6 q 4#3 d a b) = _
  rw [row00]
  simp [decodeMajor00]

theorem imadV (q : BitVec 2) (d : BitVec 7) (a : BitVec 7) (b : BitVec 7) : Statement (.imadV q d a b) := by
  intro ok
  show rowOf (fmtA 0#6 q 5#3 d a b) = _
  rw [row00]
  simp [decodeMajor00]

theorem iabsV (q : BitVec 2) (d : BitVec 7) (a : BitVec 7) : Statement (.iabsV q d a) := by
  intro ok
  show rowOf (fmtA 0#6 q 6#3 d a 0#7) = _
  rw [row00]
  simp [decodeMajor00]

theorem iaddV64 (q : BitVec 2) (d : BitVec 7) (a : BitVec 7) (b : BitVec 7) : Statement (.iaddV64 q d a b) := by
  intro ok
  show rowOf (fmtA 1#6 q 0#3 d a b) = _
  rw [row01]
  simp [decodeMajor01]

theorem isubV64 (q : BitVec 2) (d : BitVec 7) (a : BitVec 7) (b : BitVec 7) : Statement (.isubV64 q d a b) := by
  intro ok
  show rowOf (fmtA 1#6 q 1#3 d a b) = _
  rw [row01]
  simp [decodeMajor01]

theorem imulV64 (q : BitVec 2) (d : BitVec 7) (a : BitVec 7) (b : BitVec 7) : Statement (.imulV64 q d a b) := by
  intro ok
  show rowOf (fmtA 1#6 q 2#3 d a b) = _
  rw [row01]
  simp [decodeMajor01]

theorem imulhS64V (q : BitVec 2) (d : BitVec 7) (a : BitVec 7) (b : BitVec 7) : Statement (.imulhS64V q d a b) := by
  intro ok
  show rowOf (fmtA 1#6 q 3#3 d a b) = _
  rw [row01]
  simp [decodeMajor01]

theorem imulhZ64V (q : BitVec 2) (d : BitVec 7) (a : BitVec 7) (b : BitVec 7) : Statement (.imulhZ64V q d a b) := by
  intro ok
  show rowOf (fmtA 1#6 q 4#3 d a b) = _
  rw [row01]
  simp [decodeMajor01]

theorem imadV64 (q : BitVec 2) (d : BitVec 7) (a : BitVec 7) (b : BitVec 7) : Statement (.imadV64 q d a b) := by
  intro ok
  show rowOf (fmtA 1#6 q 5#3 d a b) = _
  rw [row01]
  simp [decodeMajor01]

theorem iabsV64 (q : BitVec 2) (d : BitVec 7) (a : BitVec 7) : Statement (.iabsV64 q d a) := by
  intro ok
  show rowOf (fmtA 1#6 q 6#3 d a 0#7) = _
  rw [row01]
  simp [decodeMajor01]

theorem iaddG32 (q : BitVec 2) (d : BitVec 7) (a : BitVec 7) (b : BitVec 7) : Statement (.iaddG32 q d a b) := by
  intro ok
  show rowOf (fmtA 32#6 q 0#3 d a b) = _
  rw [row20]
  simp [decodeMajor20]

theorem isubG32 (q : BitVec 2) (d : BitVec 7) (a : BitVec 7) (b : BitVec 7) : Statement (.isubG32 q d a b) := by
  intro ok
  show rowOf (fmtA 32#6 q 1#3 d a b) = _
  rw [row20]
  simp [decodeMajor20]

theorem imulG32 (q : BitVec 2) (d : BitVec 7) (a : BitVec 7) (b : BitVec 7) : Statement (.imulG32 q d a b) := by
  intro ok
  show rowOf (fmtA 32#6 q 2#3 d a b) = _
  rw [row20]
  simp [decodeMajor20]

theorem imulhS32G (q : BitVec 2) (d : BitVec 7) (a : BitVec 7) (b : BitVec 7) : Statement (.imulhS32G q d a b) := by
  intro ok
  show rowOf (fmtA 32#6 q 3#3 d a b) = _
  rw [row20]
  simp [decodeMajor20]

theorem imulhZ32G (q : BitVec 2) (d : BitVec 7) (a : BitVec 7) (b : BitVec 7) : Statement (.imulhZ32G q d a b) := by
  intro ok
  show rowOf (fmtA 32#6 q 4#3 d a b) = _
  rw [row20]
  simp [decodeMajor20]

theorem imadG32 (q : BitVec 2) (d : BitVec 7) (a : BitVec 7) (b : BitVec 7) : Statement (.imadG32 q d a b) := by
  intro ok
  show rowOf (fmtA 32#6 q 5#3 d a b) = _
  rw [row20]
  simp [decodeMajor20]

theorem iabsG32 (q : BitVec 2) (d : BitVec 7) (a : BitVec 7) : Statement (.iabsG32 q d a) := by
  intro ok
  show rowOf (fmtA 32#6 q 6#3 d a 0#7) = _
  rw [row20]
  simp [decodeMajor20]

theorem iaddG64 (q : BitVec 2) (d : BitVec 7) (a : BitVec 7) (b : BitVec 7) : Statement (.iaddG64 q d a b) := by
  intro ok
  show rowOf (fmtA 33#6 q 0#3 d a b) = _
  rw [row21]
  simp [decodeMajor21]

theorem isubG64 (q : BitVec 2) (d : BitVec 7) (a : BitVec 7) (b : BitVec 7) : Statement (.isubG64 q d a b) := by
  intro ok
  show rowOf (fmtA 33#6 q 1#3 d a b) = _
  rw [row21]
  simp [decodeMajor21]

theorem imulG64 (q : BitVec 2) (d : BitVec 7) (a : BitVec 7) (b : BitVec 7) : Statement (.imulG64 q d a b) := by
  intro ok
  show rowOf (fmtA 33#6 q 2#3 d a b) = _
  rw [row21]
  simp [decodeMajor21]

theorem imulhS64G (q : BitVec 2) (d : BitVec 7) (a : BitVec 7) (b : BitVec 7) : Statement (.imulhS64G q d a b) := by
  intro ok
  show rowOf (fmtA 33#6 q 3#3 d a b) = _
  rw [row21]
  simp [decodeMajor21]

theorem imulhZ64G (q : BitVec 2) (d : BitVec 7) (a : BitVec 7) (b : BitVec 7) : Statement (.imulhZ64G q d a b) := by
  intro ok
  show rowOf (fmtA 33#6 q 4#3 d a b) = _
  rw [row21]
  simp [decodeMajor21]

theorem imadG64 (q : BitVec 2) (d : BitVec 7) (a : BitVec 7) (b : BitVec 7) : Statement (.imadG64 q d a b) := by
  intro ok
  show rowOf (fmtA 33#6 q 5#3 d a b) = _
  rw [row21]
  simp [decodeMajor21]

theorem iabsG64 (q : BitVec 2) (d : BitVec 7) (a : BitVec 7) : Statement (.iabsG64 q d a) := by
  intro ok
  show rowOf (fmtA 33#6 q 6#3 d a 0#7) = _
  rw [row21]
  simp [decodeMajor21]

theorem iaddImmV (q : BitVec 2) (d : BitVec 7) (a : BitVec 7) (i : BitVec 10) : Statement (.iaddImmV q d a i) := by
  intro ok
  show rowOf (fmtB 10#6 q d a i) = _
  rw [row0A]
  simp [decodeMajor0A]

theorem iaddImmV64 (q : BitVec 2) (d : BitVec 7) (a : BitVec 7) (i : BitVec 10) : Statement (.iaddImmV64 q d a i) := by
  intro ok
  show rowOf (fmtB 11#6 q d a i) = _
  rw [row0B]
  simp [decodeMajor0B]

theorem iaddImmG32 (q : BitVec 2) (d : BitVec 7) (a : BitVec 7) (i : BitVec 10) : Statement (.iaddImmG32 q d a i) := by
  intro ok
  show rowOf (fmtB 42#6 q d a i) = _
  rw [row2A]
  simp [decodeMajor2A]

theorem iaddImmG64 (q : BitVec 2) (d : BitVec 7) (a : BitVec 7) (i : BitVec 10) : Statement (.iaddImmG64 q d a i) := by
  intro ok
  show rowOf (fmtB 43#6 q d a i) = _
  rw [row2B]
  simp [decodeMajor2B]

theorem imaxV (q : BitVec 2) (w : BitVec 1) (s : BitVec 1) (d : BitVec 7) (a : BitVec 7) (b : BitVec 7) : Statement (.imaxV q w s d a b) := by
  intro ok
  show rowOf (fmtA 2#6 q (w ++ 0#1 ++ s) d a b) = _
  rw [row02]
  simp [decodeMajor02]

theorem iminV (q : BitVec 2) (w : BitVec 1) (s : BitVec 1) (d : BitVec 7) (a : BitVec 7) (b : BitVec 7) : Statement (.iminV q w s d a b) := by
  intro ok
  show rowOf (fmtA 2#6 q (w ++ 1#1 ++ s) d a b) = _
  rw [row02]
  simp [decodeMajor02]

theorem imaxG (q : BitVec 2) (w : BitVec 1) (s : BitVec 1) (d : BitVec 7) (a : BitVec 7) (b : BitVec 7) : Statement (.imaxG q w s d a b) := by
  intro ok
  show rowOf (fmtA 34#6 q (w ++ 0#1 ++ s) d a b) = _
  rw [row22]
  simp [decodeMajor22]

theorem iminG (q : BitVec 2) (w : BitVec 1) (s : BitVec 1) (d : BitVec 7) (a : BitVec 7) (b : BitVec 7) : Statement (.iminG q w s d a b) := by
  intro ok
  show rowOf (fmtA 34#6 q (w ++ 1#1 ++ s) d a b) = _
  rw [row22]
  simp [decodeMajor22]

theorem andV (q : BitVec 2) (w : BitVec 1) (d : BitVec 7) (a : BitVec 7) (b : BitVec 7) : Statement (.andV q w d a b) := by
  intro ok
  show rowOf (fmtA 3#6 q (w ++ 0#2) d a b) = _
  rw [row03]
  simp [decodeMajor03]

theorem orV (q : BitVec 2) (w : BitVec 1) (d : BitVec 7) (a : BitVec 7) (b : BitVec 7) : Statement (.orV q w d a b) := by
  intro ok
  show rowOf (fmtA 3#6 q (w ++ 1#2) d a b) = _
  rw [row03]
  simp [decodeMajor03]

theorem xorV (q : BitVec 2) (w : BitVec 1) (d : BitVec 7) (a : BitVec 7) (b : BitVec 7) : Statement (.xorV q w d a b) := by
  intro ok
  show rowOf (fmtA 3#6 q (w ++ 2#2) d a b) = _
  rw [row03]
  simp [decodeMajor03]

theorem andnV (q : BitVec 2) (w : BitVec 1) (d : BitVec 7) (a : BitVec 7) (b : BitVec 7) : Statement (.andnV q w d a b) := by
  intro ok
  show rowOf (fmtA 3#6 q (w ++ 3#2) d a b) = _
  rw [row03]
  simp [decodeMajor03]

theorem andG (q : BitVec 2) (w : BitVec 1) (d : BitVec 7) (a : BitVec 7) (b : BitVec 7) : Statement (.andG q w d a b) := by
  intro ok
  show rowOf (fmtA 35#6 q (w ++ 0#2) d a b) = _
  rw [row23]
  simp [decodeMajor23]

theorem orG (q : BitVec 2) (w : BitVec 1) (d : BitVec 7) (a : BitVec 7) (b : BitVec 7) : Statement (.orG q w d a b) := by
  intro ok
  show rowOf (fmtA 35#6 q (w ++ 1#2) d a b) = _
  rw [row23]
  simp [decodeMajor23]

theorem xorG (q : BitVec 2) (w : BitVec 1) (d : BitVec 7) (a : BitVec 7) (b : BitVec 7) : Statement (.xorG q w d a b) := by
  intro ok
  show rowOf (fmtA 35#6 q (w ++ 2#2) d a b) = _
  rw [row23]
  simp [decodeMajor23]

theorem andnG (q : BitVec 2) (w : BitVec 1) (d : BitVec 7) (a : BitVec 7) (b : BitVec 7) : Statement (.andnG q w d a b) := by
  intro ok
  show rowOf (fmtA 35#6 q (w ++ 3#2) d a b) = _
  rw [row23]
  simp [decodeMajor23]

theorem shlV (q : BitVec 2) (i : BitVec 1) (d : BitVec 7) (a : BitVec 7) (b : BitVec 7) : Statement (.shlV q i d a b) := by
  intro ok
  show rowOf (fmtA 4#6 q (i ++ 0#2) d a b) = _
  rw [row04]
  simp [decodeMajor04]

theorem shrV (q : BitVec 2) (i : BitVec 1) (d : BitVec 7) (a : BitVec 7) (b : BitVec 7) : Statement (.shrV q i d a b) := by
  intro ok
  show rowOf (fmtA 4#6 q (i ++ 1#2) d a b) = _
  rw [row04]
  simp [decodeMajor04]

theorem sarV (q : BitVec 2) (i : BitVec 1) (d : BitVec 7) (a : BitVec 7) (b : BitVec 7) : Statement (.sarV q i d a b) := by
  intro ok
  show rowOf (fmtA 4#6 q (i ++ 2#2) d a b) = _
  rw [row04]
  simp [decodeMajor04]

theorem rotV (q : BitVec 2) (i : BitVec 1) (d : BitVec 7) (a : BitVec 7) (b : BitVec 7) : Statement (.rotV q i d a b) := by
  intro ok
  show rowOf (fmtA 4#6 q (i ++ 3#2) d a b) = _
  rw [row04]
  simp [decodeMajor04]

theorem shlV64 (q : BitVec 2) (i : BitVec 1) (d : BitVec 7) (a : BitVec 7) (b : BitVec 7) : Statement (.shlV64 q i d a b) := by
  intro ok
  show rowOf (fmtA 5#6 q (i ++ 0#2) d a b) = _
  rw [row05]
  simp [decodeMajor05]

theorem shrV64 (q : BitVec 2) (i : BitVec 1) (d : BitVec 7) (a : BitVec 7) (b : BitVec 7) : Statement (.shrV64 q i d a b) := by
  intro ok
  show rowOf (fmtA 5#6 q (i ++ 1#2) d a b) = _
  rw [row05]
  simp [decodeMajor05]

theorem sarV64 (q : BitVec 2) (i : BitVec 1) (d : BitVec 7) (a : BitVec 7) (b : BitVec 7) : Statement (.sarV64 q i d a b) := by
  intro ok
  show rowOf (fmtA 5#6 q (i ++ 2#2) d a b) = _
  rw [row05]
  simp [decodeMajor05]

theorem rotV64 (q : BitVec 2) (i : BitVec 1) (d : BitVec 7) (a : BitVec 7) (b : BitVec 7) : Statement (.rotV64 q i d a b) := by
  intro ok
  show rowOf (fmtA 5#6 q (i ++ 3#2) d a b) = _
  rw [row05]
  simp [decodeMajor05]

theorem shlG32 (q : BitVec 2) (i : BitVec 1) (d : BitVec 7) (a : BitVec 7) (b : BitVec 7) : Statement (.shlG32 q i d a b) := by
  intro ok
  show rowOf (fmtA 36#6 q (i ++ 0#2) d a b) = _
  rw [row24]
  simp [decodeMajor24]

theorem shrG32 (q : BitVec 2) (i : BitVec 1) (d : BitVec 7) (a : BitVec 7) (b : BitVec 7) : Statement (.shrG32 q i d a b) := by
  intro ok
  show rowOf (fmtA 36#6 q (i ++ 1#2) d a b) = _
  rw [row24]
  simp [decodeMajor24]

theorem sarG32 (q : BitVec 2) (i : BitVec 1) (d : BitVec 7) (a : BitVec 7) (b : BitVec 7) : Statement (.sarG32 q i d a b) := by
  intro ok
  show rowOf (fmtA 36#6 q (i ++ 2#2) d a b) = _
  rw [row24]
  simp [decodeMajor24]

theorem rotG32 (q : BitVec 2) (i : BitVec 1) (d : BitVec 7) (a : BitVec 7) (b : BitVec 7) : Statement (.rotG32 q i d a b) := by
  intro ok
  show rowOf (fmtA 36#6 q (i ++ 3#2) d a b) = _
  rw [row24]
  simp [decodeMajor24]

theorem shlG64 (q : BitVec 2) (i : BitVec 1) (d : BitVec 7) (a : BitVec 7) (b : BitVec 7) : Statement (.shlG64 q i d a b) := by
  intro ok
  show rowOf (fmtA 37#6 q (i ++ 0#2) d a b) = _
  rw [row25]
  simp [decodeMajor25]

theorem shrG64 (q : BitVec 2) (i : BitVec 1) (d : BitVec 7) (a : BitVec 7) (b : BitVec 7) : Statement (.shrG64 q i d a b) := by
  intro ok
  show rowOf (fmtA 37#6 q (i ++ 1#2) d a b) = _
  rw [row25]
  simp [decodeMajor25]

theorem sarG64 (q : BitVec 2) (i : BitVec 1) (d : BitVec 7) (a : BitVec 7) (b : BitVec 7) : Statement (.sarG64 q i d a b) := by
  intro ok
  show rowOf (fmtA 37#6 q (i ++ 2#2) d a b) = _
  rw [row25]
  simp [decodeMajor25]

theorem rotG64 (q : BitVec 2) (i : BitVec 1) (d : BitVec 7) (a : BitVec 7) (b : BitVec 7) : Statement (.rotG64 q i d a b) := by
  intro ok
  show rowOf (fmtA 37#6 q (i ++ 3#2) d a b) = _
  rw [row25]
  simp [decodeMajor25]

theorem clzV (q : BitVec 2) (d : BitVec 7) (a : BitVec 7) : Statement (.clzV q d a) := by
  intro ok
  show rowOf (fmtA 6#6 q 0#3 d a 0#7) = _
  rw [row06]
  simp [decodeMajor06]

theorem clzV64 (q : BitVec 2) (d : BitVec 7) (a : BitVec 7) : Statement (.clzV64 q d a) := by
  intro ok
  show rowOf (fmtA 6#6 q 6#3 d a 0#7) = _
  rw [row06]
  simp [decodeMajor06]

theorem clzG32 (q : BitVec 2) (d : BitVec 7) (a : BitVec 7) : Statement (.clzG32 q d a) := by
  intro ok
  show rowOf (fmtA 38#6 q 0#3 d a 0#7) = _
  rw [row26]
  simp [decodeMajor26]

theorem clzG64 (q : BitVec 2) (d : BitVec 7) (a : BitVec 7) : Statement (.clzG64 q d a) := by
  intro ok
  show rowOf (fmtA 38#6 q 6#3 d a 0#7) = _
  rw [row26]
  simp [decodeMajor26]

theorem popcV (q : BitVec 2) (d : BitVec 7) (a : BitVec 7) : Statement (.popcV q d a) := by
  intro ok
  show rowOf (fmtA 6#6 q 1#3 d a 0#7) = _
  rw [row06]
  simp [decodeMajor06]

theorem popcV64 (q : BitVec 2) (d : BitVec 7) (a : BitVec 7) : Statement (.popcV64 q d a) := by
  intro ok
  show rowOf (fmtA 6#6 q 7#3 d a 0#7) = _
  rw [row06]
  simp [decodeMajor06]

theorem popcG32 (q : BitVec 2) (d : BitVec 7) (a : BitVec 7) : Statement (.popcG32 q d a) := by
  intro ok
  show rowOf (fmtA 38#6 q 1#3 d a 0#7) = _
  rw [row26]
  simp [decodeMajor26]

theorem popcG64 (q : BitVec 2) (d : BitVec 7) (a : BitVec 7) : Statement (.popcG64 q d a) := by
  intro ok
  show rowOf (fmtA 38#6 q 7#3 d a 0#7) = _
  rw [row26]
  simp [decodeMajor26]

theorem brevV (q : BitVec 2) (d : BitVec 7) (a : BitVec 7) : Statement (.brevV q d a) := by
  intro ok
  show rowOf (fmtA 6#6 q 2#3 d a 0#7) = _
  rw [row06]
  simp [decodeMajor06]

theorem brevG (q : BitVec 2) (d : BitVec 7) (a : BitVec 7) : Statement (.brevG q d a) := by
  intro ok
  show rowOf (fmtA 38#6 q 2#3 d a 0#7) = _
  rw [row26]
  simp [decodeMajor26]

theorem bfxZV (q : BitVec 2) (d : BitVec 7) (a : BitVec 7) (b : BitVec 7) : Statement (.bfxZV q d a b) := by
  intro ok
  show rowOf (fmtA 6#6 q 3#3 d a b) = _
  rw [row06]
  simp [decodeMajor06]

theorem bfxSV (q : BitVec 2) (d : BitVec 7) (a : BitVec 7) (b : BitVec 7) : Statement (.bfxSV q d a b) := by
  intro ok
  show rowOf (fmtA 6#6 q 4#3 d a b) = _
  rw [row06]
  simp [decodeMajor06]

theorem bfxZG (q : BitVec 2) (d : BitVec 7) (a : BitVec 7) (b : BitVec 7) : Statement (.bfxZG q d a b) := by
  intro ok
  show rowOf (fmtA 38#6 q 3#3 d a b) = _
  rw [row26]
  simp [decodeMajor26]

theorem bfxSG (q : BitVec 2) (d : BitVec 7) (a : BitVec 7) (b : BitVec 7) : Statement (.bfxSG q d a b) := by
  intro ok
  show rowOf (fmtA 38#6 q 4#3 d a b) = _
  rw [row26]
  simp [decodeMajor26]

theorem bfiV (q : BitVec 2) (d : BitVec 7) (a : BitVec 7) (b : BitVec 7) : Statement (.bfiV q d a b) := by
  intro ok
  show rowOf (fmtA 6#6 q 5#3 d a b) = _
  rw [row06]
  simp [decodeMajor06]

theorem bfiG (q : BitVec 2) (d : BitVec 7) (a : BitVec 7) (b : BitVec 7) : Statement (.bfiG q d a b) := by
  intro ok
  show rowOf (fmtA 38#6 q 5#3 d a b) = _
  rw [row26]
  simp [decodeMajor26]

theorem icmpV (q : BitVec 2) (f : BitVec 3) (w : BitVec 1) (p : BitVec 2) (a : BitVec 7) (b : BitVec 7) : Statement (.icmpV q f w p a b) := by
  intro ok
  show rowOf (fmtA 7#6 q f (0#4 ++ w ++ p) a b) = _
  rw [row07]
  simp [decodeMajor07]

theorem icmpG (q : BitVec 2) (f : BitVec 3) (w : BitVec 1) (p : BitVec 2) (a : BitVec 7) (b : BitVec 7) : Statement (.icmpG q f w p a b) := by
  intro ok
  show rowOf (fmtA 39#6 q f (0#4 ++ w ++ p) a b) = _
  rw [row27]
  simp [decodeMajor27]

theorem movV (q : BitVec 2) (d : BitVec 7) (a : BitVec 7) : Statement (.movV q d a) := by
  intro ok
  show rowOf (fmtA 8#6 q 0#3 d a 0#7) = _
  rw [row08]
  simp [decodeMajor08]

theorem movV64 (q : BitVec 2) (d : BitVec 7) (a : BitVec 7) : Statement (.movV64 q d a) := by
  intro ok
  show rowOf (fmtA 8#6 q 4#3 d a 0#7) = _
  rw [row08]
  simp [decodeMajor08]

theorem movG32 (q : BitVec 2) (d : BitVec 7) (a : BitVec 7) : Statement (.movG32 q d a) := by
  intro ok
  show rowOf (fmtA 40#6 q 0#3 d a 0#7) = _
  rw [row28]
  simp [decodeMajor28]

theorem movG64 (q : BitVec 2) (d : BitVec 7) (a : BitVec 7) : Statement (.movG64 q d a) := by
  intro ok
  show rowOf (fmtA 40#6 q 4#3 d a 0#7) = _
  rw [row28]
  simp [decodeMajor28]

theorem selV (q : BitVec 2) (w : BitVec 1) (p : BitVec 2) (d : BitVec 7) (a : BitVec 7) (b : BitVec 7) : Statement (.selV q w p d a b) := by
  intro ok
  show rowOf (fmtA 8#6 q (w ++ p) d a b) = _
  rw [row08]
  have h1 : p ≠ 0#2 := fun e => by subst e; exact Bool.noConfusion (show false = true from ok)
  simp [decodeMajor08, sel_not_mov w p h1]

theorem selG (q : BitVec 2) (w : BitVec 1) (p : BitVec 2) (d : BitVec 7) (a : BitVec 7) (b : BitVec 7) : Statement (.selG q w p d a b) := by
  intro ok
  show rowOf (fmtA 40#6 q (w ++ p) d a b) = _
  rw [row28]
  have h1 : ((((p != 0#2) && gr d) && gr a) && gr b) = true := ok
  simp only [bne_iff_ne, Bool.and_eq_true, ne_eq] at h1
  simp [decodeMajor28, sel_not_mov w p h1.1.1.1]

theorem psetV (q : BitVec 2) (f : BitVec 3) (d : BitVec 2) (a : BitVec 2) (b : BitVec 2) : Statement (.psetV q f d a b) := by
  intro ok
  show rowOf (fmtA 9#6 q f (0#5 ++ d) (0#5 ++ a) (0#5 ++ b)) = _
  rw [row09]
  have h1 : (decide (f.toNat < 4) || (f == 4#3 && b == 0#2)) = true := ok
  simp only [Bool.or_eq_true, decide_eq_true_eq, Bool.and_eq_true, beq_iff_eq] at h1
  have h2 := pset_codes f (h1.imp id And.left)
  simp [decodeMajor09, h2.1, h2.2]

theorem psetG (q : BitVec 2) (f : BitVec 3) (d : BitVec 2) (a : BitVec 2) (b : BitVec 2) : Statement (.psetG q f d a b) := by
  intro ok
  show rowOf (fmtA 41#6 q f (0#5 ++ d) (0#5 ++ a) (0#5 ++ b)) = _
  rw [row29]
  have h1 : (decide (f.toNat < 4) || (f == 4#3 && b == 0#2)) = true := ok
  simp only [Bool.or_eq_true, decide_eq_true_eq, Bool.and_eq_true, beq_iff_eq] at h1
  have h2 := pset_codes f (h1.imp id And.left)
  simp [decodeMajor29, h2.1, h2.2]

theorem psetNzV (q : BitVec 2) (d : BitVec 2) (a : BitVec 7) (w : BitVec 1) : Statement (.psetNzV q d a w) := by
  intro ok
  show rowOf (fmtA 9#6 q 5#3 (0#5 ++ d) a (0#6 ++ w)) = _
  rw [row09]
  simp [decodeMajor09]

theorem psetNzG (q : BitVec 2) (d : BitVec 2) (a : BitVec 7) (w : BitVec 1) : Statement (.psetNzG q d a w) := by
  intro ok
  show rowOf (fmtA 41#6 q 5#3 (0#5 ++ d) a (0#6 ++ w)) = _
  rw [row29]
  simp [decodeMajor29]

theorem movSpecialV (q : BitVec 2) (d : BitVec 7) (s : BitVec 7) : Statement (.movSpecialV q d s) := by
  intro ok
  show rowOf (fmtA 9#6 q 6#3 d 0#7 s) = _
  rw [row09]
  simp [decodeMajor09]

theorem movSpecialG (q : BitVec 2) (d : BitVec 7) (s : BitVec 7) : Statement (.movSpecialG q d s) := by
  intro ok
  show rowOf (fmtA 41#6 q 6#3 d 0#7 s) = _
  rw [row29]
  simp [decodeMajor29]

theorem moviV (q : BitVec 2) (d : BitVec 7) (i : BitVec 17) : Statement (.moviV q d i) := by
  intro ok
  show rowOf (fmtI 12#6 q d i) = _
  rw [row0C]
  simp [decodeMajor0C]

theorem moviG (q : BitVec 2) (d : BitVec 7) (i : BitVec 17) : Statement (.moviG q d i) := by
  intro ok
  show rowOf (fmtI 44#6 q d i) = _
  rw [row2C]
  simp [decodeMajor2C]

theorem brxV (q : BitVec 2) (a : BitVec 7) : Statement (.brxV q a) := by
  intro ok
  show rowOf (fmtA 13#6 q 0#3 0#7 a 0#7) = _
  rw [row0D]
  simp [decodeMajor0D]

theorem brxG (q : BitVec 2) (a : BitVec 7) : Statement (.brxG q a) := by
  intro ok
  show rowOf (fmtA 45#6 q 0#3 0#7 a 0#7) = _
  rw [row2D]
  simp [decodeMajor2D]

theorem retV (q : BitVec 2) (a : BitVec 7) : Statement (.retV q a) := by
  intro ok
  show rowOf (fmtA 13#6 q 1#3 0#7 a 0#7) = _
  rw [row0D]
  simp [decodeMajor0D]

theorem retG (q : BitVec 2) (a : BitVec 7) : Statement (.retG q a) := by
  intro ok
  show rowOf (fmtA 45#6 q 1#3 0#7 a 0#7) = _
  rw [row2D]
  simp [decodeMajor2D]

theorem leaV (q : BitVec 2) (s : BitVec 2) (d : BitVec 7) (a : BitVec 7) (b : BitVec 7) : Statement (.leaV q s d a b) := by
  intro ok
  show rowOf (fmtA 13#6 q (1#1 ++ s) d a b) = _
  rw [row0D]
  simp [decodeMajor0D, join_high_ne]

theorem leaG (q : BitVec 2) (s : BitVec 2) (d : BitVec 7) (a : BitVec 7) (b : BitVec 7) : Statement (.leaG q s d a b) := by
  intro ok
  show rowOf (fmtA 45#6 q (1#1 ++ s) d a b) = _
  rw [row2D]
  simp [decodeMajor2D, join_high_ne]

theorem callV (q : BitVec 2) (i : BitVec 24) : Statement (.callV q i) := by
  intro ok
  show rowOf (fmtC 14#6 q i) = _
  rw [row0E]
  simp [decodeMajor0E]

theorem callG (q : BitVec 2) (i : BitVec 24) : Statement (.callG q i) := by
  intro ok
  show rowOf (fmtC 46#6 q i) = _
  rw [row2E]
  simp [decodeMajor2E]

theorem braV (q : BitVec 2) (i : BitVec 24) : Statement (.braV q i) := by
  intro ok
  show rowOf (fmtC 15#6 q i) = _
  rw [row0F]
  simp [decodeMajor0F]

theorem braG (q : BitVec 2) (i : BitVec 24) : Statement (.braG q i) := by
  intro ok
  show rowOf (fmtC 47#6 q i) = _
  rw [row2F]
  simp [decodeMajor2F]

theorem fadd (q : BitVec 2) (d : BitVec 7) (a : BitVec 7) (b : BitVec 7) : Statement (.fadd q d a b) := by
  intro ok
  show rowOf (fmtA 16#6 q 0#3 d a b) = _
  rw [row10]
  simp [decodeMajor10]

theorem fsub (q : BitVec 2) (d : BitVec 7) (a : BitVec 7) (b : BitVec 7) : Statement (.fsub q d a b) := by
  intro ok
  show rowOf (fmtA 16#6 q 1#3 d a b) = _
  rw [row10]
  simp [decodeMajor10]

theorem fmul (q : BitVec 2) (d : BitVec 7) (a : BitVec 7) (b : BitVec 7) : Statement (.fmul q d a b) := by
  intro ok
  show rowOf (fmtA 16#6 q 2#3 d a b) = _
  rw [row10]
  simp [decodeMajor10]

theorem ffma (q : BitVec 2) (d : BitVec 7) (a : BitVec 7) (b : BitVec 7) : Statement (.ffma q d a b) := by
  intro ok
  show rowOf (fmtA 16#6 q 3#3 d a b) = _
  rw [row10]
  simp [decodeMajor10]

theorem fdiv (q : BitVec 2) (d : BitVec 7) (a : BitVec 7) (b : BitVec 7) : Statement (.fdiv q d a b) := by
  intro ok
  show rowOf (fmtA 16#6 q 4#3 d a b) = _
  rw [row10]
  simp [decodeMajor10]

theorem fmin (q : BitVec 2) (d : BitVec 7) (a : BitVec 7) (b : BitVec 7) : Statement (.fmin q d a b) := by
  intro ok
  show rowOf (fmtA 16#6 q 5#3 d a b) = _
  rw [row10]
  simp [decodeMajor10]

theorem fmax (q : BitVec 2) (d : BitVec 7) (a : BitVec 7) (b : BitVec 7) : Statement (.fmax q d a b) := by
  intro ok
  show rowOf (fmtA 16#6 q 6#3 d a b) = _
  rw [row10]
  simp [decodeMajor10]

theorem faddF64 (q : BitVec 2) (d : BitVec 7) (a : BitVec 7) (b : BitVec 7) : Statement (.faddF64 q d a b) := by
  intro ok
  show rowOf (fmtA 17#6 q 0#3 d a b) = _
  rw [row11]
  simp [decodeMajor11]

theorem fsubF64 (q : BitVec 2) (d : BitVec 7) (a : BitVec 7) (b : BitVec 7) : Statement (.fsubF64 q d a b) := by
  intro ok
  show rowOf (fmtA 17#6 q 1#3 d a b) = _
  rw [row11]
  simp [decodeMajor11]

theorem fmulF64 (q : BitVec 2) (d : BitVec 7) (a : BitVec 7) (b : BitVec 7) : Statement (.fmulF64 q d a b) := by
  intro ok
  show rowOf (fmtA 17#6 q 2#3 d a b) = _
  rw [row11]
  simp [decodeMajor11]

theorem ffmaF64 (q : BitVec 2) (d : BitVec 7) (a : BitVec 7) (b : BitVec 7) : Statement (.ffmaF64 q d a b) := by
  intro ok
  show rowOf (fmtA 17#6 q 3#3 d a b) = _
  rw [row11]
  simp [decodeMajor11]

theorem fdivF64 (q : BitVec 2) (d : BitVec 7) (a : BitVec 7) (b : BitVec 7) : Statement (.fdivF64 q d a b) := by
  intro ok
  show rowOf (fmtA 17#6 q 4#3 d a b) = _
  rw [row11]
  simp [decodeMajor11]

theorem fminF64 (q : BitVec 2) (d : BitVec 7) (a : BitVec 7) (b : BitVec 7) : Statement (.fminF64 q d a b) := by
  intro ok
  show rowOf (fmtA 17#6 q 5#3 d a b) = _
  rw [row11]
  simp [decodeMajor11]

theorem fmaxF64 (q : BitVec 2) (d : BitVec 7) (a : BitVec 7) (b : BitVec 7) : Statement (.fmaxF64 q d a b) := by
  intro ok
  show rowOf (fmtA 17#6 q 6#3 d a b) = _
  rw [row11]
  simp [decodeMajor11]

theorem fsqrt (q : BitVec 2) (d : BitVec 7) (a : BitVec 7) (r : BitVec 7) : Statement (.fsqrt q d a r) := by
  intro ok
  show rowOf (fmtA 18#6 q 0#3 d a r) = _
  rw [row12]
  simp [decodeMajor12]

theorem frcp (q : BitVec 2) (d : BitVec 7) (a : BitVec 7) (r : BitVec 7) : Statement (.frcp q d a r) := by
  intro ok
  show rowOf (fmtA 18#6 q 1#3 d a r) = _
  rw [row12]
  simp [decodeMajor12]

theorem frsq (q : BitVec 2) (d : BitVec 7) (a : BitVec 7) (r : BitVec 7) : Statement (.frsq q d a r) := by
  intro ok
  show rowOf (fmtA 18#6 q 2#3 d a r) = _
  rw [row12]
  simp [decodeMajor12]

theorem fexp2 (q : BitVec 2) (d : BitVec 7) (a : BitVec 7) (r : BitVec 7) : Statement (.fexp2 q d a r) := by
  intro ok
  show rowOf (fmtA 18#6 q 3#3 d a r) = _
  rw [row12]
  simp [decodeMajor12]

theorem flog2 (q : BitVec 2) (d : BitVec 7) (a : BitVec 7) (r : BitVec 7) : Statement (.flog2 q d a r) := by
  intro ok
  show rowOf (fmtA 18#6 q 4#3 d a r) = _
  rw [row12]
  simp [decodeMajor12]

theorem ftrigSinpi (q : BitVec 2) (d : BitVec 7) (a : BitVec 7) (r : BitVec 7) : Statement (.ftrigSinpi q d a r) := by
  intro ok
  show rowOf (fmtA 18#6 q 5#3 d a r) = _
  rw [row12]
  simp [decodeMajor12]

theorem ftrigCospi (q : BitVec 2) (d : BitVec 7) (a : BitVec 7) (r : BitVec 7) : Statement (.ftrigCospi q d a r) := by
  intro ok
  show rowOf (fmtA 18#6 q 6#3 d a r) = _
  rw [row12]
  simp [decodeMajor12]

theorem frnd (q : BitVec 2) (d : BitVec 7) (a : BitVec 7) (r : BitVec 7) : Statement (.frnd q d a r) := by
  intro ok
  show rowOf (fmtA 18#6 q 7#3 d a r) = _
  rw [row12]
  simp [decodeMajor12]

theorem fsqrtF64 (q : BitVec 2) (d : BitVec 7) (a : BitVec 7) (r : BitVec 7) : Statement (.fsqrtF64 q d a r) := by
  intro ok
  show rowOf (fmtA 19#6 q 0#3 d a r) = _
  rw [row13]
  simp [decodeMajor13]

theorem frndF64 (q : BitVec 2) (d : BitVec 7) (a : BitVec 7) (r : BitVec 7) : Statement (.frndF64 q d a r) := by
  intro ok
  show rowOf (fmtA 19#6 q 1#3 d a r) = _
  rw [row13]
  simp [decodeMajor13]

theorem fclass (q : BitVec 2) (w : BitVec 1) (d : BitVec 7) (a : BitVec 7) (r : BitVec 7) : Statement (.fclass q w d a r) := by
  intro ok
  show rowOf (fmtA 19#6 q (1#2 ++ w) d a r) = _
  rw [row13]
  simp [decodeMajor13, join_high_ne]

theorem hfuse (q : BitVec 2) (h : BitVec 1) (d : BitVec 7) (a : BitVec 7) (b : BitVec 7) : Statement (.hfuse q h d a b) := by
  intro ok
  show rowOf (fmtA 19#6 q (2#2 ++ h) d a b) = _
  rw [row13]
  simp [decodeMajor13, join_high_ne]

theorem fcmp (q : BitVec 2) (f : BitVec 3) (w : BitVec 1) (p : BitVec 2) (a : BitVec 7) (b : BitVec 7) : Statement (.fcmp q f w p a b) := by
  intro ok
  show rowOf (fmtA 20#6 q f (0#4 ++ w ++ p) a b) = _
  rw [row14]
  simp [decodeMajor14]

theorem cvt (q : BitVec 2) (r : BitVec 3) (d : BitVec 7) (a : BitVec 7) (p : BitVec 7) : Statement (.cvt q r d a p) := by
  intro ok
  show rowOf (fmtA 21#6 q r d a p) = _
  rw [row15]
  have h1 : (decide (r.toNat < 6) && cvtOk r d a p) = true := ok
  simp only [Bool.and_eq_true, decide_eq_true_eq] at h1
  have h2 := cvt_codes r h1.1
  simp [decodeMajor15, h2.1, h2.2]

theorem cvtGxEncode (q : BitVec 2) (d : BitVec 7) (a : BitVec 7) (s : BitVec 1) (c : BitVec 4) : Statement (.cvtGxEncode q d a s c) := by
  intro ok
  show rowOf (fmtA 21#6 q 6#3 d a (0#2 ++ s ++ c)) = _
  rw [row15]
  simp [decodeMajor15]

theorem cvtGxDecode (q : BitVec 2) (d : BitVec 7) (a : BitVec 7) (c : BitVec 4) : Statement (.cvtGxDecode q d a c) := by
  intro ok
  show rowOf (fmtA 21#6 q 7#3 d a (0#3 ++ c)) = _
  rw [row15]
  simp [decodeMajor15]

theorem dp4 (q : BitVec 2) (z : BitVec 1) (d : BitVec 7) (a : BitVec 7) (b : BitVec 7) : Statement (.dp4 q z d a b) := by
  intro ok
  show rowOf (fmtA 22#6 q (0#2 ++ z) d a b) = _
  rw [row16]
  simp [decodeMajor16, join_high_ne]

theorem rand (q : BitVec 2) (f : BitVec 1) (d : BitVec 7) : Statement (.rand q f d) := by
  intro ok
  show rowOf (fmtA 22#6 q (1#2 ++ f) d 0#7 0#7) = _
  rw [row16]
  simp [decodeMajor16, join_high_ne]

theorem pitch (q : BitVec 2) (a : BitVec 7) : Statement (.pitch q a) := by
  intro ok
  show rowOf (fmtA 22#6 q 4#3 0#7 a 0#7) = _
  rw [row16]
  simp [decodeMajor16]

theorem shfl (q : BitVec 2) (m : BitVec 2) (d : BitVec 7) (a : BitVec 7) (b : BitVec 7) : Statement (.shfl q m d a b) := by
  intro ok
  show rowOf (fmtA 23#6 q (0#1 ++ m) d a b) = _
  rw [row17]
  simp [decodeMajor17, join_high_ne]

theorem vote (q : BitVec 2) (d : BitVec 7) (p : BitVec 2) (k : BitVec 7) : Statement (.vote q d p k) := by
  intro ok
  show rowOf (fmtA 23#6 q 4#3 d (0#5 ++ p) k) = _
  rw [row17]
  simp [decodeMajor17]

theorem bcast (q : BitVec 2) (d : BitVec 7) (a : BitVec 7) (w : BitVec 1) : Statement (.bcast q d a w) := by
  intro ok
  show rowOf (fmtA 23#6 q 5#3 d a (0#6 ++ w)) = _
  rw [row17]
  simp [decodeMajor17]

theorem redux (q : BitVec 2) (d : BitVec 7) (a : BitVec 7) (t : BitVec 3) (o : BitVec 3) : Statement (.redux q d a t o) := by
  intro ok
  show rowOf (fmtA 23#6 q 6#3 d a (0#1 ++ t ++ o)) = _
  rw [row17]
  simp [decodeMajor17]

theorem scan (q : BitVec 2) (d : BitVec 7) (a : BitVec 7) (x : BitVec 1) (t : BitVec 3) (o : BitVec 3) : Statement (.scan q d a x t o) := by
  intro ok
  show rowOf (fmtA 23#6 q 7#3 d a (x ++ t ++ o)) = _
  rw [row17]
  simp [decodeMajor17]

theorem nzscan (q : BitVec 2) (d : BitVec 7) (a : BitVec 7) (b : BitVec 7) : Statement (.nzscan q d a b) := by
  intro ok
  show rowOf (fmtA 24#6 q 0#3 d a b) = _
  rw [row18]
  simp [decodeMajor18]

theorem isect (q : BitVec 2) (d : BitVec 7) (a : BitVec 7) (b : BitVec 7) : Statement (.isect q d a b) := by
  intro ok
  show rowOf (fmtA 24#6 q 1#3 d a b) = _
  rw [row18]
  simp [decodeMajor18]

theorem movQueuePush (q : BitVec 2) (d : BitVec 7) (a : BitVec 7) : Statement (.movQueuePush q d a) := by
  intro ok
  show rowOf (fmtA 24#6 q 2#3 d a 0#7) = _
  rw [row18]
  simp [decodeMajor18]

theorem movQueuePop (q : BitVec 2) (d : BitVec 7) : Statement (.movQueuePop q d) := by
  intro ok
  show rowOf (fmtA 24#6 q 3#3 d 98#7 0#7) = _
  rw [row18]
  simp [decodeMajor18]

theorem cpy (q : BitVec 2) (d : BitVec 7) (a : BitVec 7) (b : BitVec 7) : Statement (.cpy q d a b) := by
  intro ok
  show rowOf (fmtA 24#6 q 4#3 d a b) = _
  rw [row18]
  simp [decodeMajor18]

theorem cpyr (q : BitVec 2) (d : BitVec 7) (a : BitVec 7) (b : BitVec 7) : Statement (.cpyr q d a b) := by
  intro ok
  show rowOf (fmtA 24#6 q 5#3 d a b) = _
  rw [row18]
  simp [decodeMajor18]

theorem ldV (q : BitVec 2) (s : BitVec 3) (d : BitVec 7) (a : BitVec 7) (b : BitVec 7) : Statement (.ldV q s d a b) := by
  intro ok
  show rowOf (fmtA 25#6 q s d a b) = _
  rw [row19]
  simp [decodeMajor19]

theorem stV (q : BitVec 2) (s : BitVec 3) (d : BitVec 7) (a : BitVec 7) (b : BitVec 7) : Statement (.stV q s d a b) := by
  intro ok
  show rowOf (fmtA 26#6 q s d a b) = _
  rw [row1A]
  simp [decodeMajor1A]

theorem ldOrdered (q : BitVec 2) (d : BitVec 7) (a : BitVec 7) (o : BitVec 5) (s : BitVec 3) : Statement (.ldOrdered q d a o s) := by
  intro ok
  show rowOf (fmtB 27#6 q d a (0#2 ++ o ++ s)) = _
  rw [row1B]
  simp [decodeMajor1B]

theorem stOrdered (q : BitVec 2) (d : BitVec 7) (a : BitVec 7) (o : BitVec 5) (s : BitVec 3) : Statement (.stOrdered q d a o s) := by
  intro ok
  show rowOf (fmtB 28#6 q d a (0#2 ++ o ++ s)) = _
  rw [row1C]
  simp [decodeMajor1C]

theorem atom (q : BitVec 2) (d : BitVec 7) (a : BitVec 7) (o : BitVec 5) (c : BitVec 5) : Statement (.atom q d a o c) := by
  intro ok
  show rowOf (fmtB 29#6 q d a (o ++ c)) = _
  rw [row1D]
  simp [decodeMajor1D]

theorem red (q : BitVec 2) (d : BitVec 7) (a : BitVec 7) (o : BitVec 5) (c : BitVec 5) : Statement (.red q d a o c) := by
  intro ok
  show rowOf (fmtB 30#6 q d a (o ++ c)) = _
  rw [row1E]
  simp [decodeMajor1E]

theorem ldt (q : BitVec 2) (d : BitVec 7) (a : BitVec 7) (t : BitVec 3) (r : BitVec 1) (k : BitVec 3) : Statement (.ldt q d a t r k) := by
  intro ok
  show rowOf (fmtA 31#6 q 0#3 d a (t ++ r ++ k)) = _
  rw [row1F]
  simp [decodeMajor1F]

theorem stt (q : BitVec 2) (d : BitVec 7) (a : BitVec 7) (t : BitVec 3) (r : BitVec 1) (k : BitVec 3) : Statement (.stt q d a t r k) := by
  intro ok
  show rowOf (fmtA 31#6 q 1#3 d a (t ++ r ++ k)) = _
  rw [row1F]
  simp [decodeMajor1F]

theorem movSlicePush (q : BitVec 2) (d : BitVec 7) (a : BitVec 7) (t : BitVec 3) (r : BitVec 1) (k : BitVec 3) : Statement (.movSlicePush q d a t r k) := by
  intro ok
  show rowOf (fmtA 31#6 q 2#3 d a (t ++ r ++ k)) = _
  rw [row1F]
  simp [decodeMajor1F]

theorem movSlicePop (q : BitVec 2) (a : BitVec 7) (t : BitVec 3) (r : BitVec 1) (k : BitVec 3) : Statement (.movSlicePop q a t r k) := by
  intro ok
  show rowOf (fmtA 31#6 q 3#3 98#7 a (t ++ r ++ k)) = _
  rw [row1F]
  simp [decodeMajor1F]

theorem movSliceToV (q : BitVec 2) (d : BitVec 7) (a : BitVec 7) (t : BitVec 3) (r : BitVec 1) (k : BitVec 3) : Statement (.movSliceToV q d a t r k) := by
  intro ok
  show rowOf (fmtA 31#6 q 4#3 d a (t ++ r ++ k)) = _
  rw [row1F]
  simp [decodeMajor1F]

theorem movVToSlice (q : BitVec 2) (d : BitVec 7) (a : BitVec 7) (t : BitVec 3) (r : BitVec 1) (k : BitVec 3) : Statement (.movVToSlice q d a t r k) := by
  intro ok
  show rowOf (fmtA 31#6 q 5#3 d a (t ++ r ++ k)) = _
  rw [row1F]
  simp [decodeMajor1F]

theorem nop (q : BitVec 2) : Statement (.nop q) := by
  intro ok
  show rowOf (fmtA 48#6 q 0#3 0#7 0#7 0#7) = _
  rw [row30]
  simp [decodeMajor30]

theorem exit (q : BitVec 2) : Statement (.exit q) := by
  intro ok
  show rowOf (fmtA 48#6 q 1#3 0#7 0#7 0#7) = _
  rw [row30]
  simp [decodeMajor30]

theorem trap (q : BitVec 2) (n : BitVec 7) : Statement (.trap q n) := by
  intro ok
  show rowOf (fmtA 48#6 q 2#3 0#7 0#7 n) = _
  rw [row30]
  simp [decodeMajor30]

theorem eret (q : BitVec 2) : Statement (.eret q) := by
  intro ok
  show rowOf (fmtA 48#6 q 3#3 0#7 0#7 0#7) = _
  rw [row30]
  simp [decodeMajor30]

theorem yield (q : BitVec 2) : Statement (.yield q) := by
  intro ok
  show rowOf (fmtA 48#6 q 4#3 0#7 0#7 0#7) = _
  rw [row30]
  simp [decodeMajor30]

theorem fence (q : BitVec 2) (o : BitVec 7) : Statement (.fence q o) := by
  intro ok
  show rowOf (fmtA 48#6 q 5#3 0#7 0#7 o) = _
  rw [row30]
  simp [decodeMajor30]

theorem wbaseImm (q : BitVec 2) (c : BitVec 4) : Statement (.wbaseImm q c) := by
  intro ok
  show rowOf (fmtA 48#6 q 6#3 0#7 0#7 (0#3 ++ c)) = _
  rw [row30]
  simp [decodeMajor30]

theorem wbaseReg (q : BitVec 2) (a : BitVec 7) : Statement (.wbaseReg q a) := by
  intro ok
  show rowOf (fmtA 48#6 q 6#3 0#7 a 64#7) = _
  rw [row30]
  simp [decodeMajor30]

theorem qpoll (q : BitVec 2) (p : BitVec 2) (a : BitVec 7) : Statement (.qpoll q p a) := by
  intro ok
  show rowOf (fmtA 48#6 q 7#3 (0#5 ++ p) a 0#7) = _
  rw [row30]
  simp [decodeMajor30]

theorem spawn (q : BitVec 2) (d : BitVec 7) (a : BitVec 7) (b : BitVec 7) : Statement (.spawn q d a b) := by
  intro ok
  show rowOf (fmtA 49#6 q 0#3 d a b) = _
  rw [row31]
  simp [decodeMajor31]

theorem join (q : BitVec 2) : Statement (.join q) := by
  intro ok
  show rowOf (fmtA 49#6 q 1#3 0#7 0#7 0#7) = _
  rw [row31]
  simp [decodeMajor31]

theorem allocHeap (q : BitVec 2) (d : BitVec 7) (a : BitVec 7) : Statement (.allocHeap q d a) := by
  intro ok
  show rowOf (fmtA 49#6 q 2#3 d a 0#7) = _
  rw [row31]
  simp [decodeMajor31]

theorem allocLog (q : BitVec 2) (d : BitVec 7) (a : BitVec 7) : Statement (.allocLog q d a) := by
  intro ok
  show rowOf (fmtA 49#6 q 3#3 d a 0#7) = _
  rw [row31]
  simp [decodeMajor31]

theorem rdecl (q : BitVec 2) (a : BitVec 7) (n : BitVec 7) : Statement (.rdecl q a n) := by
  intro ok
  show rowOf (fmtA 49#6 q 4#3 0#7 a n) = _
  rw [row31]
  simp [decodeMajor31]

theorem rview (q : BitVec 2) (d : BitVec 7) (n : BitVec 7) : Statement (.rview q d n) := by
  intro ok
  show rowOf (fmtA 49#6 q 5#3 d 0#7 n) = _
  rw [row31]
  simp [decodeMajor31]

theorem ctlrd (q : BitVec 2) (d : BitVec 7) (s : BitVec 10) : Statement (.ctlrd q d s) := by
  intro ok
  show rowOf (fmtB 50#6 q d 0#7 s) = _
  rw [row32]
  have h1 : ((gr d && decide (s.toNat ≤ 9)) && s != 2#10) = true := ok
  simp only [Bool.and_eq_true, bne_iff_ne] at h1
  simp [decodeMajor32, h1.2]

theorem ctlrdFflags (q : BitVec 2) (d : BitVec 7) : Statement (.ctlrdFflags q d) := by
  intro ok
  show rowOf (fmtB 50#6 q d 0#7 2#10) = _
  rw [row32]
  simp [decodeMajor32]

theorem ctlwr (q : BitVec 2) (a : BitVec 7) (s : BitVec 10) : Statement (.ctlwr q a s) := by
  intro ok
  show rowOf (fmtB 51#6 q 0#7 a s) = _
  rw [row33]
  have h1 : (gr a && (decide (s.toNat ≤ 1) || (decide (7 ≤ s.toNat) && decide (s.toNat ≤ 9)))) = true := ok
  have h2 : ∀ k : Nat, 2 ≤ k → k ≤ 6 → s ≠ BitVec.ofNat 10 k := by
    rintro k k2 k6 rfl
    simp at h1
    omega
  have := h2 2; have := h2 3; have := h2 4; have := h2 5; have := h2 6
  simp_all [decodeMajor33]

theorem ctlwrFflags (q : BitVec 2) (a : BitVec 7) : Statement (.ctlwrFflags q a) := by
  intro ok
  show rowOf (fmtB 51#6 q 0#7 a 2#10) = _
  rw [row33]
  simp [decodeMajor33]

theorem ctlwrLfm (q : BitVec 2) (a : BitVec 7) : Statement (.ctlwrLfm q a) := by
  intro ok
  show rowOf (fmtB 51#6 q 0#7 a 3#10) = _
  rw [row33]
  simp [decodeMajor33]

theorem ctlwrRepc (q : BitVec 2) (a : BitVec 7) : Statement (.ctlwrRepc q a) := by
  intro ok
  show rowOf (fmtB 51#6 q 0#7 a 4#10) = _
  rw [row33]
  simp [decodeMajor33]

theorem ctlwrTmr (q : BitVec 2) (a : BitVec 7) : Statement (.ctlwrTmr q a) := by
  intro ok
  show rowOf (fmtB 51#6 q 0#7 a 5#10) = _
  rw [row33]
  simp [decodeMajor33]

theorem ctlwrAlarm (q : BitVec 2) (a : BitVec 7) : Statement (.ctlwrAlarm q a) := by
  intro ok
  show rowOf (fmtB 51#6 q 0#7 a 6#10) = _
  rw [row33]
  simp [decodeMajor33]

theorem bara (q : BitVec 2) (d : BitVec 7) (n : BitVec 7) : Statement (.bara q d n) := by
  intro ok
  show rowOf (fmtA 52#6 q 0#3 d 0#7 n) = _
  rw [row34]
  simp [decodeMajor34]

theorem barw (q : BitVec 2) (a : BitVec 7) (n : BitVec 7) : Statement (.barw q a n) := by
  intro ok
  show rowOf (fmtA 52#6 q 1#3 0#7 a n) = _
  rw [row34]
  simp [decodeMajor34]

theorem barm (q : BitVec 2) (a : BitVec 7) (n : BitVec 7) : Statement (.barm q a n) := by
  intro ok
  show rowOf (fmtA 52#6 q 2#3 0#7 a n) = _
  rw [row34]
  simp [decodeMajor34]

theorem bbinit (q : BitVec 2) (a : BitVec 7) (b : BitVec 7) : Statement (.bbinit q a b) := by
  intro ok
  show rowOf (fmtA 52#6 q 3#3 0#7 a b) = _
  rw [row34]
  simp [decodeMajor34]

theorem bbexp (q : BitVec 2) (a : BitVec 7) (b : BitVec 7) : Statement (.bbexp q a b) := by
  intro ok
  show rowOf (fmtA 52#6 q 4#3 0#7 a b) = _
  rw [row34]
  simp [decodeMajor34]

theorem bbarr (q : BitVec 2) (a : BitVec 7) (b : BitVec 7) : Statement (.bbarr q a b) := by
  intro ok
  show rowOf (fmtA 52#6 q 5#3 0#7 a b) = _
  rw [row34]
  simp [decodeMajor34]

theorem bbwait (q : BitVec 2) (a : BitVec 7) (b : BitVec 7) : Statement (.bbwait q a b) := by
  intro ok
  show rowOf (fmtA 52#6 q 6#3 0#7 a b) = _
  rw [row34]
  simp [decodeMajor34]

theorem ckinit (q : BitVec 2) (a : BitVec 7) (n : BitVec 4) : Statement (.ckinit q a n) := by
  intro ok
  show rowOf (fmtA 53#6 q 0#3 0#7 a (0#3 ++ n)) = _
  rw [row35]
  simp [decodeMajor35]

theorem ckres (q : BitVec 2) (d : BitVec 7) (c : BitVec 3) (n : BitVec 4) : Statement (.ckres q d c n) := by
  intro ok
  show rowOf (fmtA 53#6 q 1#3 d 0#7 (c ++ n)) = _
  rw [row35]
  simp [decodeMajor35]

theorem ckpub (q : BitVec 2) (a : BitVec 7) (c : BitVec 3) (n : BitVec 4) : Statement (.ckpub q a c n) := by
  intro ok
  show rowOf (fmtA 53#6 q 2#3 0#7 a (c ++ n)) = _
  rw [row35]
  simp [decodeMajor35]

theorem ckacq (q : BitVec 2) (d : BitVec 7) (c : BitVec 3) (n : BitVec 4) : Statement (.ckacq q d c n) := by
  intro ok
  show rowOf (fmtA 53#6 q 3#3 d 0#7 (c ++ n)) = _
  rw [row35]
  simp [decodeMajor35]

theorem ckrel (q : BitVec 2) (a : BitVec 7) (c : BitVec 3) (n : BitVec 4) : Statement (.ckrel q a c n) := by
  intro ok
  show rowOf (fmtA 53#6 q 4#3 0#7 a (c ++ n)) = _
  rw [row35]
  simp [decodeMajor35]

theorem wait (q : BitVec 2) (a : BitVec 7) (b : BitVec 7) : Statement (.wait q a b) := by
  intro ok
  show rowOf (fmtA 53#6 q 5#3 0#7 a b) = _
  rw [row35]
  simp [decodeMajor35]

theorem abeg (q : BitVec 2) (a : BitVec 7) : Statement (.abeg q a) := by
  intro ok
  show rowOf (fmtA 53#6 q 6#3 0#7 a 0#7) = _
  rw [row35]
  simp [decodeMajor35]

theorem acom (q : BitVec 2) (o : BitVec 7) : Statement (.acom q o) := by
  intro ok
  show rowOf (fmtA 53#6 q 7#3 0#7 0#7 o) = _
  rw [row35]
  simp [decodeMajor35]

theorem cpyt (q : BitVec 2) (d : BitVec 7) (a : BitVec 7) (b : BitVec 7) : Statement (.cpyt q d a b) := by
  intro ok
  show rowOf (fmtA 54#6 q 0#3 d a b) = _
  rw [row36]
  simp [decodeMajor36]

theorem tsrf (q : BitVec 2) : Statement (.tsrf q) := by
  intro ok
  show rowOf (fmtA 54#6 q 1#3 0#7 0#7 0#7) = _
  rw [row36]
  simp [decodeMajor36]

theorem trig (q : BitVec 2) (p : BitVec 2) (a : BitVec 7) : Statement (.trig q p a) := by
  intro ok
  show rowOf (fmtA 54#6 q 2#3 (0#5 ++ p) a 0#7) = _
  rw [row36]
  simp [decodeMajor36]

theorem ldG (q : BitVec 2) (s : BitVec 3) (d : BitVec 7) (a : BitVec 7) (b : BitVec 7) : Statement (.ldG q s d a b) := by
  intro ok
  show rowOf (fmtA 55#6 q s d a b) = _
  rw [row37]
  simp [decodeMajor37]

theorem stG (q : BitVec 2) (s : BitVec 3) (d : BitVec 7) (a : BitVec 7) (b : BitVec 7) : Statement (.stG q s d a b) := by
  intro ok
  show rowOf (fmtA 56#6 q s d a b) = _
  rw [row38]
  simp [decodeMajor38]

theorem mma (q : BitVec 2) (a : BitVec 4) (b : BitVec 4) (c : BitVec 3) (d : BitVec 7) : Statement (.mma q a b c d) := by
  intro ok
  show rowOf (fmtX 57#6 q a b c d 0#6) = _
  rw [row39]
  simp [decodeMajor39]

theorem mmag (q : BitVec 2) (a : BitVec 4) (b : BitVec 4) (c : BitVec 3) (d : BitVec 7) : Statement (.mmag q a b c d) := by
  intro ok
  show rowOf (fmtX 57#6 q a b c d 1#6) = _
  rw [row39]
  simp [decodeMajor39]

theorem mmav (q : BitVec 2) (a : BitVec 4) (b : BitVec 4) (c : BitVec 3) (d : BitVec 7) : Statement (.mmav q a b c d) := by
  intro ok
  show rowOf (fmtX 57#6 q a b c d 2#6) = _
  rw [row39]
  simp [decodeMajor39]

theorem msca (q : BitVec 2) (a : BitVec 4) (c : BitVec 3) (d : BitVec 7) : Statement (.msca q a c d) := by
  intro ok
  show rowOf (fmtX 57#6 q a 0#4 c d 3#6) = _
  rw [row39]
  simp [decodeMajor39]

theorem mzero (q : BitVec 2) (c : BitVec 3) : Statement (.mzero q c) := by
  intro ok
  show rowOf (fmtX 57#6 q 0#4 0#4 c 0#7 4#6) = _
  rw [row39]
  simp [decodeMajor39]

theorem mdrn (q : BitVec 2) (a : BitVec 4) (c : BitVec 3) (d : BitVec 7) : Statement (.mdrn q a c d) := by
  intro ok
  show rowOf (fmtX 57#6 q a 0#4 c d 5#6) = _
  rw [row39]
  simp [decodeMajor39]

theorem limm (i : BitVec 24) : Statement (.limm i) := by
  intro ok
  show rowOf (fmtC 58#6 0#2 i) = _
  rw [row3A]
  simp [decodeMajor3A]

theorem rep (n : BitVec 6) (m : BitVec 3) (s : BitVec 3) (g : BitVec 7) : Statement (.rep n m s g) := by
  intro ok
  show rowOf (fmtP 59#6 0#2 n m s g 0#5) = _
  rw [row3B]
  simp [decodeMajor3B]

theorem pageRequest : Statement (.pageRequest) :=
  fun ok => Bool.noConfusion (show false = true from ok)

theorem thermalHalt : Statement (.thermalHalt) :=
  fun ok => Bool.noConfusion (show false = true from ok)

theorem tapRebind : Statement (.tapRebind) :=
  fun ok => Bool.noConfusion (show false = true from ok)

theorem waitSignalTimeout : Statement (.waitSignalTimeout) :=
  fun ok => Bool.noConfusion (show false = true from ok)

theorem completionSignal : Statement (.completionSignal) :=
  fun ok => Bool.noConfusion (show false = true from ok)

theorem launchEnd : Statement (.launchEnd) :=
  fun ok => Bool.noConfusion (show false = true from ok)

theorem taskCompletionReport : Statement (.taskCompletionReport) :=
  fun ok => Bool.noConfusion (show false = true from ok)

theorem joinComplete : Statement (.joinComplete) :=
  fun ok => Bool.noConfusion (show false = true from ok)

theorem rootViewFold : Statement (.rootViewFold) :=
  fun ok => Bool.noConfusion (show false = true from ok)

theorem deferredAddApply : Statement (.deferredAddApply) :=
  fun ok => Bool.noConfusion (show false = true from ok)

theorem trapEntry : Statement (.trapEntry) :=
  fun ok => Bool.noConfusion (show false = true from ok)

theorem timer : Statement (.timer) :=
  fun ok => Bool.noConfusion (show false = true from ok)

theorem alarm : Statement (.alarm) :=
  fun ok => Bool.noConfusion (show false = true from ok)

theorem grpAbsent : Statement (.grpAbsent) :=
  fun ok => Bool.noConfusion (show false = true from ok)

end Sys2Proof.Laws.Encoding
end

