-- ==== Sys2Proof/Laws/Traps.lean ====
section
/-! SUPPORT. Entering a handler and ending a launch: what changes and what stays. -/
namespace Sys2Proof.Machine
open Host

/-! ## Entering a handler -/

/-- A field of what a store wrote, read back. -/
theorem natAt_store_part (s : State) (loc : Nat) (bs : List Byte) (off n : Nat) (h : off + n ≤ bs.length) :
    (s.store loc bs).natAt (loc + off) n = leNat ((bs.drop off).take n) := by
  unfold State.natAt
  congr 1
  apply List.ext_getElem (by simp; omega)
  intro i h1 h2
  have hi : i < n := by simpa using h1
  have hd := bytesAt_getD (s.store loc bs) (loc + off) n i hi
  rw [byteAt_store, if_pos ⟨by omega, by omega⟩] at hd
  rw [List.getD_eq_getElem?_getD, List.getElem?_eq_getElem h1, Option.getD_some] at hd
  rw [hd, List.getElem_take, List.getElem_drop, List.getD_eq_getElem?_getD, List.getElem?_eq_getElem (by omega), Option.getD_some]
  congr 1
  omega
/-- Eight bytes of a word are the word. -/
theorem leNat_leBytes_word (x : W64) : leNat (leBytes 8 x.toNat) = x.toNat := by
  rw [leNat_leBytes]; exact Nat.mod_eq_of_lt (by have := x.isLt; simpa using this)
/-- A change of every split that keeps its entry, by table entry. -/
theorem splitAt_map (g : Machine.Group) (f : Split → Split) (hf : ∀ p, (f p).entry = p.entry) (k : Nat) :
    ({ g with splits := g.splits.map f } : Machine.Group).splitAt k = (g.splitAt k).map f := by
  unfold Group.splitAt
  simp only
  rw [List.find?_map]
  congr 2
  funext x
  simp only [Function.comp, hf]
@[simp] theorem Split.awake_entry (p : Split) : p.awake.entry = p.entry := by unfold Split.awake; split <;> rfl
@[simp] theorem Split.unmark_entry (p : Split) : p.unmark.entry = p.entry := rfl
/-- Waking every monitor wait of a group, by table entry. -/
theorem splitAt_map_awake (g : Machine.Group) (k : Nat) : ({ g with splits := g.splits.map Split.awake } : Machine.Group).splitAt k = (g.splitAt k).map Split.awake :=
  splitAt_map g _ Split.awake_entry k

/-- One split replaced, then every monitor wait woken. -/
theorem splitAt_putSplit_awake (g : Machine.Group) (q : Split) (k : Nat) :
    ({ g with splits := (g.putSplit q).splits.map Split.awake } : Machine.Group).splitAt k = if k = q.entry then (g.splitAt k).map (fun _ => q.awake) else (g.splitAt k).map Split.awake := by
  have h1 := splitAt_map_awake (g.putSplit q) k
  have h2 := splitAt_putSplit g q k
  have h3 : ({ g with splits := (g.putSplit q).splits.map Split.awake } : Machine.Group).splitAt k = ({ (g.putSplit q) with splits := (g.putSplit q).splits.map Split.awake } : Machine.Group).splitAt k := rfl
  rw [h3, h1, h2]
  split
  · cases g.splitAt k <;> rfl
  · rfl

/-- An interrupted repeat goes to ctl.repc, which its split alone is to consume; nothing else changes. -/
theorem saveRep_eq (u : State) : ∃ spl : List Split,
    u.saveRep = { u with cur := { u.cur with splits := spl, repc := match u.sp.rep with | some r => repcOf r.total r.done | none => u.cur.repc } } ∧
    spl.map Split.entry = u.cur.splits.map Split.entry ∧
    ∀ k, ({ u.cur with splits := spl } : Machine.Group).splitAt k = (u.cur.splitAt k).map (fun p =>
      let q : Split := if k = u.split then { p with rep := none } else p
      if u.sp.rep.isSome then q.unmark else q) := by
  cases hr : u.sp.rep with
  | none =>
    refine ⟨u.cur.splits, by unfold State.saveRep; rw [hr], rfl, ?_⟩
    intro k
    show u.cur.splitAt k = _
    cases hp : u.cur.splitAt k with
    | none => rfl
    | some p =>
      simp only [Option.map_some, Option.isSome_none, Bool.false_eq_true, if_false, Option.some.injEq]
      split
      · rename_i hk
        subst hk
        rw [sp_of_splitAt hp] at hr
        rw [← hr]
      · rfl
  | some r =>
    refine ⟨(u.cur.putSplit { u.sp with rep := none }).splits.map Split.unmark, by unfold State.saveRep; rw [hr]; rfl, ?_, ?_⟩
    · unfold Group.putSplit
      simp only [List.map_map]
      apply List.map_congr_left
      intro x _
      simp only [Function.comp, Split.unmark_entry]
      split
      · rename_i hx; exact hx.symm
      · rfl
    · intro k
      refine Eq.trans (splitAt_map (u.cur.putSplit { u.sp with rep := none }) _ Split.unmark_entry k) ?_
      rw [splitAt_putSplit]
      show ((if k = u.sp.entry then _ else _) : Option Split).map _ = _
      rw [sp_entry u]
      cases hp : u.cur.splitAt k with
      | none => split <;> rfl
      | some p =>
        split
        · rename_i hk
          subst hk
          rw [sp_of_splitAt hp]
          rfl
        · rfl

/-- Handler entry: what changes. -/
theorem enterHandler_eq (u : State) (e : Exc) (slot : Nat) : ∃ spl : List Split,
    u.enterHandler e slot = { u with
      cur := { u.cur with
        trapinfo := BitVec.ofNat 64 (trapInfo e.code e.cls e.detail slot), handler := some (u.split, slot)
        held := (u.cur.splits.map Split.entry).filter (· != u.split), monitor := none, region := none, splits := spl
        repc := match u.sp.rep with | some r => repcOf r.total r.done | none => u.cur.repc }
      tick := u.tick + 1, limm := none } ∧
    (∀ k, k ≠ u.split → ({ u.cur with splits := spl } : Machine.Group).splitAt k =
      (u.cur.splitAt k).map (fun p => (if u.sp.rep.isSome then p.unmark else p).awake)) ∧
    ∀ p, u.cur.splitAt u.split = some p → ({ u.cur with splits := spl } : Machine.Group).splitAt u.split =
      some { p with pc := u.cur.trapvec &&& 0x01FFFFFFFFFFFFFC#64, st := .ready, rep := none, fresh := false } := by
  obtain ⟨spl, h1, h2, h3⟩ := saveRep_eq u
  generalize (match u.sp.rep with | some r => repcOf r.total r.done | none => u.cur.repc) = rc at h1 ⊢
  have hsp : u.saveRep.sp.entry = u.split := by rw [h1]; exact sp_entry _
  have hspv : ∀ p, u.cur.splitAt u.split = some p → ∃ b, u.saveRep.sp = { p with rep := none, fresh := b } := by
    intro p hp
    have := h3 u.split
    rw [hp] at this
    simp only [if_pos, Option.map_some] at this
    cases hr : u.sp.rep.isSome <;> simp only [hr] at this
    · exact ⟨p.fresh, sp_of_splitAt (by rw [h1]; exact this)⟩
    · exact ⟨false, sp_of_splitAt (by rw [h1]; exact this)⟩
  have h4 := fun q k => splitAt_putSplit_awake { u.cur with splits := spl } q k
  refine ⟨((({ u.cur with splits := spl } : Machine.Group).putSplit { u.saveRep.sp with pc := u.cur.trapvec &&& 0x01FFFFFFFFFFFFFC#64, st := .ready, fresh := false }).splits.map Split.awake), ?_, ?_, ?_⟩
  · unfold State.enterHandler
    simp only [h1]
    rw [← h2]
    rfl
  · intro k hk
    have := h4 { u.saveRep.sp with pc := u.cur.trapvec &&& 0x01FFFFFFFFFFFFFC#64, st := .ready, fresh := false } k
    rw [if_neg (by show k ≠ u.saveRep.sp.entry; rw [hsp]; exact hk), h3, Option.map_map] at this
    refine Eq.trans this ?_
    simp only [Function.comp_def, if_neg hk]
  · intro p hp
    have := h4 { u.saveRep.sp with pc := u.cur.trapvec &&& 0x01FFFFFFFFFFFFFC#64, st := .ready, fresh := false } u.split
    rw [if_pos (by show u.split = u.saveRep.sp.entry; exact hsp.symm), h3, hp] at this
    refine Eq.trans this ?_
    obtain ⟨b, hb⟩ := hspv p hp
    rw [hb]
    rfl

/-! ## Ending a launch -/

@[simp] theorem Job.stop_id (j : Job) (c : Nat) : (j.stop c).id = j.id := by unfold Job.stop; split <;> rfl
@[simp] theorem Job.stop_pkt (j : Job) (c : Nat) : (j.stop c).pkt = j.pkt := by unfold Job.stop; split <;> rfl
@[simp] theorem Job.stop_nextTeam (j : Job) (c : Nat) : (j.stop c).nextTeam = j.nextTeam := by unfold Job.stop; split <;> rfl
theorem Job.stop_ends (j : Job) (c : Nat) : ∃ k, (j.stop c).phase = .ending k := by
  unfold Job.stop
  split
  · rename_i h; exact ⟨_, h⟩
  · exact ⟨_, rfl⟩
@[simp] theorem Job.stop_stop (j : Job) (c d : Nat) : (j.stop c).stop d = j.stop c := by
  obtain ⟨k, h⟩ := Job.stop_ends j c
  generalize j.stop c = x at h
  unfold Job.stop
  rw [h]

/-- A status word stored by an event: the word, what it replaced in the history, every other byte as before. -/
theorem storeNat_event {s u : State} (loc n x : Nat) (hm : u.mem = s.mem) (hh : u.hist = s.hist) :
    u.storeNat loc n x = { u with mem := (u.storeNat loc n x).mem, hist := ⟨loc, s.bytesAt loc n⟩ :: s.hist } ∧
    ∀ a, a < loc ∨ loc + n ≤ a → (u.storeNat loc n x).byteAt a = s.byteAt a := by
  have hb : ∀ a, u.byteAt a = s.byteAt a := fun a => by unfold State.byteAt; rw [hm]
  refine ⟨?_, ?_⟩
  · have : u.bytesAt loc n = s.bytesAt loc n := bytesAt_congr (fun a _ _ => hb a)
    unfold State.storeNat State.store
    simp only [leBytes_length, this, hh]
  · intro a ha
    rw [← hb a]
    exact byteAt_store_outside u (bs := leBytes n x) (by simpa using ha)

end Sys2Proof.Machine
end

