-- ==== Sys2Proof/Tests/Slice0.lean ====
section
/-! SUPPORT. Tests of decoding, of single steps on small states, and for each obligation states and operands that meet its hypotheses. -/
open Sys2Proof.Machine Host
namespace Sys2Proof.Tests
set_option Elab.async false
/-! ## Words

Each list holds words the spec prints beside their assembly text, and the instruction that text names. -/

/-- Whether the decoder gives each word its instruction, and the encoder the word back. -/
def wordsAgree (l : List (W32 × Instr)) : Bool := l.all (fun p => decide ((decodeWord p.1).toOption = some p.2) && encode p.2 == p.1)

/-- 20 R344 to R347, 18 R308, 19 R325: integer arithmetic. -/
theorem test_words_integer : wordsAgree [
    (0x0000C082#32, .iaddV 0 3 1 2), (0x00214307#32, .isubV 0 5 6 7), (0x00A14307#32, .imadV 0 5 6 7), (0x04410308#32, .imulV64 0 4 6 8),
    (0x08014307#32, .imaxV 0 0 0 5 6 7), (0x28040808#32, .iaddImmV 0 2 2 8), (0x80614307#32, .imulhS32G 0 5 6 7),
    (0x84814307#32, .imulhZ64G 0 5 6 7), (0x84C14300#32, .iabsG64 0 5 6), (0x88E14307#32, .iminG 0 1 1 5 6 7),
    (0xAC3C7BFF#32, .iaddImmG64 0 30 30 (-1)), (0x1C004380#32, .icmpV 0 0 0 1 7 0), (0x1C408305#32, .icmpV 0 2 0 2 6 5),
    (0x9C214300#32, .icmpG 0 1 1 1 6 0)] = true := by decide

/-- 18 R307, R315, R319, R320, 21 R368, R370, R383, 22 R387, R407: logic, shifts and bits. -/
theorem test_words_logic : wordsAgree [
    (0x0C00C082#32, .andV 0 0 3 1 2), (0x0C214307#32, .orV 0 0 5 6 7), (0x0C414307#32, .xorV 0 0 5 6 7), (0x0C810308#32, .andV 0 1 4 6 8),
    (0x8CA58B15#32, .orG 0 1 22 22 21), (0x8CCA142A#32, .xorG 0 1 40 40 42), (0x8CE2858C#32, .andnG 0 1 10 11 12),
    (0x10014307#32, .shlV 0 0 5 6 7), (0x10214307#32, .shrV 0 0 5 6 7), (0x10414307#32, .sarV 0 0 5 6 7), (0x10614307#32, .rotV 0 0 5 6 7),
    (0x10808382#32, .shlV 0 1 2 7 2), (0x10C1431F#32, .sarV 0 1 5 6 31), (0x10E14308#32, .rotV 0 1 5 6 8), (0x14010308#32, .shlV64 0 0 4 6 8),
    (0x94850A30#32, .shlG64 0 1 20 20 48), (0x94A88F83#32, .shrG64 0 1 34 31 3), (0x94E14328#32, .rotG64 0 1 5 6 40),
    (0x18014300#32, .clzV 0 5 6), (0x18214300#32, .popcV 0 5 6), (0x18414300#32, .brevV 0 5 6), (0x18614307#32, .bfxZV 0 5 6 7),
    (0x18A14307#32, .bfiV 0 5 6 7), (0x18C10300#32, .clzV64 0 4 6), (0x98814307#32, .bfxSG 0 5 6 7), (0x98E14300#32, .popcG64 0 5 6)] = true := by
  decide

/-- 21 R363 to R365, R371, 22 R390, R403, 20 R356, 18 R314: moves, predicates and addresses. -/
theorem test_words_moves : wordsAgree [
    (0x20014300#32, .movV 0 5 6), (0x20810300#32, .movV64 0 4 6), (0xA0014300#32, .movG32 0 5 6), (0xA08B1400#32, .movG64 0 44 40),
    (0x24C1C000#32, .movSpecialV 0 7 0), (0xA4C7C003#32, .movSpecialG 0 31 3), (0x20214307#32, .selV 0 0 1 5 6 7), (0xA0C14307#32, .selG 0 1 2 5 6 7),
    (0x24004103#32, .psetV 0 0 1 2 3), (0x24204103#32, .psetV 0 1 1 2 3), (0xA4404103#32, .psetG 0 2 1 2 3), (0xA4608083#32, .psetG 0 3 2 1 3),
    (0x24804100#32, .psetV 0 4 1 2 0), (0xA4A04301#32, .psetNzG 0 1 6 1), (0x300C0001#32, .moviV 0 6 1), (0xB00B2345#32, .moviG 0 5 0x12345),
    (0x34829603#32, .leaV 0 0 10 44 3), (0xB4E2858C#32, .leaG 0 3 10 11 12), (0x5CA0CB00#32, .bcast 0 3 22 0), (0x5CA10401#32, .bcast 0 4 8 1),
    (0x5C808100#32, .vote 0 2 2 0), (0x5D808100#32, .vote 1 2 2 0), (0x5C804181#32, .vote 0 1 3 1), (0x5C814082#32, .vote 0 5 1 2)] = true := by
  decide

/-- 18 R316 to R318, R321, 19 R322, 21 R382: transfers. -/
theorem test_words_branches : wordsAgree [
    (0x34000500#32, .brxV 0 10), (0x35000500#32, .brxV 1 10), (0xB4002F80#32, .brxG 0 95), (0xB4200A00#32, .retG 0 20),
    (0xB4202F80#32, .retG 0 95), (0x34203F00#32, .retV 0 126), (0x38000003#32, .callV 0 3), (0xB8000040#32, .callG 0 0x40), (0x3E000010#32, .braV 2 16),
    (0xBDFFFFF8#32, .braG 1 0xFFFFF8), (0xBDFFFFFD#32, .braG 1 0xFFFFFD)] = true := by decide

/-- 19 R331 to R343, 21 R369, R374, R378, 22 R388, R389, R391, 20 R348, 21 R367: floating forms, conversions and cross-lane forms. -/
theorem test_words_floating : wordsAgree [
    (0x40050C1C#32, .fadd 0 20 24 28), (0x41620205#32, .ffma 1 8 4 5), (0x4C814307#32, .hfuse 0 0 5 6 7), (0x4CA14307#32, .hfuse 0 1 5 6 7),
    (0x50418206#32, .fcmp 0 2 1 2 4 6), (0x54C1430E#32, .cvtGxEncode 0 5 6 0 14), (0x54C1431D#32, .cvtGxEncode 0 5 6 1 13),
    (0x54E1430F#32, .cvtGxDecode 0 5 6 15), (0x58014307#32, .dp4 0 0 5 6 7), (0x58214307#32, .dp4 0 1 5 6 7), (0x58414000#32, .rand 0 0 5),
    (0x58614000#32, .rand 0 1 5), (0x58800180#32, .pitch 0 3), (0x5C014307#32, .shfl 0 0 5 6 7), (0x5C614307#32, .shfl 0 3 5 6 7),
    (0x5CC14300#32, .redux 0 5 6 0 0), (0x5CC14312#32, .redux 0 5 6 2 2), (0x5CE14300#32, .scan 0 5 6 0 0 0), (0x5CE14350#32, .scan 0 5 6 1 2 0),
    (0x60050806#32, .nzscan 0 20 16 6), (0x60210308#32, .isect 0 4 6 8)] = true := by decide

/-- 18 R304 to R309, 20 R350 to R355, 21 R362 to R364, R376, R377, 22 R394 to R398: memory, atomics, slices and queues. -/
theorem test_words_memory : wordsAgree [
    (0x64818402#32, .ldV 0 4 6 8 2), (0x64820502#32, .ldV 0 4 8 10 2), (0x64850F02#32, .ldV 0 4 20 30 2), (0x68804400#32, .stV 0 4 1 8 0),
    (0x68828A82#32, .stV 0 4 10 21 2), (0x6C08189E#32, .ldOrdered 0 4 6 19 6), (0x6C18602C#32, .ldOrdered 0 12 24 5 4),
    (0x70121054#32, .stOrdered 0 9 4 10 4), (0x7118205E#32, .stOrdered 1 12 8 11 6), (0xDCCAC480#32, .ldG 0 6 43 9 0),
    (0xE0C04400#32, .stG 0 6 1 8 0), (0x74041220#32, .atom 0 2 4 17 0), (0x740C100C#32, .atom 0 6 4 0 12), (0x740C1012#32, .atom 0 6 4 0 18),
    (0x74101013#32, .atom 0 8 4 0 19), (0x741010D1#32, .atom 0 8 4 6 17), (0x750C1220#32, .atom 1 6 4 17 0), (0x7812100C#32, .red 0 9 4 0 12),
    (0x78121154#32, .red 0 9 4 10 20), (0x79206161#32, .red 1 16 24 11 1), (0x7C2202B2#32, .stt 0 8 5 3 0 2), (0x60580800#32, .movQueuePush 0 96 16),
    (0x6066B100#32, .movQueuePop 0 26), (0x7C580290#32, .movSlicePush 0 96 5 1 0 0), (0x7C788290#32, .movSlicePop 0 5 1 0 0),
    (0x7C8141A9#32, .movSliceToV 0 5 3 2 1 1), (0x7CA141A9#32, .movVToSlice 0 5 3 2 1 1), (0xD4C00400#32, .abeg 0 8), (0xD4E00011#32, .acom 0 17)] = true := by
  decide

/-- 12 R246, 10 R189 to R208, 18 R310 to R313, 19 R323, R326, R327, 22 R400, R402, R404: barriers, engines and casks. -/
theorem test_words_engines : wordsAgree [
    (0x6082050C#32, .cpy 0 8 10 12), (0x60A2050C#32, .cpyr 0 8 10 12), (0xD802840C#32, .cpyt 0 10 8 12), (0xD8200000#32, .tsrf 0),
    (0xD8404400#32, .trig 0 1 8), (0xD0028010#32, .bara 0 10 16), (0xD0200510#32, .barw 0 10 16), (0xD0400583#32, .barm 0 11 3),
    (0xD0600409#32, .bbinit 0 8 9), (0xD0800409#32, .bbexp 0 8 9), (0xD0A00409#32, .bbarr 0 8 9), (0xD0C00409#32, .bbwait 0 8 9),
    (0xD4000402#32, .ckinit 0 8 2), (0xD4228002#32, .ckres 0 10 0 2), (0xD4400502#32, .ckpub 0 10 0 2), (0xD4628002#32, .ckacq 0 10 0 2),
    (0xD4800502#32, .ckrel 0 10 0 2), (0xD4A00C00#32, .wait 0 24 0), (0xD4A004A9#32, .wait 0 9 41)] = true := by decide

/-- 11 R216: the matrix instructions. -/
theorem test_words_matrix : wordsAgree [
    (0xE4662500#32, .mma 0 6 6 1 20), (0xE4440501#32, .mmag 0 4 4 0 20), (0xE4142502#32, .mmav 0 1 4 1 20), (0xE4104543#32, .msca 0 1 2 21),
    (0xE4006004#32, .mzero 0 3), (0xE4306585#32, .mdrn 0 3 3 22), (0xE4100585#32, .mdrn 0 1 0 22)] = true := by decide

/-- 04 R74, R75, 02 R33, R34, 12 R245, 13 R256, 19 R329, R330, 20 R349, 21 R366, R372, R375, R380, R384, 22 R392, R399, R406: the system instructions. -/
theorem test_words_system : wordsAgree [
    (0xC0000000#32, .nop 0), (0xC0200000#32, .exit 0), (0xC0400005#32, .trap 0 5), (0xC0600000#32, .eret 0), (0xC0800000#32, .yield 0),
    (0xC0C00002#32, .wbaseImm 0 2), (0xC0C003C0#32, .wbaseReg 0 7), (0xC0E07100#32, .qpoll 0 1 98), (0xC400048C#32, .spawn 0 0 9 12),
    (0xC402C48C#32, .spawn 0 11 9 12), (0xC4200000#32, .join 0), (0xC4428580#32, .allocHeap 0 10 11), (0xC4630680#32, .allocLog 0 12 13),
    (0xC4800403#32, .rdecl 0 8 3), (0xC4A28003#32, .rview 0 10 3), (0xC80A0002#32, .ctlrdFflags 0 5), (0xCC001801#32, .ctlwr 0 6 1),
    (0xE8000000#32, .limm 0), (0xEC138000#32, .rep 4 7 0 0), (0xEC110000#32, .rep 4 2 0 0), (0xECFE1180#32, .rep 63 4 1 12)] = true := by decide

/-- A word of formats A, M and T: major, fn, d, a and b at bits 31:26, 23:21, 20:14, 13:7 and 6:0 (04 R67), unguarded. -/
def wordA (major fn d a b : Nat) : W32 := BitVec.ofNat 32 (major * 2 ^ 26 + fn * 2 ^ 21 + d * 2 ^ 14 + a * 2 ^ 7 + b)
/-- A word of format B: major, d, a and imm10 at bits 31:26, 23:17, 16:10 and 9:0 (04 R67), unguarded. -/
def wordB (major d a imm : Nat) : W32 := BitVec.ofNat 32 (major * 2 ^ 26 + d * 2 ^ 17 + a * 2 ^ 10 + imm)

/-- The cells of the opcode map (04 R81) whose forms the lists above leave out: the integer majors. -/
theorem test_map_integer : wordsAgree [
    (wordA 0x00 2 5 6 7, .imulV 0 5 6 7), (wordA 0x00 3 5 6 7, .imulhS32V 0 5 6 7), (wordA 0x00 4 5 6 7, .imulhZ32V 0 5 6 7),
    (wordA 0x00 6 5 6 0, .iabsV 0 5 6), (wordA 0x01 0 4 6 8, .iaddV64 0 4 6 8), (wordA 0x01 1 4 6 8, .isubV64 0 4 6 8),
    (wordA 0x01 3 4 6 8, .imulhS64V 0 4 6 8), (wordA 0x01 4 4 6 8, .imulhZ64V 0 4 6 8), (wordA 0x01 5 4 6 8, .imadV64 0 4 6 8),
    (wordA 0x01 6 4 6 0, .iabsV64 0 4 6), (wordA 0x20 0 5 6 7, .iaddG32 0 5 6 7), (wordA 0x20 1 5 6 7, .isubG32 0 5 6 7),
    (wordA 0x20 2 5 6 7, .imulG32 0 5 6 7), (wordA 0x20 4 5 6 7, .imulhZ32G 0 5 6 7), (wordA 0x20 5 5 6 7, .imadG32 0 5 6 7),
    (wordA 0x20 6 5 6 0, .iabsG32 0 5 6), (wordA 0x21 0 5 6 7, .iaddG64 0 5 6 7), (wordA 0x21 1 5 6 7, .isubG64 0 5 6 7),
    (wordA 0x21 2 5 6 7, .imulG64 0 5 6 7), (wordA 0x21 3 5 6 7, .imulhS64G 0 5 6 7), (wordA 0x21 5 5 6 7, .imadG64 0 5 6 7),
    (wordB 0x0B 4 6 1023, .iaddImmV64 0 4 6 (-1)), (wordB 0x2A 5 6 1, .iaddImmG32 0 5 6 1), (wordA 0x02 6 4 6 8, .iminV 0 1 0 4 6 8),
    (wordA 0x22 1 5 6 7, .imaxG 0 0 1 5 6 7), (wordA 0x03 7 4 6 8, .andnV 0 1 4 6 8), (wordA 0x23 4 5 6 7, .andG 0 1 5 6 7),
    (wordA 0x05 5 4 6 63, .shrV64 0 1 4 6 63), (wordA 0x05 2 4 6 8, .sarV64 0 0 4 6 8), (wordA 0x05 7 4 6 1, .rotV64 0 1 4 6 1),
    (wordA 0x24 0 5 6 7, .shlG32 0 0 5 6 7), (wordA 0x24 5 5 6 31, .shrG32 0 1 5 6 31), (wordA 0x24 6 5 6 4, .sarG32 0 1 5 6 4),
    (wordA 0x24 3 5 6 7, .rotG32 0 0 5 6 7), (wordA 0x25 2 5 6 7, .sarG64 0 0 5 6 7), (wordA 0x26 0 5 6 0, .clzG32 0 5 6),
    (wordA 0x26 6 5 6 0, .clzG64 0 5 6), (wordA 0x06 7 4 6 0, .popcV64 0 4 6), (wordA 0x26 1 5 6 0, .popcG32 0 5 6),
    (wordA 0x26 2 5 6 0, .brevG 0 5 6), (wordA 0x06 4 5 6 7, .bfxSV 0 5 6 7), (wordA 0x26 3 5 6 7, .bfxZG 0 5 6 7), (wordA 0x26 5 5 6 7, .bfiG 0 5 6 7),
    (wordA 0x09 5 2 6 1, .psetNzV 0 2 6 1)] = true := by decide

/-- The floating majors, and CVT, FENCE, LDT and the control registers as their own entries print them (04 R81, 19 R331, R336, 20 R355). -/
theorem test_map_floating : wordsAgree [
    (wordA 0x10 1 5 6 7, .fsub 0 5 6 7), (wordA 0x10 2 5 6 7, .fmul 0 5 6 7), (wordA 0x10 4 5 6 7, .fdiv 0 5 6 7), (wordA 0x10 5 5 6 7, .fmin 0 5 6 7),
    (wordA 0x10 6 5 6 7, .fmax 0 5 6 7), (wordA 0x11 0 4 6 8, .faddF64 0 4 6 8), (wordA 0x11 1 4 6 8, .fsubF64 0 4 6 8),
    (wordA 0x11 2 4 6 8, .fmulF64 0 4 6 8), (wordA 0x11 3 4 6 8, .ffmaF64 0 4 6 8), (wordA 0x11 4 4 6 8, .fdivF64 0 4 6 8),
    (wordA 0x11 5 4 6 8, .fminF64 0 4 6 8), (wordA 0x11 6 4 6 8, .fmaxF64 0 4 6 8), (wordA 0x12 0 5 6 0, .fsqrt 0 5 6 0),
    (wordA 0x12 1 5 6 1, .frcp 0 5 6 1), (wordA 0x12 2 5 6 0, .frsq 0 5 6 0), (wordA 0x12 3 5 6 0, .fexp2 0 5 6 0), (wordA 0x12 4 5 6 0, .flog2 0 5 6 0),
    (wordA 0x12 5 5 6 0, .ftrigSinpi 0 5 6 0), (wordA 0x12 6 5 6 0, .ftrigCospi 0 5 6 0), (wordA 0x12 7 5 6 2, .frnd 0 5 6 2),
    (wordA 0x13 0 4 6 0, .fsqrtF64 0 4 6 0), (wordA 0x13 1 4 6 4, .frndF64 0 4 6 4), (wordA 0x13 3 5 6 1, .fclass 0 1 5 6 1),
    (wordA 0x15 2 5 6 0x14, .cvt 0 2 5 6 0x14), (0x7C0202B2#32, .ldt 0 8 5 3 0 2), (0xC0A00002#32, .fence 0 2), (0xC0A00012#32, .fence 0 18),
    (wordB 0x32 5 0 4, .ctlrd 0 5 4), (wordB 0x33 0 6 2, .ctlwrFflags 0 6), (wordB 0x33 0 6 3, .ctlwrLfm 0 6), (wordB 0x33 0 6 4, .ctlwrRepc 0 6),
    (wordB 0x33 0 6 5, .ctlwrTmr 0 6), (wordB 0x33 0 6 6, .ctlwrAlarm 0 6)] = true := by decide

/-- 00 R6, 04 R66: the bytes of a word, lowest first, and the rest of the list untouched. -/
theorem test_decode_bytes : (decodeBytes [0x82#8, 0xC0#8, 0x00#8, 0x00#8, 0x7F#8]).toOption = some (.iaddV 0 3 1 2, [0x7F#8]) := by decide

/-- 04 R78: the all-zero word, an unassigned cell, a reserved field and a short list are refused, each by name. -/
theorem test_decode_refuses :
    decodeWord 0#32 = .error .zeroWord ∧ decodeWord (wordA 0x00 7 1 2 3) = .error .unassigned ∧ decodeWord (wordA 0x3C 0 0 0 0) = .error .unassigned ∧
    decodeWord (wordA 0x30 0 0 0 1) = .error .unassigned ∧ decodeWord (wordA 0x01 0 5 6 8) = .error .badField ∧
    decodeWord (wordA 0x20 0 96 6 7) = .error .badField ∧ decodeBytes [0x82#8, 0xC0#8, 0x00#8] = .error .short := by decide

/-- 04 R81: bit 0 of the table's numbering is the least significant bit of the one word, whatever the table's width. -/
theorem test_decode_table_word : decodeTableWord 32 0x0000C082 = some (.iaddV 0 3 1 2) ∧ decodeTableWord 32 0 = none := by decide

/-! ## Well-formedness

One ill-formed term, or one for each side, for every check of `Instr.fieldsOk`; the check refuses it. -/

/-- None of the instructions is well-formed. -/
def allIll (l : List Instr) : Bool := l.all (fun i => !i.fieldsOk)

/-- 03 R48: odd registers of pairs, one for each place. -/
theorem test_ill_pairs : allIll [
    .iaddV64 0 5 6 8, .iaddV64 0 4 7 8, .iaddV64 0 4 6 9, .isubV64 0 1 2 4, .imulV64 0 2 1 4, .imulhS64V 0 2 4 1, .imulhZ64V 0 1 2 4, .imadV64 0 2 1 4,
    .iabsV64 0 1 2, .iabsV64 0 2 1, .iaddImmV64 0 1 2 0, .imaxV 0 1 0 1 2 4, .iminV 0 1 0 2 1 4, .andV 0 1 2 4 1, .orV 0 1 1 2 4, .xorV 0 1 2 1 4,
    .andnV 0 1 2 4 1, .shlV64 0 0 1 2 4, .shrV64 0 0 2 1 4, .sarV64 0 0 2 4 1, .rotV64 0 1 1 2 0, .clzV64 0 1 2, .popcV64 0 2 1, .movV64 0 1 2,
    .icmpV 0 0 1 1 1 2, .icmpV 0 0 1 1 2 1, .selV 0 1 1 1 2 4, .psetNzV 0 1 1 1, .brxV 0 1, .retV 0 1, .leaV 0 0 1 2 3, .faddF64 0 1 2 4, .fsubF64 0 2 1 4,
    .fmulF64 0 2 4 1, .ffmaF64 0 1 2 4, .fdivF64 0 2 1 4, .fminF64 0 2 4 1, .fmaxF64 0 1 2 4, .fsqrtF64 0 1 2 0, .frndF64 0 2 1 0, .fclass 0 1 0 1 0,
    .fcmp 0 0 1 1 1 2, .bcast 0 1 2 1, .redux 0 1 1 1 0, .scan 0 1 2 0 1 0, .isect 0 1 2 3, .cpy 0 1 2 3, .cpyr 0 2 1 3, .atom 0 0 1 0 0, .red 0 0 1 0 0,
    .ldOrdered 0 0 1 0 0, .stOrdered 0 0 1 0 0] = true := by decide

/-- 04 R70: a g field of 96 to 127. -/
theorem test_ill_general : allIll [
    .iaddG32 0 96 0 0, .isubG32 0 0 96 0, .imulG32 0 0 0 96, .imulhS32G 0 127 0 0, .imulhZ32G 0 0 127 0, .imadG32 0 0 0 127, .iabsG32 0 96 0, .iaddG64 0 96 0 0,
    .isubG64 0 0 96 0, .imulG64 0 0 0 96, .imulhS64G 0 96 0 0, .imulhZ64G 0 0 96 0, .imadG64 0 0 0 96, .iabsG64 0 0 96, .iaddImmG32 0 96 0 0,
    .iaddImmG64 0 0 96 0, .imaxG 0 0 0 96 0 0, .iminG 0 0 0 0 96 0, .andG 0 0 0 0 96, .orG 0 0 96 0 0, .xorG 0 0 0 96 0, .andnG 0 0 0 0 96, .clzG32 0 96 0,
    .clzG64 0 0 96, .popcG32 0 96 0, .popcG64 0 0 96, .brevG 0 96 0, .bfxZG 0 0 0 96, .bfxSG 0 96 0 0, .bfiG 0 0 96 0, .icmpG 0 0 0 1 96 0, .movG32 0 96 0,
    .movG64 0 0 96, .selG 0 0 1 96 0 0, .psetNzG 0 1 96 0, .moviG 0 96 0, .brxG 0 96, .retG 0 96, .leaV 0 0 0 96 0, .leaG 0 0 0 0 96, .nzscan 0 0 0 96,
    .cpy 0 0 0 96, .cpyr 0 0 0 96, .cpyt 0 96 0 0, .trig 0 1 96, .ldG 0 0 96 0 0, .stG 0 0 0 96 0, .ldV 0 0 0 96 0, .stV 0 0 0 96 0, .ldt 0 96 0 0 0 0,
    .stt 0 0 96 0 0 0, .movSlicePush 0 96 96 0 0 0, .movSlicePop 0 96 0 0 0, .movSliceToV 0 0 96 0 0 0, .movVToSlice 0 0 96 0 0 0, .wbaseReg 0 96,
    .spawn 0 96 0 0, .allocHeap 0 0 96, .allocLog 0 96 0, .rdecl 0 96 0, .rview 0 96 0, .ctlrd 0 96 0, .ctlrdFflags 0 96, .ctlwr 0 96 0, .ctlwrFflags 0 96,
    .ctlwrLfm 0 96, .ctlwrRepc 0 96, .ctlwrTmr 0 96, .ctlwrAlarm 0 96, .bara 0 96 0, .barw 0 96 0, .barm 0 96 0, .bbinit 0 96 0, .bbexp 0 0 96, .bbarr 0 96 0,
    .bbwait 0 0 96, .ckinit 0 96 0, .ckres 0 96 0 0, .ckpub 0 96 0 0, .ckacq 0 96 0 0, .ckrel 0 96 0 0, .wait 0 0 96, .abeg 0 96, .bcast 0 0 96 0,
    .redux 0 96 0 0 0, .vote 0 96 0 2] = true := by decide

/-- 04 R70, R78 and the entries of 18 to 22: codes, amounts, selectors and numbers outside their limits. -/
theorem test_ill_fields : allIll [
    .iaddV 0 0 0 0, .shlV 0 1 0 0 32, .shrV 0 1 0 0 32, .sarV 0 1 0 0 127, .rotV 0 1 0 0 32, .shlV64 0 1 0 0 64, .shrV64 0 1 0 0 64, .sarV64 0 1 0 0 64,
    .rotV64 0 1 0 0 64, .shlG32 0 1 0 0 32, .shrG32 0 1 0 0 32, .sarG32 0 1 0 0 32, .rotG32 0 1 0 0 32, .shlG64 0 1 0 0 64, .shrG64 0 1 0 0 64,
    .sarG64 0 1 0 0 64, .rotG64 0 1 0 0 64, .icmpV 0 6 0 1 0 0, .icmpG 0 7 0 1 0 0, .selV 0 0 0 0 0 0, .selG 0 0 0 0 0 0, .psetV 0 5 1 1 1, .psetV 0 4 1 1 1,
    .psetG 0 7 1 1 1, .movSpecialV 0 0 1, .movSpecialG 0 0 0, .movSpecialG 0 0 11, .fsqrt 0 0 0 5, .frcp 0 0 0 5, .frsq 0 0 0 5, .fexp2 0 0 0 5,
    .flog2 0 0 0 5, .ftrigSinpi 0 0 0 5, .ftrigCospi 0 0 0 5, .frnd 0 0 0 5, .fsqrtF64 0 0 0 5, .frndF64 0 0 0 5, .fclass 0 0 0 0 2, .cvt 0 6 0 0 1,
    .cvt 0 0 0 0 0, .cvtGxEncode 0 0 0 0 12, .cvtGxDecode 0 0 0 12, .vote 0 0 0 3, .vote 0 4 0 0, .redux 0 0 0 0 6, .redux 0 0 0 0 3, .redux 0 0 0 6 0,
    .scan 0 0 0 0 1 3, .movQueuePush 0 98 0, .movSlicePush 0 98 0 0 0 0, .ldV 0 5 0 0 0, .ldV 0 6 1 0 0, .ldV 0 7 2 0 0, .stV 0 1 0 0 0, .stV 0 7 1 0 0,
    .ldOrdered 0 0 0 7 0, .ldOrdered 0 0 0 18 0, .ldOrdered 0 0 0 0 5, .stOrdered 0 0 0 6 0, .stOrdered 0 0 0 13 0, .stOrdered 0 0 0 0 1, .atom 0 0 0 19 0,
    .atom 0 0 0 0 26, .atom 0 1 0 0 1, .atom 0 1 0 0 18, .atom 0 2 0 0 19, .red 0 0 0 0 16, .red 0 0 0 0 19, .red 0 0 0 1 0, .fence 0 0, .fence 0 19,
    .qpoll 0 0 95, .qpoll 0 0 100, .rdecl 0 0 16, .rview 0 0 16, .ctlrd 0 0 2, .ctlrd 0 0 10, .ctlwr 0 0 2, .ctlwr 0 0 10, .bara 0 0 80, .barw 0 0 80,
    .barm 0 0 80, .acom 0 19, .cpyt 0 0 0 95, .ldG 0 7 0 0 0, .stG 0 7 0 0 0, .stG 0 1 0 0 0, .mma 0 0 0 2 1, .mma 0 0 1 0 1, .mma 0 0 0 0 0, .mmag 0 0 0 0 96,
    .mmag 0 5 3 0 1, .mmav 0 0 1 0 1, .mmav 0 1 0 0 1, .mmav 0 1 13 0 1, .msca 0 2 0 1, .msca 0 0 0 0, .mdrn 0 2 0 1, .mdrn 0 7 0 1, .rep 4 0 0 1,
    .rep 63 0 0 96] = true := by decide

/-- The events of the table have no word (04 R66). -/
theorem test_ill_events : allIll [
    .createQueue 0 0 16 0 [] 0 0 0 false, .doorbell 0 0, .hostWrite 0 [], .resetBoot [] [] [] [], .packetRead 0, .launchPacket 0, .teamDispatch 1 0,
    .taskStart 0, .switchOut 1 0, .engineArrival 0, .pageRequest, .thermalHalt, .completionSignal, .launchEnd, .trapEntry, .timer, .alarm, .grpAbsent] = true ∧
    Instr.WellFormed (.iaddV 0 3 1 2) := by decide

/-! ## Small states -/

/-- A word placed from reset and its strand brought into focus. -/
def fetched (w : Nat) : State :=
  let s := State.reset.withFetchWord 32 w
  match s.nextTurn with
  | some t => (match t.act with | .group g e => (s.begin t).focus g e | _ => s)
  | none => s

/-- The group of the smallest launch, all lanes at its first instruction. -/
def base : State := fetched 0x0000C082
/-- `base` with uncorrectable data in the granule of a location. -/
def spoilt (loc : Nat) : State := { base with poison := [(loc / 8, base.hist.length)] }
/-- The sequencer context of the smallest launch. -/
def baseSeq : State := fetched 0xE4006004
/-- `s` with vn set in every lane. -/
def setV (s : State) (n : Nat) (f : Nat → Nat) : State := s.setCur (s.cur.vSet 0xFFFFFFFF#32 n (fun l => BitVec.ofNat 32 (f l)))
/-- `s` with the pair vn, vn+1 set in every lane. -/
def setV2 (s : State) (n : Nat) (f : Nat → Nat) : State := s.setCur (s.cur.vSet2 0xFFFFFFFF#32 n (fun l => BitVec.ofNat 64 (f l)))
/-- `s` with gn set. -/
def setG (s : State) (n x : Nat) : State := s.setCur (s.cur.gSet n (BitVec.ofNat 64 x))
/-- `s` with pn set. -/
def setP (s : State) (n m : Nat) : State := s.setCur (s.cur.pSet 0xFFFFFFFF#32 n (BitVec.ofNat 32 m))
/-- The state after an instruction; the state itself where it stops. -/
def after (i : Instr) (s : State) : State := match exec i s with | .next t => t | _ => s
/-- vn of lane l, as a number. -/
def vAt (s : State) (n l : Nat) : Nat := (s.cur.vGet n l).toNat
/-- The pair vn, vn+1 of lane l, as a number. -/
def v2At (s : State) (n l : Nat) : Nat := (s.cur.vGet2 n l).toNat
/-- gn, as a number. -/
def gAt (s : State) (n : Nat) : Nat := (s.cur.gGet n).toNat
/-- The cause a trapped group reports. -/
def cause (s : State) : Nat := s.cur.trapinfo.toNat % 256
/-- `s` with a handler, so that a fault enters it. -/
def handled (s : State) : State := s.setCur { s.cur with trapvec := 0x30000#64 }

/-- Log 8: placed from reset, the word is fetched and run by the very next step. -/
theorem test_first_step : (match step (State.reset.withFetchWord 32 0xB00B2345) with
    | .next t => (gAt t 5, t.sp.pc.toNat, t.cycles) | _ => (0, 0, 0)) = (0xFFFFFFFFFFFF2345, 0x10004, 1) := by decide +kernel

/-- 04 R79: the word of a matrix instruction is run by the sequencer context. -/
theorem test_first_step_sequencer : (match step (State.reset.withFetchWord 32 0xE4006004) with
    | .next t => decide (t.cur.kind = .seq) && t.sp.pc == 0x10004#64 | _ => false) = true := by decide +kernel

/-! ## Integer, logic and bit forms -/

/-- 20 R344: lanes wrap. -/
theorem test_iadd_wraps : vAt (after (.iaddV 0 3 1 2) (setV (setV base 1 (fun l => l)) 2 (fun _ => 0xFFFFFFFF))) 3 5 = 4 := by decide +kernel

/-- 04 R68: lanes whose guard is false keep vd. -/
theorem test_iadd_guard :
    (let t := after (.iaddV 1 3 1 2) (setP (setV (setV base 1 (fun _ => 7)) 3 (fun _ => 9)) 1 0x0000FFFF)
     (vAt t 3 15, vAt t 3 16)) = (7, 9) := by decide +kernel

/-- 03 R48: the carry of a pair goes into its odd register. -/
theorem test_iadd64_carry : (let t := after (.iaddV64 0 4 6 8) (setV2 (setV2 base 6 (fun _ => 0xFFFFFFFF)) 8 (fun _ => 1))
     (vAt t 4 31, vAt t 5 31)) = (0, 1) := by decide +kernel

/-- 20 R345: IABS of the most negative number saturates and sets SAT. -/
theorem test_iabs_saturates : (let t := after (.iabsV 0 5 6) (setV base 6 (fun _ => 0x80000000)); (vAt t 5 0, t.cur.fflags.toNat)) = (0x7FFFFFFF, 32) := by
  decide +kernel

/-- 20 R344: the high halves, signed and unsigned. -/
theorem test_imulh : (let s := setV (setV base 6 (fun _ => 0xFFFFFFFF)) 7 (fun _ => 2)
     (vAt (after (.imulhS32V 0 5 6 7) s) 5 3, vAt (after (.imulhZ32V 0 5 6 7) s) 5 3)) = (0xFFFFFFFF, 1) := by decide +kernel

/-- 20 R345: IMAD reads its destination. -/
theorem test_imad_source : vAt (after (.imadV 0 5 6 7) (setV (setV (setV base 5 (fun _ => 100)) 6 (fun l => l)) 7 (fun _ => 3))) 5 4 = 112 := by decide +kernel

/-- 20 R346: the same bits, signed and unsigned; the 32-bit group form of .Z32 is sign-extended. -/
theorem test_imax : (let s := setG (setG (setV (setV base 6 (fun _ => 0xFFFFFFFF)) 7 (fun _ => 1)) 6 0xFFFFFFFF) 7 1
     (vAt (after (.imaxV 0 0 0 5 6 7) s) 5 0, vAt (after (.imaxV 0 0 1 5 6 7) s) 5 0, gAt (after (.imaxG 0 0 1 5 6 7) s) 5)) =
     (1, 0xFFFFFFFF, 0xFFFFFFFFFFFFFFFF) := by decide +kernel

/-- 20 R345: LIMM 64 before IADD g41, g41 with a zero low part adds 0x10000; g0 stays zero (03 R51). -/
theorem test_iadd_limm : (let s := { setG base 41 5 with limm := some 64#24 }
     (gAt (after (.iaddImmG64 0 41 41 0) s) 41, (after (.iaddImmG64 0 41 41 0) s).sp.pc.toNat, gAt (after (.iaddImmG64 0 0 41 1) base) 0)) =
     (0x10005, 0x10008, 0) := by decide +kernel

/-- 20 R345: LIMM −1 before a low part of 424 is −600. -/
theorem test_iadd_limm_negative : gAt (after (.iaddImmG64 0 41 41 424) { setG base 41 1000 with limm := some 0xFFFFFF#24 }) 41 = 400 := by decide +kernel

/-- 22 R387: the amount modulo the width; a 32-bit group result is sign-extended. -/
theorem test_shifts :
    (vAt (after (.shlV 0 0 5 6 7) (setV (setV base 6 (fun _ => 0x80000001)) 7 (fun _ => 0x21))) 5 0,
     gAt (after (.shrG32 0 1 5 6 0) (setG base 6 0x80000000)) 5, gAt (after (.shrG32 0 1 5 6 4) (setG base 6 0x80000000)) 5,
     gAt (after (.sarG32 0 1 5 6 4) (setG base 6 0x80000000)) 5, gAt (after (.shrG64 0 1 5 6 63) (setG base 6 0x8000000000000000)) 5) =
     (2, 0xFFFFFFFF80000000, 0x08000000, 0xFFFFFFFFF8000000, 1) := by decide +kernel

/-- 21 R383: ROT by 8. -/
theorem test_rot : vAt (after (.rotV 0 1 5 6 8) (setV base 6 (fun _ => 0x12345678))) 5 9 = 0x34567812 := by decide +kernel

/-- 19 R325, 21 R370, 18 R319: zero sources and the group forms. -/
theorem test_counts :
    (vAt (after (.clzV 0 5 6) base) 5 0, gAt (after (.clzG64 0 5 6) (setG base 6 1)) 5, gAt (after (.popcG32 0 5 6) (setG base 6 0xF0000000F)) 5,
     vAt (after (.brevV 0 5 6) (setV base 6 (fun _ => 1))) 5 7, gAt (after (.brevG 0 5 6) (setG base 6 1)) 5) =
     (32, 63, 4, 0x80000000, 0xFFFFFFFF80000000) := by decide +kernel

/-- 18 R315: a field of 8 bits at bit 8, zero- and sign-extended, and inserted. -/
theorem test_fields : (let s := setV (setV (setV base 5 (fun _ => 0xFFFFFFFF)) 6 (fun _ => 0x00009600)) 7 (fun _ => 0x0808)
     (vAt (after (.bfxZV 0 5 6 7) s) 5 0, vAt (after (.bfxSV 0 5 6 7) s) 5 0, vAt (after (.bfiV 0 5 6 7) s) 5 0)) = (0x96, 0xFFFFFF96, 0xFFFF00FF) := by
  decide +kernel

/-- 20 R347: signed and unsigned comparisons, inactive lanes untouched. -/
theorem test_icmp : (let s := setV (setV base 6 (fun l => if l % 2 = 0 then 0xFFFFFFFF else 5)) 7 (fun _ => 1)
     ((after (.icmpV 0 2 0 2 6 7) s).cur.p2, (after (.icmpV 0 4 0 2 6 7) s).cur.p2)) = (0x55555555#32, 0#32) := by decide +kernel

/-! ## Moves and predicates -/

/-- 21 R371, 22 R390: PSET.ANDN, PSET.NZ and SEL. -/
theorem test_predicates : (let s := setP (setP (setV (setV base 6 (fun _ => 3)) 7 (fun l => l)) 2 0x0000000F) 3 0x00000003
     ((after (.psetV 0 3 1 2 3) s).cur.p1, (after (.psetNzV 0 1 7 0) s).cur.p1, vAt (after (.selV 0 0 2 5 6 7) s) 5 3, vAt (after (.selV 0 0 2 5 6 7) s) 5 4)) =
     (0xC#32, 0xFFFFFFFE#32, 3, 4) := by decide +kernel

/-- 22 R403: the three votes under a guard; no participating lane. -/
theorem test_votes : (let s := setP (setP base 1 0x000000F0) 2 0x00000030
     ((after (.vote 1 2 2 0) s).cur.gp2, (after (.vote 1 2 2 1) s).cur.gp2, gAt (after (.vote 1 5 2 2) s) 5, (after (.vote 3 1 2 1) s).cur.gp1)) =
     (true, false, 0x30, true) := by decide +kernel

/-- 03 R56: special registers of the strand. -/
theorem test_specials : (vAt (after (.movSpecialV 0 7 0) base) 7 19, gAt (after (.movSpecialG 0 5 9) ({ base with cycles := 12 }.setCur { base.cur with begun := true })) 5,
     gAt (after (.movSpecialG 0 5 10) { base with time := 777 }) 5) = (19, 12, 777) := by decide +kernel

/-- 20 R356, 18 R314: addresses and broadcasts. -/
theorem test_addresses :
    (v2At (after (.leaV 0 2 10 44 3) (setG (setV base 3 (fun l => l)) 44 0x100000000)) 10 3, gAt (after (.leaG 0 3 10 11 12) (setG (setG base 11 8) 12 2)) 10,
     v2At (after (.bcast 0 4 8 1) (setG base 8 0x1122334455667788)) 4 31) = (0x10000000C, 24, 0x1122334455667788) := by decide +kernel

/-! ## Floating forms -/

/-- 19 R337: 1 + 1, and an inexact sum; flags collected. -/
theorem test_fadd : (let t := after (.fadd 0 5 6 7) (setV (setV base 6 (fun _ => 0x3F800000)) 7 (fun l => if l = 0 then 0x3F800000 else 0x33800000))
     (vAt t 5 0, vAt t 5 1, t.cur.fflags.toNat)) = (0x40000000, 0x3F800000, 16) := by decide +kernel

/-- 19 R337: a fused multiply-add rounds once: (1 + 2^−12)² − 1 keeps the bit 2^−24. -/
theorem test_ffma_once : vAt (after (.ffma 0 8 4 5) (setV (setV (setV base 4 (fun _ => 0x3F800800)) 5 (fun _ => 0x3F800800)) 8 (fun _ => 0xBF800000))) 8 0 =
    0x3A000400 := by decide +kernel

/-- 19 R337, 03 R60: 1/0 is infinite with DZ. -/
theorem test_fdiv_zero : (let t := after (.fdiv 0 5 6 7) (setV base 6 (fun _ => 0x3F800000)); (vAt t 5 0, t.cur.fflags.toNat)) = (0x7F800000, 2) := by decide +kernel

/-- 19 R338: −0 is less than +0, and a NaN gives way to a number. -/
theorem test_fmin : (let s := setV (setV base 6 (fun _ => 0)) 7 (fun l => if l = 0 then 0x80000000 else 0x7FC00000)
     (vAt (after (.fmin 0 5 6 7) s) 5 0, vAt (after (.fmin 0 5 6 7) s) 5 1)) = (0x80000000, 0) := by decide +kernel

/-- 19 R340: exact square root and power of two; log2 1 = +0. -/
theorem test_elementary :
    (vAt (after (.fsqrt 0 5 6 0) (setV base 6 (fun _ => 0x40800000))) 5 0, vAt (after (.frcp 0 5 6 0) (setV base 6 (fun _ => 0x40800000))) 5 0,
     vAt (after (.flog2 0 5 6 0) (setV base 6 (fun _ => 0x3F800000))) 5 0) = (0x40000000, 0x3E800000, 0) := by decide +kernel

/-- 19 R341: FCLASS of a negative subnormal. -/
theorem test_fclass : vAt (after (.fclass 0 0 5 6 0) (setV base 6 (fun _ => 0x80000001))) 5 0 = 4 := by decide +kernel

/-- 21 R363: BF16 roundings, exact, down and past the largest. -/
theorem test_cvt_bf16 : (let t := after (.cvt 0 0 5 6 0x13) (setV base 6 (fun l => if l = 0 then 0x3F800000 else if l = 1 then 0x40490FDB else 0x7F7FFFFF))
     (vAt t 5 0, vAt t 5 1, vAt t 5 2, t.cur.fflags.toNat)) = (0x3F80, 0x4049, 0x7F80, 20) := by decide +kernel

/-- 19 R334: four signed products. -/
theorem test_dp4 : vAt (after (.dp4 0 0 5 6 7) (setV (setV base 6 (fun _ => 0xFF020304)) 7 (fun _ => 0x02010101))) 5 0 = 7 := by decide +kernel

/-! ## Cross-lane forms -/

/-- 22 R391: the worked example of SHFL.DOWN, lanes 0 to 3. -/
theorem test_shfl_down : (let t := after (.shfl 1 2 5 6 7) (setP (setV (setV base 6 (fun l => 10 + l)) 7 (fun _ => 1)) 1 0xF)
     (vAt t 5 0, vAt t 5 1, vAt t 5 2, vAt t 5 3)) = (11, 12, 13, 13) := by decide +kernel

/-- 21 R379: the sum of all lanes; with no lane, the identity. -/
theorem test_redux : (gAt (after (.redux 0 5 6 2 0) (setV base 6 (fun l => l))) 5, gAt (after (.redux 1 5 6 2 2) (setV base 6 (fun l => l))) 5) =
    (496, 0xFFFFFFFF80000000) := by decide +kernel

/-- 22 R389: inclusive and exclusive sums. -/
theorem test_scan : (let s := setV base 6 (fun _ => 1)
     (vAt (after (.scan 0 5 6 0 2 0) s) 5 31, vAt (after (.scan 0 5 6 1 2 0) s) 5 31, vAt (after (.scan 0 5 6 1 2 0) s) 5 0)) = (32, 31, 0) := by decide +kernel

/-! ## Memory and atomics -/

/-- Lane l's address 0x20000 + 4 l in the pair v4, v5. -/
def addrs (s : State) : State := setV2 s 4 (fun l => 0x20000 + 4 * l)

/-- 20 R350: loads sign-extend .S8 and read little-endian. -/
theorem test_ld : (let s := (setG (setV base 2 (fun l => l)) 8 0x20000).storeNat 0x20000 8 0x80FF7F01FE
     (vAt (after (.ldV 0 1 6 8 2) s) 6 0, vAt (after (.ldV 0 1 6 8 2) s) 6 2, vAt (after (.ldV 0 0 6 8 2) s) 6 0, gAt (after (.ldG 0 6 7 8 0) s) 7)) =
     (0xFFFFFFFE, 0x7F, 0xFE, 0x80FF7F01FE) := by decide +kernel

/-- 22 R394: each lane stores its own word; the word past the last lane is untouched. -/
theorem test_st : (let s := ((setG (setV (setV base 2 (fun l => 4 * l)) 10 (fun l => 100 + l)) 21 0x20000).storeNat 0x20080 4 7)
     let t := after (.stV 0 4 10 21 2) s
     (t.natAt 0x20000 4, t.natAt 0x2007C 4, t.natAt 0x20080 4, t.sp.pc.toNat)) = (100, 131, 7, 0x10004) := by decide +kernel

/-- 06 R115, 20 R353: a misaligned lane reports LANE_ALIGN and keeps vd, the others complete. -/
theorem test_ld_misaligned : (let t := after (.ldV 0 4 6 8 2) (setG (setV (setV base 2 (fun l => if l = 7 then 2 else 4 * l)) 6 (fun _ => 9)) 8 0x20000)
     (vAt t 6 7, vAt t 6 8, t.cur.lfm.toNat, t.sp.pc.toNat)) = (9, 0, 0x80 + (2 + 7 * 16) * 2 ^ 32, 0x10004) := by decide +kernel

/-- 18 R308: lanes add to one word in ascending order and each returns the value before it. -/
theorem test_atom_add : (let s := (setV (setV2 base 4 (fun _ => 0x20000)) 2 (fun _ => 3)).storeNat 0x20000 4 100
     let t := after (.atom 0 2 4 17 0) s
     (t.natAt 0x20000 4, (List.range 32).map (fun l => vAt t 2 l) |>.sum)) = (196, 32 * 100 + 3 * 496) := by decide +kernel

/-- 18 R309: compare and swap: only the first lane finds the value it compares with. -/
theorem test_atom_cas : (let s := (setV (setV (setV2 base 4 (fun _ => 0x20000)) 6 (fun _ => 5)) 7 (fun _ => 8)).storeNat 0x20000 4 5
     let t := after (.atom 0 6 4 0 18) s
     (t.natAt 0x20000 4, vAt t 6 0, vAt t 6 31)) = (8, 5, 8) := by decide +kernel

/-- 21 R377: RED.MAX.S32 returns nothing. -/
theorem test_red_max : (let s := (setV (setV2 base 4 (fun _ => 0x20000)) 9 (fun l => l)).storeNat 0x20000 4 0xFFFFFFFF
     let t := after (.red 0 9 4 0 12) s
     (t.natAt 0x20000 4, vAt t 9 5)) = (31, 5) := by decide +kernel

/-- 08 R155, 18 R304: accesses between ABEG and ACOM take effect at ACOM. -/
theorem test_region : (let s := setG (setG base 8 0x20000) 1 77
     let a := after (.abeg 0 8) s
     let b := after (.stG 0 6 1 8 0) a
     (b.natAt 0x20000 8, (after (.acom 0 17) b).natAt 0x20000 8, (after (.acom 0 17) b).cur.region.isSome)) = (0, 77, false) := by decide +kernel

/-- 20 R355, 03 R50: a row slice of tile 3 from memory and back. -/
theorem test_slices : (let s := (setG (setG base 5 1) 8 0x20000).storeNat 0x20004 4 0xABCD
     let t := after (.ldt 0 8 5 3 0 2) s
     (t.cur.rowGet (t.cur.tileBase + 32 * 3 + 3) 1).toNat) = 0xABCD := by decide +kernel

/-! ## Control flow -/

/-- 18 R316: BRA −8 words under gp1, taken and not. -/
theorem test_bra : ((after (.braG 1 0xFFFFF8) (base.setCur { base.cur with gp1 := true })).sp.pc.toNat, (after (.braG 1 0xFFFFF8) base).sp.pc.toNat) =
    (0x10000 - 32, 0x10004) := by decide +kernel

/-- 18 R321: CALL writes g95, RET comes back. -/
theorem test_call_ret : (let t := after (.callG 0 0x40) base; (t.sp.pc.toNat, gAt t 95, (after (.retG 0 95) t).sp.pc.toNat)) = (0x10100, 0x10004, 0x10004) := by
  decide +kernel

/-- 02 R20: a lane branch that divides: the lower PC goes on, the other lanes become a split. -/
theorem test_divergence : (let t := after (.braV 1 16) (setP base 1 0xF)
     (t.sp.pc.toNat, t.sp.mask, (t.cur.splitAt 1).map (fun p => (p.pc.toNat, p.mask)))) = (0x10004, 0xFFFFFFF0#32, some (0x10040, 0xF#32)) := by decide +kernel

/-- 04 R75, 21 R380: REP 4 turns to the word behind it; a count of zero skips it. -/
theorem test_rep : (let s := { base with mem := memPut base.mem 0x10004 (leBytes 4 0x64820502) }
     ((after (.rep 4 2 0 0) s).sp.rep.map (fun r => (r.total, r.done)), (after (.rep 63 2 0 0) s).sp.pc.toNat)) = (some (4, 0), 0x10008) := by decide +kernel

/-- 22 R399, 13 R254: TRAP 5 enters the handler; the record holds EPC and FPC. -/
theorem test_trap : (let t := after (.trap 0 5) (handled base)
     (cause t, t.sp.pc.toNat, t.natAt (0x20080 + 8) 8, t.natAt (0x20080 + 16) 8, t.cur.handler.isSome)) =
     (0x1C, 0x30000, 0x10004, 0x10000, true) := by decide +kernel

/-- 13 R256: ERET goes to EPC, frees the slot and clears ctl.trapinfo; outside a handler it is ILLEGAL_OP. -/
theorem test_eret : (let t := after (.eret 0) (after (.trap 0 5) (handled base))
     (t.sp.pc.toNat, t.job.slots, t.cur.trapinfo.toNat, t.cur.handler.isSome, cause (after (.eret 0) (handled base)))) = (0x10004, [], 0, false, 0x10) := by
  decide +kernel

/-- 04 R78: a reserved field is ILLEGAL_OP, EPC and FPC at the instruction. -/
theorem test_illegal : (let t := after (.iaddV64 0 5 6 8) (handled base); (cause t, t.natAt (0x20080 + 8) 8)) = (0x10, 0x10000) := by decide +kernel

/-- 03 R47: a register outside the allotment. -/
theorem test_window : cause (after (.iaddV 0 127 6 8) (handled (base.setCur { base.cur with allot := 100 }))) = 0x11 := by decide +kernel

/-- 03 R63: a passed ctl.tmr is taken at a boundary and cleared. -/
theorem test_timer : (let s := handled ({ base with cycles := 5000 }.setCur { base.cur with begun := true, tmr := 4000#64 })
     (cause (after .timer s), (after .timer s).cur.tmr.toNat, cause (after .timer (handled base)))) = (0x1D, 0, 0) := by decide +kernel

/-- 19 R329, 03 R57 to R64: writable, reserved and read-only fields. -/
theorem test_ctl : (let s := setG base 6 0xFFFFFFFFFFFFFFFF
     ((after (.ctlwr 0 6 1) s).cur.fpmode.toNat, (after (.ctlwr 0 6 7) s).cur.trapvec.toNat, (after (.ctlwr 0 6 9) s).cur.gtimeout.toNat,
      (after (.ctlwr 0 6 0) s).caps == s.caps, (after (.ctlwrFflags 0 6) s).cur.fflags.toNat, gAt (after (.ctlrd 0 5 9) s) 5)) =
     (7, 0x01FFFFFFFFFFFFFC, 0xFFFFFFFF, true, 63, 1000) := by decide +kernel

/-- 22 R406, 03 R46: WBASE 2 moves the window by 64 rows. -/
theorem test_wbase : (let t := after (.wbaseImm 0 2) (setV base 5 (fun _ => 9)); (t.cur.wbase, vAt t 5 0)) = (64, 0) := by decide +kernel

/-! ## Tasks, barriers and engines -/

/-- 02 R40, 22 R392: the worked SPAWN: the child's pedigree and cursors, the parent's pedigree and cursors after it. -/
theorem test_spawn : (let s := setG (setG (setG (setG (setG (setG (base.setCur { base.cur with pdh := 0x0A10400000000000#64 })
       91 0x1001010010) 92 0x1001010100) 93 0x1001011000) 94 0x1001011080) 9 0x10000) 11 0x0000004000000030
     let t := after (.spawn 0 11 9 12) s
     ((t.deque 0).map (fun e => (e.pdh.toNat, e.heap.toNat, e.heapEnd.toNat, e.log.toNat, e.logEnd.toNat)), t.cur.pdh.toNat, gAt t 91, gAt t 93, t.cur.children)) =
     ([(0x1610400000000000, 0x1001010040, 0x1001010080, 0x1001011000, 0x1001011040)], 0x1010410000000000, 0x1001010080, 0x1001011040, 1) := by decide +kernel

/-- 02 R40, R33: the worked JOIN; with a child outstanding it waits. -/
theorem test_join : (let s := base.setCur { base.cur with pdh := 0x1010420000000000#64 }
     let w := after (.join 0) (s.setCur { s.cur with children := 1 })
     ((after (.join 0) s).cur.pdh.toNat, w.cur.pdh.toNat, w.sp.pc.toNat)) = (0x1010480000000000, 0x1010420000000000, 0x10000) := by decide +kernel

/-- 18 R305: ALLOC.HEAP rounds up to 16 bytes; past the end it is a stop fault. -/
theorem test_alloc_heap : (let s := handled (setG (setG (setG base 91 0x20000) 92 0x20040) 11 20)
     (gAt (after (.allocHeap 0 10 11) s) 10, gAt (after (.allocHeap 0 10 11) s) 91, cause (after (.allocHeap 0 10 11) (setG s 11 65)) != 0)) =
     (0x20000, 0x20020, true) := by decide +kernel

/-- 12 R246: one group alone completes a phase of its team barrier; the next phase keeps it waiting. -/
theorem test_team_barrier : (let t := after (.bara 0 10 3) base
     (gAt t 10, (after (.barw 0 10 3) t).sp.pc.toNat, (after (.barw 0 10 3) (setG t 10 1)).sp.pc.toNat)) = (0, 0x10008, 0x10004) := by decide +kernel

/-- 10 R193: two expected, two arrived: the phase toggles at the second arrival. -/
theorem test_byte_barrier : (let s := setG (setG base 8 0x01FF000000000000) 9 2
     let t := after (.bbarr 0 8 10) (setG (after (.bbexp 0 8 9) s) 10 1)
     let u := after (.bbarr 0 8 10) t
     (bbPhase (t.natAt (scratchLoc 1 0 0) 8), bbPhase (u.natAt (scratchLoc 1 0 0) 8), bbArr (u.natAt (scratchLoc 1 0 0) 8))) = (0, 1, 0) := by decide +kernel

/-- 10 R202 to R205: a slot goes from free to reserved, filled, acquired and free again. -/
theorem test_cask : (let a := after (.ckinit 0 8 2) (setG base 8 (0x40 * 2 ^ 27 + 1 * 2 ^ 19))
     let b := after (.ckpub 0 10 0 2) (after (.ckres 0 10 0 2) a)
     let c := after (.ckacq 0 11 0 2) b
     (gAt b 10, gAt c 11, ((look c.team.casks 2).map Cask.st), ((look (after (.ckrel 0 11 0 2) c).team.casks 2).map Cask.st),
      (after (.ckacq 0 11 0 2) a).sp.pc == a.sp.pc)) =
     (0, 0, some [.acquired, .free], some [.free, .free], true) := by decide +kernel

/-- 10 R196, 19 R327: CPY of one lane's 4 bytes is issued: one operation with both footprints in granules of 32 bytes, nothing moved yet; without lanes it arrives at once. -/
theorem test_cpy : (let s := setV2 (setV2 (setP { base with mem := memPut base.mem 0x20000 (leBytes 4 0xC0FFEE) } 1 1) 8 (fun _ => 0x20100)) 10 (fun _ => 0x20000)
     let t := after (.cpy 1 8 10 12) s
     (t.ops.map (fun o => (o.reads, o.writes)), t.natAt 0x20100 4, t.sp.pc.toNat, (after (.cpy 2 8 10 12) s).ops.length)) =
     ([([(0x20000, 32)], [(0x20100, 32)])], 0, 0x10004, 0) := by decide +kernel

/-- 11 R228: the worked column of a value-grouped row: the accumulator word and the NX flag of its row group. -/
theorem test_mmav : (let words := [0x00040002, 9, 0x3800, 0xFF000202, 0xFFFF0111, 0xFF, 0xC000, 0xFFFF0400, 0xFF]
     let e := { Engine.start with
       mqb := [words.map (BitVec.ofNat 32) ++ List.replicate 23 0#32]
       abuf := memPut (memPut (memPut (memPut [] 8 (leBytes 4 0x3F800000)) 20 (leBytes 4 0x33800000)) 24 (leBytes 4 0x33800000)) 1120 (leBytes 4 0xBF800000) }
     let t := after (.mmav 0 1 4 0 20) (setG (baseSeq.putEngine e) 20 (300 * 2 ^ 48 + 2 ^ 23 + 2 ^ 21))
     ((t.engine.acc.get 0).toNat, (t.engine.flags.get 0).toNat, t.engine.mqb)) = (0xB3C00000, 16, []) := by decide +kernel

/-- 11 R229, R230: with 0xFFFF_0125 in word 4 the position reaches KV: VG_LIMIT, cause 4, column 0, word 4, the slice popped. -/
theorem test_mmav_limit : (let words := [0x00040002, 9, 0x3800, 0xFF000202, 0xFFFF0125, 0xFF, 0xC000, 0xFFFF0400, 0xFF]
     let e := { Engine.start with mqb := [words.map (BitVec.ofNat 32) ++ List.replicate 23 0#32] }
     let t := after (.mmav 0 1 4 0 20) (setG (baseSeq.putEngine e) 20 (300 * 2 ^ 48 + 2 ^ 23 + 2 ^ 21))
     (t.engine.mqb, t.engine.acc, t.natAt 0x20040 1, t.natAt 0x20040 8 / 2 ^ 10 % 2 ^ 40)) = ([], [], 0x1B, 4 * 2 ^ 33 + 4 * 2 ^ 19) := by decide +kernel

/-- 21 R361: the worked BF16 drain. -/
theorem test_mdrn : (let s := baseSeq.putEngine { Engine.start with acc := [(32 * 512, 0x3F800000#32), (32 * 512 + 1, 0x40490FDB#32), (32 * 512 + 2, 0x7F7FFFFF#32)] }
     let t := after (.mdrn 0 3 1 22) (setG s 22 0x40)
     (t.engine.mqo.map (fun sl => (sl.getD 0 9, sl.getD 1 9, sl.getD 2 9)), gAt t 22)) = ([(0x40493F80#32, 0x7F80#32, 0#32)], 0x1400000000000040) := by
  decide +kernel

/-- 11 R224: MZERO clears its row group and its flags. -/
theorem test_mzero : (let s := baseSeq.putEngine { Engine.start with acc := [(512 * 96, 5#32), (512 * 128, 6#32)], flags := [(3, 1#8)] }
     let e := (after (.mzero 0 3) s).engine
     (e.acc, e.flags)) = ([(512 * 128, 6#32)], []) := by decide +kernel

/-- 21 R362, R372: a push under a mask, QPOLL, and a pop. -/
theorem test_queues : (let t := after (.movQueuePush 1 96 16) (setP (setV base 16 (fun l => 7 + l)) 1 3)
     let e := t.job.engine 0
     (e.mqa.map (fun sl => (sl.getD 0 9, sl.getD 1 9, sl.getD 2 9)), (after (.qpoll 0 1 98) t).cur.gp1)) = ([(7#32, 8#32, 0#32)], false) := by decide +kernel

/-! ## The device -/

/-- The device ready, a module trained. -/
def ready : State := { State.reset with boot := .ready, links := [0] }

/-- 14 R269: SET_QUANTUM takes 10 to 1000 microseconds; what is malformed; an entry with a nonzero byte 7. -/
theorem test_set_quantum : (([.setQuantum 1000 0x40 false, .setQuantum 1001 0x40 false, .setQuantum 9 0x40 false] : List Instr).map (fun i =>
      (ready.command i).map State.nextQuantum),
     (commandOf ([5, 0, 0, 0, 0, 0, 0, 1].map (BitVec.ofNat 8) ++ List.replicate 56 0#8)).map cmdReserved) = ([some 1000, none, none], some true) := by decide +kernel

/-- 12 R233, R238: a queue, its doorbell, and a value past the ring. -/
theorem test_doorbell : (let s := (ready.command (.createQueue 3 0x1000 16 2 [0] 0x2000 0x3000 0x40 false)).getD ready
     ((look (after (.doorbell 3 16) s).queues 3).map (fun q => (q.tail, q.error)), (look (after (.doorbell 3 17) s).queues 3).map (fun q => (q.tail, q.error)))) =
     (some (16, false), some (0, true)) := by decide +kernel

/-- 14 R271: host memory accesses; 14 R267: without a trained module they reach nothing. -/
theorem test_host : (let w : Instr := .hostWrite 0x500 [1#8, 2#8, 3#8]
     ((after w ready).bytesAt 0x500 3, (after (.hostRead 0x501 2) (after w ready)).hostData, (after w { ready with links := [] }).bytesAt 0x500 3)) =
     ([1#8, 2#8, 3#8], [2#8, 3#8], [0#8, 0#8, 0#8]) := by decide +kernel

/-- 14 R267: training and losing a module. -/
theorem test_links : ((after (.linkTraining 5 true) ready).links, (after (.linkTraining 0 false) ready).links) = ([0, 5], []) := by decide +kernel

/-- 14 R274: the throttle steps of a die. -/
theorem test_thermal : ((after (.thermalStepChange 1 95) ready).steps, (after (.thermalStepChange 1 101) ready).steps) = ([(1, 0)], [(1, 2)]) := by decide +kernel

/-- 02 R30: a core with an idle deque takes the oldest task of another. -/
theorem test_steal : (let e : TaskEntry := ⟨1, 0, 2, 1, 0x10000#64, 0, 0, 0, 0, 0, 0, 0, 0, 0, 0, false⟩
     let t := after (.taskSteal 1 0) { base with deques := [(0, [{ e with rank := 2 }, e])] }
     ((t.deque 1).map (fun x => (x.rank, x.stolen)), (t.deque 0).map TaskEntry.rank)) = ([(1, true)], [2]) := by decide +kernel

/-- 02 R36, 02 R33: a task starts with its argument in g1 and its own pedigree. -/
theorem test_task_start : (let e : TaskEntry := ⟨1, 0, 2, 1, 0x10000#64, 42, 0, 0, 0, 0, 0x1610400000000000#64, 0, 0, 0, 0, false⟩
     let t := after (.taskStart 0) { base with deques := [(0, [e])] }
     ((look t.groups t.nextId.pred).map (fun g => ((g.gGet 1).toNat, g.pdh.toNat, decide (g.kind = .task))), t.deque 0 == [])) =
     (some (42, 0x1610400000000000, true), true) := by decide +kernel

/-! ## Witnesses

For each statement of Obligations.lean with hypotheses, concrete states and operands that meet them, each clause its own. -/

/-- The instructions of a list all reach their own effect. -/
theorem runsAll {s : State} {l : List Instr} (h : l.all (fun i => s.admits i && s.cur.windowOk i) = true) : ∀ i ∈ l, Runs i s := by
  intro i hi
  have := List.all_eq_true.mp h i hi
  simpa [Runs, Bool.and_eq_true] using this

/-- Whether instructions reach their own effect. -/
def okB (s : State) (l : List Instr) : Bool := l.all (fun i => s.admits i && s.cur.windowOk i)
/-- An instruction reaches its own effect. -/
theorem runs {s : State} {i : Instr} (h : (s.admits i && s.cur.windowOk i) = true) : Runs i s := by
  simpa [Runs, Bool.and_eq_true] using h

/-- A group of one split is converged. -/
theorem converged {s : State} (h : (s.othersParked && s.lowestPc) = true) : s.Converged := by
  simpa [State.Converged, Bool.and_eq_true] using h

/-- Whether an access reads a value from memory. -/
def readsB (s : State) (k : Acc) (ea : W64) (n x : Nat) : Bool :=
  match s.target k ea n with
  | .mem loc attr _ => decide (x = if k = .loadInv ∧ attr < 2 then s.invAt loc n else s.natAt loc n)
  | _ => false

theorem reads {s : State} {k : Acc} {ea : W64} {n x : Nat} (h : readsB s k ea n x = true) : s.Reads k ea n x := by
  unfold readsB at h
  unfold State.Reads
  cases ht : s.target k ea n with
  | mem loc attr sc => rw [ht] at h; exact of_decide_eq_true h
  | _ => rw [ht] at h; exact Bool.noConfusion h

/-- Whether an access lands at a location. -/
def landsB (s : State) (k : Acc) (ea : W64) (n loc : Nat) : Bool := match s.target k ea n with | .mem l _ _ => l == loc | _ => false

theorem lands {s : State} {k : Acc} {ea : W64} {n loc : Nat} (h : landsB s k ea n loc = true) : ∃ attr sc, s.target k ea n = .mem loc attr sc := by
  unfold landsB at h
  cases ht : s.target k ea n with
  | mem l attr sc => rw [ht] at h; exact ⟨attr, sc, by rw [eq_of_beq h]⟩
  | _ => rw [ht] at h; exact Bool.noConfusion h

theorem storable {s : State} {k : Acc} {ea : W64} {n loc : Nat} (h : landsB s k ea n loc = true) : s.Storable k ea n := by
  obtain ⟨attr, sc, ht⟩ := lands h
  unfold State.Storable
  rw [ht]
  trivial

theorem witness_DecodeOfEncode : Instr.WellFormed (.imadV 3 127 127 127) := by decide

theorem witness_StepKeepsForm : State.reset.Inv ∧ (∃ t, step State.reset = .next t) ∧ (State.reset.withFetchWord 32 0x70121054).Inv ∧
    ∃ t, step (State.reset.withFetchWord 32 0x70121054) = .next t := by
  refine ⟨by unfold State.Inv; decide, ⟨_, rfl⟩, by unfold State.Inv; decide +kernel, ⟨_, rfl⟩⟩

theorem witness_StepKeepsRecords : base.Records ∧ ∃ t, step (State.reset.withFetchWord 32 0xC400048C) = .next t :=
  ⟨by unfold State.Records; decide +kernel, ⟨_, rfl⟩⟩

theorem witness_StrandsLeavePlatform : let s := State.reset.withFetchWord 32 0xC0000000
    (∃ t, step s = .next t) ∧ ∃ turn, s.nextTurn = some turn ∧ turn.act = .group 2 0 := ⟨⟨_, rfl⟩, _, rfl, rfl⟩

theorem witness_MatrixModes : ∃ t, exec (.mzero 0 3) baseSeq = .next t := ⟨_, rfl⟩

/-- A split's own turn; a quadrant's turn; a LIMM and the word behind it; an event of the device. -/
theorem witness_StepRunsDecoded :
    (let s := State.reset.withFetchWord 32 0x0000C082
     let u : State := { base.setCur (base.cur.starts base.cycles) with split := 0 }
     s.boot ≠ .halted ∧ s.agenda = [⟨1, 1, 1, 2, .group 2 0⟩] ∧ (s.groupOf 2).isSome ∧ base.settle base.cur = base.cur ∧
     (base.canIssue base.cur).any (fun p => p.entry == 0) = true ∧
     u.entering = none ∧ u.due = none ∧ u.sp.mask ≠ 0#32 ∧ u.sp.rep = none ∧ u.sp.pc.toNat < 2 ^ 57 ∧
     ((u.translate u.job.root u.sp.pc.toNat).map (fun p => (p.pa, p.x, u.isMmio p.pa, u.written u.job.mark p.pa 4))) = some (0x10000, true, false, false) ∧
     (decodeBytes (u.bytesAt 0x10000 4)).toOption = some (.iaddV 0 3 1 2, [])) ∧
    (let s : State := { base with agenda := [⟨1, 1, 1, 2, .quadrant 0 0⟩] }
     (((s.begin ⟨1, 1, 1, 2, .quadrant 0 0⟩).settleQuadrant 0 0).quadrantPick 0 0).map (fun x => (x.1.gid, x.2.entry)) = some (2, 0)) ∧
    (let s := { fetched 0xE8000040 with mem := memPut (fetched 0xE8000040).mem 0x10004 (leBytes 4 0xAC52A400) }
     (match exec (.limm 64) s with | .next t => (t.limm, t.fetch 0x10004) | _ => (none, none)) = (some 64#24, some 0xAC52A400#32)) ∧
    isDeviceEvent .pageRequest = true := by decide +kernel

theorem witness_EncodeOfDecode : (decodeWord 0xFBDFFFFF#32).toOption = none ∧ (decodeWord 0xBFFFFFFF#32).toOption = some (.braG 3 0xFFFFFF) := by decide

/-- An odd pair register; a register past the allotment; a bad completion operand of CPY and a push without a sequencer at the same time. -/
theorem witness_Rejections :
    base.admits (.iaddV64 0 5 6 8) = false ∧ isDeviceEvent (.iaddV64 0 5 6 8) = false ∧
    (let s := base.setCur { base.cur with allot := 40 }
     s.admits (.iaddV 0 40 0 0) = true ∧ (Instr.iaddV 0 40 0 0).operands.any (fun o => o.vec && decide (s.cur.allot < s.cur.wbase + o.reg + o.width)) = true) ∧
    (let s := setG (base.setCur { base.cur with allot := 40 }) 12 (2 ^ 63)
     s.admits (.cpy 0 40 0 12) = true ∧ coCpyOk (s.cur.gGet 12).toNat = false) := by decide +kernel

/-- An odd pair; a pair past the allotment; that with a bad completion operand of CPY at the same time. -/
theorem witness_PairRegisters :
    ((Instr.iaddV64 0 4 6 9).operands.any (fun o => o.vec && o.width == 2 && o.reg % 2 == 1)) = true ∧
    (let s := base.setCur { base.cur with allot := 41 }
     s.admits (.iaddV64 0 40 0 0) = true ∧ (Instr.iaddV64 0 40 0 0).operands.any (fun o => o.vec && o.width == 2 && decide (s.cur.allot ≤ s.cur.wbase + o.reg + 1)) = true) ∧
    (let s := setG (base.setCur { base.cur with allot := 41 }) 12 (2 ^ 63)
     s.admits (.cpy 0 40 0 12) = true ∧ coCpyOk (s.cur.gGet 12).toNat = false ∧
     (Instr.cpy 0 40 0 12).operands.any (fun o => o.vec && o.width == 2 && decide (s.cur.allot ≤ s.cur.wbase + o.reg + 1)) = true) := by
  decide +kernel

/-- A listed instruction, one that is not, and a special register of each kind. -/
theorem witness_SequencerSet : baseSeq.cur.kind = .seq ∧ baseSeq.cur.region = none ∧
    [Instr.mzero 0 3, .iaddG64 0 1 2 3, .iaddV 0 3 1 2, .spawn 0 0 9 12, .movSpecialG 0 5 9, .movSpecialG 0 5 5, .movSpecialG 0 5 4].all Instr.fieldsOk = true := by
  decide +kernel

/-- On the sequencer; in a task; in a launch without a sequencer, each under either guard; in a root group under a false guard. -/
theorem witness_QpollLegality : (Instr.qpoll 0 1 98).fieldsOk = true ∧ (Instr.qpoll 1 3 96).fieldsOk = true ∧ (Instr.qpoll 1 3 99).fieldsOk = true ∧
    baseSeq.cur.kind = .seq ∧ baseSeq.cur.region = none ∧ base.cur.region = none ∧ base.cur.kind = .root ∧ base.job.seqEntry ≠ 0#64 ∧ base.gpGuard 0 = true ∧ base.gpGuard 1 = false ∧
    (base.setCur { base.cur with kind := .task }).cur.kind = .task ∧ (base.putJob { base.job with pkt := [] }).job.seqEntry = 0#64 := by decide +kernel

theorem witness_FalseGuardSkips : (∀ i ∈ [Instr.iaddG64 1 5 6 7, .exit 1, .trap 1 5, .mzero 1 3, .bbwait 1 8 9, .trig 1 1 8, .qpoll 1 1 98], ∃ s : State, Runs i s ∧
    s.cur.region = none ∧ 32 ≤ i.major ∧ s.gpGuard i.guardOf = false ∧ (i = .qpoll 1 1 98 → s.cur.kind = .root ∧ s.job.seqEntry ≠ 0#64)) := by
  intro i hi
  simp only [List.mem_cons, List.not_mem_nil, or_false] at hi
  rcases hi with rfl | rfl | rfl | rfl | rfl | rfl | rfl
  · exact ⟨base, runs (by decide +kernel), by decide +kernel⟩
  · exact ⟨base, runs (by decide +kernel), by decide +kernel⟩
  · exact ⟨base, runs (by decide +kernel), by decide +kernel⟩
  · exact ⟨baseSeq, runs (by decide +kernel), by decide +kernel⟩
  · exact ⟨base, runs (by decide +kernel), by decide +kernel⟩
  · exact ⟨base, runs (by decide +kernel), by decide +kernel⟩
  · exact ⟨base, runs (by decide +kernel), by decide +kernel⟩

theorem witness_IntegerLaneResults : ∀ i ∈ [Instr.iaddV 0 3 1 2, .isubV 0 3 1 2, .imulV 0 3 1 2, .imulhS32V 0 3 1 2, .imulhZ32V 0 3 1 2, .imadV 0 3 1 2, .iabsV 0 3 1,
    .iaddV64 0 4 6 8, .isubV64 0 4 6 8, .imulV64 0 4 6 8, .imulhS64V 0 4 6 8, .imulhZ64V 0 4 6 8, .imadV64 0 126 6 8, .iabsV64 0 4 126], Runs i base :=
  runsAll (by decide +kernel)

theorem witness_IntegerGroupResults : ∀ i ∈ [Instr.iaddG64 0 95 0 95, .isubG64 0 3 1 2, .imulG64 0 3 1 2, .imulhS64G 0 3 1 2, .imulhZ64G 0 3 1 2, .imadG64 0 3 1 2, .iabsG64 0 3 1,
    .iaddG32 0 0 6 8, .isubG32 0 4 6 8, .imulG32 0 4 6 8, .imulhS32G 0 4 6 8, .imulhZ32G 0 4 6 8, .imadG32 1 4 6 8, .iabsG32 0 4 6], Runs i base :=
  runsAll (by decide +kernel)

theorem witness_ImmediateAndMoveResults : (∀ i ∈ [Instr.iaddImmV 0 3 1 512, .iaddImmV64 0 4 6 511, .iaddImmG32 0 3 1 0, .iaddImmG64 0 3 1 1023, .moviV 0 3 0x10000, .moviG 0 3 0xFFFF,
    .movV 0 3 1, .movV64 0 4 6, .movG64 0 3 1, .movG32 0 3 1, .movSpecialV 0 3 0, .leaV 0 3 4 1 2, .leaG 0 3 4 1 2, .bcast 0 3 1 0, .bcast 0 4 1 1], Runs i base) ∧
    (∀ i ∈ [Instr.iaddImmV 0 3 1 512, .iaddImmV64 0 4 6 511, .iaddImmG32 0 3 1 0, .iaddImmG64 0 3 1 1023, .moviV 0 3 0x10000, .moviG 0 3 0xFFFF],
      Runs i { base with limm := some 1#24 }) := ⟨runsAll (by decide +kernel), runsAll (by decide +kernel)⟩

theorem witness_SpecialReads : (∀ i ∈ [Instr.movSpecialG 0 3 1, .movSpecialG 0 3 2, .movSpecialG 0 3 3, .movSpecialG 0 3 4, .movSpecialG 0 3 5, .movSpecialG 0 3 6,
    .movSpecialG 0 3 7, .movSpecialG 0 3 8, .movSpecialG 0 3 9, .movSpecialG 0 3 10], Runs i base) ∧ base.cur.kind ≠ .task ∧
    Runs (.movSpecialG 0 3 2) (base.setCur { base.cur with kind := .task }) := ⟨runsAll (by decide +kernel), by decide +kernel, runs (by decide +kernel)⟩

theorem witness_LogicResults : ∀ i ∈ [Instr.imaxV 0 0 0 3 1 2, .imaxV 0 0 1 3 1 2, .imaxV 0 1 0 4 6 8, .imaxV 0 1 1 4 6 8, .imaxG 0 1 0 3 1 2, .imaxG 0 1 1 3 1 2,
    .imaxG 0 0 0 3 1 2, .imaxG 0 0 1 3 1 2, .iminV 0 0 0 3 1 2, .iminV 0 0 1 3 1 2, .iminV 0 1 0 4 6 8, .iminV 0 1 1 4 6 8, .iminG 0 1 0 3 1 2, .iminG 0 1 1 3 1 2,
    .iminG 0 0 0 3 1 2, .iminG 0 0 1 3 1 2, .andV 0 0 3 1 2, .andV 0 1 4 6 8, .andG 0 1 3 1 2, .andG 0 0 3 1 2, .orV 0 0 3 1 2, .orV 0 1 4 6 8, .orG 0 1 3 1 2,
    .orG 0 0 3 1 2, .xorV 0 0 3 1 2, .xorV 0 1 4 6 8, .xorG 0 1 3 1 2, .xorG 0 0 3 1 2, .andnV 0 0 3 1 2, .andnV 0 1 4 6 8, .andnG 0 1 3 1 2, .andnG 0 0 3 1 2],
    Runs i base := runsAll (by decide +kernel)

theorem witness_ShiftResults : ∀ i ∈ [Instr.shlV 0 1 3 1 31, .shlV 0 0 3 1 2, .shlV64 0 1 4 6 63, .shlG32 0 1 3 1 31, .shlG64 0 1 3 1 63, .shrV 0 1 3 1 31, .shrV64 0 0 4 6 8,
    .shrG32 0 0 3 1 2, .shrG64 0 1 3 1 0, .sarV 0 1 3 1 31, .sarV64 0 1 4 6 63, .sarG32 0 1 3 1 0, .sarG64 0 0 3 1 2, .rotV 0 1 3 1 0, .rotV64 0 1 4 6 1,
    .rotG32 0 1 3 1 31, .rotG64 0 0 3 1 2], Runs i base := runsAll (by decide +kernel)

theorem witness_BitResults : ∀ i ∈ [Instr.clzV 0 3 1, .clzV64 0 4 6, .clzG64 0 3 1, .clzG32 0 3 1, .popcV 0 3 1, .popcV64 0 4 6, .popcG64 0 3 1, .popcG32 0 3 1, .brevV 0 3 1,
    .brevG 0 3 1, .bfxZV 0 3 1 2, .bfxSV 0 3 1 2, .bfiV 0 3 1 2, .bfxZG 0 3 1 2, .bfxSG 0 3 1 2, .bfiG 0 3 1 2], Runs i base := runsAll (by decide +kernel)

theorem witness_PredicateResults : ∀ i ∈ [Instr.icmpV 0 0 0 1 1 2, .icmpV 0 5 0 0 1 2, .icmpV 0 5 1 3 4 6, .icmpG 0 5 1 1 1 2, .icmpG 0 0 0 3 1 2, .psetV 0 0 1 2 3, .psetV 0 1 1 2 3,
    .psetV 0 2 1 2 3, .psetV 0 3 1 2 3, .psetV 0 4 1 2 0, .psetG 0 0 1 2 3, .psetG 0 1 1 2 3, .psetG 0 2 1 2 3, .psetG 0 3 1 2 3, .psetG 0 4 0 2 0, .psetNzV 0 1 3 0,
    .psetNzV 0 1 4 1, .psetNzG 0 1 3 1, .psetNzG 0 1 3 0, .selV 0 0 1 3 1 2, .selV 0 1 3 4 6 8, .selG 0 1 1 3 1 2, .selG 0 0 3 3 1 2, .vote 0 3 0 0, .vote 0 0 3 1,
    .vote 0 95 1 2], Runs i base := runsAll (by decide +kernel)

theorem witness_FloatResults : ∀ i ∈ [Instr.fadd 0 3 1 2, .fsub 0 3 1 2, .fmul 0 3 1 2, .ffma 0 3 1 2, .fdiv 0 3 1 2, .fmin 0 3 1 2, .fmax 0 3 1 2, .faddF64 0 4 6 8, .fsubF64 0 4 6 8,
    .fmulF64 0 4 6 8, .ffmaF64 0 4 6 8, .fdivF64 0 4 6 8, .fminF64 0 4 6 8, .fmaxF64 0 4 6 8, .fsqrt 0 3 1 0, .frcp 0 3 1 4, .frsq 0 3 1 1, .fexp2 0 3 1 2, .flog2 0 3 1 3,
    .ftrigSinpi 0 3 1 0, .ftrigCospi 0 3 1 4, .fsqrtF64 0 4 6 0, .frnd 0 3 1 4, .frndF64 0 4 6 0, .fclass 0 0 3 1 0, .fclass 0 0 3 1 1, .fclass 0 1 3 4 1, .hfuse 0 0 3 1 2,
    .hfuse 0 1 3 1 2, .fcmp 0 0 0 1 1 2, .fcmp 0 7 1 3 4 6], Runs i base := runsAll (by decide +kernel)

theorem witness_Rounding : 0x7F7FFFFF ≤ fp32.maxEnc ∧ 7 ≤ e2m1.maxEnc ∧ fp32 ∈ [fp64, fp32, fp19, bf16, fp16, e5m2, e4m3, e3m2, e2m3, e2m1] := by decide

theorem witness_ConversionResults : cvtPair 0x13#7 = some (1, 3) ∧ cvtPair 0x01#7 = some (0, 1) ∧ cvtPair 0x79#7 = some (9, 3) ∧
    (∀ i ∈ [Instr.cvt 0 0 3 1 0x13, .cvt 0 5 3 1 0x13, .cvt 0 4 3 4 0x01, .cvtGxEncode 0 3 1 0 13, .cvtGxEncode 0 3 1 1 15, .cvtGxDecode 0 3 1 13, .cvtGxDecode 0 3 1 15,
      .dp4 0 0 3 1 2, .dp4 0 1 3 1 2, .rand 0 0 3, .rand 0 1 3, .pitch 0 3], Runs i base) := ⟨by decide, by decide, by decide, runsAll (by decide +kernel)⟩

theorem witness_CrossLaneResults : (∀ i ∈ [Instr.shfl 0 0 3 1 2, .shfl 0 1 3 1 2, .shfl 0 2 3 1 2, .shfl 0 3 3 1 2, .redux 0 3 1 0 0, .redux 0 3 4 1 2, .redux 0 3 1 2 5,
    .scan 0 3 1 0 0 0, .scan 0 4 6 1 5 2, .isect 0 4 1 2], Runs i base) ∧
    (∀ f ∈ List.range 16, Runs (.nzscan 0 3 1 6) (setG base 6 f) ∧ f < 16 ∧ (setG base 6 f).cur.wbase + 1 + rowSlices f ≤ (setG base 6 f).cur.allot ∧ 1 + rowSlices f ≤ 128) := by
  refine ⟨runsAll (by decide +kernel), fun f hf => ⟨?_, ?_⟩⟩
  · have h : ((List.range 16).all (fun f => (setG base 6 f).admits (.nzscan 0 3 1 6) && (setG base 6 f).cur.windowOk (.nzscan 0 3 1 6))) = true := by decide +kernel
    exact runs (List.all_eq_true.mp h f hf)
  · have h : ∀ f ∈ List.range 16, f < 16 ∧ (setG base 6 f).cur.wbase + 1 + rowSlices f ≤ (setG base 6 f).cur.allot ∧ 1 + rowSlices f ≤ 128 := by decide +kernel
    exact h f hf

/-- What holds of every lane of a mask, from a check of the 32 lanes. -/
theorem forLanes {m : W32} {f : Nat → Bool} (h : (List.range 32).all (fun l => !m.getLsbD l || f l) = true) : ∀ l, m.getLsbD l = true → f l = true := by
  intro l hl
  have l32 : l < 32 := Nat.lt_of_not_le (fun g => by simp [BitVec.getLsbD_of_ge m l g] at hl)
  have := List.all_eq_true.mp h l (List.mem_range.mpr l32)
  simpa [hl] using this

/-- The packet of the smallest launch under DET (12 R236). -/
def det : State := base.putJob { base.job with pkt := (base.job.pkt.set 2 2).set 50 4 }

/-- A tile the launch did not declare; the last declared one; queues with room and with a slice, full and empty. -/
theorem witness_SliceAndQueueResults : 7 < base.cur.tiles ∧ base.cur.kind = .root ∧ base.job.seqEntry ≠ 0#64 ∧
    (∀ i ∈ [Instr.movSliceToV 0 3 1 7 0 7, .movVToSlice 0 3 1 7 1 7, .movQueuePush 0 96 5, .movQueuePush 1 99 5, .movSlicePush 0 97 1 7 1 0, .movQueuePop 0 5, .movSlicePop 0 1 7 0 0,
      .qpoll 0 1 98, .qpoll 0 0 99], Runs i base) ∧ base.active 0 ≠ 0#32 ∧ base.active 1 = 0#32 ∧ ((base.job.engine 0).queue 0).length < 16 ∧
    ((base.putEngine { Engine.start with mqo := [[1#32]] }).job.engine 0).mqo = [1#32] :: [] ∧
    (let s := base.setCur { base.cur with tiles := 7 }
     s.cur.tiles ≤ 7 ∧ s.queuesAllowed = true ∧ okB s [.movSliceToV 0 3 1 7 0 7, .movVToSlice 0 3 1 7 1 7, .movSlicePush 0 97 1 7 1 0, .movSlicePop 0 1 7 0 0] = true) ∧
    (let s := base.putEngine { Engine.start with mqa := List.replicate 16 [], mqo := [] }
     okB s [.movQueuePush 0 96 5, .movSlicePush 0 96 1 7 1 0, .movQueuePop 0 5, .movSlicePop 0 1 7 0 0] = true ∧ s.active 0 ≠ 0#32 ∧ 7 < s.cur.tiles ∧
     16 ≤ ((s.job.engine 0).queue 0).length ∧ (s.job.engine 0).mqo = []) :=
  ⟨by decide +kernel, by decide +kernel, by decide +kernel, runsAll (by decide +kernel), by decide +kernel⟩

theorem witness_StoredBytesRead : 0 ≤ base.hist.length ∧ 1 ≤ (base.storeNat 0x20000 4 7).hist.length ∧ NoOverlap 0x20000 4 0x20004 8 := by
  refine ⟨by decide, by decide +kernel, Or.inl (by decide)⟩

/-- Lane addresses 0x20000 + 16 l in v2 (over g8) and in the pair v4, v5; g9 is the base of a slice. -/
def lanes : State := setG (setV2 (setV (setG base 8 0x20000) 2 (fun l => 16 * l)) 4 (fun l => 0x20000 + 16 * l)) 9 0x20000

/-- Loads of every size, ordered and INV; the last byte, half and word of a lane's 16 bytes; a slice; behind a LIMM. -/
theorem witness_LaneMemoryResults_loads :
    (∀ i ∈ [Instr.ldV 0 0 6 8 2, .ldV 0 3 6 8 2, .ldV 0 4 6 8 2, .ldV 0 6 6 8 2, .ldV 0 7 8 8 2, .ldOrdered 0 6 4 0 4, .ldOrdered 0 6 4 6 6, .ldOrdered 0 8 4 19 7,
      .ldt 0 9 1 7 1 0], Runs i lanes) ∧
    (∀ c ∈ [0, 1, 2, 3, 4, 6, 7], ∀ l, (lanes.active 0).getLsbD l → lanes.Reads .load (lanes.cur.gGet 8 + (lanes.cur.vGet 2 l).zeroExtend 64) (accBytes (BitVec.ofNat 3 c)) 0) ∧
    (∀ k ∈ [Acc.load, .loadAcq, .loadInv], ∀ l, (lanes.active 0).getLsbD l → lanes.Reads k (lanes.cur.vGet2 4 l) 8 0) ∧
    (∀ l, (lanes.active 0).getLsbD l → lanes.Reads .load (lanes.cur.gGet 9 + BitVec.ofNat 64 (4 * l)) 4 0) ∧
    ({ lanes with limm := some 0x1000#24 }).displacement = 0x1000#64 := by
  refine ⟨runsAll (by decide +kernel), fun c hc l hl => reads ?_, fun k hk l hl => reads ?_, fun l hl => reads ?_, by decide +kernel⟩
  · have h : ∀ c ∈ [0, 1, 2, 3, 4, 6, 7], (List.range 32).all (fun l => !(lanes.active 0).getLsbD l ||
        readsB lanes .load (lanes.cur.gGet 8 + (lanes.cur.vGet 2 l).zeroExtend 64) (accBytes (BitVec.ofNat 3 c)) 0) = true := by decide +kernel
    exact forLanes (h c hc) l hl
  · have h : ∀ k ∈ [Acc.load, .loadAcq, .loadInv], (List.range 32).all (fun l => !(lanes.active 0).getLsbD l || readsB lanes k (lanes.cur.vGet2 4 l) 8 0) = true := by
      decide +kernel
    exact forLanes (h k hk) l hl
  · have h : (List.range 32).all (fun l => !(lanes.active 0).getLsbD l || readsB lanes .load (lanes.cur.gGet 9 + BitVec.ofNat 64 (4 * l)) 4 0) = true := by decide +kernel
    exact forLanes h l hl

theorem witness_LaneMemoryResults_stores : lanes.NoStall ∧
    (∀ i ∈ [Instr.stV 0 0 6 8 2, .stV 0 2 6 8 2, .stV 0 4 6 8 2, .stV 0 6 6 8 2, .stV 0 7 8 8 2, .stOrdered 0 6 4 0 4, .stOrdered 0 6 4 7 6, .stOrdered 0 8 4 12 7,
      .stt 0 9 1 7 1 0], Runs i lanes) ∧
    (∀ c ∈ [0, 2, 4, 6, 7], ∀ l, (lanes.active 0).getLsbD l → lanes.Storable .store (lanes.cur.gGet 8 + (lanes.cur.vGet 2 l).zeroExtend 64) (accBytes (BitVec.ofNat 3 c))) ∧
    (∀ l, (lanes.active 0).getLsbD l → lanes.Storable .storeRel (lanes.cur.vGet2 4 l) 8) ∧
    (∀ l, (lanes.active 0).getLsbD l → lanes.Storable .store (lanes.cur.gGet 9 + BitVec.ofNat 64 (4 * l)) 4) := by
  refine ⟨by unfold State.NoStall; decide +kernel, runsAll (by decide +kernel), fun c hc l hl => storable (loc := 0x20000 + 16 * l) ?_,
    fun l hl => storable (loc := 0x20000 + 16 * l) ?_, fun l hl => storable (loc := 0x20000 + 4 * l) ?_⟩
  · have h : ∀ c ∈ [0, 2, 4, 6, 7], (List.range 32).all (fun l => !(lanes.active 0).getLsbD l ||
        landsB lanes .store (lanes.cur.gGet 8 + (lanes.cur.vGet 2 l).zeroExtend 64) (accBytes (BitVec.ofNat 3 c)) (0x20000 + 16 * l)) = true := by decide +kernel
    exact forLanes (h c hc) l hl
  · have h : (List.range 32).all (fun l => !(lanes.active 0).getLsbD l || landsB lanes .storeRel (lanes.cur.vGet2 4 l) 8 (0x20000 + 16 * l)) = true := by decide +kernel
    exact forLanes h l hl
  · have h : (List.range 32).all (fun l => !(lanes.active 0).getLsbD l || landsB lanes .store (lanes.cur.gGet 9 + BitVec.ofNat 64 (4 * l)) 4 (0x20000 + 4 * l)) = true := by
      decide +kernel
    exact forLanes h l hl

/-- `lanes` under CHK, the granule of 0x20000 written by a strand with the pedigree of `h` and `l`. -/
def checked (h l : W64) : State := lanes.putJob { lanes.job with pkt := (lanes.job.pkt.set 2 4).set 50 4, races := [(0x4000, h, l)] }
/-- A strand of another team of the launch, a task parallel to it, and the strand of `lanes` itself. -/
def otherTeam : W64 × W64 := (pedEncode [(0, 1)]).getD (0, 0)

/-- The race filter looks at plain accesses, not at ordered ones; a parallel writer, the strand itself, a granule without a record; a region
with room for a record and without. -/
theorem witness_LaneMemoryResults_races :
    (let s := checked otherTeam.1 otherTeam.2
     look s.jobs s.cur.job = some s.job ∧ s.job.id = s.cur.job ∧ s.Filtered .load 0x20000 0 false ∧ s.Filtered .store 0x20000 0 false ∧
     ¬ s.Filtered .loadAcq 0x20000 0 false ∧ parallel otherTeam.1 otherTeam.2 s.cur.pdh s.cur.pdl = true ∧ look s.job.races (0x20000 / 8) = some otherTeam ∧
     look s.job.races (0x20008 / 8) = none ∧ ¬ 32 * (s.job.races.length + 1) ≤ s.arenaSize s.job 32) ∧
    (let s := checked lanes.cur.pdh lanes.cur.pdl
     parallel lanes.cur.pdh lanes.cur.pdl s.cur.pdh s.cur.pdl = false ∧ look s.job.races (0x20000 / 8) = some (s.cur.pdh, s.cur.pdl)) ∧
    (let s := checked 0 0
     let t := { s with mem := memPut s.mem 0x40020 (leBytes 8 64) }
     32 * (t.job.races.length + 1) ≤ t.arenaSize t.job 32) := by decide +kernel

/-- `lanes` with the group 0 of logical core 0 alone, g8 its address: add of unsigned words at offset 0. -/
def grouped : State := setG (setV2 (lanes.putJob { lanes.job with groupTable := [[0]] }) 4 (fun _ => 0x01FF200000000000)) 8 0x01FF200000000000

/-- Whether an access is to a group. -/
def groupB (s : State) (k : Acc) (ea : W64) (n : Nat) : Bool := match s.target k ea n with | .reduction _ _ _ _ => true | _ => false

/-- A group's member that is there, absent and failed; reads kept from before; a lane load, an ordered one and a group-wide one. -/
theorem witness_GroupAddresses :
    okB grouped [.ldV 0 4 6 8 0, .ldOrdered 0 6 4 0 4, .ldG 0 4 5 8 0] = true ∧ grouped.cur.region = none ∧ grouped.gpGuard 0 = true ∧ grouped.kept = [] ∧
    groupB grouped .load (grouped.cur.gGet 8 + grouped.cur.gGet 0 + 0#64) 4 = true ∧
    (List.range 32).all (fun l => groupB grouped .load (grouped.cur.gGet 8 + (grouped.cur.vGet 0 l).zeroExtend 64 + 0#64) 4 && groupB grouped .load (grouped.cur.vGet2 4 l) 4) = true ∧
    grouped.membersAt 0 (grouped.cur.gGet 8) = [⟨0, 0, 0, grouped.cur.gGet 8⟩] ∧ grouped.readMember ⟨0, 0, 0, grouped.cur.gGet 8⟩ = .elem 0 ∧
    (grouped.putJob { grouped.job with lcores := [(0, ⟨none, some 0, 0⟩)] }).readMember ⟨0, 0, 0, grouped.cur.gGet 8⟩ = .absent ∧
    (grouped.putTeam { grouped.team with bytes := 0 }).readMember ⟨0, 0, 0, grouped.cur.gGet 8⟩ = .failed ∧
    (let r : MemberRef := ⟨0, 0, 0, grouped.cur.gGet 8⟩
     let s := grouped.setCur { grouped.cur with splits := grouped.cur.splits.map (fun p => { p with st := .blocked (.members [(r, some 0)] []) 0 }) }
     s.kept = [(r, some 0)]) := by decide +kernel

/-- A store to the window's first and last word where an operation of the team reads it. -/
theorem witness_Stalls : (let o : EngOp := ⟨9, 1, 0, 2, 0, .slot 0 0, 0, 0, false, 0#64, 0#64, [(0x01FF000000000000, 8)], [], 0, 0, [], [], []⟩
     let s : State := { setG lanes 8 0x01FF000000000004 with ops := [o] }
     okB s [.stV 0 4 6 8 0, .stG 0 4 5 8 0] = true ∧ s.gpGuard 0 = true ∧ s.cur.region = none ∧ s.Stalls .store (s.cur.gGet 8 + s.cur.gGet 0 + 0#64) 4) := by
  refine ⟨by decide +kernel, by decide +kernel, by decide +kernel, _, List.mem_singleton.mpr rfl, by decide +kernel, scratchLoc 1 0 4, 0, ?_,
    ⟨_, List.mem_singleton.mpr rfl, (scratchLoc 1 0 0, 8), by decide +kernel, by decide +kernel, by decide +kernel⟩, .inr ?_⟩
  · decide +kernel
  · intro i e h
    simp [EngOp.elems] at h

/-- A copy of 8 bytes whose first element has moved: it has still to read the second word, and not the first. -/
theorem witness_Stalls_element : (let o : EngOp := ⟨9, 1, 0, 2, 0, .copy [(0x01FF000000000000, 0x20200)] 8, 0, 0, false, 0#64, 0#64, [(0x01FF000000000000, 32)], [], 0, 0, [], [0], []⟩
     let s : State := { setG lanes 8 0x01FF000000000004 with ops := [o] }
     s.Stalls .store (s.cur.gGet 8 + s.cur.gGet 0 + 0#64) 4 ∧ s.stillReads o (scratchLoc 1 0 4) 4 = true ∧ s.stillReads o (scratchLoc 1 0 0) 4 = false) := by
  refine ⟨⟨_, List.mem_singleton.mpr rfl, by decide +kernel, scratchLoc 1 0 4, 0, ?_,
    ⟨_, List.mem_singleton.mpr rfl, (scratchLoc 1 0 0, 32), by decide +kernel, by decide +kernel, by decide +kernel⟩,
    .inl ⟨1, ⟨some 0x01FF000000000004#64, 0, 0x20204#64, 4, true, 0, 1⟩, ⟨by decide +kernel, _, rfl, (scratchLoc 1 0 4, 4), by decide +kernel, by decide +kernel, by decide +kernel⟩,
      by decide +kernel⟩⟩, by decide +kernel, by decide +kernel⟩
  decide +kernel

theorem witness_GroupMemoryResults : lanes.cur.region = none ∧ lanes.NoStall ∧ lanes.gpGuard 0 = true ∧ lanes.gpGuard 1 = false ∧
    (∀ i ∈ [Instr.ldG 0 0 5 8 0, .ldG 0 1 5 8 0, .ldG 0 5 5 8 0, .ldG 0 6 0 8 0, .ldG 1 6 5 8 0, .stG 0 0 5 8 0, .stG 0 6 5 8 0, .stG 1 6 5 8 0], Runs i lanes) ∧
    lanes.Reads .load (lanes.cur.gGet 8 + lanes.cur.gGet 0 + 0#64) 8 0 ∧ lanes.Storable .store (lanes.cur.gGet 8 + lanes.cur.gGet 0 + 0#64) 8 :=
  ⟨by decide +kernel, by unfold State.NoStall; decide +kernel, by decide +kernel, by decide +kernel, runsAll (by decide +kernel),
    reads (by decide +kernel), storable (loc := 0x20000) (by decide +kernel)⟩

/-- A region open on the line of 0x20000, with no access recorded, and with the eighth still to come. -/
def region (n : Nat) : State := lanes.setCur { lanes.cur with region := some ⟨0x20000#64, 0x10000#64, 0, List.replicate n ⟨true, true, 0x20078#64, 8, false, 7#64, 0⟩⟩ }

theorem witness_RegionResults : Runs (.abeg 0 8) lanes ∧ lanes.gpGuard 0 = true ∧ (lanes.cur.gGet 8).toNat % 128 = 0 ∧ otherWindow (lanes.cur.gGet 8).toNat = false ∧
    (∀ i ∈ [Instr.ldG 0 6 5 8 0, .stG 0 6 5 8 0, .ldG 1 6 5 8 0, .acom 0 17, .acom 0 0], Runs i (region 7)) ∧ (region 7).cur.region.isSome ∧
    ((region 7).cur.gGet 8 + (region 7).cur.gGet 0).toNat / 128 = 0x20000 / 128 ∧ (region 7).NoStall ∧
    (∀ x ∈ (region 1).regionAccs ⟨0x20000#64, 0x10000#64, 0, [⟨true, true, 0x20078#64, 8, false, 7#64, 0⟩]⟩, ∃ loc attr sc, x.tgt = .mem loc attr sc) := by
  refine ⟨runs (by decide +kernel), by decide +kernel, by decide +kernel, by decide +kernel, runsAll (by decide +kernel), by decide +kernel, by decide +kernel,
    by unfold State.NoStall; decide +kernel, fun x hx => ?_⟩
  have h : ((region 1).regionAccs ⟨0x20000#64, 0x10000#64, 0, [⟨true, true, 0x20078#64, 8, false, 7#64, 0⟩]⟩).all
      (fun x => match x.tgt with | .mem _ _ _ => true | _ => false) = true := by decide +kernel
  have := List.all_eq_true.mp h x hx
  cases ht : x.tgt with
  | mem loc attr sc => exact ⟨loc, attr, sc, rfl⟩
  | _ => rw [ht] at this; exact Bool.noConfusion this

/-- 4-byte and 8-byte forms, compare and swap, floating adds at once; a floating add under DET with room in the arena. -/
theorem witness_AtomicResults : lanes.NoStall ∧
    (∀ i ∈ [Instr.atom 0 6 4 17 0, .atom 0 6 4 0 1, .atom 0 6 4 18 18, .atom 0 8 4 0 19, .atom 0 6 4 0 20, .atom 0 6 4 0 25, .red 0 6 4 0 0, .red 0 6 4 18 1, .red 0 6 4 7 20],
      Runs i lanes) ∧
    (∀ l, (lanes.active 0).getLsbD l → ∃ attr sc, lanes.target .atomic (lanes.cur.vGet2 4 l) 8 = .mem (0x20000 + 16 * l) attr sc) ∧
    (∀ l, (lanes.active 0).getLsbD l → ∃ attr sc, lanes.target .atomicF (lanes.cur.vGet2 4 l) 4 = .mem (0x20000 + 16 * l) attr sc) ∧ lanes.job.det = false := by
  refine ⟨by unfold State.NoStall; decide +kernel, runsAll (by decide +kernel), fun l hl => lands ?_, fun l hl => lands ?_, by decide +kernel⟩
  · have h : (List.range 32).all (fun l => !(lanes.active 0).getLsbD l || landsB lanes .atomic (lanes.cur.vGet2 4 l) 8 (0x20000 + 16 * l)) = true := by decide +kernel
    exact forLanes h l hl
  · have h : (List.range 32).all (fun l => !(lanes.active 0).getLsbD l || landsB lanes .atomicF (lanes.cur.vGet2 4 l) 4 (0x20000 + 16 * l)) = true := by decide +kernel
    exact forLanes h l hl

/-- Floating adds under DET, and under DETC two lanes to a location. -/
theorem witness_AtomicResults_deferred : (let s := setV2 { det with mem := memPut det.mem 0x40018 (leBytes 8 0x10000) } 4 (fun l => 0x20000 + 16 * l)
     look s.jobs s.cur.job = some s.job ∧ s.job.id = s.cur.job ∧ s.job.det = true ∧ s.job.detc = false ∧ s.active 0 ≠ 0#32 ∧ (s.admits (.red 0 6 4 0 20) && s.cur.windowOk (.red 0 6 4 0 20)) = true ∧
     48 * (s.job.adds.length + s.job.partials.length + 32) ≤ s.arenaSize s.job 24 ∧
     (List.range 32).all (fun l => match s.target .atomicF (s.cur.vGet2 4 l) 4 with | .mem loc attr false => loc == 0x20000 + 16 * l && decide (attr < 2) | _ => false) = true) ∧
    (let s := setV2 { (det.putJob { det.job with pkt := det.job.pkt.set 2 16 }) with mem := memPut det.mem 0x40018 (leBytes 8 0x10000) } 4 (fun l => 0x20000 + 16 * (l / 2))
     look s.jobs s.cur.job = some s.job ∧ s.job.id = s.cur.job ∧ s.job.det = true ∧ s.job.detc = true ∧ s.active 0 ≠ 0#32 ∧ okB s [.red 0 6 4 0 20, .red 0 6 4 0 21] = true ∧
     48 * (s.job.adds.length + s.job.partials.length + 32) ≤ s.arenaSize s.job 24 ∧
     (List.range 32).all (fun l => match s.target .atomicF (s.cur.vGet2 4 l) 4 with | .mem loc attr false => loc == 0x20000 + 16 * (l / 2) && decide (attr < 2) | _ => false) = true) := by
  decide +kernel

/-- Lane 31 misaligned, the others read zero; a group access and an atomic lane misaligned. -/
theorem witness_LaneFaults : (let s := setV lanes 2 (fun l => if l = 31 then 2 else 16 * l)
     (s.admits (.ldV 0 4 6 8 2) && s.cur.windowOk (.ldV 0 4 6 8 2)) = true ∧ 0x80000000#32 &&& ~~~(s.active 0) = 0#32 ∧
     (match s.target .load (s.laneAddr 8 2 31) 4 with | .bad c => c | _ => 0) = 0x22 ∧
     (List.range 31).all (fun l => readsB s .load (s.laneAddr 8 2 l) 4 0) = true ∧ s.cur.lfm = 0#64) ∧
    (let s := setG lanes 8 0x20001
     s.gpGuard 0 = true ∧ s.cur.region = none ∧ (s.groupAddr 8 0).toNat / 2 ^ 48 < 0x1FF ∧ (s.groupAddr 8 0).toNat % accBytes 6#3 ≠ 0 ∧
     (s.admits (.ldG 0 6 5 8 0) && s.cur.windowOk (.ldG 0 6 5 8 0) && s.admits (.stG 0 6 5 8 0) && s.cur.windowOk (.stG 0 6 5 8 0)) = true) ∧
    (let s := setV2 lanes 4 (fun l => if l = 5 then 0x20002 else 0x20000 + 16 * l)
     (s.active 0).getLsbD 5 = true ∧ (s.cur.vGet2 4 5).toNat % 4 ≠ 0 ∧ s.cur.viewAt (s.cur.vGet2 4 5).toNat = none ∧ (List.range 5).all (fun l => landsB s .atomic (s.cur.vGet2 4 l) 4 (0x20000 + 16 * l)) = true ∧
     (List.range 32).all (fun l => match s.target .atomic (s.cur.vGet2 4 l) 4 with | .miss _ _ => false | _ => true) = true ∧
     (s.admits (.atom 0 6 4 0 0) && s.cur.windowOk (.atom 0 6 4 0 0) && s.admits (.red 0 6 4 0 0) && s.cur.windowOk (.red 0 6 4 0 0)) = true) := by decide +kernel

/-- Lane 3's page is not mapped. -/
theorem witness_PageHold : (let s := setV2 lanes 4 (fun l => if l = 3 then 0x80000000000 else 0x20000)
     let s := setG (setV s 2 (fun l => if l = 3 then 0xF0000000 else 16 * l)) 8 0x20000
     (match s.target .load (s.laneAddr 8 2 3) 4 with | .miss va _ => some va | _ => none).isSome = true ∧
     (match s.target .store (s.laneAddr 8 2 3) 4 with | .miss va _ => some va | _ => none).isSome = true ∧ (s.active 0).getLsbD 3 = true ∧
     (s.admits (.ldV 0 4 6 8 2) && s.cur.windowOk (.ldV 0 4 6 8 2) && s.admits (.stV 0 4 6 8 2) && s.cur.windowOk (.stV 0 4 6 8 2)) = true) := by decide +kernel

/-- A window base that fits, one past the allotment and one that is no multiple of 32. -/
theorem witness_SystemResults : (∀ i ∈ [Instr.nop 0, .fence 0 1, .fence 0 18, .yield 0, .wbaseImm 0 15, .wbaseImm 0 0, .wbaseReg 0 7, .ctlrd 0 5 0, .ctlrd 0 5 9, .ctlrdFflags 0 5,
      .ctlwr 0 6 0, .ctlwr 0 6 1, .ctlwr 0 6 7, .ctlwr 0 6 8, .ctlwr 0 6 9, .ctlwrFflags 0 6, .ctlwrLfm 0 6, .ctlwrRepc 0 6, .ctlwrTmr 0 6, .ctlwrAlarm 0 6], Runs i (setG base 7 480)) ∧
    (setG base 7 480).Converged ∧ (setG base 7 480).gpGuard 0 = true ∧ (setG base 7 480).raceDue = none ∧ 32 * 15 + 32 ≤ (setG base 7 480).cur.allot ∧
    ((setG base 7 480).cur.gGet 7).toNat + 32 ≤ (setG base 7 480).cur.allot ∧
    (let s := (setG base 7 512).setCur { (setG base 7 512).cur with allot := 256 }
     okB s [.wbaseImm 0 8, .wbaseReg 0 7] = true ∧ s.othersParked = true ∧ s.lowestPc = true ∧ s.gpGuard 0 = true ∧ s.cur.allot < 32 * 8 + 32 ∧
     s.cur.allot < (s.cur.gGet 7).toNat + 32 ∧ ((setG base 7 16).cur.gGet 7).toNat % 32 ≠ 0) :=
  ⟨runsAll (by decide +kernel), converged (by decide +kernel), by decide +kernel, by decide +kernel, by decide +kernel, by decide +kernel, by decide +kernel⟩

/-- `base` with a repeatable word, and one that takes a LIMM, in the next word. -/
def prefixed (w : Nat) : State := { base with mem := memPut base.mem 0x10004 (leBytes 4 w) }

/-- A LIMM before a partner and before another word; counts of 4, of 2^31 − 1 and 2^31 from a register and of zero; a resumption with iterations left,
and with none; behind it a word that does not repeat, an unassigned word, an odd stride of a pair, an iteration outside the allotment. -/
theorem witness_PrefixResults :
    (let s := prefixed 0xAC52A400
     (s.admits (.limm 64) && s.cur.windowOk (.limm 64)) = true ∧ s.fetch (s.sp.pc + 4#64).toNat = some 0xAC52A400#32 ∧ rowOf 0xAC52A400#32 = some (.iaddImmG64 0 41 41 0) ∧
     takesLimm (.iaddImmG64 0 41 41 0) = true) ∧
    (let s := setG (prefixed 0x64820502) 12 0x7FFFFFFF
     (s.admits (.rep 4 7 0 0) && s.admits (.rep 63 0 0 12) && s.admits (.rep 63 0 0 0) && s.admits (.rep 0 0 0 0)) = true ∧ s.sp.fresh = false ∧
     ((s.cur.gGet 12).toNat % 2 ^ 32 = 2 ^ 31 - 1) ∧ ((s.cur.gGet 0).toNat % 2 ^ 32 = 0) ∧
     s.fetch (s.sp.pc + 4#64).toNat = some 0x64820502#32 ∧ repRow 0x64820502#32 = some (.ldV 0 4 8 10 2) ∧ repeatable 0x64820502#32 = true ∧
     repIllegal (.ldV 0 4 8 10 2) 5 1 0 3 = false ∧ s.cur.repOutside (.ldV 0 4 8 10 2) 5 1 0 3 = false ∧
     repIllegal (.ldV 0 4 8 10 2) 0 1 0 (2 ^ 31 - 2) = false ∧ s.cur.repOutside (.ldV 0 4 8 10 2) 0 1 0 (2 ^ 31 - 2) = false) ∧
    (let g := { base.cur with repc := 0x8000000200000001#64, splits := base.cur.splits.map (fun p => { p with fresh := true }) }
     let s := (prefixed 0x64820502).setCur g
     s.sp.fresh = true ∧ s.cur.repc.getLsbD 63 = true ∧ (s.cur.repc.extractLsb' 0 32).toNat = 1 ∧ (s.cur.repc.extractLsb' 32 31).toNat = 2 ∧ s.admits (.rep 4 5 0 0) = true) ∧
    (0x8000000400000000#64).extractLsb' 0 32 = 0#32 ∧
    (let s := setG (prefixed 0xC0000000) 12 0x80000000
     okB s [.rep 63 0 0 12, .rep 2 0 0 0, .limm 64] = true ∧ (s.cur.gGet 12).toNat % 2 ^ 32 = 2 ^ 31 ∧ s.fetch (s.sp.pc + 4#64).toNat = some 0xC0000000#32 ∧
     repeatable 0xC0000000#32 = false ∧ (rowOf 0xC0000000#32).map takesLimm = some false) ∧
    (let w := (List.range 64).map (fun k => BitVec.ofNat 32 (2 ^ 26 * k + 2 ^ 24 - 1))
     (w.find? (fun x => repeatable x && (repRow x).isNone)).isSome) ∧
    (let i : Instr := .iaddV64 0 4 6 8
     let s := prefixed (encode i).toNat
     okB s [.rep 2 7 0 0] = true ∧ s.fetch (s.sp.pc + 4#64).toNat = some (encode i) ∧ repRow (encode i) = some i ∧ repeatable (encode i) = true ∧
     repIllegal i 7 1 0 1 = true ∧ repIllegal i 7 2 0 1 = false ∧ repIllegal i 0 1 0 1 = false ∧
     (s.cur.repOutside i 7 2 0 253 = true ∨ s.cur.repOutside i 7 2 0 1000 = true)) := by decide +kernel

/-- `base` with its splits replaced. -/
def withSplits (l : List Split) : State := base.setCur { base.cur with splits := l }
/-- The page of ordinary memory that a device access reaches. -/
def pageAt (s : State) (key va : Nat) (w : Bool) : Option (Nat × Nat) :=
  match s.devPage key s.job.root s.job.queue va w with
  | .page p => if s.isMmio p.pa || s.isMmio (p.pa + 4) then none else some (p.pa, p.attr)
  | _ => none

/-- Alone and converged; behind another ready split; with a second split parked at the same instruction; its guard false; a table that settles,
under a handler and not; a quadrant with a split to choose, with one passed over 64 times, and with the one issued last. -/
theorem witness_ConvergentParks :
    (let l : List Instr := [.wbaseImm 0 2, .wbaseReg 0 5, .bara 0 10 3, .barw 0 10 31, .barm 0 10 3, .spawn 0 11 9 12, .join 0, .allocHeap 0 10 11, .allocLog 0 10 11, .rdecl 0 8 0, .rview 0 8 15]
     okB base l = true ∧ base.othersParked = true ∧ base.lowestPc = true ∧ base.gpGuard 1 = false ∧ okB base [.join 1] = true ∧
     (let s := withSplits [⟨0, 0x10000#64, 0xFFFF#32, .ready, none, false, 0, 0, false⟩, ⟨1, 0x10000#64, 0xFFFF0000#32, .ready, none, false, 0, 0, false⟩]
      okB s l = true ∧ s.othersParked = false) ∧
     (let s := withSplits [⟨0, 0x10004#64, 0xFFFF#32, .ready, none, false, 0, 0, false⟩, ⟨1, 0x10000#64, 0xFFFF0000#32, .parked, none, false, 0, 0, false⟩]
      okB s l = true ∧ s.othersParked = true ∧ s.lowestPc = false) ∧
     (let s := withSplits [⟨0, 0x10000#64, 0xFFFF#32, .ready, none, false, 0, 0, false⟩, ⟨1, 0x10000#64, 0xFFFF0000#32, .parked, none, false, 0, 0, false⟩]
      okB s l = true ∧ s.othersParked = true ∧ s.lowestPc = true ∧ s.mergeParked.cur.splits.map Split.mask = [0xFFFFFFFF#32])) ∧
    base.cur.kind ≠ .task ∧ base.cur.handler = none ∧ base.cur.region = none ∧ base.cur.stack.length ≤ 16 ∧
    (let g := (withSplits [⟨1, 0x10000#64, 0xF#32, .ready, none, false, 0, 0, false⟩, ⟨0, 0x10000#64, 0xF0#32, .ready, none, false, 0, 0, false⟩,
       ⟨2, 0x10000#64, 0xF00#32, .parked, none, false, 0, 0, false⟩]).cur
     let t := base.settle { g with stack := [⟨0x10040#64, 0xF000#32⟩] }
     t.splits.map (fun p => (p.entry, p.mask)) = [(0, 0xFF#32), (2, 0xF00#32), (1, 0xF000#32)] ∧ t.stack = []) ∧
    (base.quadrantSplits 0 0).map (fun x => (x.2.entry, ((look base.jobs x.1.job).getD Job.blank).prio, x.2.passed)) = [(0, base.job.prio, 0)] ∧ base.job.prio ≤ 8 ∧
    (let s := withSplits [⟨0, 0x10000#64, 0xF#32, .ready, none, false, 3, 0, true⟩, ⟨1, 0x10040#64, 0xF0#32, .ready, none, false, 64, 9, false⟩]
     (s.quadrantPick 0 0).map (fun x => x.2.entry) = some 1) ∧
    (let s := { withSplits [⟨0, 0x10000#64, 0xF#32, .ready, none, false, 3, 0, false⟩, ⟨1, 0x10040#64, 0xF0#32, .ready, none, false, 0, 9, true⟩] with lastIssue := [(0, (2, 1))] }
     (s.quadrantPick 0 0).map (fun x => x.2.entry) = some 1) := by decide +kernel

/-- Taken inside the address space and beyond it; behind a LIMM; no lanes on; uniform; divided with a free entry, with none, and with a full
stack; five targets, the last of them stacked; one bad target among them. -/
theorem witness_BranchResults :
    (base.gpGuard 0 = true ∧ okB base [.braG 0 0xFFFFF8, .callG 0 16, .brxG 0 9, .retG 0 95, .braV 0 16, .callV 1 16, .brxV 0 4, .retV 1 126] = true ∧
     badTarget 0xFFE0#64 = false ∧ badTarget 0x80000000000000#64 = false ∧
     (let s := { setG base 9 0x0200000000000000 with limm := some 0x800000#24 }
      okB s [.braG 0 16, .callG 0 16] = true ∧ badTarget ((0x800000#24 ++ 16#24 : BitVec 48).signExtend 64 * 4#64 + 0x10000#64) = true ∧ badTarget (s.cur.gGet 9) = true)) ∧
    (let s := base.setCur { base.cur with off := 0xFFFFFFFF#32 }
     okB s [.braV 0 16, .brxV 0 4] = true ∧ s.laneMask = 0#32) ∧
    (let s := setV2 (setP base 1 0xF) 4 (fun l => if l < 4 then 0x10040 else 0x20000)
     s.laneMask ≠ 0#32 ∧ okB s [.braV 1 16, .callV 1 16, .brxV 0 4, .retV 0 4, .braV 0 16] = true ∧
     (List.range 32).all (fun l => s.cur.vGet2 4 l == (if l < 4 then 0x10040#64 else 0x20000#64) && !badTarget (s.cur.vGet2 4 l)) = true ∧
     (s.cur.splitAt s.split).isSome = true ∧ s.cur.freeEntries = [1, 2, 3] ∧ s.cur.stack.length < 16) ∧
    (let s := setP (withSplits [⟨0, 0x10000#64, 0xFF#32, .ready, none, false, 0, 0, false⟩, ⟨1, 0x10000#64, 0xFF00#32, .ready, none, false, 0, 0, false⟩,
       ⟨2, 0x10000#64, 0xFF0000#32, .ready, none, false, 0, 0, false⟩, ⟨3, 0x10000#64, 0xFF000000#32, .ready, none, false, 0, 0, false⟩]) 1 0xF
     okB s [.braV 1 16] = true ∧ s.cur.freeEntries = [] ∧ s.cur.stack.length < 16 ∧ s.active 1 = 0xF#32 ∧ s.laneMask = 0xFF#32 ∧
     (let t := s.setCur { s.cur with stack := List.replicate 16 ⟨0x30000#64, 1#32⟩ }
      okB t [.braV 1 16] = true ∧ 16 < t.cur.stack.length + 1)) ∧
    (let f := fun l => 0x10100 + 0x100 * (l / 7)
     let s := setV2 base 4 f
     let up := [0x10200, 0x10300, 0x10400, 0x10500].map (BitVec.ofNat 64)
     okB s [.brxV 0 4, .retV 0 4] = true ∧ (0x10100#64 :: up).Pairwise (fun x y => x.toNat < y.toNat) ∧
     (List.range 32).all (fun l => (0x10100#64 :: up).contains (s.cur.vGet2 4 l &&& 0xFFFFFFFFFFFFFFFC#64)) = true ∧
     (0x10100#64 :: up).all (fun x => maskOf (fun l => s.laneMask.getLsbD l && s.cur.vGet2 4 l == x) != 0#32) = true ∧
     (up.drop s.cur.freeEntries.length).length = 1) ∧
    (let s := setV2 base 4 (fun l => if l = 9 then 0x0200000000000000 else 0x10040)
     okB s [.brxV 0 4] = true ∧ s.laneMask.getLsbD 9 = true ∧ badTarget (s.cur.vGet2 4 9) = true ∧
     (List.range 9).all (fun l => !badTarget (s.cur.vGet2 4 l)) = true) := by decide +kernel

/-- A handler and a free slot; no free slot; a record whose page is not mapped; no handler, with the slot 0 record free and taken; TRAP; ERET in and outside a handler. -/
theorem witness_TrapAndReturn :
    (let s := handled base
     okB s [.trap 0 5, .trap 0 127] = true ∧ s.gpGuard 0 = true ∧ s.fatal = false ∧ s.job.freeSlot = some 1 ∧
     pageAt s (keyTrap s.cur.job 1) (s.job.trapArea + 64 + 64 * 1) true = some (0x20080, 0) ∧
     okB s [.eret 0] = true ∧ s.cur.handler = none ∧
     (let t := s.putJob { s.job with slots := [1] }
      t.fatal = false ∧ t.job.freeSlot = none) ∧
     (let t := s.setCur { s.cur with handler := some (0, 1) }
      t.fatal = true ∧ okB t [.eret 0] = true ∧ pageAt t (keyTrap t.cur.job 1) (t.job.trapArea + 64 + 64 * 1) false = some (0x20080, 0))) ∧
    base.fatal = true ∧ look base.jobs base.cur.job = some base.job ∧ base.job.id = base.cur.job ∧ base.job.phase = .running ∧ base.job.recorded = false ∧
    pageAt base (keyRecord base.job.id) (base.job.trapArea + 64) true = some (0x20040, 0) ∧
    (let s := base.putJob { base.job with recorded := true }
     s.fatal = true ∧ s.job.recorded = true ∧ pageAt s (keyRecord s.job.id) s.job.trapArea true = some (0x20000, 0)) ∧
    (let s := handled (base.putJob { base.job with pkt := base.job.pkt.set 93 1 })
     let u := s.putJob { s.job with slots := [1] }
     s.fatal = false ∧ s.job.freeSlot = some 1 ∧
     (match u.devPage (keyTrap u.cur.job 1) u.job.root u.job.queue (u.job.trapArea + 64 + 64 * 1) true with | .waits _ => true | _ => false) = true) := by decide +kernel

/-- Timer and alarm at their very moment and before it; an asynchronous and a lane report, with the cause of ctl.lfm and without; each of them with no
slot free; a wait of each kind one nanosecond too long, of members with a failed one and without. -/
theorem witness_BoundaryEvents :
    (let s := handled ({ base with cycles := 5000, time := 5000 }.setCur { base.cur with begun := true })
     let c := s.cycOf s.cur
     s.fatal = false ∧ s.job.freeSlot = some 1 ∧ pageAt s (keyTrap s.cur.job 1) (s.job.trapArea + 64 + 64 * 1) true = some (0x20080, 0) ∧
     s.timerDue { s.cur with tmr := BitVec.ofNat 64 c } = true ∧ s.timerDue { s.cur with tmr := BitVec.ofNat 64 (c + 1) } = false ∧
     s.alarmDue { s.cur with alarm := 5000#64 } = true ∧ s.alarmDue { s.cur with alarm := 5001#64 } = false ∧
     s.reportDue = none ∧ s.timedOut s.cur s.sp = false ∧
     (let r : Pend := ⟨3, 0x32, 1, 0x10000#64, 0x40#64, 0, 0#64, 0#64, 0#64, 0#64, false⟩
      (s.setCur { s.cur with pend := [r] }).reportDue = some r) ∧
     (let r : Pend := ⟨2, 0x22, 31, 0x10000#64, 0x41#64, 0, 0#64, 0#64, 0#64, 0#64, false⟩
      (s.setCur { s.cur with pend := [r], lfm := 0x280000000#64 }).reportDue = some r ∧ (s.setCur { s.cur with pend := [r] }).reportDue = some r ∧
      (s.cur.lfm.extractLsb' 32 4).toNat = 0) ∧
     (let t := s.putJob { s.job with slots := [1] }
      t.fatal = false ∧ t.job.freeSlot = none ∧ (t.cur.splitAt t.split).isSome ∧ t.timerDue { t.cur with tmr := BitVec.ofNat 64 c } = true)) ∧
    (let r : MemberRef := ⟨5, 2, 7, 0x01FF200000000000#64⟩
     ∀ w ∈ [Wait.peer 3 0 0x40#64, .host 3, .members [(r, none)] [], .members [({ r with pos := 1 }, some 4)] [r], .monitor, .slot none],
      let s := withSplits [⟨0, 0x10000#64, 0xFFFFFFFF#32, .blocked w 0, none, false, 0, 0, false⟩]
      s.sp.st = .blocked w 0 ∧ s.cur.gtimeout = 1000#64 ∧ 0 + 1000 * s.cur.gtimeout.toNat < 1000001) := by decide +kernel

/-- An access lands at a location of ordinary memory. -/
def ordinaryB (s : State) (k : Acc) (ea : W64) (n : Nat) : Bool := match s.target k ea n with | .mem _ attr _ => decide (attr < 2) | _ => false

/-- Team barriers, launch barriers one short of their count, the six causes at the ends of their ranges. -/
theorem witness_BarrierResults :
    base.othersParked = true ∧ base.lowestPc = true ∧ base.gpGuard 0 = true ∧ base.raceDue = none ∧ base.cur.kind = .root ∧ base.cur.grp = 0 ∧ base.team.groups = 1 ∧
    okB base [.bara 0 10 0, .bara 0 10 15, .bara 0 10 16, .bara 0 10 31, .barw 0 10 15, .barw 0 10 16, .barm 0 10 0, .barm 0 10 15, .barm 0 10 16, .barm 0 10 31] = true ∧
    (base.team.bar 15).mask &&& 1#16 ≠ 0#16 ∧ (base.team.bar 15).arrived &&& 1#16 = 0#16 ∧ (base.team.bar 0).arrived = 0#16 ∧
    (let s := base.putTeam { base.team with bars := [(0, ⟨0#16, 0#16, 0#64⟩), (15, ⟨3#16, 1#16, 5#64⟩)] }
     (s.team.bar 0).mask &&& 1#16 = 0#16 ∧ (s.team.bar 15).mask &&& 1#16 ≠ 0#16 ∧ (s.team.bar 15).arrived &&& 1#16 ≠ 0#16 ∧
     okB (setG s 10 1) [.barm 0 10 15] = true ∧ ((setG s 10 1).cur.gGet 10).toNat < 2 ^ s.team.groups ∧ (s.barGen s.cur 15).toNat = 5 ∧
     4 < (s.barGen s.cur 15).toNat ∧ (s.barGen s.cur 15).toNat ≤ 5) ∧
    (base.job.bar 0).count = 0#48 ∧
    (let s := base.putJob { base.job with bars := [(0, ⟨0#48, 0#48, 0#64⟩), (15, ⟨0xFFFFFFFFFFFF#48, 1#48, 7#64⟩)] }
     (s.job.bar (16 - 16)).count = 0#48 ∧ (s.job.bar (31 - 16)).count ≠ 0#48 ∧ (s.job.bar (31 - 16)).arrived ≠ 0#48 ∧ (s.job.bar (16 - 16)).arrived = 0#48 ∧
     (s.barGen s.cur 31).toNat = 7 ∧ ((setG s 10 (2 ^ 48 - 1)).cur.gGet 10).toNat < 2 ^ 48 ∧ 2 ^ 48 ≤ ((setG s 10 (2 ^ 48)).cur.gGet 10).toNat) ∧
    (let s := base.setCur { base.cur with kind := .task }
     s.othersParked = true ∧ s.lowestPc = true ∧ s.gpGuard 0 = true ∧ s.raceDue = none ∧ okB s [.bara 0 10 15, .barw 0 10 15, .barm 0 10 0] = true) := by decide +kernel

/-- The own scratchpad's first and last word; past it, misaligned, outside the windows, on a parked core; a phase and a monitor. -/
theorem witness_ByteBarrierResults :
    base.gpGuard 0 = true ∧ okB base [.bbinit 0 8 9, .bbexp 0 8 9, .bbarr 0 8 9, .bbwait 0 8 9, .wait 0 8 9] = true ∧ 16 ≤ base.team.bytes ∧
    base.bbRef 0x01FF000000000000 = .at 0 0 ∧ base.bbRef (0x01FF000000000000 + base.team.bytes - 8) = .at 0 (base.team.bytes - 8) ∧
    (base.putTeam { base.team with bytes := 4096 }).bbRef 0x01FF000000001000 = .bad 0x21 ∧ base.bbRef 0x01FF000000000004 = .bad 0x17 ∧ base.bbRef 0x01FF000002000000 = .bad 0x23 ∧
    base.bbRef 0x20000 = .bad 0x15 ∧ base.bbRef 0x0200000000000000 = .bad 0x23 ∧ base.bbRef 0x01FF100000000000 = .at 0 0 ∧
    ((base.putJob { base.job with lcores := put base.job.lcores 0 { base.job.lcoreOf 0 with core := none } }).bbRef 0x01FF100000000000) = .waits 0 ∧
    (let w := base.natAt (scratchLoc 1 0 0) 8
     bbPhase w ≠ 1 % 2 ∧ bbErr w = false ∧ bbPhase w = 0 % 2) ∧
    (let s := { base with mem := memPut base.mem (scratchLoc 1 0 0) (leBytes 8 0x30000000) }
     bbErr (s.natAt (scratchLoc 1 0 0) 8) = true ∧ bbCause (s.natAt (scratchLoc 1 0 0) 8) = 1) ∧
    base.poisoned (scratchLoc 1 0 0) 8 = false ∧ (spoilt (scratchLoc 1 0 0)).poisoned (scratchLoc 1 0 0) 8 = true ∧
    (let s := spoilt (scratchLoc 1 0 0)
     okB s [.bbexp 0 8 9, .bbarr 0 8 9, .bbwait 0 8 9] = true ∧ s.gpGuard 0 = true ∧ s.bbRef 0x01FF000000000000 = .at 0 0 ∧
     look s.jobs s.cur.job = some s.job ∧ s.job.id = s.cur.job ∧ s.job.phase = .running) ∧
    landsB base .monitor 0x20000#64 8 0x20000 = true ∧ base.sleeping = false ∧ base.natAt 0x20000 8 = 0 ∧
    (withSplits [⟨0, 0x10000#64, 0xFFFFFFFF#32, .blocked .monitor 0, none, false, 0, 0, false⟩]).sleeping = true ∧
    (let s := withSplits [⟨0, 0x10000#64, 0xFFFFFFFF#32, .blocked .phase 0, none, false, 0, 0, false⟩]
     okB s [.bbwait 0 8 9] = true ∧ s.sleeping = false) := by decide +kernel

/-- Cask 0 of `base` with two slots of 64 bytes. -/
def casked (c : Cask) : State := base.putTeam { base.team with casks := [(0, c)] }

/-- A cask laid out to the team's last byte; its slots in every state, from the group's and from the sequencer's side. -/
theorem witness_CaskResults :
    base.gpGuard 0 = true ∧ base.cur.kind = .root ∧ base.cur.team = 0 ∧ 0 < base.job.casks ∧ 256 ≤ base.team.bytes ∧
    (let s := setG base 8 (base.team.bytes - 192 + 2 ^ 19 + 64 * 2 ^ 27)
     let x := (s.cur.gGet 8).toNat
     okB s [.ckinit 0 8 0] = true ∧ x < 2 ^ 45 ∧ bitsOf x 18 0 % 64 = 0 ∧ bitsOf x 44 27 = 64 ∧ bitsOf x 26 19 + 1 = 2 ∧
     bitsOf x 18 0 + roundUp (8 * 2) 64 + 2 * 64 = s.team.bytes ∧ (look s.team.casks 0).isNone) ∧
    (let s := casked ⟨0, 2, 64, 1, 0, [.filled, .free], [(0, 5)]⟩
     okB s [.ckres 0 10 0 0, .ckacq 0 10 0 0] = true ∧ (look s.team.casks 0).isSome ∧
     (look s.team.casks 0).map (fun k => (k.st.getD k.rp .free, k.st.getD k.ap .free, look k.failed k.ap)) = some (.free, .filled, some 5)) ∧
    (let s := setG (casked ⟨0, 2, 64, 0, 0, [.reserved, .acquired], []⟩) 11 1
     okB s [.ckres 0 10 0 0, .ckpub 0 10 0 0, .ckrel 0 11 0 0, .ckacq 0 10 0 0] = true ∧ (s.cur.gGet 11).toNat = 1 ∧ (s.cur.gGet 10).toNat = 0 ∧
     (look s.team.casks 0).map (fun k => (k.st.getD k.rp .free, k.st.getD k.ap .free, k.st.getD 1 .free)) = some (.reserved, .reserved, .acquired)) ∧
    (baseSeq.cur.kind = .seq ∧ baseSeq.gpGuard 0 = true ∧ okB baseSeq [.ckres 0 10 0 0, .ckpub 0 10 0 0, .ckacq 0 10 0 0, .ckrel 0 10 0 0] = true ∧
     (baseSeq.job.lcoreOf (8 * baseSeq.cur.grp + 0)).team = some 0 ∧ (baseSeq.job.lcoreOf (8 * baseSeq.cur.grp + 0)).core.isSome) := by decide +kernel

/-- The strip of the worked SPAWN ends where its arenas do; one byte less of heap, of log, and no room in the deque; a bad entry; JOIN with a child and
without, and over two views of a reducer; the allocations fill their strips, and want a byte more. -/
theorem witness_TaskResults :
    base.othersParked = true ∧ base.lowestPc = true ∧ base.gpGuard 0 = true ∧ base.raceDue = none ∧
    okB base [.spawn 0 11 9 12, .join 0, .allocHeap 0 10 11, .allocLog 0 10 11] = true ∧
    (let s := setG (setG (setG (setG (setG (setG (base.setCur { base.cur with pdh := 0x0A10400000000000#64 })
       91 0x1001010010) 92 0x1001010080) 93 0x1001011000) 94 0x1001011040) 9 0x10000) 11 0x0000004000000030
     badTarget (s.cur.gGet 9) = false ∧ (spawnPedigree s.cur.pdh s.cur.pdl).isSome ∧ (joinPedigree s.cur.pdh s.cur.pdl).isSome ∧ s.dequeRoom s.cur.core = true ∧
     roundUp 0x1001010010 64 + roundUp 0x30 64 = (s.cur.gGet 92).toNat ∧ roundUp 0x1001011000 64 + roundUp 0x40 64 = (s.cur.gGet 94).toNat ∧
     s.cur.children = 0 ∧ s.cur.views = [] ∧ s.cur.childViews = [] ∧
     ((setG s 92 0x100101007F).cur.gGet 92).toNat < roundUp 0x1001010010 64 + roundUp 0x30 64 ∧
     ((setG s 94 0x100101103F).cur.gGet 94).toNat < roundUp 0x1001011000 64 + roundUp 0x40 64 ∧
     ({ s with deques := [(s.cur.core, List.replicate 256 ⟨1, 0, 2, 1, 0x10000#64, 42, 0, 0, 0, 0, 0, 0, 0, 0, 0, false⟩)] } : State).dequeRoom s.cur.core = false ∧
     badTarget ((setG s 9 0x0200000000000000).cur.gGet 9) = true) ∧
    (let vs : List View := [⟨3, 1, 0#64, 8, 9⟩, ⟨3, 0, 0x20100#64, 8, 7⟩]
     let s := (base.putJob { base.job with redDescs := [(3, leBytes 8 0x20100 ++ [8#8, 0#8, 0#8, 3#8] ++ leBytes 4 0)] }).setCur { base.cur with views := [⟨3, 0, 0x20100#64, 8, 7⟩], childViews := [⟨3, 1, 0#64, 8, 9⟩] }
     (vs.map View.key).Nodup ∧ vs.Perm (s.cur.views ++ s.cur.childViews) ∧ (s.joinMerge.2.map (fun v => (v.red, v.ord, v.key))) = [(3, 0, 7)] ∧
     redSize ((look s.job.redDescs 3).getD []) / groupWidth (redType ((look s.job.redDescs 3).getD [])) = 2) ∧
    (let v : View := ⟨3, 0, 0x01FF000000001000#64, 8, 7⟩
     let s := (spoilt (viewLoc 7 0)).setCur { base.cur with views := [v], childViews := [⟨3, 1, 0#64, 8, 9⟩] }
     okB s [.join 0] = true ∧ s.raceDue = none ∧ s.cur.children = 0 ∧ v.inWindow = true ∧ 1 < ((s.cur.views ++ s.cur.childViews).filter (fun x => x.red == v.red)).length ∧
     s.mergeParked.poisoned (viewLoc v.key 0) v.size = true ∧ base.mergeParked.poisoned (viewLoc v.key 0) v.size = false) ∧
    (let s := setG (setG (setG (setG (setG base 91 0x20000) 92 0x20020) 93 0x20000) 94 0x20030) 11 20
     (s.cur.gGet 91).toNat + roundUp 20 16 = (s.cur.gGet 92).toNat ∧ (s.cur.gGet 93).toNat + roundUp 20 16 + 16 = (s.cur.gGet 94).toNat ∧
     ((setG s 92 0x2001F).cur.gGet 92).toNat < (s.cur.gGet 91).toNat + roundUp 20 16 ∧ ((setG s 94 0x2002F).cur.gGet 94).toNat < (s.cur.gGet 93).toNat + roundUp 20 16 + 16 ∧
     s.ops = [] ∧ landsB s.mergeParked .store 0x20000#64 8 0x20000 = true ∧ landsB s.mergeParked .store 0x20008#64 8 0x20008 = true) := by decide +kernel

/-- A pedigree at its greatest rank; one whose encoding is full; one with room. -/
theorem witness_PedigreeRanks :
    base.othersParked = true ∧ base.lowestPc = true ∧ base.gpGuard 0 = true ∧ base.raceDue = none ∧ okB base [.spawn 0 11 9 12, .join 0] = true ∧
    badTarget 0x10000#64 = false ∧
    (let p := (pedEncode [(0, 0), (1049635, 1049635)]).getD (0, 0)
     let s := base.setCur { base.cur with pdh := p.1, pdl := p.2 }
     pedigree s.cur.pdh s.cur.pdl = [(0, 0), (1049635, 1049635)] ∧ pedEncode [(0, 0), (1049635, 1049635)] = some (s.cur.pdh, s.cur.pdl)) ∧
    (let l := (List.range 20).map (fun _ => (0, 0))
     let p := (pedEncode l).getD (0, 0)
     pedigree p.1 p.2 = l ∧ pedEncode l = some p ∧ pedEncode (l ++ [(0, 0)]) = none) ∧
    (let p := (pedEncode [(5, 7), (3, 35)]).getD (0, 0)
     pedigree p.1 p.2 = [(5, 7), (3, 35)] ∧ pedEncode [(5, 7), (3, 35)] = some p) := by decide +kernel

/-- A descriptor of 4096 bytes, new and declared before; its view, held, held without a place, new, and without room, in and out of a handler; a task. -/
theorem witness_ReducerResults :
    base.othersParked = true ∧ base.lowestPc = true ∧ base.gpGuard 0 = true ∧ base.cur.kind = .root ∧ 15 < base.job.reducers ∧
    okB base [.rdecl 0 8 0, .rdecl 0 8 15, .rview 0 10 15] = true ∧
    (let d := leBytes 8 0x20100 ++ [0#8, 0x10#8, 0#8, 3#8] ++ leBytes 4 0
     let s := setG { (base.putTeam { base.team with bytes := 4096 }).putJob { base.job with pkt := (base.job.pkt.set 14 0).set 13 0x10 } with mem := memPut base.mem 0x20000 d } 8 0x20000
     s.bytesAt 0x20000 16 = d ∧ redDescOk d = true ∧ redSize d = 4096 ∧ ordinaryB s.mergeParked .load 0x20000#64 16 = true ∧ landsB s.mergeParked .load 0x20000#64 16 0x20000 = true ∧
     (look s.job.redDescs 15).isNone ∧
     (let t := (s.putJob { s.job with redDescs := [(15, d)] }).setCur { s.cur with reds := [15] }
      t.mergeParked.declared 15 = true ∧ look t.job.redDescs 15 = some d ∧
      t.cur.views.find? (fun v => v.red == 15 && v.ord == t.cur.seg) = none ∧ (t.mergeParked.viewPlace 4096).isSome ∧
      (t.setCur { t.cur with views := [⟨15, t.cur.seg, 0x20100#64, 4096, 9⟩] }).mergeParked.declared 15 = true ∧
      (let w := t.setCur { t.cur with views := [⟨15, t.cur.seg, 0#64, 4096, 9⟩] }
       w.mergeParked.declared 15 = true ∧ okB w [.rview 0 10 15] = true ∧ (w.mergeParked.viewPlace 4096).isSome ∧
       (base.setCur { base.cur with kind := .task }).cur.kind = .task ∧ (Instr.rdecl 0 8 0).fieldsOk = true) ∧
      (let u := t.putTeam { t.team with bytes := 524288 }
       u.mergeParked.declared 15 = true ∧ okB u [.rview 0 10 15] = true ∧ u.mergeParked.viewPlace 4096 = none ∧
       (let h := u.setCur { u.cur with handler := some (0, 1) }
        h.mergeParked.declared 15 = true ∧ okB h [.rview 0 10 15] = true ∧ h.mergeParked.viewPlace 4096 = none)))) := by decide +kernel

/-- A strand with another split, in and out of a handler; with a stacked path and a free entry, and with none; a handler's last split; the last split of a task, of a stolen task, of a sequencer, of a group that leaves its
team's other groups, an operation in flight, and nothing. -/
theorem witness_StrandEnds :
    okB base [.exit 0] = true ∧ base.gpGuard 0 = true ∧ base.raceDue = none ∧ base.cur.handler = none ∧ base.cur.splits.length = 1 ∧ base.cur.stack = [] ∧
    base.cur.children = 0 ∧ base.cur.spawned = 0 ∧ base.cur.laneOwed = none ∧ base.cur.kind = .root ∧ look base.jobs base.cur.job = some base.job ∧ base.job.id = base.cur.job ∧
    look base.teams (teamKey base.cur.job base.cur.team) = some base.team ∧ base.team.job = base.cur.job ∧ base.team.idx = base.cur.team ∧ base.team.live = 1 ∧
    base.ops.any (fun o => o.inFlight base.cur.job base.cur.team) = false ∧
    (let s := after (.cpy 1 8 10 12) (setV2 (setV2 (setP base 1 1) 8 (fun _ => 0x20100)) 10 (fun _ => 0x20000))
     s.ops.any (fun o => o.inFlight s.cur.job s.cur.team) = true ∧ 0 < s.team.live ∧ okB s [.exit 0] = true) ∧
    (let s := withSplits [⟨0, 0x10000#64, 0xFFFF#32, .ready, none, false, 0, 0, false⟩, ⟨1, 0x10000#64, 0xFFFF0000#32, .ready, none, false, 0, 0, false⟩]
     1 < s.cur.splits.length ∧ okB s [.exit 0] = true ∧ okB (s.setCur { s.cur with handler := some (0, 1) }) [.exit 0] = true ∧
     (let t := s.setCur { s.cur with stack := [⟨0x10040#64, 3#32⟩] }
      okB t [.exit 0] = true ∧ t.cur.stack ≠ [] ∧ (t.cur.splits.filter (fun x => x.entry != t.split)).length < 4)) ∧
    (let s := withSplits ((List.range 5).map (fun k => ⟨k, 0x10000#64, 1#32, .ready, none, false, 0, 0, false⟩))
     4 ≤ (s.cur.splits.filter (fun x => x.entry != s.split)).length ∧ okB s [.exit 0] = true) ∧
    (let s := base.setCur { base.cur with handler := some (0, 1) }
     s.cur.handler.isSome ∧ s.cur.splits.length ≤ 1 ∧ s.cur.stack = [] ∧ s.cur.children = 0 ∧ s.cur.spawned = 0 ∧ okB s [.exit 0] = true ∧ s.gpGuard 0 = true) ∧
    (let s := base.setCur { base.cur with kind := .task, gid := 9, parent := 2, rank := 1 }
     let p : Group := { Group.blank with gid := 2, kind := .root, job := 1, children := 1 }
     p.job = s.cur.job ∧ s.groupOf s.cur.parent = none ∧ okB { s with groups := [(2, p)] } [.exit 0] = true ∧ s.cur.stolen = false ∧ s.cur.gid ≠ s.cur.parent ∧ look ({ s with groups := [(2, p)] } : State).groups s.cur.parent = some p) ∧
    (let s := base.setCur { base.cur with kind := .task, stolen := true }
     okB s [.exit 0] = true) ∧
    okB baseSeq [.exit 0] = true ∧ baseSeq.cur.kind = .seq ∧ baseSeq.cur.splits.length ≤ 1 ∧ baseSeq.gpGuard 0 = true := by decide +kernel

/-- A descriptor of R207: counters 3 and none, threshold 2, KIND, staging cask 0 with `n` slots, 0x20100 to 0x20200. -/
def descriptor (kind n : Nat) : List Byte :=
  leBytes 4 0xFFF8C3 ++ leBytes 4 0xFFFFFFFF ++ leBytes 8 2 ++ [BitVec.ofNat 8 kind, 0#8, 0#8, 0#8, BitVec.ofNat 8 n] ++ List.replicate 3 0#8 ++
    leBytes 8 0x20100 ++ leBytes 8 0x20200 ++ leBytes 8 4 ++ List.replicate 16 0#8

/-- Copies of one lane, of none, with the footprint table full; a tile copy in both directions; TRIG of a broken descriptor, with free slots
and without. -/
theorem witness_EngineIssue :
    (let s := setP base 1 1
     okB s [.cpy 1 8 10 12, .cpy 2 8 10 12, .cpyr 1 8 10 12, .cpyt 0 8 10 12, .tsrf 0] = true ∧ s.active 1 = 1#32 ∧ s.active 2 = 0#32 ∧ s.gpGuard 0 = true ∧
     s.coRef 0 = .at 0 0 ∧ s.coRef (2 ^ 19 - 8) = .at 0 (2 ^ 19 - 8) ∧ coCpyOk (2 * 2 ^ 19) = true ∧ coCpyrOk (4 * 2 ^ 21 + 3 * 2 ^ 24) = true ∧ coCpytOk (2 ^ 27) = true ∧ coCpytOk 0 = true ∧
     (s.ops.filter (fun o => o.core == s.cur.core)).length < 16 ∧
     (let o : EngOp := ⟨9, 1, 0, 2, s.cur.core, .slot 0 0, 0, 0, false, 0#64, 0#64, [], [], 0, 0, [], [], []⟩
      let t := { s with ops := List.replicate 16 o }
      base.poisoned (scratchLoc 1 0 0) 8 = false ∧ (setP (spoilt (scratchLoc 1 0 0)) 1 1).poisoned (scratchLoc 1 0 0) 8 = true ∧
      okB (setP (spoilt (scratchLoc 1 0 0)) 1 1) [.cpy 2 8 10 12, .cpyr 2 8 10 12] = true ∧
      ¬(t.ops.filter (fun o => o.core == t.cur.core)).length < 16 ∧ okB t [.cpy 1 8 10 12, .cpyr 1 8 10 12, .cpyt 0 8 10 12] = true)) ∧
    (let s := setG { casked ⟨0, 2, 64, 1, 0, [.free, .free], []⟩ with mem := memPut base.mem 0x20000 (descriptor 0 2) } 8 0x20000
     okB s [.trig 0 1 8] = true ∧ (s.cur.gGet 8).toNat % 64 = 0 ∧ (s.cur.gGet 8).toNat / 2 ^ 48 < 0x1FF ∧
     (match s.target .load (s.cur.gGet 8) 64 with | .mem l a _ => l == 0x20000 && a == 0 | _ => false) = true ∧ s.bytesAt 0x20000 64 = descriptor 0 2 ∧
     s.descOk (descriptor 0 2) = true ∧ recField (descriptor 0 2) 20 1 = 2 ∧ 0 < s.job.casks ∧ s.cur.kind ≠ .task ∧ s.pendingOn (ctrEngine 0xFFF8C3) < 256 ∧
     s.descOk (descriptor 4 0) = false ∧ s.descOk (descriptor 2 0) = true ∧ s.descOk (descriptor 0 17) = false) ∧
    (let s := casked ⟨0, 2, 64, 1, 0, [.filled, .free], []⟩
     ((look s.team.casks 0).map (fun k => [1, 0].any (fun i => k.st.getD i .reserved != .free))) = some true) := by decide +kernel

/-- Whether a movement of one element is apart from itself. -/
def apartB (a : Aimed) : Bool :=
  a.cause == 0 && (a.elem.src.isNone || (match a.src with | .mem _ _ _ => true | _ => false)) &&
  (match a.dst, a.src with
   | .mem d _ _, .mem x _ _ => a.elem.src.isNone || decide (d + a.elem.n ≤ x) || decide (x + a.elem.n ≤ d)
   | .mem _ _ _, _ => a.elem.src.isNone
   | _, _ => false)

theorem apartOne {a : Aimed} (h : apartB a = true) : Apart [a] := by
  intro i b hi
  have i0 : i = 0 := by
    by_contra hne
    rw [List.getElem?_eq_none (by simp; omega)] at hi
    cases hi
  subst i0
  obtain rfl : a = b := by simpa using hi
  simp only [apartB, Bool.and_eq_true, Bool.or_eq_true] at h
  obtain ⟨⟨hc, hs⟩, hd⟩ := h
  refine ⟨by simpa using hc, fun hsome => ?_, ?_⟩
  · rcases hs with hn | hm
    · rw [Option.isNone_iff_eq_none.mp hn] at hsome; exact Bool.noConfusion hsome
    · cases hx : a.src with
      | mem x y z => exact ⟨x, y, z, rfl⟩
      | _ => rw [hx] at hm; exact Bool.noConfusion hm
  · cases hx : a.dst with
    | mem dl at' sc =>
      refine ⟨dl, at', sc, rfl, fun k b hk => ?_⟩
      have k0 : k = 0 := by
        by_contra hne
        rw [List.getElem?_eq_none (by simp; omega)] at hk
        cases hk
      subst k0
      obtain rfl : a = b := by simpa using hk
      refine ⟨fun x y z hsome hsrc => ?_, fun _ _ _ hne => absurd rfl hne⟩
      rw [hx, hsrc] at hd
      have hn : a.elem.src.isNone = false := by rw [Option.isNone_eq_false_iff]; exact hsome
      simpa [hn, NoOverlap] using hd
    | _ => rw [hx] at hd; cases hs' : a.src <;> simp_all

/-- One operation in flight, with its barrier at the team's offset 0x100. -/
def flying (k : OpKind) : State := { base with ops := [⟨9, 1, 0, 2, 0, k, 0, 0x100, false, 0#64, 0#64, [], [(0x20200, 4)], 0, 0, [], [], []⟩] }

/-- A record of one dimension of 4 FP32 elements at 0x20100, box of 1. -/
def tensor : List Byte := leBytes 8 0x20100 ++ [1#8, 1#8, 0#8, 0#8] ++ leBytes 4 4 ++ List.replicate 36 0#8 ++ leBytes 2 1 ++ List.replicate 10 0#8

/-- One armed operation that has fired. -/
def fired (kind rop rtype cctr : Nat) (src dst : W64) (slots : List Nat) : Armed :=
  ⟨9, 0, 2, 0, 0x20000#64, 0xFFF8C3, cctr, 2, kind, rop, rtype, src, dst, 4, 0, slots, false, 0, 0#64, 0#64, true, [], []⟩

theorem witness_EngineEvents :
    (let s := flying (.copy [(0x20100#64, 0x20200#64)] 4)
     (s.ops.find? (fun o => o.id == 9)).isSome ∧ opsBefore s.ops 9 = [] ∧ (look s.teams (teamKey 1 0)).map Team.resident = some true ∧
     s.Records ∧ ∀ o ∈ s.ops, ∀ e ∈ laneElems 0x20100#64 0x20200#64 4 4 0 0, apartB (s.aim (s.opMover o) .copy .copy e) = true) ∧
    (let s := flying (.reduce [(0x01FF000000000200#64, 0x20200#64)] [(31, 0)] 4 4 3)
     ∀ o ∈ s.ops, ∀ e ∈ laneElems 0x01FF000000000200#64 0x20200#64 4 (groupWidth 3) 31 0, apartB (s.aim (s.opMover o) .reduceSrc .reduceDst e) = true) ∧
    (let s := { flying (.tile 0x20000#64 0x01FF000000000200#64 3#64 0 0) with mem := memPut base.mem 0x20000 tensor }
     s.recordMark = 0 ∧ s.bytesAt 0x20000 64 = tensor ∧ recOk tensor 3#64 = true ∧
     (∀ o ∈ s.ops, (match (s.record (s.opMover o) 0x20000#64 0).1 with | .mem l _ _ => l == 0x20000 | _ => false) = true) ∧
     (∀ o ∈ s.ops, ∀ e ∈ boxElems tensor 3#64 0x01FF000000000200#64 0, apartB (s.aim (s.opMover o) .tensor .dense e) = true) ∧
     (∀ o ∈ s.ops, ∀ e ∈ boxElems tensor 3#64 0x01FF000000000200#64 1, apartB (s.aim (s.opMover o) .dense .tensor e) = true)) ∧
    (let a := fired 0 0 0 0xFFFFFFFF 0x20100#64 0x20200#64 [1]
     let s := base.putJob { base.job with armed := [a] }
     s.Records ∧ (s.jobs.findSome? (fun p => (p.2.armed.find? (fun a => a.id == 9 && a.fired)).map (fun a => (p.2, a)))).map Prod.snd = some a ∧
     (∀ e ∈ a.pieces 4, apartB (s.aim (s.armedMover 1 a) .copy .copy e) = true) ∧
     (∀ e ∈ (fired 1 4 3 0xFFFFFFFF 0x01FF000000000200#64 0x20200#64 []).pieces 4, apartB (s.aim (s.armedMover 1 a) .reduceSrc .reduceDst e) = true) ∧
     apartB (s.aim (s.armedMover 1 a) .copy .signal ⟨none, 7, 0x20200#64, 8, true, 0, 0⟩) = true ∧
     s.ctrHere 0xFFF8C3 = true ∧ s.ctrHere (2 ^ 11) = false ∧ s.job.det = false) := by
  unfold State.Records
  decide +kernel

/-- Floating-point adds of a reduction under DET, of an engine and of an armed operation, with room in the arena; under DETC. -/
theorem witness_EngineEvents_deferred :
    (let o : EngOp := ⟨9, 1, 0, 2, 0, .reduce [(0x01FF000000000200#64, 0x20200#64)] [(31, 0)] 4 0 0, 0, 0x100, false, 0#64, 0#64, [], [(0x20200, 4)], 0, 0, [], [], []⟩
     let a := fired 1 0 0 0xFFFFFFFF 0x01FF000000000200#64 0x20200#64 []
     let s := { det with mem := memPut det.mem 0x40018 (leBytes 8 0x10000), ops := [o] }
     let toward := fun x : Aimed => x.cause == 0 && x.elem.src.isSome && (match x.src with | .mem _ _ _ => true | _ => false) &&
       (match x.dst with | .mem _ at' false => decide (at' < 2) | _ => false)
     s.ops.find? (fun o => o.id == 9) = some o ∧ look s.jobs 1 = some s.job ∧ s.job.id = 1 ∧ s.job.det = true ∧ s.job.detc = false ∧
     (det.putJob { det.job with pkt := det.job.pkt.set 2 16 }).job.detc = true ∧
     (laneElems 0x01FF000000000200#64 0x20200#64 4 (groupWidth 0) 31 0).map (fun e => toward (s.aim (s.opMover o) .reduceSrc .reduceDst e)) = [true] ∧
     (a.pieces (groupWidth 0)).map (fun e => toward (s.aim (s.armedMover 1 a) .reduceSrc .reduceDst e)) = [true] ∧
     48 * (s.job.adds.length + s.job.partials.length + 1) ≤ s.arenaSize s.job 24) := by decide +kernel

/-- With no element moved before and with its one; a launch that runs and one that has ended. -/
theorem witness_EngineEvents_early :
    (let a := fired 0 0 0 0xFFFFFFFF 0x20100#64 0x20200#64 [1]
     let s := base.putJob { base.job with armed := [a] }
     let l := (a.pieces 4).map (s.aim (s.armedMover 1 a) .copy .copy)
     (leftOf a.early l).length = 1 ∧ (leftOf [0] l).length = 0 ∧ s.jobOver 1 = false ∧ (s.putJob { s.job with phase := .ending 1 }).jobOver 1 = true) := by
  decide +kernel

/-- The one element of a copy of 4 bytes reads and writes apart. -/
theorem witness_EngineEvents_apart (m : Mover) (h : apartB ((flying (.slot 0 0)).aim m .copy .copy ⟨some 0x20100#64, 0, 0x20200#64, 4, true, 0, 0⟩) = true) :
    Apart ((laneElems 0x20100#64 0x20200#64 4 4 0 0).map ((flying (.slot 0 0)).aim m .copy .copy)) := by
  have e : laneElems 0x20100#64 0x20200#64 4 4 0 0 = [⟨some 0x20100#64, 0, 0x20200#64, 4, true, 0, 0⟩] := by decide +kernel
  rw [e]
  exact apartOne h

/-- `baseSeq` with its descriptor in g20 and the register behind it set. -/
def matrix (e : Engine) (d x : Nat) : State := setG (setG (baseSeq.putEngine e) 20 d) 21 x

/-- Slices of zeros. -/
def zeros (n : Nat) : List Slice := List.replicate n (List.replicate 32 0#32)

/-- INT8 rows of one slice, 32 by 512, from the A buffer, the scratchpad and mqa, columns from the B store and mqb; an index list. -/
theorem witness_MatrixProducts :
    baseSeq.gpGuard 0 = true ∧ look baseSeq.jobs baseSeq.cur.job = some baseSeq.job ∧ baseSeq.job.id = baseSeq.cur.job ∧
    okB baseSeq [.mma 0 10 10 0 20, .mma 0 10 10 1 20, .mmag 0 10 10 0 20, .mma 0 0 0 0 20] = true ∧
    (let D := 31 + 511 * 2 ^ 5 + 127 * 2 ^ 14 + 2 ^ 21 + 2 ^ 23
     let s := matrix { Engine.start with mqb := zeros 512 } D 0
     (s.cur.gGet 20).toNat = D ∧ s.mmaOk 10 10 20 D false = true ∧ s.engine.progress = 0 ∧ s.engine.taken = [] ∧ s.engine.mqa = [] ∧ mdN D * rowSlices 10 ≤ s.engine.mqb.length) ∧
    (let D := 127 * 2 ^ 14 + 2 * 2 ^ 21 + 49024 * 2 ^ 24 + 255 * 2 ^ 40
     let s := matrix Engine.start D 0x01FF100000000000
     s.mmaOk 10 10 20 D false = true ∧ s.operandRef (s.cur.gGet 21).toNat 128 = .at 0 0 ∧ s.operandRef 0x01FF100000000000 256 = .at 0 0 ∧ s.operandAfter 0 0 128 = none ∧
     s.poisoned (scratchLoc 1 0 0) 128 = false) ∧
    (let D := 127 * 2 ^ 14 + 2 ^ 23
     let s := matrix { Engine.start with mqa := zeros 2, mqb := zeros 1 } D 0
     s.mmaOk 10 10 20 D true = true ∧ 2 ≤ s.engine.mqa.length ∧ (∀ sl ∈ s.engine.mqa, sl.length = 32) ∧
     indexList (0#8 :: 127#8 :: List.replicate 126 0xFF#8) 128 = some [0, 127]) := by decide +kernel

/-- MSCA of both banks, scaled from mqs and from scratchpad and not; MZERO; MDRN with room and without. -/
theorem witness_MatrixAccumulate :
    baseSeq.gpGuard 0 = true ∧ okB baseSeq [.msca 0 0 7 20, .msca 0 1 0 20, .msca 0 10 0 20, .mzero 0 7, .mdrn 0 1 7 20, .mdrn 0 3 0 20] = true ∧
    (let B : Bank := ⟨true, 0, 32, 512, 0, []⟩
     let s := matrix { Engine.start with bank0 := B, bank1 := B, mqs := zeros 2 } 4 0x01FF100000000000
     B.valid = true ∧ B.tag = scaTag 1 ∧ B.n ≤ 512 ∧ s.engine.bank1 = B ∧ s.engine.bank0 = B ∧ 2 ≤ s.engine.mqs.length ∧ s.engine.progress = 0 ∧ s.engine.taken = [] ∧
     s.operandRef (s.cur.gGet 21).toNat 256 = .at 0 0 ∧ s.operandAfter 0 0 256 = none ∧ s.poisoned (scratchLoc 1 0 0) 256 = false) ∧
    scaTag 0 = 1 ∧ scaTag 10 = 2 ∧
    (let s := matrix Engine.start (511 * 2 ^ 5 + 2 ^ 14) 0
     bitsOf (511 * 2 ^ 5 + 2 ^ 14) 55 15 = 0 ∧ (s.engine.drainRow 1 0 512).length = 16 ∧ 16 - s.engine.mqo.length = 16 ∧
     ((matrix { Engine.start with mqo := zeros 1 } (511 * 2 ^ 5) 0).engine.drainRow 1 0 512).length - 0 > 16 - 1) := by decide +kernel

/-- The slices of the worked column (11 R228) in mqb, the A rows in the buffer, in scratchpad and in mqa; an empty column of the B store. -/
theorem witness_MatrixColumns :
    (let words := [0x00040002, 9, 0x3800, 0xFF000202, 0xFFFF0111, 0xFF, 0xC000, 0xFFFF0400, 0xFF]
     let sl : Slice := words.map (BitVec.ofNat 32) ++ List.replicate 23 0#32
     let D := 300 * 2 ^ 48 + 2 ^ 23 + 2 ^ 21
     let s := matrix { Engine.start with mqb := [sl] } D 0
     let word := fun k => ([sl][k / 32]?).map (fun sl => sl.getD (k % 32) 0#32)
     okB s [.mmav 0 1 4 0 20] = true ∧ s.gpGuard 0 = true ∧ s.engine.progress = 0 ∧ s.engine.taken = [] ∧ s.bst = true ∧ mdK D = 1 ∧ mdM D ≤ 8 ∧ mdLoc D % 4 = 0 ∧ 0 < mdKV D ∧
     128 * ((rowLen 1 (mdKV D) + 127) / 128) * mdM D ≤ 262144 ∧ mdA D = 1 ∧ mdB D = 1 ∧
     (match vgRow word 4 (mdKV D) (s.sliceLimit - mdLoc D) with | .ok l => l.length | _ => 0) = 2 ∧ (((word 1).getD 0#32).toNat + 31) / 32 = 1 ∧
     (matrix Engine.start D 0x01FF100000000000).operandRef 0x01FF100000000000 1280 = .at 0 0 ∧
     (matrix Engine.start D 0x01FF100000000000).operandAfter 0 0 1280 = none ∧ s.poisoned (scratchLoc 1 0 0) 1280 = false) ∧
    (let D := 1 * 2 ^ 48
     let s := matrix { Engine.start with mqa := zeros 1 } D 0
     let t := { s with mem := memPut (memPut s.mem (columnLoc 0 0 0) (leBytes 4 0x00040000)) (columnLoc 0 0 4) (leBytes 4 2) }
     mdB D = 0 ∧ mdA D = 0 ∧ 128 * ((rowLen 1 1 + 127) / 128) / 128 ≤ s.engine.mqa.length ∧ (∀ sl ∈ s.engine.mqa, sl.length = 32) ∧
     (match vgRow (t.columnWord D 0) 4 1 (t.sliceLimit - mdLoc D) with | .ok l => l.length | _ => 9) = 0) := by decide +kernel

/-! ### The device -/

/-- A created queue, idle. -/
def queueOf (q : Queue) : State := { ready with queues := [(3, q)] }

/-- The limits of each command, with the ring free and behind another command; a sent page request of every owner. -/
theorem witness_CommandResults :
    ready.commands = [] ∧ ready.inRecovery = false ∧ State.reset.inRecovery = true ∧ ready.Records ∧
    (3 < 16384 ∧ look ready.queues 16383 = none ∧ (65536 : Nat) = 2 ^ 16 ∧ (16 : Nat) = 2 ^ 4 ∧ ready.isPartition [0] = true ∧ ready.isPartition [2, 3] = true ∧
      ready.isPartition [0, 1, 2, 3] = true ∧ ready.isPartition [1, 2] = false ∧ (∀ k, 4 ≤ k → k ≤ 16 → 24 ≠ 2 ^ k) ∧ 0x1008 % 8 = 0 ∧ 0x1008 % 4096 ≠ 0 ∧
      base.plainWord base.job.root 0x20008 = true ∧ base.plainWord base.job.root 0x10000000008 = true ∧ base.plainWord base.job.root 0x01FF000000000000 = false ∧
      ({ base with mem := memPut base.mem (soloRoot + 0x2000) (leBytes 8 47) } : State).plainWord base.job.root 0x20008 = false) ∧
    (let x := Queue.blank
     look (queueOf x).queues 3 = some x ∧ x.started = [] ∧ look (queueOf { x with started := [1] }).queues 3 = some { x with started := [1] }) ∧
    (let r : PageReq := ⟨0, 0x20000, 0#64, 3, 1, true, [.device 7]⟩
     let s : State := { ready with reqs := [r] }
     s.reqs.find? (fun r => r.id == 0 && r.sent) = some r ∧ s.reqs.find? (fun r => r.id == 1 && r.sent) = none ∧ r.owners = [.device 7] ∧
     ({ ready with reqs := [{ r with sent := false }] } : State).reqs.find? (fun r => r.id == 0 && r.sent) = none) ∧
    (let r : PageReq := ⟨0, 0x20000, 0#64, 3, 1, true, [.group 2]⟩
     let s : State := { base with reqs := [r] }
     s.commands = [] ∧ s.inRecovery = false ∧ s.reqs.find? (fun r => r.id == 0 && r.sent) = some r ∧ r.owners = [.group 2] ∧ s.groupOf 2 = some s.cur ∧
     look s.jobs s.cur.job = some s.job ∧ s.job.id = s.cur.job ∧ s.job.phase = .running ∧ s.job.recorded = false ∧
     pageAt s (keyRecord s.job.id) (s.job.trapArea + 64) true = some (0x20040, 0)) := by
  refine ⟨by decide, by decide, by decide, by unfold State.Records; decide, ⟨by decide, by decide, by decide, by decide, by decide, by decide, by decide, by decide, ?_, by decide, by decide, by decide +kernel, by decide +kernel, by decide +kernel, by decide +kernel⟩,
    by decide, by decide, by decide +kernel⟩
  intro k _ h16
  have h : ∀ k < 17, 24 ≠ 2 ^ k := by decide
  exact h k (by omega)

/-- A doorbell at H + D and past it; register windows; both ends of an access; a request to put in the ring. -/
theorem witness_HostAccesses :
    ready.inRecovery = false ∧ (look (queueOf Queue.blank).queues 3).map (fun x => x.head + x.size) = some 16 ∧ look ready.queues 3 = none ∧
    (ready.isMmio 0x1000 = false ∧ ready.isMemory 0x1000 = true ∧ ready.isMemory (0x1000 + 8 - 1) = true ∧ ready.isMmio 0xC0000010000 = true) ∧
    (0x10000 ≤ 0x2FFF8 ∧ 0x2FFF8 < 0x30000 ∧ 0x2FFF8 % 8 = 0 ∧ 0x40000 ≤ 0x4FFFC ∧ 0x4FFFC < 0x50000) ∧
    (let r : PageReq := ⟨0, 0x20000, 0#64, 3, 1, false, [.device 7]⟩
     ({ ready with reqs := [r] } : State).reqs.find? (fun y => !y.sent) = some r ∧ 
     (let s := after (.registerWrite (requestRing + 8) 8 16#64) (after (.registerWrite requestRing 8 0x1000#64) ready)
      s.ringTail requestRing = 0 ∧ s.ringTail requestRing < s.ringHead requestRing + s.ringSize requestRing ∧ s.ringBase requestRing = 0x1000 ∧
      s.isMemory 0x1000 = true ∧ s.isMemory (0x1000 + 31) = true) ∧ ¬ ready.ringTail requestRing < ready.ringHead requestRing + ready.ringSize requestRing) ∧
    (State.reset.inRecovery = true ∧ State.reset.isMemory 0x80000000000 = true ∧ State.reset.isMmio 0x80000000000 = false ∧
      0x80000000000 ≤ 0x80000000000 % 2 ^ 44 ∧ ¬ 0x80000000000 ≤ 0x1000 % 2 ^ 44 ∧ State.reset.isMemory 0x1000 = true) := by decide +kernel

/-- A nonce of 32 bytes in a booted device; the last module and die. -/
theorem witness_BootAndMonitors :
    (List.replicate 32 7#8).length = 32 ∧ ready.boot = .ready ∧ 7 < 8 ∧ 3 < ready.dies ∧ ready.Inv ∧ ready.Records ∧
    (∀ t, exec (.linkTraining 0 false) ready = .next t → t.links = []) := by
  refine ⟨by decide, by decide, by decide, by decide, by unfold State.Inv; decide, by unfold State.Records; decide, ?_⟩
  intro t h
  cases h
  decide

/-- The smallest launch's page table with queue 3: its packet read, its tap bound; `p` its packet. -/
def tapped (p : List Byte) : State :=
  { base with
    cur := Group.blank, teams := [], jobs := [], groups := []
    queues := [(3, { Queue.blank with root := BitVec.ofNat 64 soloRoot, dies := [0], ring := 0x30000#64, headva := 0x31000#64, tail := 16, head := 1, packet := some (0, p), tap := some (511, 0) })] }
/-- `tapped` before its packet is read, with the packet in the ring. -/
def ringed (p : List Byte) : State :=
  { tapped p with mem := memPut base.mem 0x30000 p, queues := (tapped p).queues.map (fun x => (x.1, { x.2 with head := 0, packet := none })) }
/-- The page of ordinary memory that a device access reaches, for a root and a queue. -/
def pageOf (s : State) (key : Nat) (va : Nat) (w : Bool) : Option (Nat × Nat) :=
  match s.devPage key (BitVec.ofNat 64 soloRoot) 3 va w with | .page p => if s.isMmio p.pa then none else some (p.pa, p.attr) | _ => none
/-- A packet of a type with its words from byte 8 on. -/
def packet (type : Nat) (ws : List Nat) : List Byte := leBytes 4 (256 + type) ++ leBytes 4 0 ++ ws.flatMap (leBytes 8) ++ leBytes (8 * (15 - ws.length)) 0

/-- A packet of each type; a bad TYPE and VERSION; a publication; 512 pending queues and more; an ended launch with a signal and without;
a copy, both conditions of the two signals, a reserved bit, a timeout. -/
theorem witness_Packets_read :
    (let s := ringed (packet 4 [0x20000])
     s.inRecovery = false ∧ (match look s.queues 3 with | some x => !x.error && x.closing.isNone && x.packet.isNone && !x.publish && decide (x.head < x.tail) | none => false) = true ∧
     pageOf s (keyRing 3) (0x30000 + 128 * (0 % 16)) false = some (0x30000, 0) ∧ s.bytesAt 0x30000 128 = packet 4 [0x20000] ∧
     (look s.queues 3).map (fun x => s.written (x.mark x.head) 0x30000 128) = some false ∧ (s.queues.filter (fun y => s.pending y.2)).length ≤ 512 ∧
     (List.range 128).all (fun k => !s.isMmio (0x30000 + k)) = true ∧ s.queues.map (fun y => (y.1, y.2.tap, s.pending y.2)) = [(3, some (511, 0), true)] ∧
     leNat ((packet 5 []).take 1) = 5 ∧ leNat (((packet 257 []).drop 1).take 1) ≠ 1) := by decide +kernel

theorem witness_Packets_publish :
    (let s := { tapped [] with queues := (tapped []).queues.map (fun x => (x.1, { x.2 with publish := true })) }
     (look s.queues 3).map Queue.publish = some true ∧ pageOf s (keyHead 3) 0x31000 true = some (0x31000, 0) ∧ s.isMmio 0x31000 = false) := by decide +kernel

theorem witness_Packets_end :
    (let j : Job := { base.job with queue := 3, phase := .ending 4, pkt := (base.job.pkt.set 34 2) }
     let s : State := { tapped [] with jobs := [(1, j)], sel := 1, ops := [] }
     s.Records ∧ look s.jobs s.sel = some j ∧ s.allGroups.any (fun g => g.kind != .idle && g.job == j.id) = false ∧ j.armed = [] ∧ j.zero = [] ∧ j.lost = 0 ∧ s.commands = [] ∧
     j.field 0 1 = 1 ∧ j.field 32 8 = 0x20000 ∧ pageOf s (keySignal 1) 0x20000 true = some (0x20000, 0) ∧ s.isMmio 0x20000 = false ∧ base.job.field 32 8 = 0) := by
  unfold State.Records
  decide +kernel

/-- The job the front end runs on for a type, where a queue has one, and whether the packet read is ready to start. -/
def takenB (s : State) (type : Nat) : Option Nat × Bool :=
  match look s.queues 3 with
  | none => (none, false)
  | some x =>
    let runs := (x.started.filterMap (fun id => look s.jobs id)).filter (fun j => j.field 0 1 == type && j.phase == .running)
    let ready := x.packet.toList.filter (fun p => pktField p.2 0 1 == type && s.served 3 x)
    ((runs[s.pick (2 ^ 43 + 3) (runs.length + ready.length)]?).map Job.id, !ready.isEmpty)

/-- A packet of each type that starts, on a tap that stays and on one on its way out; one that runs; one that breaks a limit of its type. -/
theorem witness_Packets_taken :
    [2, 3, 4].all (fun t => takenB (tapped (packet t [0x20000])) t == (none, true)) = true ∧
    [2, 3, 4].all (fun t =>
      let s := tapped (packet t [0x20000])
      takenB { s with queues := s.queues.map (fun x => (x.1, { x.2 with leaving := true })) } t == (none, true)) = true ∧
    [2, 3, 4].all (fun t =>
      let s := tapped []
      takenB { s with
        jobs := [(9, { Job.blank with id := 9, pkt := packet t [0x20000], phase := .running })]
        queues := s.queues.map (fun x => (x.1, { x.2 with packet := none, started := [9] })) } t == (some 9, false)) = true ∧
    pktField (packet 2 [0, 0, 3]) 24 8 % 4 ≠ 0 ∧ 2 ^ 40 < pktField (packet 2 [0, 0, 2 ^ 40 + 4]) 24 8 ∧ 2 < pktField (packet 3 [0, 0, 3]) 24 1 ∧
    1 < pktField (packet 4 [0, 0, 2]) 24 1 := by decide +kernel

theorem witness_Packets_copy :
    (let b := packet 2 [0x20000, 0x20100, 4]
     let s := tapped b
     let j : Job := { Job.blank with id := s.nextId, pkt := b, root := BitVec.ofNat 64 soloRoot }
     (look s.queues 3).map (s.served 3) = some true ∧ pktReserved b = true ∧ pktReserved (packet 2 [0, 0, 0, 0, 1]) = false ∧ j.field 24 8 = 4 ∧
     (∀ e ∈ j.copyElems, apartB ((s.putJob j).aim ((s.putJob j).copyMover j) .packet .packet e) = true)) := by decide +kernel

theorem witness_Packets_wait :
    (let b := packet 3 [0x20000, 0, 2, 100]
     let j : Job := { Job.blank with id := 9, queue := 3, pkt := b, root := BitVec.ofNat 64 soloRoot, phase := .running }
     let s : State := { tapped b with jobs := [(9, j)], sel := 9, time := 100000 }
     pktReserved b = true ∧ j.field 24 1 ≤ 2 ∧ pageOf s (keyDep 9) (j.field 8 8) false = some (0x20000, 0) ∧ j.field 32 8 = 100 ∧ j.born + 1000 * 100 ≤ s.time ∧
     look s.jobs s.sel = some j ∧ (j.holds (s.natAt 0x20000 8)) = false ∧
     (match s.devPage (keyDep 9) j.root 3 0x10000000000 false with | .waits _ => true | _ => false) = true ∧
     (match ({ s with refused := [(keyDep 9, 0x10000000000)] } : State).devPage (keyDep 9) j.root 3 0x10000000000 false with | .refused _ _ => true | _ => false) = true ∧
     pageOf { s with mem := memPut s.mem (soloRoot + 0x2000) (leBytes 8 47) } (keyDep 9) 0x20000 false = some (0x20000, 2) ∧
     (s.heldSince j.mark 0x20000 8).any (fun w => j.holds (leNat w)) = false ∧
     (({ s with mem := memPut s.mem 0x20000 (leBytes 8 5) } : State).heldSince j.mark 0x20000 8).any (fun w => j.holds (leNat w)) = true ∧
     0x20001 % 8 ≠ 0 ∧ 0x1FF ≤ 0x01FF000000000000 / 2 ^ 48) := by decide +kernel

theorem witness_Packets_set :
    (let b := packet 4 [0x20000, 5, 1]
     pktReserved b = true ∧ pktField b 24 1 ≤ 1 ∧ pageOf (tapped b) (keyDep 1) 0x20000 true = some (0x20000, 0) ∧ (look (tapped b).queues 3).map ((tapped b).served 3) = some true) := by decide +kernel

/-- The packet of the smallest launch without a sequencer entry, with flags. -/
def launch (flags : Nat) : List Byte := leBytes 2 0x101 ++ leBytes 2 flags ++ (soloPacket.drop 4).take 60 ++ leBytes 8 0 ++ soloPacket.drop 72

/-- The state that has read a launch packet, its trap area of two slots. -/
def accepting (b : List Byte) : State := { tapped b with mem := memPut base.mem 0x20000 (leBytes 4 2) }
/-- The launch such a packet becomes, in a phase. -/
def launchOf (b : List Byte) (ph : Phase) : Job :=
  { Job.blank with id := (tapped b).nextId, queue := 3, pkt := b, root := BitVec.ofNat 64 soloRoot, dies := [0], phase := ph }

/-- A legal launch in the ring, and one whose trap area has no slots. -/
theorem witness_LaunchStart_read :
    (let b := launch 0
     let s := { ringed b with mem := memPut (ringed b).mem 0x20000 (leBytes 4 2) }
     let o : Job := { Job.blank with pkt := b, root := BitVec.ofNat 64 soloRoot }
     s.inRecovery = false ∧ (match look s.queues 3 with
      | some x => !x.error && x.closing.isNone && x.packet.isNone && !x.publish && decide (x.head < x.tail) && !s.written (x.mark x.head) 0x30000 128
      | none => false) = true ∧ (look s.queues 3).map Queue.tap = some (some (511, 0)) ∧
     pageOf s (keyRing 3) (0x30000 + 128 * (0 % 16)) false = some (0x30000, 0) ∧ s.bytesAt 0x30000 128 = b ∧ leNat (b.take 1) = 1 ∧ leNat ((b.drop 1).take 1) = 1 ∧
     o.fieldsInLimit = true ∧ s.arenaOk o = true ∧ s.trapCap o = some 2 ∧ s.readGroups o = some [] ∧ (ringed b).trapCap o = none ∧
     (List.range 128).all (fun k => !s.isMmio (0x30000 + k)) = true ∧ o.field 32 8 = 0 ∧ o.field 104 8 = 0 ∧
     ({ o with pkt := b.set 34 2 } : Job).field 32 8 = 0x20000 ∧ (s.translate o.root 0x20000).map Page.attr = some 0 ∧
     (({ s with mem := memPut s.mem (soloRoot + 0x2000) (leBytes 8 47) } : State).translate o.root 0x20000).map Page.attr = some 2) := by decide +kernel

/-- A launch with its dependency met, refused; under COR fitting and not; with a sequencer, under COR too. -/
theorem witness_LaunchStart_accept :
    (let s := accepting (launch 0)
     (match look s.queues 3 with | some x => x.packet == some (0, launch 0) && !x.stopped && x.started.isEmpty && x.closing.isNone | none => false) = true ∧
     pktField (launch 0) 0 1 = 1 ∧ s.inRecovery = false ∧ (match s.dependency 3 Queue.blank (launch 0) with | .met => true | _ => false) = true ∧
     (launchOf (launch 0) .running).cor = false ∧ (launchOf (launch 0) .running).seqEntry = 0#64 ∧
     (launchOf (launch 1) .running).cor = true ∧ (launchOf (launch 1) .running).corFits = true ∧ (launchOf (launch 1) .running).seqEntry = 0#64 ∧
     (launchOf ((launch 1).set 4 2) .running).cor = true ∧ (launchOf ((launch 1).set 4 2) .running).corFits = false ∧
     (launchOf soloPacket .running).seqEntry ≠ 0#64 ∧ (launchOf soloPacket .running).cor = false ∧ (launchOf (soloPacket.set 2 1) .running).cor = true ∧
     (launchOf (soloPacket.set 2 1) .running).corFits = true ∧ (accepting soloPacket).Records ∧ (accepting soloPacket).Unnamed ∧
     (let d := (launch 0).set 109 1
      let u : State := { accepting d with refused := [(keyRing 3 + 2, 0x10000000000)] }
      (match u.dependency 3 { Queue.blank with root := BitVec.ofNat 64 soloRoot } d with | .refused _ => true | _ => false) = true)) := by
  unfold State.Records State.Unnamed
  decide +kernel

/-- The first team of a launch on the last core of its die, the only one of a COR launch, a second one; a COR launch that waits. -/
theorem witness_LaunchStart_teams :
    (let j := launchOf (launch 0) .running
     let t := (accepting (launch 0)).putJob j
     t.Records ∧ look t.jobs j.id = some j ∧ t.inRecovery = false ∧ j.field 0 1 = 1 ∧ j.nextTeam = 0 ∧
     (look t.queues 3).map (fun x => (x.stopped, x.closing)) = some (false, none) ∧ t.tapAhead j.queue j.dies (t.tapKey j) = false ∧ t.teamFits j 95 = true) ∧
    (let j := launchOf (launch 1) .waiting
     let t := (accepting (launch 1)).putJob j
     j.phase = .waiting ∧ j.teamCount = 1 ∧ j.engines = [] ∧ t.tapAhead j.queue j.dies (t.tapKey j) = false ∧ t.teamFits j 95 = true) ∧
    (let j := { launchOf ((launch 0).set 4 2) .running with nextTeam := 1 }
     let t := (accepting ((launch 0).set 4 2)).putJob j
     t.Records ∧ j.nextTeam ≠ 0 ∧ t.teamFits j 95 = true) ∧ 1 ≤ (launchOf ((launch 1).set 4 2) .waiting).teamCount := by
  unfold State.Records
  decide +kernel

/-- A task entry of the smallest launch; its parent is the group of `base`. -/
def entry : TaskEntry := ⟨1, 0, 2, 1, 0x10000#64, 42, 0, 0, 0, 0, 0, 0, 0, 0, 0, false⟩

/-- A task to start, to steal, one whose parent waits at JOIN, done, and a parent that may go on, behind JOIN and behind EXIT. -/
theorem witness_TaskScheduling :
    (let s := { base with deques := [(1, [entry])] }
     s.nextEntry 1 = some entry ∧ look s.jobs entry.job = some base.job ∧ base.job.running = true ∧ s.room 1 1 base.job.regs 0 = true ∧
     (s.deque 1).getLast? = some entry ∧ (look s.jobs entry.job).map Job.running = some true ∧ s.deque 95 = [] ∧ s.freeSlots 95 ≠ [] ∧ 95 / 96 = 1 / 96 ∧
     (s.groupOf entry.parent).map Group.joining = some false) ∧
    (let s := { withSplits [⟨0, 0x10000#64, 0xFFFFFFFF#32, .blocked .join 0, none, false, 0, 0, false⟩] with deques := [(1, [{ entry with stolen := true }, entry])] }
     s.nextEntry 1 = some entry ∧ entry.stolen = false ∧ (s.groupOf entry.parent).map (fun p => (p.job == entry.job && p.joining)) = some true) ∧
    (let s := base.setCur { base.cur with kind := .task, done := true, gid := 9, parent := 2 }
     let p : Group := { Group.blank with gid := 2, kind := .root, job := 1, children := 1 }
     p.job = s.cur.job ∧ look ({ s with groups := [(2, p)] } : State).groups s.cur.parent = some p ∧ s.groupOf s.cur.parent = none) ∧
    (let s := { withSplits [⟨0, 0x10000#64, 0xFFFFFFFF#32, .blocked .join 0, none, false, 0, 0, false⟩] with mem := memPut base.mem 0x10000 (leBytes 4 0xC0000000) }
     s.cur.joinSplit.isSome ∧ s.cur.children = 0 ∧ s.cur.away = false ∧ s.live s.cur = true) ∧
    (let w := (encode (.join 0)).toNat
     let s := { withSplits [⟨0, 0x10000#64, 0xFFFFFFFF#32, .blocked .join 0, none, false, 0, 0, false⟩] with mem := memPut base.mem 0x10000 (leBytes 4 w) }
     (match s.issue with | .run i u => decide (i = .join 0 ∧ u = s) | _ => false) = true) ∧
    (let w := (encode (.exit 0)).toNat
     let s := { withSplits [⟨0, 0x10000#64, 0xFFFFFFFF#32, .blocked .join 0, none, false, 0, 0, false⟩] with mem := memPut base.mem 0x10000 (leBytes 4 w) }
     (match s.issue with | .run i u => decide (i = .exit 0 ∧ u = s) | _ => false) = true) := by decide +kernel

/-- A full core where the second newest entry's parent waits at JOIN, its image with room in the arena. -/
theorem witness_TaskScheduling_full :
    (let t := withSplits [⟨0, 0x10000#64, 0xFFFFFFFF#32, .blocked .join 0, none, false, 0, 0, false⟩]
     let other : TaskEntry := { entry with parent := 9 }
     let d := [other, entry]
     let fill := (List.range 47).map (fun k => (k + 10, ({ Group.blank with gid := k + 10, kind := .task, job := 1, resident := true, slot := k + 1 } : Group)))
     let s : State := { t with groups := fill, deques := [(0, d)], mem := memPut t.mem 0x40030 (leBytes 8 0x100000) }
     let u := s.putJob { s.job with pkt := (s.job.pkt.take 48) ++ leBytes 8 0x40000 ++ s.job.pkt.drop 56 }
     let p := u.cur
     (u.deque 0).filter (fun e => ((look u.jobs e.job).map Job.running).getD false) = [other] ++ entry :: [] ∧ u.room 0 1 u.job.regs 0 = false ∧
     (u.startFor 0 other).isNone ∧ look u.jobs entry.job = some u.job ∧ entry.stolen = false ∧ u.groupOf entry.parent = some p ∧ p.gid = entry.parent ∧ p.job = entry.job ∧
     p.joining = true ∧ p.resident = true ∧ p.core = 0 ∧ (u.job.images + 1) * imageBytes u.job.regs ≤ u.arenaSize u.job 48 ∧
     ({ (u.putGroup { p.saveRepeat with resident := false, away := true, cycAcc := u.cycOf p }).putJob { u.job with images := u.job.images + 1 } with
       images := [⟨1, parentRef 2, .group, 0, false, 0, imageBytes u.job.regs, .imgb⟩] } : State).room 0 1 u.job.regs 0 = true) := by decide +kernel

/-- The smallest launch without a sequencer entry, with flags. -/
def plain (flags : Nat) : State := base.putJob { base.job with pkt := launch flags, liveSeqs := 0, engines := [] }

/-- A team on a core, away and with a context the part lacks, on another die; a task's entry; a task; a sequencer's context. -/
theorem witness_SwitchResults_team :
    (let s := plain 0
     let T := s.team
     s.Records ∧ look s.jobs 1 = some s.job ∧ s.job.running = true ∧ look s.teams (teamKey 1 0) = some T ∧ (s.job.lcoreOf 0).team = some 0 ∧ s.job.cor = false ∧ 0 < s.job.logical ∧
     s.job.seqEntry = 0#64 ∧ T.resident = true ∧ s.ops.any (fun o => o.inFlight 1 0) = false ∧
     (let m : Image := ⟨1, 0, .team, 0, false, 0, 0, .hbm⟩
      let t := { (s.setCur (s.cur.out s)).putTeam { T with resident := false } with images := [m] }
      t.Records ∧ t.imageOf 1 0 = some m ∧ t.headerOk m = true ∧ t.headerOk { m with eng := 33 } = false ∧ t.headerOk { m with eng := 32 } = true ∧ t.teamReturns t.job 0 95 = true ∧ t.team.resident = false ∧ t.restorable 1 0 = true ∧
       ({ t with images := [{ m with eng := 33 }] } : State).restorable 1 0 = false) ∧
     (let u := (s.putJob { s.job with dies := [0, 1] }).putTeam { T with resident := false }
      (u.setCur (u.cur.out u)).job.hasCore 96 = true ∧ (u.setCur (u.cur.out u)).advertises (96 / 96) = true ∧ u.team.core / 96 ≠ 96 / 96 ∧ (u.setCur (u.cur.out u)).teamReturns u.job 0 96 = true)) := by
  unfold State.Records
  decide +kernel

/-- Splits on their way out: ready, with ACT set and without, in a repeat, in a region, blocked of each kind. -/
theorem witness_SwitchResults_saved :
    base.cur.region = none ∧ (∀ p ∈ base.cur.splits, p.rep = none) ∧ base.cur.repc.getLsbD 63 = false ∧ (0x8000000100000000#64).getLsbD 63 = true ∧
    base.cur.splits.all (fun q => !q.fresh) = true ∧ base.cur.splits.length = 1 ∧
    ((region 1).cur.region.map (fun r => r.split)) = some 0 ∧ (region 1).cur.splits.map Split.entry = [0] ∧
    ([Wait.monitor, .phase, .slot none, .join].map (fun w => (⟨0, 0, 0, .blocked w 0, none, false, 0, 0, false⟩ : Split).saved.st)) =
      [.blocked .monitor 0, .blocked .phase 0, .ready, .ready] := by
  decide +kernel

theorem witness_SwitchResults_evict :
    (let s := plain 8
     let k : Job := { s.job with id := 3, queue := 3, nextTeam := 0, pkt := soloPacket.set 2 8, lcores := [] }
     let u : State := { s with jobs := [(1, { s.job with prio := 1 }), (3, k)], queues := [(3, { Queue.blank with tap := some (511, 0) })] }
     u.needsRoom k 0 = true ∧ (u.firstCandidate k 0).map (fun v => (v.job, v.ref)) = some (1, 0)) := by decide +kernel

theorem witness_SwitchResults_racking :
    (let s := { (base.putJob { base.job with dies := [0, 1] }) with deques := [(0, [entry])] }
     4096 ≤ 4096 ∧ (s.deque (4096 - 4096)).getLast? = some entry ∧ entry.job = 1 ∧ s.job.hasCore 96 = true ∧ s.advertises 1 = true) := by decide +kernel

theorem witness_SwitchResults_task :
    (let g : Group := { base.cur with gid := 2, kind := .task }
     let s : State := { plain 8 with cur := Group.blank, groups := [(2, g)] }
     let k : Job := { s.job with id := 3, queue := 3, nextTeam := 0, pkt := soloPacket.set 2 8, lcores := [], dies := [0] }
     let u := { s with jobs := [(1, { (plain 8).job with prio := 1 }), (3, k)], queues := [(3, { Queue.blank with tap := some (511, 0) })] }
     u.Records ∧ look u.groups 2 = some g ∧ u.ops.any (fun o => o.task && o.gid == 2) = false ∧
     u.needsRoom k 0 = true ∧ (u.firstCandidate k 0).map (fun v => (v.job, v.ref)) = some (1, 2 ^ 32 + 2) ∧
     ({ u with groups := [(2, g.out s)], images := [⟨1, 2 ^ 32 + 2, .group, 0, false, 0, 0, .hbm⟩] } : State).room 95 1 512 (g.out s).windowBytes = true ∧
     (let h : Group := { g with resident := false }
      let w : State := { u with groups := [(2, h)], images := [⟨1, 2 ^ 32 + 2, .group, 0, false, 0, 0, .hbm⟩] }
      let two : Job := { (plain 8).job with dies := [0, 1] }
      w.Records ∧ h.done = false ∧ h.away = false ∧ two.running = true ∧ h.core / 96 ≠ 96 / 96 ∧ two.hasCore 96 = true ∧ w.advertises (96 / 96) = true ∧
      w.restorable 1 (2 ^ 32 + 2) = true ∧ w.room 96 1 h.allot h.windowBytes = true)) := by
  unfold State.Records
  decide +kernel

theorem witness_SwitchResults_context :
    (let s := baseSeq.putJob { baseSeq.job with lcores := [] }
     s.Records ∧ look s.jobs 1 = some s.job ∧ s.job.running = true ∧ s.job.seqEntry ≠ 0#64 ∧ 0 < (s.job.logical + 7) / 8 ∧ s.job.clusterTeams 0 = [] ∧ (s.job.engine 0).resident = true ∧
     (let t := s.putJob { s.job with engines := [(0, { Engine.start with resident := false })] }
      (t.job.engine 0).resident = false ∧ t.contextOn (t.job.clusterAt 0) = false ∧ t.contextAhead t.job 0 = false ∧ t.images = []) ∧
     s.job.slices 0 = false ∧ s.jobs.map Prod.fst = [1] ∧
     (let j := { s.job with engines := [(0, Engine.start), (12, { Engine.start with resident := false })] }
      (j.engine 0).resident = true ∧ j.slices 0 = true ∧ ({ j with pkt := soloPacket.set 2 1 } : Job).slices 0 = false) ∧
     (let v : Job := { s.job with pkt := soloPacket.set 2 8, prio := 1, engines := [(0, Engine.start)] }
      let k : Job := { v with id := 3, queue := 3, nextTeam := 0, engines := [(0, { Engine.start with resident := false })] }
      let u : State := { s with jobs := [(1, v), (3, k)], queues := [(3, { Queue.blank with tap := some (511, 0) })] }
      (v.engine 0).resident = true ∧ k.nextTeam = 0 ∧ u.mayStart k = true ∧ u.needsContext k v (8 * v.clusterAt 0) = true)) := by
  unfold State.Records
  decide +kernel

/-- A launch that may leave its partition, and one that may come back, its header good and bad. -/
theorem witness_SwitchResults_partition :
    (let s := plain 0
     s.Records ∧ look s.jobs 1 = some s.job ∧ s.job.field 0 1 = 1 ∧ s.job.running = true ∧ s.swappable s.job = true ∧ s.jobs.length = 1 ∧
     (s.putJob { s.job with armed := [fired 0 0 0 0 0#64 0#64 []] }).swappable { s.job with armed := [fired 0 0 0 0 0#64 0#64 []] } = false ∧
     ([] : List (Nat × Engine)).Nodup ∧ s.job.engines = [] ∧ (baseSeq.swappable baseSeq.job) = true ∧
     (let m : Image := ⟨1, partitionRef, .partition, 0, false, 0, 0, .hbm⟩
      let t := { s.putJob { s.job with phase := .swapped } with images := [m] }
      t.Records ∧ t.job.phase = .swapped ∧ t.restorable 1 partitionRef = true ∧ ({ t with images := [{ m with eng := 33 }] } : State).restorable 1 partitionRef = false)) := by
  unfold State.Records
  decide +kernel

/-- A launch that ends; strands done with nothing to fold or to add; a view to fold; one deferred add and one partial sum at a location. -/
theorem witness_LaunchEndEvents :
    (let s : State := { plain 2 with sel := 1 }
     s.Records ∧ look s.jobs s.sel = some s.job ∧
     (let j : Job := { s.job with liveTeams := 0, liveSeqs := 0, nextTeam := 1 }
      let t := (s.putJob j).setCur Group.blank
      t.Records ∧ look t.jobs t.sel = some j ∧ j.running = true ∧ t.strandsDone j = true ∧ j.folds = [] ∧ j.adds = [] ∧ j.partials = [] ∧ j.armed.any Armed.fired = false ∧ j.feat = false ∧
      (let d := leBytes 8 0x20100 ++ [8#8, 0#8, 0#8, 3#8] ++ leBytes 4 0
       let v : View := ⟨15, 0, 0x20100#64, 8, 9⟩
       let k : Job := { j with folds := [((0, 0), [v])], redDescs := [(15, d)] }
       let u := t.putJob k
       u.nextFold k = some ((0, 0), [v]) ∧ redSize d / max 1 (groupWidth (redType d)) - k.foldElem = 2 ∧
       (match u.devPage (keyFold 1) k.root k.queue (redBase d + 1 * 4) true with | .page p => p.pa == 0x20104 && p.attr == 0 && !u.isMmio p.pa && !u.poisoned p.pa 4 && !u.poisoned (viewLoc v.key 4) 4 | _ => false) = true) ∧
      (let a : DefAdd := ⟨0x20000, 4, 0x3F800000#64, 0#64, 0#64, 0, 0⟩
       let q : Partial := ⟨0, 0x20000, 4, 0x3F800000#64⟩
       (∀ x ∈ [a, { a with width := 8 }], x.width = 4 ∨ x.width = 8) ∧ t.farFails a.loc = false ∧ t.farFails q.loc = false ∧ NoOverlap 0x20000 4 0x20004 8 ∧
       (pairTree (fun x y => faddW fp32 .rne false x y) 2 ([q].map (fun q => q.sum.toNat)) 0).1 = [0x3F800000]))) := by
  unfold State.Records NoOverlap
  decide +kernel

end Sys2Proof.Tests
end

section

/-!
# Memory in its canonical form, and stores (00 R6, 05 R113)

O2: a store alone rewrites memory and RESET_BOOT alone drops bytes of it; every other update of the state leaves it as it is. First what leaves
memory unchanged (the `_mem` lemmas), then what keeps its form (the `_wf` lemmas), in the model's order: shared operations, the forms of
instructions, instructions and events, the step. O28: what a store adds to the history, and what going back over it finds.

A `_mem` lemma that holds by unfolding is proved by `(rfl)`: in parentheses it is no definitional rewrite, and the kernel need not unfold the
operation again at each use.
-/

namespace Sys2Proof.Machine
open Host

/-! ## Folds and choices that leave memory as it is -/

theorem foldl_mem {α : Type} {f : State → α → State} (hf : ∀ t x, (f t x).mem = t.mem) (l : List α) (s : State) :
    (l.foldl f s).mem = s.mem :=
  l.foldlRecOn f (motive := fun t => t.mem = s.mem) rfl (fun t ht x _ => (hf t x).trans ht)

theorem foldl_fst_mem {α β : Type} {f : State × β → α → State × β} (hf : ∀ p x, (f p x).1.mem = p.1.mem) (l : List α) (p : State × β) :
    (l.foldl f p).1.mem = p.1.mem :=
  l.foldlRecOn f (motive := fun q => q.1.mem = p.1.mem) rfl (fun q hq x _ => (hf q x).trans hq)

theorem foldl_bind_mem {α : Type} {f : State → α → Option State} (hf : ∀ t x u, f t x = some u → u.mem = t.mem) (l : List α)
    {o : Option State} {s t : State} (ho : ∀ u, o = some u → u.mem = s.mem) (h : l.foldl (fun o x => o.bind (fun u => f u x)) o = some t) :
    t.mem = s.mem := by
  refine l.foldlRecOn _ (motive := fun o => ∀ u, o = some u → u.mem = s.mem) ho (fun o ho x _ u hu => ?_) t h
  obtain ⟨v, hv, hw⟩ := Option.bind_eq_some_iff.1 hu
  exact (hf v x u hw).trans (ho v hv)

theorem getD_mem {o : Option State} {s t : State} (h : ∀ u, o = some u → u.mem = s.mem) (ht : t.mem = s.mem) : (o.getD t).mem = s.mem := by
  cases o with
  | none => exact ht
  | some u => exact h u rfl

/-! ## The records of the state, and the split in focus -/

@[simp] theorem State.putGroup_mem (s : State) (g : Group) : (s.putGroup g).mem = s.mem := by unfold State.putGroup; split <;> rfl
@[simp] theorem State.focus_mem (s : State) (gid entry : Nat) : (s.focus gid entry).mem = s.mem := by
  unfold State.focus; (repeat' split) <;> simp

/-! ## Device registers and page requests -/

@[simp] theorem State.ring_mem (s : State) (n value : Nat) : (s.ring n value).mem = s.mem := by unfold State.ring; split <;> rfl
@[simp] theorem State.mmioWrite_mem (s : State) (off size x : Nat) : (s.mmioWrite off size x).mem = s.mem := by
  simp [State.mmioWrite, apply_ite State.mem]
@[simp] theorem State.request_mem (s : State) (page : Nat) (root : W64) (queue access : Nat) (o : Owner) :
    (s.request page root queue access o).1.mem = s.mem := by
  unfold State.request; split <;> rfl
/-- A device access whose page is not there changes requests and refusals only (14 R270). -/
theorem devPage_waits_mem {s t : State} {key queue va : Nat} {root : W64} {write : Bool}
    (h : s.devPage key root queue va write = .waits t) : t.mem = s.mem := by
  unfold State.devPage at h
  dsimp only at h
  split at h
  · cases h
  · split at h
    · cases h; rfl
    · split at h
      · cases h; simp
      · split at h
        · cases h; simp
        · split at h <;> cases h

theorem devPage_refused_mem {s t : State} {key queue va cause : Nat} {root : W64} {write : Bool}
    (h : s.devPage key root queue va write = .refused t cause) : t.mem = s.mem := by
  unfold State.devPage at h
  dsimp only at h
  split at h
  · cases h; rfl
  · split at h
    · cases h
    · split at h
      · cases h
      · split at h
        · cases h
        · split at h <;> cases h; rfl

/-! ## Exceptions and the completion of an instruction -/

@[simp] theorem State.setSplit_mem (s : State) (p : Split) : (s.setSplit p).mem = s.mem := (rfl)
@[simp] theorem State.block_mem (s : State) (w : Wait) : (s.block w).mem = s.mem := (rfl)
@[simp] theorem State.saveRep_mem (s : State) : (s.saveRep).mem = s.mem := by unfold State.saveRep; split <;> rfl
@[simp] theorem State.enterHandler_mem (s : State) (e : Exc) (slot : Nat) : (s.enterHandler e slot).mem = s.mem := by
  simp [State.enterHandler]
@[simp] theorem State.leaveHandler_mem (s : State) : (s.leaveHandler).mem = s.mem := by unfold State.leaveHandler; split <;> rfl
@[simp] theorem State.resume_mem (s : State) (epc : W64) : (s.resume epc).mem = s.mem := by simp [State.resume]
@[simp] theorem State.report'_mem (s : State) (code detail : Nat) (addr : W64) : (s.report' code detail addr).mem = s.mem := (rfl)
@[simp] theorem State.finish_mem (s : State) : (s.finish).mem = s.mem := (rfl)
@[simp] theorem State.consume_mem (s : State) : (s.consume).mem = s.mem := by unfold State.consume; split <;> rfl
@[simp] theorem State.jump_mem (s : State) (t : W64) : (s.jump t).mem = s.mem := (rfl)
@[simp] theorem State.hold_mem (s : State) (misses : List Miss) : (s.hold misses).mem = s.mem := by
  simp [State.hold, foldl_fst_mem]

@[simp] theorem State.mergeParked_mem (s : State) : (s.mergeParked).mem = s.mem := (rfl)

/-! ## Accesses of an instruction -/

@[simp] theorem State.race_mem (s : State) (store : Bool) (loc : Nat) (addr : W64) (w : W64 × W64) :
    (s.race store loc addr w).mem = s.mem := by
  unfold State.race; split <;> rfl
@[simp] theorem State.spillFull_mem (s : State) (detail : Nat) (addr : W64) : (s.spillFull detail addr).mem = s.mem := (rfl)
@[simp] theorem State.recordWriter_mem (s : State) (loc : Nat) (addr : W64) : (s.recordWriter loc addr).mem = s.mem := by
  simp [State.recordWriter, apply_ite State.mem]
@[simp] theorem State.loadGranule_mem (s : State) (loc : Nat) (addr : W64) : (s.loadGranule loc addr).mem = s.mem := by
  unfold State.loadGranule; split <;> simp
@[simp] theorem State.loadFrom_mem (s : State) (k : Acc) (t : Target) (addr : W64) (size red : Nat) :
    (s.loadFrom k t addr size red).1.mem = s.mem := by
  unfold State.loadFrom; (repeat' split) <;> simp
@[simp] theorem State.laneFaults_mem (s : State) (l : List LaneAcc) : (s.laneFaults l).mem = s.mem := by
  refine foldl_mem (fun t a => ?_) l s
  split <;> rfl

@[simp] theorem State.readLanes_mem (s : State) (k : Acc) (size : Nat) (got : List (MemberRef × Option Nat)) (l : List LaneAcc) :
    (s.readLanes k size got l).1.mem = s.mem := by
  refine foldl_fst_mem (fun p a => ?_) l (s, [])
  split <;> simp

/-! ## Results of lanes and of the group -/

@[simp] theorem laneWrite_mem (d : BitVec 7) (f : Nat → W32) (m : W32) (s : State) : (laneWrite d f m s).mem = s.mem := (rfl)
@[simp] theorem laneWrite2_mem (d : BitVec 7) (f : Nat → W64) (m : W32) (s : State) : (laneWrite2 d f m s).mem = s.mem := (rfl)
@[simp] theorem lane1_mem (d a : BitVec 7) (f : W32 → W32) (m : W32) (s : State) : (lane1 d a f m s).mem = s.mem := (rfl)
@[simp] theorem lane2_mem (d a b : BitVec 7) (f : W32 → W32 → W32) (m : W32) (s : State) : (lane2 d a b f m s).mem = s.mem := (rfl)
@[simp] theorem lane3_mem (d a b : BitVec 7) (f : W32 → W32 → W32 → W32) (m : W32) (s : State) : (lane3 d a b f m s).mem = s.mem := (rfl)
@[simp] theorem pair1_mem (d a : BitVec 7) (f : W64 → W64) (m : W32) (s : State) : (pair1 d a f m s).mem = s.mem := (rfl)
@[simp] theorem pair2_mem (d a b : BitVec 7) (f : W64 → W64 → W64) (m : W32) (s : State) : (pair2 d a b f m s).mem = s.mem := (rfl)
@[simp] theorem pair3_mem (d a b : BitVec 7) (f : W64 → W64 → W64 → W64) (m : W32) (s : State) : (pair3 d a b f m s).mem = s.mem := (rfl)
@[simp] theorem groupWrite_mem (d : BitVec 7) (x : W64) (s : State) : (groupWrite d x s).mem = s.mem := (rfl)
@[simp] theorem groupWrite32_mem (d : BitVec 7) (x : W32) (s : State) : (groupWrite32 d x s).mem = s.mem := (rfl)
@[simp] theorem group1_mem (d a : BitVec 7) (f : W64 → W64) (s : State) : (group1 d a f s).mem = s.mem := (rfl)
@[simp] theorem group2_mem (d a b : BitVec 7) (f : W64 → W64 → W64) (s : State) : (group2 d a b f s).mem = s.mem := (rfl)
@[simp] theorem group3_mem (d a b : BitVec 7) (f : W64 → W64 → W64 → W64) (s : State) : (group3 d a b f s).mem = s.mem := (rfl)
@[simp] theorem word1_mem (d a : BitVec 7) (f : W32 → W32) (s : State) : (word1 d a f s).mem = s.mem := (rfl)
@[simp] theorem word2_mem (d a b : BitVec 7) (f : W32 → W32 → W32) (s : State) : (word2 d a b f s).mem = s.mem := (rfl)
@[simp] theorem word3_mem (d a b : BitVec 7) (f : W32 → W32 → W32 → W32) (s : State) : (word3 d a b f s).mem = s.mem := (rfl)
@[simp] theorem predWrite_mem (d : Nat) (f : Nat → Bool) (m : W32) (s : State) : (predWrite d f m s).mem = s.mem := (rfl)
@[simp] theorem gpredWrite_mem (d : Nat) (x : Bool) (s : State) : (gpredWrite d x s).mem = s.mem := (rfl)
@[simp] theorem laneFloat_mem (d : BitVec 7) (f : Nat → FRes) (m : W32) (s : State) : (laneFloat d f m s).mem = s.mem := by simp [laneFloat]
@[simp] theorem laneFloat2_mem (d : BitVec 7) (f : Nat → FRes) (m : W32) (s : State) : (laneFloat2 d f m s).mem = s.mem := by
  simp [laneFloat2]

/-! ## Deferred adds -/

theorem State.appendAdd_mem {s t : State} {j : Job} {a : DefAdd} (h : s.appendAdd j a = some t) : t.mem = s.mem := by
  unfold State.appendAdd at h
  split at h <;> cases h
  rfl

@[simp] theorem State.deferAdd_mem (s : State) (loc width : Nat) (x : W64) (lane : Nat) (addr : W64) :
    (s.deferAdd loc width x lane addr).mem = s.mem :=
  getD_mem (fun _ => State.appendAdd_mem) (by simp)

theorem State.appendPartial_mem {s t : State} {j : Job} {team loc width : Nat} {x : W64} (h : s.appendPartial j team loc width x = some t) :
    t.mem = s.mem := by
  unfold State.appendPartial at h
  dsimp only at h
  split at h
  · cases h; rfl
  · split at h <;> cases h
    rfl

@[simp] theorem State.partialAdd_mem (s : State) (team loc width : Nat) (x addr : W64) : (s.partialAdd team loc width x addr).mem = s.mem :=
  getD_mem (fun _ => State.appendPartial_mem) (by simp)

/-! ## Issue -/

@[simp] theorem State.idle_mem (s : State) : (s.idle).mem = s.mem := (rfl)

/-! ## Branches, barriers and casks -/

@[simp] theorem State.place_mem (s : State) (first : Path) (rest : List Path) : (s.place first rest).mem = s.mem := by simp [State.place]
@[simp] theorem State.sleepOn_mem (s : State) (w : Wait) (loc : Nat) : (s.sleepOn w loc).mem = s.mem := (rfl)
@[simp] theorem State.disarm_mem (s : State) : (s.disarm).mem = s.mem := by simp [State.disarm, apply_ite State.mem]
@[simp] theorem State.putCask_mem (s : State) (team n : Nat) (k : Cask) : (s.putCask team n k).mem = s.mem := (rfl)
@[simp] theorem State.slotEntry_mem (s : State) (team n i : Nat) (k : Cask) (on : Bool) : (s.slotEntry team n i k on).mem = s.mem := by
  unfold State.slotEntry; split <;> rfl

/-! ## Cross-lane results -/

@[simp] theorem nzscanRow_mem (d a : BitVec 7) (f : Nat) (m : W32) (s : State) : (nzscanRow d a f m s).mem = s.mem := (rfl)

/-! ## The end of a group -/

@[simp] theorem State.placeFold_mem (s : State) (v : View) : (s.placeFold v).mem = s.mem := (rfl)
@[simp] theorem State.teamEnd_mem (s : State) (job team : Nat) : (s.teamEnd job team).mem = s.mem := by
  unfold State.teamEnd; split <;> simp [apply_ite State.mem]
@[simp] theorem State.reportTo_mem (s : State) (t : Group) : (s.reportTo t).mem = s.mem := by unfold State.reportTo; split <;> simp
@[simp] theorem State.vacate_mem (s : State) : (s.vacate).mem = s.mem := (rfl)
@[simp] theorem State.endGroup_mem (s : State) : s.endGroup.mem = s.mem := by
  unfold State.endGroup
  dsimp only
  split <;> simp [apply_ite State.mem]

/-! ## Engine operations -/

theorem State.engWaits_mem {s t : State} {root : W64} {queue : Nat} {o : Owner} {l : List Aimed} (h : s.engWaits root queue o l = some t) :
    t.mem = s.mem := by
  unfold State.engWaits at h
  dsimp only at h
  split at h
  · cases h; simp [foldl_mem]
  · split at h <;> cases h
    rfl

@[simp] theorem State.spillAt_mem (s : State) (jid gid : Nat) (addr : W64) : (s.spillAt jid gid addr).mem = s.mem := by
  unfold State.spillAt
  cases s.groupOf gid <;> dsimp only <;> split <;> simp

@[simp] theorem State.launchOp_mem (s : State) (k : OpKind) (team off : Nat) (reads writes : List (Nat × Nat)) :
    (s.launchOp k team off reads writes).mem = s.mem := (rfl)
@[simp] theorem State.putOp_mem (s : State) (o : EngOp) : (s.putOp o).mem = s.mem := (rfl)
@[simp] theorem State.arm_mem (s : State) (gp : Nat) (desc : W64) (b : List Byte) : (s.arm gp desc b).mem = s.mem := by
  simp [State.arm, apply_ite State.mem]
@[simp] theorem State.ctrAdd_mem (s : State) (job c : Nat) (x : W64) : (s.ctrAdd job c x).mem = s.mem := by
  unfold State.ctrAdd; split <;> simp [apply_ite State.mem]

/-! ## Commands of the driver -/

@[simp] theorem State.setReg64_mem (s : State) (off x : Nat) : (s.setReg64 off x).mem = s.mem := (rfl)
@[simp] theorem State.stopJob_mem (s : State) (id status : Nat) : (s.stopJob id status).mem = s.mem := by
  unfold State.stopJob; split <;> rfl
@[simp] theorem State.clearStrands_mem (s : State) (id : Nat) : (s.clearStrands id).mem = s.mem := by
  unfold State.clearStrands; split <;> rfl
@[simp] theorem State.discardJob_mem (s : State) (id : Nat) : (s.discardJob id).mem = s.mem := by simp [State.discardJob]
@[simp] theorem State.closeQueue_mem (s : State) (n st : Nat) (q : Queue) : (s.closeQueue n st q).mem = s.mem := by
  simp [State.closeQueue, foldl_mem]
@[simp] theorem State.forgetQueue_mem (s : State) (q : Nat) : (s.forgetQueue q).mem = s.mem := (rfl)

/-! ## Floating point -/

@[simp] theorem lanef2_mem (d a b : BitVec 7) (f : Nat → Nat → FRes) (m : W32) (s : State) : (lanef2 d a b f m s).mem = s.mem := by
  simp [lanef2]
@[simp] theorem pairf2_mem (d a b : BitVec 7) (f : Nat → Nat → FRes) (m : W32) (s : State) : (pairf2 d a b f m s).mem = s.mem := by
  simp [pairf2]
@[simp] theorem lanef1_mem (d a r : BitVec 7) (g : FVal → FExact) (m : W32) (s : State) : (lanef1 d a r g m s).mem = s.mem := by
  simp [lanef1]

/-! ## The matrix engine -/

@[simp] theorem State.putEngine_mem (s : State) (e : Engine) : (s.putEngine e).mem = s.mem := (rfl)
@[simp] theorem State.markBst_mem (s : State) (use : Bool) : (s.markBst use).mem = s.mem := by unfold State.markBst; split <;> rfl
@[simp] theorem State.mmaFinish_mem (s : State) (fa fb bank d : Nat) (list : Bool) : (s.mmaFinish fa fb bank d list).mem = s.mem := (rfl)
@[simp] theorem State.scaFinish_mem (s : State) (q d : Nat) (scales : List Byte) : (s.scaFinish q d scales).mem = s.mem := (rfl)
@[simp] theorem State.drain_mem (s : State) (f q dreg d : Nat) : (s.drain f q dreg d).mem = s.mem := by
  simp [State.drain, apply_ite State.mem]
@[simp] theorem State.vgStore_mem (s : State) (fa fb q d : Nat) : (s.vgStore fa fb q d).mem = s.mem := (rfl)

/-! ## Control registers -/

@[simp] theorem State.ctlWrite_mem (s : State) (n : Nat) (a : BitVec 7) : (s.ctlWrite n a).mem = s.mem := by simp [State.ctlWrite]

/-! ## Launches, teams and images -/

@[simp] theorem State.onJob_mem (s : State) (id : Nat) (f : Job → Job) : (s.onJob id f).mem = s.mem := by unfold State.onJob; split <;> rfl
theorem State.dependency_refused_mem {s t : State} {n : Nat} {q : Queue} {b : List Byte} (h : s.dependency n q b = .refused t) :
    t.mem = s.mem := by
  unfold State.dependency at h
  dsimp only at h
  split at h
  · cases h
  · split at h
    next => cases h
    next hp => cases h; exact devPage_refused_mem hp
    next => split at h <;> [(cases h; rfl); (split at h <;> cases h)]

theorem State.dependency_waits_mem {s t : State} {n : Nat} {q : Queue} {b : List Byte} (h : s.dependency n q b = .waits t) :
    t.mem = s.mem := by
  unfold State.dependency at h
  dsimp only at h
  split at h
  · cases h
  · split at h
    next hp => cases h; exact devPage_waits_mem hp
    next => cases h
    next => split at h <;> [cases h; (split at h <;> cases h)]

@[simp] theorem State.packetStarts_mem (s : State) (j : Job) : (s.packetStarts j).mem = s.mem := by unfold State.packetStarts; split <;> rfl
@[simp] theorem State.startTeam_mem (s : State) (j : Job) (core : Nat) : (s.startTeam j core).mem = s.mem := by
  simp [State.startTeam, apply_ite State.mem]
theorem State.startAll_mem {id n : Nat} {first : Option Nat} {s t : State} (h : State.startAll id n first s = some t) : t.mem = s.mem := by
  induction n generalizing first s with
  | zero => cases h; rfl
  | succ n ih =>
    unfold State.startAll at h
    split at h
    · cases h
    · split at h
      · cases h; rfl
      · dsimp only at h
        split at h
        · cases h
        · simpa using ih h

@[simp] theorem State.mapGroups_mem (s : State) (f : Group → Group) : (s.mapGroups f).mem = s.mem := (rfl)
@[simp] theorem State.addImage_mem (s : State) (j : Job) (ref : Nat) (kind : ImageKind) (core : Nat) :
    (s.addImage j ref kind core).mem = s.mem := (rfl)
@[simp] theorem State.dropImage_mem (s : State) (job ref : Nat) : (s.dropImage job ref).mem = s.mem := (rfl)
@[simp] theorem State.teamOut_mem (s : State) (j : Job) (team : Nat) : (s.teamOut j team).mem = s.mem := by simp [State.teamOut]
@[simp] theorem State.seat_mem (s : State) (core : Nat) (slots : List Nat) (gs : List Group) : (s.seat core slots gs).mem = s.mem := by
  simp [State.seat, foldl_mem]
@[simp] theorem State.teamIn_mem (s : State) (j : Job) (team core : Nat) : (s.teamIn j team core).mem = s.mem := by simp [State.teamIn]
theorem State.clusterOut_mem {s t : State} {j : Job} {c : Nat} (h : s.clusterOut j c = some t) : t.mem = s.mem := by
  unfold State.clusterOut at h
  dsimp only at h
  split at h <;> cases h
  simp [foldl_mem]

theorem State.clusterBack_mem {s t : State} {j : Job} {c : Nat} (h : s.clusterBack j c = some t) : t.mem = s.mem := by
  unfold State.clusterBack at h
  dsimp only at h
  split at h
  · cases h
  · split at h <;> cases h <;> simp [foldl_mem]

theorem State.clusterIn_mem {s t : State} {j : Job} {c : Nat} (h : s.clusterIn j c = some t) : t.mem = s.mem := by
  unfold State.clusterIn at h
  split at h
  · cases h
  · exact State.clusterBack_mem h

theorem State.contextsIn_mem {s t : State} {j : Job} (h : s.contextsIn j = some t) : t.mem = s.mem := by
  refine foldl_bind_mem (fun t c u hu => ?_) _ (fun u hu => by cases hu; rfl) h
  split at hu
  · split at hu
    · cases hu; rfl
    · exact State.clusterIn_mem hu
  · cases hu

@[simp] theorem State.teamDispatch_mem (s : State) (id core : Nat) : (s.teamDispatch id core).mem = s.mem := by
  unfold State.teamDispatch
  split
  · rfl
  · split
    · rfl
    · split
      · rfl
      · rfl
      · refine getD_mem (fun u hu => ?_) rfl
        obtain ⟨v, hv, hs⟩ := Option.bind_eq_some_iff.1 hu
        exact (State.startAll_mem hs).trans (State.contextsIn_mem hv)
      · split <;> simp

@[simp] theorem State.clusterSwitch_mem (s : State) (j : Job) (c : Nat) : (s.clusterSwitch j c).mem = s.mem := by
  refine getD_mem (fun u hu => ?_) rfl
  split at hu
  · exact State.clusterIn_mem hu
  · split at hu
    · exact State.clusterOut_mem hu
    · split at hu
      · obtain ⟨v, hv, rfl⟩ := Option.map_eq_some_iff.1 hu
        simp [State.clusterOut_mem hv]
      · cases hu

@[simp] theorem State.timeSlice_mem (s : State) (j : Job) (lc core : Nat) : (s.timeSlice j lc core).mem = s.mem := by
  unfold State.timeSlice; (repeat' split) <;> simp
@[simp] theorem State.takeEntry_mem (s : State) (thief victim : Nat) (e : TaskEntry) : (s.takeEntry thief victim e).mem = s.mem := (rfl)
@[simp] theorem State.rackTask_mem (s : State) (j : Job) (gid core : Nat) : (s.rackTask j gid core).mem = s.mem := by
  unfold State.rackTask; split <;> simp [apply_ite State.mem]
@[simp] theorem State.rackTeam_mem (s : State) (j : Job) (t core : Nat) : (s.rackTeam j t core).mem = s.mem := by
  simp [State.rackTeam, apply_ite State.mem]
@[simp] theorem State.rack_mem (s : State) (j : Job) (lc core : Nat) : (s.rack j lc core).mem = s.mem := by
  unfold State.rack; (repeat' split) <;> simp
@[simp] theorem State.taskOut_mem (s : State) (j : Job) (gid : Nat) : (s.taskOut j gid).mem = s.mem := (rfl)
@[simp] theorem State.evict_mem (s : State) (j : Job) (ref : Nat) : (s.evict j ref).mem = s.mem := by
  unfold State.evict
  split
  · split
    · exact getD_mem (fun _ => State.clusterOut_mem) rfl
    · split <;> simp
  · split <;> simp

@[simp] theorem State.restore_mem (s : State) (j : Job) (ref core : Nat) : (s.restore j ref core).mem = s.mem := by
  unfold State.restore; (repeat' split) <;> simp

/-! ## Tasks -/

@[simp] theorem State.startTask_mem (s : State) (j : Job) (e : TaskEntry) (core : Nat) : (s.startTask j e core).mem = s.mem := (rfl)
theorem State.suspend_mem {s t : State} {j : Job} {gid : Nat} (h : s.suspend j gid = some t) : t.mem = s.mem := by
  unfold State.suspend at h
  split at h
  · cases h
  · split at h <;> cases h
    simp

theorem State.startFor_mem {s t : State} {core : Nat} {e : TaskEntry} (h : s.startFor core e = some t) : t.mem = s.mem := by
  unfold State.startFor at h
  split at h
  · split at h
    · cases h
    · obtain ⟨v, hv, hs⟩ := Option.bind_eq_some_iff.1 h
      split at hs <;> cases hs
      simpa using State.suspend_mem hv
  · cases h

@[simp] theorem State.taskStart_mem (s : State) (core : Nat) : (s.taskStart core).mem = s.mem := by
  unfold State.taskStart
  split
  · rfl
  · split
    · rfl
    · split
      · rfl
      · refine getD_mem (fun u hu => ?_) rfl
        obtain ⟨e, -, he⟩ := List.exists_of_findSome?_eq_some hu
        exact State.startFor_mem he

@[simp] theorem State.unsuspend_mem (s : State) : (s.unsuspend).mem = s.mem := by simp [State.unsuspend, apply_ite State.mem]

/-! ## Packets -/

@[simp] theorem State.putQueue_mem (s : State) (n : Nat) (q : Queue) : (s.putQueue n q).mem = s.mem := (rfl)
@[simp] theorem State.queueError_mem (s : State) (n : Nat) : (s.queueError n).mem = s.mem := by unfold State.queueError; split <;> rfl
@[simp] theorem State.openJob_mem (s : State) (n : Nat) (q : Queue) (i : Nat) (b : List Byte) (ph : Phase) :
    (s.openJob n q i b ph).1.mem = s.mem := (rfl)
@[simp] theorem State.packetHere_mem (s : State) (n : Nat) (q : Queue) (b : List Byte) : (s.packetHere n q b).mem = s.mem := by
  unfold State.packetHere; (repeat' split) <;> simp
@[simp] theorem State.packetRead_mem (s : State) (n : Nat) : (s.packetRead n).mem = s.mem := by
  unfold State.packetRead
  split
  · rfl
  · split
    · rfl
    · split
      next h => simpa using devPage_waits_mem h
      next h => simpa using devPage_refused_mem h
      next => dsimp only; split <;> simp

@[simp] theorem State.bind_mem (s : State) (n : Nat) : (s.bind n).mem = s.mem := by
  unfold State.bind
  split
  · rfl
  · dsimp only
    split <;> rfl

@[simp] theorem State.rebind_mem (s0 : State) : (s0.rebind).mem = s0.mem := by simp [State.rebind, foldl_mem]
@[simp] theorem State.startSequencers_mem (s : State) (j : Job) : (s.startSequencers j).mem = s.mem := by
  unfold State.startSequencers
  split
  · rfl
  · dsimp only
    split
    · simp
    · refine (foldl_mem (fun t c => ?_) _ _).trans (by simp)
      split
      · exact getD_mem (fun _ => State.clusterIn_mem) rfl
      · rfl

@[simp] theorem State.launchPacket_mem (s : State) (n : Nat) (q : Queue) (i : Nat) (b : List Byte) :
    (s.launchPacket n q i b).mem = s.mem := by
  unfold State.launchPacket
  split
  next h => simpa using State.dependency_refused_mem h
  next => dsimp only; split <;> simp

@[simp] theorem State.acceptLaunch_mem (s : State) (n : Nat) : (s.acceptLaunch n).mem = s.mem := by
  unfold State.acceptLaunch; (repeat' split) <;> simp
theorem State.dependencyMiss_mem {s t : State} {n : Nat} (h : s.dependencyMiss n = some t) : t.mem = s.mem := by
  unfold State.dependencyMiss at h
  split at h
  · cases h
  · split at h
    · cases h
    · split at h
      · cases h
      · split at h
        next hd => cases h; exact State.dependency_waits_mem hd
        next => cases h

@[simp] theorem State.endPacket_mem (s : State) (j : Job) (status : Nat) : (s.endPacket j status).mem = s.mem := (rfl)
@[simp] theorem State.launchEnd_mem (s : State) (j : Job) : (s.launchEnd j).mem = s.mem := by
  unfold State.launchEnd; split <;> simp [apply_ite State.mem]

/-! ## Partitions and images -/

@[simp] theorem State.partitionOut_mem (s : State) (j : Job) : (s.partitionOut j).mem = s.mem := by
  simp only [State.partitionOut, State.addImage_mem, State.onJob_mem]
  refine (foldl_mem (fun t g => by simp) _ _).trans ((foldl_mem (fun t m => ?_) _ _).trans (foldl_mem (fun t c => ?_) _ _))
  · split <;> simp
  · split
    · exact getD_mem (fun _ => State.clusterOut_mem) rfl
    · rfl

@[simp] theorem State.partitionIn_mem (s : State) (j : Job) : (s.partitionIn j).mem = s.mem := by
  unfold State.partitionIn
  split
  · simp
  · refine getD_mem (fun u hu => ?_) rfl
    refine foldl_bind_mem (fun t e v hv => ?_) _ (fun v hv => ?_) hu
    · obtain ⟨k, -, hk⟩ := Option.bind_eq_some_iff.1 hv
      exact State.clusterBack_mem hk
    · cases hv; simp

@[simp] theorem State.swap_mem (s : State) (job : Nat) : (s.swap job).mem = s.mem := by
  unfold State.swap
  split
  · rfl
  · dsimp only
    split_ifs <;> simp [foldl_mem]

@[simp] theorem State.anyDeques_mem (s : State) (j : Job) (first : Nat) : (s.anyDeques j first).mem = s.mem := (rfl)
@[simp] theorem State.anyPartition_mem (s : State) (j : Job) : (s.anyPartition j).mem = s.mem := (rfl)
@[simp] theorem State.moveImage_mem (s : State) (job ref : Nat) (place : ImagePlace) : (s.moveImage job ref place).mem = s.mem := by
  simp [State.moveImage, apply_ite State.mem]

/-! ## Folds, and stores of the device -/

theorem foldl_wf {α : Type} {f : State → α → State} (hf : ∀ t x, Memory.wf t.mem = true → Memory.wf (f t x).mem = true) (l : List α)
    {s : State} (h : Memory.wf s.mem = true) : Memory.wf (l.foldl f s).mem = true :=
  l.foldlRecOn f (motive := fun t => Memory.wf t.mem = true) h (fun t ht x _ => hf t x ht)

theorem foldl_fst_wf {α β : Type} {f : State × β → α → State × β}
    (hf : ∀ p x, Memory.wf p.1.mem = true → Memory.wf (f p x).1.mem = true) (l : List α) {p : State × β} (h : Memory.wf p.1.mem = true) :
    Memory.wf (l.foldl f p).1.mem = true :=
  l.foldlRecOn f (motive := fun q => Memory.wf q.1.mem = true) h (fun q hq x _ => hf q x hq)

@[simp] theorem State.storeNat_mem (s : State) (loc n x : Nat) : (s.storeNat loc n x).mem = memPut s.mem loc (leBytes n x) := (rfl)

@[simp] theorem State.devStore_wf {s : State} (pa n x : Nat) (h : Memory.wf s.mem = true) : Memory.wf (s.devStore pa n x).mem = true := by
  unfold State.devStore
  split <;> simp [memPut_wf, h]

@[simp] theorem State.devPut_wf {s : State} (pa : Nat) (bs : List Byte) (h : Memory.wf s.mem = true) :
    Memory.wf (s.devPut pa bs).mem = true := by
  unfold State.devPut
  split
  · exact foldl_wf (fun t i ht => t.devStore_wf _ _ _ ht) _ h
  · exact memPut_wf _ _ h

/-! ## Exceptions and the end of a launch -/

@[simp] theorem State.slotZero_wf {s : State} (j : Job) (rec : List Byte) (h : Memory.wf s.mem = true) :
    Memory.wf (s.slotZero j rec).mem = true := by
  unfold State.slotZero
  split
  · split
    · simp [h]
    · split
      next => simp [h]
      next hw => simp [devPage_waits_mem hw, h]
      next hr => simp [devPage_refused_mem hr, h]
  · split
    next => simp [h]
    next hw => simp [devPage_waits_mem hw, h]
    next hr => simp [devPage_refused_mem hr, h]

@[simp] theorem State.endJob_wf {s : State} (id status : Nat) (rec : List Byte) (h : Memory.wf s.mem = true) :
    Memory.wf (s.endJob id status rec).mem = true := by
  unfold State.endJob
  split
  · exact h
  · dsimp only
    split <;> simp [h]

@[simp] theorem State.takeIn_wf {s : State} (e : Exc) (slot : Nat) (h : Memory.wf s.mem = true) :
    Memory.wf (s.takeIn e slot).mem = true := by
  unfold State.takeIn
  split
  next hw => simp [devPage_waits_mem hw, h]
  next hr => simp [devPage_refused_mem hr, h]
  next => simp [h]

@[simp] theorem State.takeOr_wf {s : State} (e : Exc) (again : Option Exc) (h : Memory.wf s.mem = true) :
    Memory.wf (s.takeOr e again).mem = true := by
  unfold State.takeOr
  split
  · simp [h]
  · split <;> simp [h]

@[simp] theorem State.take_wf {s : State} (e : Exc) (h : Memory.wf s.mem = true) : Memory.wf (s.take e).mem = true :=
  s.takeOr_wf e _ h

@[simp] theorem State.stopFault_wf {s : State} (code detail : Nat) (addr : W64) (lane : Nat) (h : Memory.wf s.mem = true) :
    Memory.wf (s.stopFault code detail addr lane).mem = true := s.take_wf _ h

@[simp] theorem State.illegal_wf {s : State} (word : W32) (h : Memory.wf s.mem = true) : Memory.wf (s.illegal word).mem = true :=
  s.stopFault_wf _ _ _ _ h

@[simp] theorem State.deliver_wf {s : State} (e : Exc) (keep : List Pend) (h : Memory.wf s.mem = true) :
    Memory.wf (s.deliver e keep).mem = true := by
  unfold State.deliver
  dsimp only
  split <;> simp [h]

@[simp] theorem State.atDelivery_wf {s : State} {f : State → State} (hf : Memory.wf (f s).mem = true) (h : Memory.wf s.mem = true) :
    Memory.wf (s.atDelivery f).mem = true := by
  unfold State.atDelivery
  split
  · simp [h]
  · exact hf

@[simp] theorem State.spadUpset_wf {s : State} (addr : W64) (h : Memory.wf s.mem = true) : Memory.wf (s.spadUpset addr).mem = true :=
  s.endJob_wf _ _ _ h

@[simp] theorem State.lostStore_wf {s : State} (addr : W64) (h : Memory.wf s.mem = true) : Memory.wf (s.lostStore addr).mem = true :=
  s.endJob_wf _ _ _ h

@[simp] theorem State.boundaryFault_wf {s : State} (code : Nat) (h : Memory.wf s.mem = true) :
    Memory.wf (s.boundaryFault code).mem = true := s.takeOr_wf _ _ h

@[simp] theorem State.absent_wf {s : State} (w : Wait) (h : Memory.wf s.mem = true) : Memory.wf (s.absent w).mem = true := by
  unfold State.absent
  split
  · simp [h]
  · simp [h]
  · split <;> simp [h]
  · exact h

/-! ## Accesses of an instruction -/

@[simp] theorem State.storeGranule_wf {s : State} (loc : Nat) (addr : W64) (bs : List Byte) (h : Memory.wf s.mem = true) :
    Memory.wf (s.storeGranule loc addr bs).mem = true := by
  unfold State.storeGranule
  split <;> simp [memPut_wf, h]

@[simp] theorem State.storeTo_wf {s : State} (k : Acc) (t : Target) (addr : W64) (bs : List Byte) (h : Memory.wf s.mem = true) :
    Memory.wf (s.storeTo k t addr bs).mem = true := by
  unfold State.storeTo
  split
  · split_ifs <;> simp [memPut_wf, h]
  · simp [h]
  · exact h

theorem State.gate_wf {s t : State} {l : List LaneAcc} (h : Memory.wf s.mem = true) (hg : s.gate l = some t) : Memory.wf t.mem = true := by
  unfold State.gate at hg
  dsimp only at hg
  split at hg
  · cases hg; simp [h]
  · split at hg
    · cases hg; simp [h]
    · split at hg
      · cases hg; simp [h]
      · obtain ⟨a, -, rfl⟩ := Option.map_eq_some_iff.1 hg
        simp [h]

theorem State.groupGate_wf {s t : State} {a : LaneAcc} (h : Memory.wf s.mem = true) (hg : s.groupGate a = some t) :
    Memory.wf t.mem = true := by
  unfold State.groupGate at hg
  split at hg
  · cases hg; simp [h]
  · exact State.gate_wf h hg

theorem State.gather_wf {s t : State} {l : List LaneAcc} (h : Memory.wf s.mem = true) (hg : s.gather l = .error t) :
    Memory.wf t.mem = true := by
  unfold State.gather at hg
  dsimp only at hg
  split at hg
  · cases hg; simp [h]
  · split at hg <;> cases hg
    simp [h]

@[simp] theorem State.laneLoad_wf {s : State} (k : Acc) (mask : W32) (size : Nat) (addr : Nat → W64)
    (put : Group → W32 → (Nat → Nat) → Group) (h : Memory.wf s.mem = true) : Memory.wf (s.laneLoad k mask size addr put).mem = true := by
  unfold State.laneLoad
  dsimp only
  split
  next hg => exact State.gate_wf h hg
  next =>
    split
    next hg => exact State.gather_wf h hg
    next =>
      simp only [State.finish_mem]
      split <;> simp [h]

@[simp] theorem State.laneStore_wf {s : State} (k : Acc) (mask : W32) (size : Nat) (addr : Nat → W64) (data : Nat → Nat)
    (h : Memory.wf s.mem = true) : Memory.wf (s.laneStore k mask size addr data).mem = true := by
  unfold State.laneStore
  dsimp only
  split
  next hg => exact State.gate_wf h hg
  next =>
    split
    next => simp [h]
    next =>
      simp only [State.finish_mem, State.laneFaults_mem]
      refine foldl_wf (fun t a ht => ?_) _ h
      split_ifs <;> simp [ht]

@[simp] theorem State.groupLoad_wf {s : State} (k : Acc) (ea : W64) (size : Nat) (put : Group → Nat → Group)
    (h : Memory.wf s.mem = true) : Memory.wf (s.groupLoad k ea size put).mem = true := by
  unfold State.groupLoad
  dsimp only
  split
  next hg => exact State.groupGate_wf h hg
  next =>
    split
    next hg => exact State.gather_wf h hg
    next => simp [apply_ite State.mem, h]

@[simp] theorem State.groupStore_wf {s : State} (k : Acc) (ea : W64) (size data : Nat) (h : Memory.wf s.mem = true) :
    Memory.wf (s.groupStore k ea size data).mem = true := by
  unfold State.groupStore
  dsimp only
  split
  next hg => exact State.groupGate_wf h hg
  next =>
    split
    next => simp [h]
    next =>
      simp only [State.finish_mem]
      split <;> simp [h]

@[simp] theorem atomLane_wf (g : Group) (c : BitVec 5) (d : BitVec 7) {p : State × List (Nat × Nat)} (a : LaneAcc)
    (h : Memory.wf p.1.mem = true) : Memory.wf (atomLane g c d p a).1.mem = true := by
  unfold atomLane
  split
  · dsimp only
    split <;> simp [memPut_wf, h]
  · exact h
  · exact h

@[simp] theorem redLane_wf (g : Group) (c : BitVec 5) (d : BitVec 7) {s : State} (a : LaneAcc) (h : Memory.wf s.mem = true) :
    Memory.wf (redLane g c d s a).mem = true := by
  unfold redLane
  dsimp only
  split
  · split_ifs <;> simp [memPut_wf, h]
  · simp [h]
  · exact h

@[simp] theorem regionStep_wf {p : State × List (Nat × W64)} (x : RegionAcc × Target) (h : Memory.wf p.1.mem = true) :
    Memory.wf (regionStep p x).1.mem = true := by
  unfold regionStep
  dsimp only
  split <;> split_ifs <;> simp [memPut_wf, h]

@[simp] theorem State.regionAdd_wf {s : State} (r : Region) (word : W32) (live : Bool) (e : RegionAcc) (h : Memory.wf s.mem = true) :
    Memory.wf (s.regionAdd r word live e).mem = true := by
  unfold State.regionAdd
  split_ifs <;> simp [h]

/-! ## Branches, repeats and control registers -/

@[simp] theorem State.branch_wf {s : State} (word chk : W32) (dest : Nat → W64) (link : Group → Group) (h : Memory.wf s.mem = true) :
    Memory.wf (s.branch word chk dest link).mem = true := by
  unfold State.branch
  split
  · simp [h]
  · split
    · simp [h]
    · simp [h]
    · split <;> simp [h]

@[simp] theorem State.goto_wf {s : State} (word : W32) (t : W64) (link : Group → Group) (h : Memory.wf s.mem = true) :
    Memory.wf (s.goto word t link).mem = true := by
  unfold State.goto
  split <;> simp [h]

@[simp] theorem State.repStart_wf {s : State} (ctl : W32) (done left : Nat) (h : Memory.wf s.mem = true) :
    Memory.wf (s.repStart ctl done left).mem = true := by
  unfold State.repStart
  dsimp only
  split
  · simp [h]
  · split
    · simp [h]
    · split <;> split_ifs <;> simp [h]

@[simp] theorem State.setWbase_wf {s : State} (x : Nat) (h : Memory.wf s.mem = true) : Memory.wf (s.setWbase x).mem = true := by
  unfold State.setWbase
  split <;> simp [h]

@[simp] theorem tileForm_wf (t : BitVec 3) {f : W32 → State → State} (m : W32) {s : State} (hf : Memory.wf (f m s).mem = true)
    (h : Memory.wf s.mem = true) : Memory.wf (tileForm t f m s).mem = true := by
  unfold tileForm
  split
  · simp [h]
  · exact hf

/-! ## Barriers and casks -/

@[simp] theorem State.barMember_wf {s : State} (cause : Nat) (h : Memory.wf s.mem = true) : Memory.wf (s.barMember cause).mem = true :=
  s.stopFault_wf _ _ _ _ h

@[simp] theorem State.bara_wf {s : State} (d n : BitVec 7) (h : Memory.wf s.mem = true) : Memory.wf (s.bara d n).mem = true := by
  unfold State.bara
  dsimp only
  split_ifs <;> simp [h]

@[simp] theorem State.barm_wf {s : State} (a n : BitVec 7) (h : Memory.wf s.mem = true) : Memory.wf (s.barm a n).mem = true := by
  unfold State.barm
  dsimp only
  split_ifs <;> simp [h]

@[simp] theorem State.bbUpdate_wf {s : State} (job team off dexp darr cause : Nat) (h : Memory.wf s.mem = true) :
    Memory.wf (s.bbUpdate job team off dexp darr cause).mem = true := by
  unfold State.bbUpdate
  dsimp only
  split <;> simp [memPut_wf, h]

@[simp] theorem State.withBarrier_wf {s : State} (va : W64) {f : Nat → Nat → State → State}
    (hf : ∀ team off, Memory.wf (f team off s).mem = true) (h : Memory.wf s.mem = true) : Memory.wf (s.withBarrier va f).mem = true := by
  unfold State.withBarrier
  split
  · exact hf _ _
  · simp [h]
  · simp [h]

@[simp] theorem State.onWord_wf {s : State} (va : W64) (team off : Nat) {f : State → State} (hf : Memory.wf (f s).mem = true)
    (h : Memory.wf s.mem = true) : Memory.wf (s.onWord va team off f).mem = true := by
  unfold State.onWord
  split
  · simp [h]
  · exact hf

@[simp] theorem State.caskFail_wf {s : State} (h : Memory.wf s.mem = true) : Memory.wf s.caskFail.mem = true := s.stopFault_wf _ _ _ _ h

@[simp] theorem State.ckinit_wf {s : State} (a : BitVec 7) (n : Nat) (h : Memory.wf s.mem = true) : Memory.wf (s.ckinit a n).mem = true := by
  simp only [State.ckinit]
  split_ifs
  · exact s.caskFail_wf h
  · simp only [State.finish_mem, State.putCask_mem]
    exact foldl_wf (fun t i ht => storeNat_wf _ _ _ ht) _ h

@[simp] theorem State.withCask_wf {s : State} (c n : Nat) {f : Nat → Cask → State → State}
    (hf : ∀ team k, Memory.wf (f team k s).mem = true) (h : Memory.wf s.mem = true) : Memory.wf (s.withCask c n f).mem = true := by
  unfold State.withCask
  dsimp only
  split
  · split
    · split_ifs
      · exact s.caskFail_wf h
      · split
        · exact s.caskFail_wf h
        · exact hf _ _
    · simp [h]
  · exact s.caskFail_wf h
  · split_ifs
    · exact s.caskFail_wf h
    · split
      · exact s.caskFail_wf h
      · exact hf _ _

@[simp] theorem State.ckMove_wf {s : State} (team n : Nat) (k : Cask) (a : BitVec 7) (old new : SlotState) (h : Memory.wf s.mem = true) :
    Memory.wf (s.ckMove team n k a old new).mem = true := by
  unfold State.ckMove
  dsimp only
  split <;> simp [h]

/-! ## Tasks, budgets and reducers -/

@[simp] theorem State.spawn_wf {s : State} (word : W32) (d a b : BitVec 7) (h : Memory.wf s.mem = true) :
    Memory.wf (s.spawn word d a b).mem = true := by
  unfold State.spawn
  dsimp only
  split
  · simp [h]
  · split
    · simp [h]
    · split_ifs <;> simp [h]

@[simp] theorem State.allocHeap_wf {s : State} (d a : BitVec 7) (h : Memory.wf s.mem = true) : Memory.wf (s.allocHeap d a).mem = true := by
  unfold State.allocHeap
  dsimp only
  split <;> simp [h]

@[simp] theorem State.allocLog_wf {s : State} (d a : BitVec 7) (h : Memory.wf s.mem = true) : Memory.wf (s.allocLog d a).mem = true := by
  unfold State.allocLog
  dsimp only
  split
  · simp [h]
  · split
    next => simp [h]
    next =>
      split
      next hg => exact State.gate_wf h hg
      next =>
        split
        next => simp [h]
        next =>
          simp only [State.finish_mem, State.setCur_mem]
          refine foldl_wf (fun t x ht => ?_) _ h
          split <;> simp [ht]

@[simp] theorem State.rdecl_wf {s : State} (word : W32) (a n : BitVec 7) (h : Memory.wf s.mem = true) :
    Memory.wf (s.rdecl word a n).mem = true := by
  simp only [State.rdecl]
  split
  · simp [h]
  · split
    next hg => exact State.gate_wf h hg
    next =>
      split
      next => split_ifs <;> simp [h]
      next => simp [h]

@[simp] theorem State.noPlace_wf {s : State} (h : Memory.wf s.mem = true) : Memory.wf s.noPlace.mem = true := by
  unfold State.noPlace
  dsimp only
  split <;> simp [h]

@[simp] theorem State.newView_wf {s : State} (n va : Nat) (h : Memory.wf s.mem = true) : Memory.wf (s.newView n va).mem = true := by
  simp [State.newView, memPut_wf, h]

@[simp] theorem State.rview_wf {s : State} (word : W32) (d n : BitVec 7) (h : Memory.wf s.mem = true) :
    Memory.wf (s.rview word d n).mem = true := by
  unfold State.rview
  dsimp only
  split
  · simp [h]
  · split
    · simp [h]
    · split
      · simp [h]
      · simp only [State.finish_mem, State.setCur_mem]
        split <;> simp [h]

@[simp] theorem State.combineViews_wf {s : State} (b : List Byte) (left right : View) (h : Memory.wf s.mem = true) :
    Memory.wf (s.combineViews b left right).mem = true := foldl_wf (fun _ _ ht => storeNat_wf _ _ _ ht) _ h

@[simp] theorem State.foldOne_wf {s : State} (n : Nat) (vs : List View) (h : Memory.wf s.mem = true) :
    Memory.wf (s.foldOne n vs).1.mem = true := by
  unfold State.foldOne
  split
  · exact h
  · exact foldl_wf (fun t r ht => t.combineViews_wf _ _ _ ht) _ h

@[simp] theorem State.joinMerge_wf {s : State} (h : Memory.wf s.mem = true) : Memory.wf s.joinMerge.1.mem = true := by
  unfold State.joinMerge
  refine foldl_fst_wf (fun p n hp => ?_) _ h
  exact p.1.foldOne_wf n _ hp

@[simp] theorem State.joined_wf {s : State} (p : W64 × W64) (h : Memory.wf s.mem = true) : Memory.wf (s.joined p).mem = true := by
  unfold State.joined
  rw [foldl_mem State.placeFold_mem]
  simp [h]

@[simp] theorem State.joinThen_wf {s : State} {f : State → State} (hf : ∀ t, Memory.wf t.mem = true → Memory.wf (f t).mem = true)
    (h : Memory.wf s.mem = true) : Memory.wf (s.joinThen f).mem = true := by
  unfold State.joinThen
  split
  · simp [h]
  · split_ifs
    · simp [h]
    · simp [h]
    · exact hf _ (s.joined_wf _ h)

@[simp] theorem State.deliverLane_wf {s : State} (p : Pend) (h : Memory.wf s.mem = true) : Memory.wf (s.deliverLane p).mem = true :=
  s.deliver_wf _ _ h

@[simp] theorem State.exitLast_wf {s : State} (h : Memory.wf s.mem = true) : Memory.wf s.exitLast.mem = true := by
  unfold State.exitLast
  dsimp only
  split <;> simp [h]

@[simp] theorem State.exit_wf {s : State} (h : Memory.wf s.mem = true) : Memory.wf s.exit.mem = true := by
  unfold State.exit
  split
  · refine State.atDelivery_wf ?_ (by simp [h])
    split
    · exact s.exitLast_wf h
    · exact s.joinThen_wf (fun t ht => t.exitLast_wf ht) h
  · simp [h]

/-! ## Engine operations

An operation moves its elements by a `Perform`; each of the model's keeps the form, so any number of them in any order does. -/

@[simp] theorem copyElem_wf {t : State} (x : Nat) (dst : EngTarget) (e : Elem) (h : Memory.wf t.mem = true) :
    Memory.wf (copyElem t x dst e).mem = true := by
  unfold copyElem
  split <;> simp [memPut_wf, h]

@[simp] theorem copySix_wf {t : State} (x : Nat) (dst : EngTarget) (e : Elem) (h : Memory.wf t.mem = true) :
    Memory.wf (copySix t x dst e).mem = true := copyElem_wf _ dst e h

@[simp] theorem reduceElem_wf (jid gid rop rtype : Nat) (pdh pdl : W64) {t : State} (x : Nat) (dst : EngTarget) (e : Elem)
    (h : Memory.wf t.mem = true) : Memory.wf (reduceElem jid gid rop rtype pdh pdl t x dst e).mem = true := by
  unfold reduceElem
  dsimp only
  split
  · split
    · rw [getD_mem (s := t) (fun u hu => ?_) (by simp)]
      · exact h
      · split at hu
        · exact State.appendPartial_mem hu
        · exact State.appendAdd_mem hu
    · exact storeNat_wf _ _ _ h
  · exact h

@[simp] theorem EngOp.perform_wf (o : EngOp) {t : State} (x : Nat) (dst : EngTarget) (e : Elem) (h : Memory.wf t.mem = true) :
    Memory.wf (o.perform t x dst e).mem = true := by
  unfold EngOp.perform
  cases o.kind with
  | reduce _ _ _ rop rtype => exact reduceElem_wf _ _ _ _ _ _ x dst e h
  | box b _ _ _ =>
    dsimp only
    split
    · exact copySix_wf x dst e h
    · exact copyElem_wf x dst e h
  | _ => exact copyElem_wf x dst e h

@[simp] theorem Armed.perform_wf (job : Nat) (a : Armed) {t : State} (x : Nat) (dst : EngTarget) (e : Elem) (h : Memory.wf t.mem = true) :
    Memory.wf (a.perform job t x dst e).mem = true := by
  unfold Armed.perform
  split <;> simp [h]

theorem moveOne_wf {s0 : State} {bad : Bool} {f : Perform} (hf : ∀ t x dst e, Memory.wf t.mem = true → Memory.wf (f t x dst e).mem = true)
    (p : State × Nat) (a : Aimed) (h : Memory.wf p.1.mem = true) : Memory.wf (moveOne s0 bad f p a).1.mem = true := by
  unfold moveOne
  split
  · exact h
  · exact hf _ _ _ _ h

theorem State.moveAll_wf {s : State} {listed : Bool} {l : List Aimed} {f : Perform}
    (hf : ∀ t x dst e, Memory.wf t.mem = true → Memory.wf (f t x dst e).mem = true) (h : Memory.wf s.mem = true) :
    Memory.wf (s.moveAll listed l f).1.mem = true := by
  unfold State.moveAll
  exact foldl_fst_wf (p := (s, 0)) (moveOne_wf hf) _ h

@[simp] theorem State.withCompletion_wf {s : State} (x : Nat) {f : Nat → Nat → State} (hf : ∀ team off, Memory.wf (f team off).mem = true)
    (h : Memory.wf s.mem = true) : Memory.wf (s.withCompletion x f).mem = true := by
  unfold State.withCompletion
  split
  · exact hf _ _
  · simp [h]
  · simp [h]

@[simp] theorem State.arrive_wf {s : State} (o : EngOp) (bytes cause : Nat) (h : Memory.wf s.mem = true) :
    Memory.wf (s.arrive o bytes cause).mem = true := by
  unfold State.arrive
  simp only [State.teamEnd_mem]
  split_ifs <;> simp [h]

@[simp] theorem State.boxWord_wf {s : State} (o : EngOp) (l : List Aimed) (k : Nat) (h : Memory.wf s.mem = true) :
    Memory.wf (s.boxWord o l k).1.mem = true := by
  have hw : ∀ g : List Aimed, Memory.wf (g.foldl (fun t a => o.perform t (s.readElem a) a.dst a.elem) s).mem = true :=
    fun g => foldl_wf (fun t a ht => o.perform_wf _ _ _ ht) g h
  unfold State.boxWord
  dsimp only
  split <;> exact hw _

@[simp] theorem State.boxAll_wf {s : State} (o : EngOp) (h : Memory.wf s.mem = true) : Memory.wf (s.boxAll o).1.mem = true := by
  unfold State.boxAll
  refine foldl_fst_wf (fun p x hp => ?_) _ h
  split
  · exact hp
  · exact p.1.boxWord_wf _ _ _ hp

@[simp] theorem State.arriveAll_wf {s : State} (o : EngOp) (h : Memory.wf s.mem = true) : Memory.wf (s.arriveAll o).mem = true := by
  unfold State.arriveAll
  dsimp only
  split
  next hw => simp [State.engWaits_mem hw, h]
  next =>
    refine State.arrive_wf _ _ _ ?_
    split
    · exact s.boxAll_wf o h
    · exact State.moveAll_wf (fun t x dst e ht => o.perform_wf x dst e ht) h

@[simp] theorem State.engineArrival_wf {s : State} (id : Nat) (h : Memory.wf s.mem = true) : Memory.wf (s.engineArrival id).mem = true := by
  unfold State.engineArrival
  split
  · exact h
  · split
    · exact h
    · split
      · exact h
      · dsimp only
        split
        · split_ifs <;> simp [h]
        · simp [h]
        · simp [h]
        · exact h
      · simp [h]

@[simp] theorem State.opElement_wf {s : State} (o : EngOp) (k : Nat) (h : Memory.wf s.mem = true) : Memory.wf (s.opElement o k).mem = true := by
  unfold State.opElement
  split
  · exact h
  · split
    · split
      · split <;> simp [h]
      · exact h
    · dsimp only
      split <;> simp [h]
    · split
      · split <;> simp [h]
      · exact h

@[simp] theorem State.completeArmed_wf {s : State} (job : Nat) (a : Armed) (cause : Nat) (h : Memory.wf s.mem = true) :
    Memory.wf (s.completeArmed job a cause).mem = true := by
  unfold State.completeArmed
  dsimp only
  split
  · split_ifs <;> simp [h]
  · split_ifs <;> simp [h]

@[simp] theorem State.triggered_wf {s : State} (j : Job) (a : Armed) (h : Memory.wf s.mem = true) : Memory.wf (s.triggered j a).mem = true := by
  unfold State.triggered
  dsimp only
  split_ifs
  · exact h
  · simp [h]
  · split
    next hw => simp [State.engWaits_mem hw, h]
    next => exact State.completeArmed_wf _ _ _ (State.moveAll_wf (fun t x dst e ht => a.perform_wf j.id x dst e ht) h)

@[simp] theorem State.armedElement_wf {s : State} (j : Job) (a : Armed) (k : Nat) (h : Memory.wf s.mem = true) :
    Memory.wf (s.armedElement j a k).mem = true := by
  unfold State.armedElement
  split
  · exact h
  · split
    · exact h
    · split
      · exact h
      · dsimp only
        split <;> simp [h]

@[simp] theorem State.element_wf {s : State} (op k : Nat) (h : Memory.wf s.mem = true) : Memory.wf (s.element op k).mem = true := by
  unfold State.element
  split <;> simp [h]

@[simp] theorem State.trigDesc_wf {s : State} (gp : Nat) (desc : W64) (b : List Byte) (h : Memory.wf s.mem = true) :
    Memory.wf (s.trigDesc gp desc b).mem = true := by
  unfold State.trigDesc
  split_ifs <;> simp [h]

/-! ## Page requests and commands of the driver -/

@[simp] theorem State.refuse_wf {s : State} (page : Nat) (o : Owner) (h : Memory.wf s.mem = true) : Memory.wf (s.refuse page o).mem = true := by
  unfold State.refuse
  split
  · split <;> simp [h]
  · exact h
  · exact h
  · exact h

@[simp] theorem State.respond_wf {s : State} (r : PageReq) (answer : Nat) (h : Memory.wf s.mem = true) :
    Memory.wf (s.respond r answer).mem = true := by
  unfold State.respond
  dsimp only
  split
  · exact h
  · exact foldl_wf (fun t o ht => t.refuse_wf _ _ ht) _ h

@[simp] theorem State.sendRequest_wf {s : State} (r : PageReq) (h : Memory.wf s.mem = true) : Memory.wf (s.sendRequest r).mem = true :=
  memPut_wf _ _ h

theorem State.command_wf {s t : State} {i : Instr} (h : Memory.wf s.mem = true) (hc : s.command i = some t) : Memory.wf t.mem = true := by
  unfold State.command at hc
  split at hc
  case h_1 => split at hc <;> cases hc; simpa using h
  case h_2 =>
    obtain ⟨q, -, rfl⟩ := Option.map_eq_some_iff.1 hc
    simpa using h
  case h_3 =>
    obtain ⟨q, -, rfl⟩ := Option.map_eq_some_iff.1 hc
    simpa using h
  case h_4 =>
    obtain ⟨q, -, rfl⟩ := Option.map_eq_some_iff.1 hc
    refine foldl_wf (fun t id ht => ?_) _ h
    split
    · split <;> simp [ht]
    · exact ht
  case h_5 => split at hc <;> cases hc; exact h
  case h_6 => cases hc; exact h
  case h_7 =>
    split at hc
    · split at hc <;> cases hc; simp [h]
    · cases hc
  case h_8 => cases hc

@[simp] theorem State.putStatus_wf {s : State} (va status : Nat) (h : Memory.wf s.mem = true) : Memory.wf (s.putStatus va status).mem = true := by
  simp only [State.putStatus]
  split <;> simp [h]

@[simp] theorem State.cmdDone_wf {s : State} (i : Instr) (status : Nat) (h : Memory.wf s.mem = true) :
    Memory.wf (s.cmdDone i status).mem = true := by
  unfold State.cmdDone
  refine State.putStatus_wf _ _ ?_
  split
  · split <;> exact h
  · exact h

@[simp] theorem State.runCommand_wf {s : State} (i : Instr) (h : Memory.wf s.mem = true) : Memory.wf (s.runCommand i).mem = true := by
  unfold State.runCommand
  split
  next => simp [h]
  next t hc =>
    have ht : Memory.wf t.mem = true := by
      split at hc
      · cases hc
      · exact State.command_wf h hc
    split <;> simp [ht]

@[simp] theorem State.drainCommands_wf (n : Nat) {s : State} (h : Memory.wf s.mem = true) : Memory.wf (State.drainCommands n s).mem = true := by
  induction n generalizing s with
  | zero => exact h
  | succ n ih =>
    unfold State.drainCommands
    split
    · exact h
    · split
      · exact h
      · exact ih (State.runCommand_wf _ h)

@[simp] theorem State.nextCommand_wf {s : State} (h : Memory.wf s.mem = true) : Memory.wf s.nextCommand.mem = true := by
  have hr : ∀ off x, Memory.wf (s.setReg64 off x).mem = true := fun _ _ => by simp [h]
  simp only [State.nextCommand]
  split
  · simp [h]
  · simp only [State.idle_mem]
    split
    · exact State.runCommand_wf _ (hr _ _)
    · exact State.putStatus_wf _ _ (hr _ _)

@[simp] theorem State.submit_wf {s : State} (i : Instr) (h : Memory.wf s.mem = true) : Memory.wf (s.submit i).mem = true := by
  unfold State.submit
  simp only [State.idle_mem]
  split <;> simp [h]

@[simp] theorem State.outsideWrite_wf {s : State} (pa : Nat) (data : List Byte) (h : Memory.wf s.mem = true) :
    Memory.wf (s.outsideWrite pa data).mem = true := by
  unfold State.outsideWrite
  split_ifs <;> simp [memPut_wf, h]

/-! ## The matrix engine -/

@[simp] theorem State.push_wf {s : State} (i : Instr) (r : BitVec 7) (m : W32) (f : Nat → W32) (h : Memory.wf s.mem = true) :
    Memory.wf (s.push i r m f).mem = true := by
  unfold State.push
  dsimp only
  split_ifs <;> simp [h]

@[simp] theorem State.pop_wf {s : State} (i : Instr) (m : W32) (write : Group → (Nat → W32) → Group) (h : Memory.wf s.mem = true) :
    Memory.wf (s.pop i m write).mem = true := by
  unfold State.pop
  split_ifs
  · simp [h]
  · simp [h]
  · split <;> simp [h]

@[simp] theorem State.vgLimit_wf {s : State} (cause col word : Nat) (h : Memory.wf s.mem = true) :
    Memory.wf (s.vgLimit cause col word).mem = true := s.stopFault_wf _ _ _ _ h

@[simp] theorem State.withOperand_wf {s : State} (va : W64) (n : Nat) {f : List Byte → State} (hf : ∀ b, Memory.wf (f b).mem = true)
    (h : Memory.wf s.mem = true) : Memory.wf (s.withOperand va n f).mem = true := by
  unfold State.withOperand
  split
  · split
    · simp [h]
    · split
      · simp [h]
      · exact hf _
  · simp [h]
  · simp [h]

@[simp] theorem State.listCheck_wf {s : State} (list : Option Nat) (b : List Byte) {go : State} (hg : Memory.wf go.mem = true)
    (h : Memory.wf s.mem = true) : Memory.wf (s.listCheck list b go).mem = true := by
  unfold State.listCheck
  split
  · exact hg
  · split
    · simp [h]
    · exact hg

@[simp] theorem State.fetchRows_wf {s : State} (dreg d n : Nat) (list : Option Nat) {go : State → State}
    (hg : ∀ t, Memory.wf t.mem = true → Memory.wf (go t).mem = true) (h : Memory.wf s.mem = true) :
    Memory.wf (s.fetchRows dreg d n list go).mem = true := by
  have hu : Memory.wf (s.markBst (mdB d == 0)).mem = true := by simp [h]
  simp only [State.fetchRows]
  generalize s.markBst (mdB d == 0) = u at hu ⊢
  have he : ∀ e, Memory.wf (u.putEngine e).mem = true := fun e => by simp [hu]
  split
  · exact hg _ hu
  · split
    · exact State.listCheck_wf _ _ (hg _ (he _)) hu
    · exact State.withOperand_wf _ _ (fun b => State.listCheck_wf _ _ (hg _ (he _)) hu) hu
    · generalize (if list.isSome then u.engine.pull 0 1 else u.engine) = e1
      split
      · exact he e1
      · refine State.listCheck_wf _ _ ?_ (he e1)
        split
        · exact he e1
        · exact hg _ (he e1)

@[simp] theorem State.fetchQueue_wf {s : State} (q n : Nat) {go : State → State}
    (hg : ∀ t, Memory.wf t.mem = true → Memory.wf (go t).mem = true) (h : Memory.wf s.mem = true) :
    Memory.wf (s.fetchQueue q n go).mem = true := by
  unfold State.fetchQueue
  dsimp only
  split
  · simp [h]
  · exact hg _ (by simp [h])

@[simp] theorem State.mmaRun_wf {s : State} (word : W32) (fa fb bank dreg d : Nat) (list : Bool) (h : Memory.wf s.mem = true) :
    Memory.wf (s.mmaRun word fa fb bank dreg d list).mem = true := by
  unfold State.mmaRun
  split
  · simp [h]
  · exact State.fetchRows_wf _ _ _ _ (fun t ht => State.fetchQueue_wf _ _ (fun u hu => by simp [hu]) ht) h

@[simp] theorem State.vgPop_wf (fa fb q d j n : Nat) {s : State} (h : Memory.wf s.mem = true) :
    Memory.wf (s.vgPop fa fb q d j n).1.mem = true := by
  induction n generalizing s with
  | zero => exact h
  | succ n ih =>
    unfold State.vgPop
    dsimp only
    split
    · simp [h]
    · simp [h]
    · split
      · simp [h]
      · exact ih (by simp [h])

@[simp] theorem State.vgQueue_wf (fa fb q d n : Nat) {s : State} (h : Memory.wf s.mem = true) :
    Memory.wf (s.vgQueue fa fb q d n).mem = true := by
  induction n generalizing s with
  | zero => simp [State.vgQueue, h]
  | succ n ih =>
    unfold State.vgQueue
    dsimp only
    split
    · exact ih (by simp [h])
    · simp [h]

@[simp] theorem State.mmavRun_wf {s : State} (word : W32) (fa fb q dreg d : Nat) (h : Memory.wf s.mem = true) :
    Memory.wf (s.mmavRun word fa fb q dreg d).mem = true := by
  unfold State.mmavRun
  dsimp only
  split
  · simp [h]
  · split
    · simp [h]
    · split
      · simp [h]
      · split
        · simp [h]
        · refine State.fetchRows_wf _ _ _ _ (fun t ht => ?_) h
          split <;> simp [ht]

/-! ## Packets and the end of a launch -/

@[simp] theorem State.headPublish_wf {s : State} (n : Nat) (h : Memory.wf s.mem = true) : Memory.wf (s.headPublish n).mem = true := by
  unfold State.headPublish
  split
  · exact h
  · split
    · exact h
    · dsimp only
      split
      next hw => simp [devPage_waits_mem hw, h]
      next hr => simp [devPage_refused_mem hr, h]
      next => split <;> simp [h]

@[simp] theorem State.withPacket_wf {s : State} (n type : Nat) {start : Queue → Nat → List Byte → State} {go : State → Job → State}
    (hs : ∀ q i b, Memory.wf (start q i b).mem = true) (hg : ∀ j, Memory.wf (go s j).mem = true) (h : Memory.wf s.mem = true) :
    Memory.wf (s.withPacket n type start go).mem = true := by
  unfold State.withPacket
  split
  · exact h
  · dsimp only
    split
    · exact hg _
    · exact hs _ _ _
    · exact h

@[simp] theorem State.startPacket_wf {s : State} (n : Nat) (q : Queue) (i : Nat) (b : List Byte) (bad : Bool) {go : State → Job → State}
    (hg : ∀ t j, Memory.wf t.mem = true → Memory.wf (go t j).mem = true) (h : Memory.wf s.mem = true) :
    Memory.wf (s.startPacket n q i b bad go).mem = true := by
  unfold State.startPacket
  dsimp only
  split
  · simp [h]
  · exact hg _ _ (by simp [h])

@[simp] theorem State.copyRun_wf {s : State} (j : Job) (h : Memory.wf s.mem = true) : Memory.wf (s.copyRun j).mem = true := by
  unfold State.copyRun
  dsimp only
  split
  next hw => simp [State.engWaits_mem hw, h]
  next =>
    simp only [State.endPacket_mem, State.forget_mem]
    exact State.moveAll_wf (fun t x dst e ht => copyElem_wf x dst e ht) h

@[simp] theorem State.withSignal_wf {s : State} (j : Job) (write : Bool) {wait : State → State} {f : Nat → State}
    (hw : ∀ t, Memory.wf t.mem = true → Memory.wf (wait t).mem = true) (hf : ∀ loc, Memory.wf (f loc).mem = true) (h : Memory.wf s.mem = true) :
    Memory.wf (s.withSignal j write wait f).mem = true := by
  unfold State.withSignal
  dsimp only
  split
  · simp [h]
  · split
    next hp => exact hw _ (by simp [devPage_waits_mem hp, h])
    next hp => simp [devPage_refused_mem hp, h]
    next =>
      split
      · simp [h]
      · exact hf _

@[simp] theorem State.waitRun_wf {s : State} (j : Job) (h : Memory.wf s.mem = true) : Memory.wf (s.waitRun j).mem = true :=
  State.withSignal_wf _ _ (fun _ ht => ht) (fun loc => by split <;> simp [h]) h

@[simp] theorem State.setRun_wf {s : State} (j : Job) (h : Memory.wf s.mem = true) : Memory.wf (s.setRun j).mem = true :=
  State.withSignal_wf _ _ (fun _ ht => ht) (fun loc => by simp [h]) h

theorem State.foldFrom_wf (j : Job) (v : View) (b : List Byte) (n k : Nat) {s : State} (h : Memory.wf s.mem = true) :
    Memory.wf (s.foldFrom j v b n k).1.mem = true := by
  induction n generalizing s k with
  | zero => exact h
  | succ n ih =>
    unfold State.foldFrom
    dsimp only
    split
    next hw => simp [devPage_waits_mem hw, h]
    next hr => simp [devPage_refused_mem hr, h]
    next =>
      split
      · simp [h]
      · split
        · simp [h]
        · split
          · simp [h]
          · exact ih _ (by simp [h])

@[simp] theorem State.rootFold_wf {s : State} (j : Job) (h : Memory.wf s.mem = true) : Memory.wf (s.rootFold j).mem = true := by
  unfold State.rootFold
  split
  · exact h
  · dsimp only
    split
    · simp [h]
    · simp only [State.idle_mem]
      split <;> simp [State.foldFrom_wf, h]

@[simp] theorem State.lostAdd_wf {s : State} (id lane : Nat) (pdl pdh : W64) (h : Memory.wf s.mem = true) :
    Memory.wf (s.lostAdd id lane pdl pdh).mem = true := s.endJob_wf _ _ _ h

@[simp] theorem State.addAt_wf {s : State} (id loc width x lane : Nat) (pdl pdh : W64) (h : Memory.wf s.mem = true) :
    Memory.wf (s.addAt id loc width x lane pdl pdh).mem = true := by
  unfold State.addAt
  split_ifs <;> simp [memPut_wf, h]

@[simp] theorem State.applyPartials_wf {s : State} (j : Job) (loc width : Nat) (h : Memory.wf s.mem = true) :
    Memory.wf (s.applyPartials j loc width).mem = true := by
  unfold State.applyPartials
  dsimp only
  split <;> simp [h]

@[simp] theorem State.applyAdds_wf {s : State} (j : Job) (h : Memory.wf s.mem = true) : Memory.wf (s.applyAdds j).mem = true := by
  simp only [State.applyAdds, State.onJob_mem]
  exact foldl_wf (fun t p ht => t.applyPartials_wf _ _ _ ht) _ (foldl_wf (fun t a ht => t.addAt_wf _ _ _ _ _ _ _ ht) _ h)

@[simp] theorem State.flushRecord_wf {s : State} (j : Job) (h : Memory.wf s.mem = true) : Memory.wf (s.flushRecord j).1.mem = true := by
  unfold State.flushRecord
  dsimp only
  split
  · split
    next => simp [h]
    next hw => simp [devPage_waits_mem hw, h]
    next hr => simp [devPage_refused_mem hr, h]
  · split
    · split
      next => simp [h]
      next hw => simp [devPage_waits_mem hw, h]
      next hr => simp [devPage_refused_mem hr, h]
    · exact h

@[simp] theorem State.retire_wf {s : State} (j : Job) (h : Memory.wf s.mem = true) : Memory.wf (s.retire j).mem = true := by
  unfold State.retire
  refine State.drainCommands_wf _ ?_
  split <;> simp [h]

@[simp] theorem State.completionSignal_wf {s : State} (j : Job) (h : Memory.wf s.mem = true) : Memory.wf (s.completionSignal j).mem = true := by
  have hr := s.flushRecord_wf j h
  unfold State.completionSignal
  split
  · split
    · exact h
    · dsimp only
      split
      · exact hr
      · split_ifs
        · exact hr
        · simp [h]
        · simp [h]
        · split
          next hw => simp [devPage_waits_mem hw, h]
          next hd => simp [devPage_refused_mem hd, h]
          next => split <;> simp [hr]
  · exact h

/-! ## Values that may have been altered, and acts that are no events of the tables -/

@[simp] theorem State.anyBytes_wf {s : State} (base loc n : Nat) (h : Memory.wf s.mem = true) : Memory.wf (s.anyBytes base loc n).mem = true :=
  memPut_wf _ _ h

@[simp] theorem State.anyViews_wf {s : State} (l : List View) (h : Memory.wf s.mem = true) : Memory.wf (s.anyViews l).mem = true :=
  foldl_wf (fun t _ ht => t.anyBytes_wf _ _ _ ht) l h

@[simp] theorem State.anyTeam_wf {s : State} (j : Job) (t : Team) (h : Memory.wf s.mem = true) : Memory.wf (s.anyTeam j t).mem = true := by
  simp [State.anyTeam, h]

@[simp] theorem State.anyNamed_wf {s : State} (j : Job) (h : Memory.wf s.mem = true) : Memory.wf (s.anyNamed j).mem = true :=
  foldl_wf (fun _ _ ht => storeNat_wf _ _ _ ht) _ h

@[simp] theorem State.alter_wf {s : State} (job ref : Nat) (h : Memory.wf s.mem = true) : Memory.wf (s.alter job ref).mem = true := by
  unfold State.alter
  split
  · split
    · split <;> simp [h]
    · simp [h]
    · simp [h]
    · simp [h]
  · exact h

@[simp] theorem State.spoil_wf {s : State} (id k : Nat) (h : Memory.wf s.mem = true) : Memory.wf (s.spoil id k).mem = true := by
  unfold State.spoil
  split
  · exact h
  · split
    · exact h
    · split <;> simp [h]

@[simp] theorem State.elsewhere_wf {s : State} (pa : Nat) (data : List Byte) (h : Memory.wf s.mem = true) :
    Memory.wf (s.elsewhere pa data).mem = true := by
  unfold State.elsewhere
  dsimp only
  split <;> simp [memPut_wf, h]

@[simp] theorem State.upsetEnd_wf {s : State} (job detail : Nat) (g : Group) (source : Nat) (h : Memory.wf s.mem = true) :
    Memory.wf (s.upsetEnd job detail g source).mem = true := by
  unfold State.upsetEnd
  split
  · split <;> simp [h]
  · exact h

@[simp] theorem State.upset_wf {s : State} (u : Upset) (h : Memory.wf s.mem = true) : Memory.wf (s.upset u).mem = true := by
  unfold State.upset
  split
  · exact h
  · simp [h]
  · split
    · split <;> simp [h]
    · exact h
  · simp [h]

/-! ## The forms of an instruction

Every instruction is a form around an effect: the form itself only rejects, skips or parks, so it keeps what its effect keeps. -/

/-- The next state an instruction answers, where it answers one, has memory in its form. -/
def NextWf (o : Outcome State Fault Refusal) : Prop := ∀ t, o = .next t → Memory.wf t.mem = true

@[simp] theorem nextWf_next {t : State} : NextWf (.next t) ↔ Memory.wf t.mem = true :=
  ⟨fun h => h t rfl, fun h u e => by cases e; exact h⟩

theorem laneForm_wf {i : Instr} {f : W32 → State → State} {s : State} (hf : ∀ m, Memory.wf (f m s).mem = true)
    (h : Memory.wf s.mem = true) : NextWf (laneForm i f s) := by
  unfold laneForm
  rw [nextWf_next]
  split_ifs
  · simp [h]
  · simp [h]
  · exact hf _

theorem laneFormIf_wf {bad : Bool} {i : Instr} {f : W32 → State → State} {s : State} (hf : ∀ m, Memory.wf (f m s).mem = true)
    (h : Memory.wf s.mem = true) : NextWf (laneFormIf bad i f s) := by
  unfold laneFormIf
  split
  · simp [h]
  · exact laneForm_wf hf h

theorem groupForm_wf {i : Instr} {f : State → State} {s : State} (hf : Memory.wf (f s).mem = true) (h : Memory.wf s.mem = true) :
    NextWf (groupForm i f s) := by
  unfold groupForm
  rw [nextWf_next]
  split_ifs
  · simp [h]
  · simp [h]
  · exact hf

theorem groupFormIf_wf {bad : Bool} {i : Instr} {f : State → State} {s : State} (hf : Memory.wf (f s).mem = true)
    (h : Memory.wf s.mem = true) : NextWf (groupFormIf bad i f s) := by
  unfold groupFormIf
  split
  · simp [h]
  · exact groupForm_wf hf h

theorem convergentForm_wf {i : Instr} {f : State → State} {s : State} (hf : ∀ t, Memory.wf t.mem = true → Memory.wf (f t).mem = true)
    (h : Memory.wf s.mem = true) : NextWf (convergentForm i f s) := by
  unfold convergentForm
  rw [nextWf_next]
  split_ifs
  · simp [h]
  · simp [h]
  · exact hf _ (by simp [h])
  · simp [h]

theorem convergentFormIf_wf {bad : Bool} {i : Instr} {f : State → State} {s : State}
    (hf : ∀ t, Memory.wf t.mem = true → Memory.wf (f t).mem = true) (h : Memory.wf s.mem = true) : NextWf (convergentFormIf bad i f s) := by
  unfold convergentFormIf
  split
  · simp [h]
  · exact convergentForm_wf hf h

theorem memoryForm_wf {i : Instr} {e : State → RegionAcc} {f : State → State} {s : State} (hf : Memory.wf (f s).mem = true)
    (h : Memory.wf s.mem = true) : NextWf (memoryForm i e f s) := by
  unfold memoryForm
  rw [nextWf_next]
  split
  · simp [h]
  · split
    · simp [h]
    · split
      · simp [h]
      · exact hf

theorem matrixForm_wf {i : Instr} {desc : BitVec 7} {f : Nat → State → State} {s : State} (hf : ∀ x, Memory.wf (f x s).mem = true)
    (h : Memory.wf s.mem = true) : NextWf (matrixForm i desc f s) := groupForm_wf (hf _) h

/-! An effect on registers alone. -/

theorem setCur_finish_mem (s : State) (g : Group) : (s.setCur g).finish.mem = s.mem := (rfl)

theorem laneForm_of_mem {i : Instr} {f : W32 → State → State} {s : State} (hf : ∀ m, (f m s).mem = s.mem)
    (h : Memory.wf s.mem = true) : NextWf (laneForm i f s) := laneForm_wf (fun m => by rw [hf m]; exact h) h

theorem groupForm_of_mem {i : Instr} {f : State → State} {s : State} (hf : (f s).mem = s.mem)
    (h : Memory.wf s.mem = true) : NextWf (groupForm i f s) := groupForm_wf (by rw [hf]; exact h) h

/-! ## Instructions whose effect reaches memory or waits -/

theorem execAtom_wf {s : State} (q : BitVec 2) (d a : BitVec 7) (o c : BitVec 5) (h : Memory.wf s.mem = true) :
    NextWf (execAtom q d a o c s) := by
  refine laneForm_wf (fun m => ?_) h
  dsimp only
  split
  next hg => exact State.gate_wf h hg
  next =>
    split
    next => simp [h]
    next =>
      have hp : ∀ l : List LaneAcc, Memory.wf (l.foldl (atomLane s.cur c d) (s, [])).1.mem = true :=
        fun l => foldl_fst_wf (p := (s, [])) (fun p a hp => atomLane_wf _ _ _ a hp) l h
      simp only [State.finish_mem]
      split <;> simp [hp]

theorem execRed_wf {s : State} (q : BitVec 2) (d a : BitVec 7) (o c : BitVec 5) (h : Memory.wf s.mem = true) :
    NextWf (execRed q d a o c s) := by
  refine laneForm_wf (fun m => ?_) h
  dsimp only
  split
  next hg => exact State.gate_wf h hg
  next =>
    split
    next => simp [h]
    next =>
      simp only [State.finish_mem, State.laneFaults_mem]
      exact foldl_wf (fun t a ht => redLane_wf _ _ _ a ht) _ h

theorem execBarw_wf {s : State} (q : BitVec 2) (a n : BitVec 7) (h : Memory.wf s.mem = true) : NextWf (execBarw q a n s) := by
  refine convergentForm_wf (fun t ht => State.atDelivery_wf ?_ ht) h
  split_ifs <;> simp [ht]

theorem execBbinit_wf {s : State} (q : BitVec 2) (a b : BitVec 7) (h : Memory.wf s.mem = true) : NextWf (execBbinit q a b s) :=
  groupForm_wf (State.withBarrier_wf _ (fun team off => by simp [memPut_wf, h]) h) h

theorem execBbexp_wf {s : State} (q : BitVec 2) (a b : BitVec 7) (h : Memory.wf s.mem = true) : NextWf (execBbexp q a b s) :=
  groupForm_wf (State.withBarrier_wf _ (fun team off => State.onWord_wf _ _ _ (by simp [h]) h) h) h

theorem execBbarr_wf {s : State} (q : BitVec 2) (a b : BitVec 7) (h : Memory.wf s.mem = true) : NextWf (execBbarr q a b s) :=
  groupForm_wf (State.withBarrier_wf _ (fun team off => State.onWord_wf _ _ _ (by simp [h]) h) h) h

theorem execBbwait_wf {s : State} (q : BitVec 2) (a b : BitVec 7) (h : Memory.wf s.mem = true) : NextWf (execBbwait q a b s) := by
  refine groupForm_wf (State.withBarrier_wf _ (fun team off => State.onWord_wf _ _ _ ?_ h) h) h
  dsimp only
  split_ifs <;> simp [h]

theorem execWait_wf {s : State} (q : BitVec 2) (a b : BitVec 7) (h : Memory.wf s.mem = true) : NextWf (execWait q a b s) := by
  refine groupForm_wf ?_ h
  split
  · simp [h]
  · dsimp only
    split
    next hg => exact State.groupGate_wf h hg
    next =>
      split
      · split <;> simp [h]
      · simp [h]
      · simp [h]

theorem execCkres_wf {s : State} (q : BitVec 2) (d : BitVec 7) (c : BitVec 3) (n : BitVec 4) (h : Memory.wf s.mem = true) :
    NextWf (execCkres q d c n s) := by
  refine groupForm_wf (State.withCask_wf _ _ (fun team k => ?_) h) h
  split <;> simp [memPut_wf, h]

theorem execCkacq_wf {s : State} (q : BitVec 2) (d : BitVec 7) (c : BitVec 3) (n : BitVec 4) (h : Memory.wf s.mem = true) :
    NextWf (execCkacq q d c n s) := by
  refine groupForm_wf (State.withCask_wf _ _ (fun team k => ?_) h) h
  split
  · simp [h]
  · simp only [State.finish_mem]
    split <;> simp [h]

theorem execCpy_wf {s : State} (q : BitVec 2) (d a b : BitVec 7) (h : Memory.wf s.mem = true) : NextWf (execCpy q d a b s) := by
  refine laneFormIf_wf (fun m => State.withCompletion_wf _ (fun team off => ?_) h) h
  split_ifs
  · exact State.onWord_wf _ _ _ (by simp [h]) h
  · simp [h]
  · simp [h]

theorem execCpyr_wf {s : State} (q : BitVec 2) (d a b : BitVec 7) (h : Memory.wf s.mem = true) : NextWf (execCpyr q d a b s) := by
  refine laneFormIf_wf (fun m => State.withCompletion_wf _ (fun team off => ?_) h) h
  split
  · exact State.onWord_wf _ _ _ (by simp [h]) h
  · split <;> simp [h]

theorem execCpyt_wf {s : State} (q : BitVec 2) (d a b : BitVec 7) (h : Memory.wf s.mem = true) : NextWf (execCpyt q d a b s) := by
  refine groupForm_wf ?_ h
  dsimp only
  split
  · simp [h]
  · refine State.withCompletion_wf _ (fun team off => ?_) h
    split <;> simp [h]

theorem execTrig_wf {s : State} (q p : BitVec 2) (a : BitVec 7) (h : Memory.wf s.mem = true) : NextWf (execTrig q p a s) := by
  refine groupForm_wf ?_ h
  dsimp only
  split
  · simp [h]
  · split
    · simp [h]
    · split
      next hg => exact State.gate_wf h hg
      next =>
        split
        · simp [h]
        · split
          · split <;> simp [h]
          · simp [h]

theorem execAbeg_wf {s : State} (q : BitVec 2) (a : BitVec 7) (h : Memory.wf s.mem = true) : NextWf (execAbeg q a s) := by
  refine groupForm_wf ?_ h
  dsimp only
  split_ifs <;> simp [h]

theorem execAcom_wf {s : State} (q : BitVec 2) (o : BitVec 7) (h : Memory.wf s.mem = true) : NextWf (execAcom q o s) := by
  refine groupForm_wf ?_ h
  split
  · simp [h]
  · dsimp only
    split
    · simp [h]
    · split
      next hg => exact State.gate_wf h hg
      next =>
        split
        · simp [h]
        · simp only [State.finish_mem, State.setCur_mem]
          exact foldl_fst_wf (p := (s, [])) (fun p x hp => regionStep_wf x hp) _ h

theorem execEret_wf {s : State} (q : BitVec 2) (h : Memory.wf s.mem = true) : NextWf (execEret q s) := by
  refine groupForm_wf ?_ h
  split
  · simp [h]
  · split
    next hw => simp [devPage_waits_mem hw, h]
    next hr => simp [devPage_refused_mem hr, h]
    next => simp [h]

theorem execMsca_wf {s : State} (q : BitVec 2) (a : BitVec 4) (c : BitVec 3) (d : BitVec 7) (h : Memory.wf s.mem = true) :
    NextWf (execMsca q a c d s) := by
  refine matrixForm_wf (fun x => ?_) h
  dsimp only
  split_ifs
  · simp [h]
  · simp [h]
  · exact State.withOperand_wf _ _ (fun b => by simp [h]) h
  · exact State.fetchQueue_wf _ _ (fun t ht => by simp [ht]) h

theorem execLimm_wf {s : State} (i : BitVec 24) (h : Memory.wf s.mem = true) : NextWf (execLimm i s) := by
  unfold execLimm
  rw [nextWf_next]
  split
  · simp [h]
  · split
    · simp [h]
    · split
      · split <;> simp [h]
      · simp [h]

theorem execRep_wf {s : State} (n : BitVec 6) (m st : BitVec 3) (g : BitVec 7) (h : Memory.wf s.mem = true) : NextWf (execRep n m st g s) := by
  unfold execRep
  rw [nextWf_next]
  dsimp only
  split_ifs <;> simp [h]

theorem execExit_wf {s : State} (q : BitVec 2) (h : Memory.wf s.mem = true) : NextWf (execExit q s) := groupForm_wf (s.exit_wf h) h

theorem execJoin_wf {s : State} (q : BitVec 2) (h : Memory.wf s.mem = true) : NextWf (execJoin q s) :=
  convergentForm_wf (fun _ ht => State.atDelivery_wf (State.joinThen_wf (fun u hu => by simp [hu]) ht) ht) h

/-! ## Issue -/

/-- What an issue comes to has memory in its form: the state it says, or the one its instruction is to run on. -/
def Ready.Wf : Ready → Prop
  | .run _ s => Memory.wf s.mem = true
  | .done s => Memory.wf s.mem = true

theorem State.decoded_wf {s : State} (w : W32) (h : Memory.wf s.mem = true) : (s.decoded w).Wf := by
  unfold State.decoded
  split
  · exact h
  · exact s.illegal_wf w h

theorem State.fetchDecode_wf {s : State} (va : W64) (h : Memory.wf s.mem = true) : (s.fetchDecode va).Wf := by
  unfold State.fetchDecode
  split
  · exact s.decoded_wf _ h
  · exact (congrArg Memory.wf (s.hold_mem _)).trans h

theorem State.entering_wf {s t : State} (h : Memory.wf s.mem = true) (he : s.entering = some t) : Memory.wf t.mem = true := by
  unfold State.entering at he
  split at he <;> cases he <;> simp [h]

theorem State.issue_wf {s : State} (h : Memory.wf s.mem = true) : s.issue.Wf := by
  unfold State.issue
  split
  next he => exact State.entering_wf h he
  next =>
    split
    · exact h
    · split
      · exact h
      · split
        · exact s.decoded_wf _ h
        · exact s.fetchDecode_wf _ h

theorem State.issueSplit_wf {s : State} (gid entry : Nat) (h : Memory.wf s.mem = true) : (s.issueSplit gid entry).Wf := by
  have hf := (congrArg Memory.wf (s.focus_mem gid entry)).trans h
  unfold State.issueSplit
  split
  · exact h
  · dsimp only
    split
    · exact hf
    · exact State.issue_wf hf

theorem State.issueQuadrant_wf {s : State} (core quad : Nat) (h : Memory.wf s.mem = true) : (s.issueQuadrant core quad).Wf := by
  unfold State.issueQuadrant
  dsimp only
  split
  · exact h
  · exact State.issueSplit_wf _ _ h

theorem State.issueTurn_wf {s : State} {f : State → Ready} (hf : (f s).Wf) (h : Memory.wf s.mem = true) : (s.issueTurn f).Wf := by
  unfold State.issueTurn
  split
  · exact h
  · exact hf

/-! ## Events of the device -/

theorem State.joinComplete_wf {s : State} (h : Memory.wf s.mem = true) : Memory.wf s.joinComplete.mem = true := by
  have hu : Memory.wf s.unsuspend.mem = true := by simp [h]
  unfold State.joinComplete
  split
  · exact h
  next p _ =>
    dsimp only
    split_ifs
    · exact h
    · exact hu
    · have hi := State.issue_wf (s := { s.unsuspend with split := p.entry, limm := none }) hu
      split
      next q x hx =>
        rw [hx] at hi
        split
        next hy => exact execJoin_wf q hi _ hy
        next => exact hu
      next q x hx =>
        rw [hx] at hi
        split
        next hy => exact execExit_wf q hi _ hy
        next => exact hu
      next => exact hu
      next x hx => rw [hx] at hi; exact hi

theorem execRemoteRequest_wf {s : State} (kind code pa : Nat) (data : List Byte) (h : Memory.wf s.mem = true) :
    NextWf (execRemoteRequest kind code pa data s) := by
  unfold execRemoteRequest
  rw [nextWf_next]
  split
  · exact h
  · simp [h]
  · generalize (if code % 2 = 1 then 8 else 4) = w
    dsimp only
    split
    · rw [State.idle_mem]
      dsimp only
      split <;> simp [memPut_wf, h]
    · exact h
  · exact h

theorem execThermalHalt_wf {s : State} (h : Memory.wf s.mem = true) : NextWf (execThermalHalt s) := by
  unfold execThermalHalt
  rw [nextWf_next]
  split
  · exact h
  · refine foldl_wf (fun t p ht => ?_) s.jobs h
    split <;> simp [ht]

theorem execWaitSignalTimeout_wf {s : State} (h : Memory.wf s.mem = true) : NextWf (execWaitSignalTimeout s) := by
  unfold execWaitSignalTimeout
  rw [nextWf_next]
  split
  · exact h
  next j _ =>
    split
    · rw [State.idle_mem]
      exact State.withSignal_wf j _ (fun _ _ => by simp [h]) (fun _ => by simp [h]) h
    · exact h

theorem execLaunchPacket_wf {s : State} (q : Nat) (h : Memory.wf s.mem = true) : NextWf (execLaunchPacket q s) := by
  unfold execLaunchPacket
  rw [nextWf_next]
  split
  next hd => simp [State.dependencyMiss_mem hd, h]
  next => simp [h]

theorem execCopyPacket_wf {s : State} (q : Nat) (h : Memory.wf s.mem = true) : NextWf (execCopyPacket q s) :=
  nextWf_next.2 (State.withPacket_wf _ _ (fun _ _ _ => State.startPacket_wf _ _ _ _ _ (fun t j ht => t.copyRun_wf j ht) h)
    (fun j => s.copyRun_wf j h) h)

theorem execWaitSignalPacket_wf {s : State} (q : Nat) (h : Memory.wf s.mem = true) : NextWf (execWaitSignalPacket q s) :=
  nextWf_next.2 (State.withPacket_wf _ _ (fun _ _ _ => State.startPacket_wf _ _ _ _ _ (fun t j ht => t.waitRun_wf j ht) h)
    (fun j => s.waitRun_wf j h) h)

theorem execSetSignalPacket_wf {s : State} (q : Nat) (h : Memory.wf s.mem = true) : NextWf (execSetSignalPacket q s) :=
  nextWf_next.2 (State.withPacket_wf _ _ (fun _ _ _ => State.startPacket_wf _ _ _ _ _ (fun t j ht => t.setRun_wf j ht) h)
    (fun j => s.setRun_wf j h) h)

theorem execSwitchOut_wf {s : State} (job team : Nat) (h : Memory.wf s.mem = true) : NextWf (execSwitchOut job team s) := by
  unfold execSwitchOut
  rw [nextWf_next]
  split
  · exact h
  · split
    · exact h
    · split <;> simp [h]

theorem execTimer_wf {s : State} (h : Memory.wf s.mem = true) : NextWf (execTimer s) := by
  unfold execTimer
  rw [nextWf_next]
  dsimp only
  split_ifs <;> simp [h]

theorem execAlarm_wf {s : State} (h : Memory.wf s.mem = true) : NextWf (execAlarm s) := by
  unfold execAlarm
  rw [nextWf_next]
  dsimp only
  split_ifs <;> simp [h]

/-- RESET_BOOT clears the on-chip locations (14 R273). -/
theorem execResetBoot_wf {s : State} (firmware fwSig record recSig : List Byte) (h : Memory.wf s.mem = true) :
    NextWf (execResetBoot firmware fwSig record recSig s) := nextWf_next.2 (filter_wf _ h)

/-! ## Every instruction and event -/

theorem exec_wf (i : Instr) {s : State} (h : Memory.wf s.mem = true) : NextWf (exec i s) := by
  cases i <;> dsimp only [exec]
  -- lanes and the group: registers alone change
  case movV | iaddImmV | clzV | popcV | brevV => exact laneForm_of_mem (fun m => by simp only [lane1_mem]) h
  case iaddV | isubV | imulV | imulhS32V | imulhZ32V | bfxZV | bfxSV => exact laneForm_of_mem (fun m => by simp only [lane2_mem]) h
  case imadV | bfiV | dp4 => exact laneForm_of_mem (fun m => by simp only [lane3_mem]) h
  case movV64 | iaddImmV64 | clzV64 | popcV64 => exact laneForm_of_mem (fun m => by simp only [pair1_mem]) h
  case iaddV64 | isubV64 | imulV64 | imulhS64V | imulhZ64V => exact laneForm_of_mem (fun m => by simp only [pair2_mem]) h
  case imadV64 => exact laneForm_of_mem (fun m => by simp only [pair3_mem]) h
  case imaxV | iminV | andV | orV | xorV | andnV =>
    exact laneForm_of_mem (fun m => by split <;> simp only [pair2_mem, lane2_mem]) h
  case shlV | shrV | sarV | rotV | movSpecialV | moviV | fclass | cvtGxDecode | shfl =>
    exact laneForm_of_mem (fun m => by simp only [laneWrite_mem]) h
  case rand => exact laneForm_of_mem (fun m => by simp only [laneWrite_mem, State.setCur_mem]) h
  case shlV64 | shrV64 | sarV64 | rotV64 | leaV | isect => exact laneForm_of_mem (fun m => by simp only [laneWrite2_mem]) h
  case selV | bcast => exact laneForm_of_mem (fun m => by split <;> simp only [laneWrite2_mem, laneWrite_mem]) h
  case icmpV | psetV | psetNzV => exact laneForm_of_mem (fun m => by simp only [predWrite_mem]) h
  case fcmp => exact laneForm_of_mem (fun m => by simp only [predWrite_mem, State.setCur_mem]) h
  case iabsV | ffma | frnd | hfuse => exact laneForm_of_mem (fun m => by simp only [laneFloat_mem]) h
  case iabsV64 | ffmaF64 | fsqrtF64 | frndF64 => exact laneForm_of_mem (fun m => by simp only [laneFloat2_mem]) h
  case fadd | fsub | fmul | fdiv | fmin | fmax => exact laneForm_of_mem (fun m => by simp only [lanef2_mem]) h
  case faddF64 | fsubF64 | fmulF64 | fdivF64 | fminF64 | fmaxF64 => exact laneForm_of_mem (fun m => by simp only [pairf2_mem]) h
  case fsqrt | frcp | frsq | fexp2 | flog2 | ftrigSinpi | ftrigCospi => exact laneForm_of_mem (fun m => by simp only [lanef1_mem]) h
  case cvt =>
    refine laneForm_of_mem (fun m => ?_) h
    extract_lets g f wide
    split
    · exact (laneFloat2_mem ..).trans (State.setCur_mem s g)
    · exact (laneFloat_mem ..).trans (State.setCur_mem s g)
  case cvtGxEncode =>
    refine laneForm_of_mem (fun m => ?_) h
    dsimp only
    split
    · exact State.finish_mem _
    · exact setCur_finish_mem _ _
  case vote => exact laneForm_of_mem (fun m => by dsimp only; split_ifs <;> simp only [gpredWrite_mem, groupWrite_mem]) h
  case redux => exact laneForm_of_mem (fun m => by dsimp only; split <;> simp only [groupWrite_mem, groupWrite32_mem, State.setCur_mem]) h
  case scan => exact laneForm_of_mem (fun m => by dsimp only; split <;> simp only [laneWrite2_mem, laneWrite_mem, State.setCur_mem]) h
  case pitch => exact laneForm_of_mem (fun m => by simp only [setCur_finish_mem]) h
  case iabsG32 | iaddImmG32 | clzG32 | popcG32 | brevG | movG32 => exact groupForm_of_mem (by simp only [word1_mem, State.setCur_mem]) h
  case iaddG32 | isubG32 | imulG32 | imulhS32G | imulhZ32G | bfxZG | bfxSG => exact groupForm_of_mem (by simp only [word2_mem]) h
  case imadG32 | bfiG => exact groupForm_of_mem (by simp only [word3_mem]) h
  case iabsG64 | iaddImmG64 | clzG64 | popcG64 | movG64 => exact groupForm_of_mem (by simp only [group1_mem, State.setCur_mem]) h
  case iaddG64 | isubG64 | imulG64 | imulhS64G | imulhZ64G => exact groupForm_of_mem (by simp only [group2_mem]) h
  case imadG64 => exact groupForm_of_mem (by simp only [group3_mem]) h
  case imaxG | iminG | andG | orG | xorG | andnG => exact groupForm_of_mem (by split <;> simp only [group2_mem, word2_mem]) h
  case shlG32 | shrG32 | sarG32 | rotG32 => exact groupForm_of_mem (by simp only [groupWrite32_mem]) h
  case shlG64 | shrG64 | sarG64 | rotG64 | movSpecialG | moviG | leaG => exact groupForm_of_mem (by simp only [groupWrite_mem]) h
  case selG => exact groupForm_of_mem (by split <;> simp only [groupWrite_mem, groupWrite32_mem]) h
  case icmpG | psetG | psetNzG => exact groupForm_of_mem (by simp only [gpredWrite_mem]) h
  case qpoll => exact groupFormIf_wf (by simp [h]) h
  case nop | ctlrd | ctlrdFflags | tsrf => exact groupForm_of_mem (by simp only [State.finish_mem, State.setCur_mem]) h
  case ctlwr | ctlwrFflags | ctlwrLfm | ctlwrRepc | ctlwrTmr | ctlwrAlarm => exact groupForm_of_mem (State.ctlWrite_mem ..) h
  case yield | mzero => exact groupForm_wf (by simp [h]) h
  case nzscan => exact laneFormIf_wf (fun m => by dsimp only; split <;> simp [h]) h
  case movSliceToV | movVToSlice => exact laneForm_wf (fun m => tileForm_wf _ _ (by simp [h]) h) h
  -- branches
  case brxV | retV | callV | braV => exact laneForm_wf (fun m => State.branch_wf _ _ _ _ h) h
  case brxG | retG | callG | braG => exact groupForm_wf (State.goto_wf _ _ _ h) h
  -- memory, the queues and the engines
  case ldV | ldOrdered => exact laneForm_wf (fun m => State.laneLoad_wf _ _ _ _ _ h) h
  case stV | stOrdered => exact laneForm_wf (fun m => State.laneStore_wf _ _ _ _ _ h) h
  case ldt => exact laneForm_wf (fun m => tileForm_wf _ _ (State.laneLoad_wf _ _ _ _ _ h) h) h
  case stt => exact laneForm_wf (fun m => tileForm_wf _ _ (State.laneStore_wf _ _ _ _ _ h) h) h
  case ldG => exact memoryForm_wf (State.groupLoad_wf _ _ _ _ h) h
  case stG => exact memoryForm_wf (State.groupStore_wf _ _ _ _ h) h
  case atom => exact execAtom_wf _ _ _ _ _ h
  case red => exact execRed_wf _ _ _ _ _ h
  case abeg => exact execAbeg_wf _ _ h
  case acom => exact execAcom_wf _ _ h
  case movQueuePush => exact laneFormIf_wf (fun m => State.push_wf _ _ _ _ h) h
  case movQueuePop => exact laneFormIf_wf (fun m => State.pop_wf _ _ _ h) h
  case movSlicePush => exact laneFormIf_wf (fun m => tileForm_wf _ _ (State.push_wf _ _ _ _ h) h) h
  case movSlicePop => exact laneFormIf_wf (fun m => tileForm_wf _ _ (State.pop_wf _ _ _ h) h) h
  case cpy => exact execCpy_wf _ _ _ _ h
  case cpyr => exact execCpyr_wf _ _ _ _ h
  case cpyt => exact execCpyt_wf _ _ _ _ h
  case trig => exact execTrig_wf _ _ _ h
  case mma | mmag => exact matrixForm_wf (fun x => State.mmaRun_wf _ _ _ _ _ _ _ h) h
  case mmav => exact matrixForm_wf (fun x => State.mmavRun_wf _ _ _ _ _ _ h) h
  case msca => exact execMsca_wf _ _ _ _ h
  case mdrn => exact matrixForm_wf (fun x => by split <;> simp [h]) h
  -- barriers, casks and waits
  case bara => exact convergentForm_wf (fun t ht => State.atDelivery_wf (t.bara_wf _ _ ht) ht) h
  case barm => exact convergentForm_wf (fun t ht => State.atDelivery_wf (t.barm_wf _ _ ht) ht) h
  case barw => exact execBarw_wf _ _ _ h
  case bbinit => exact execBbinit_wf _ _ _ h
  case bbexp => exact execBbexp_wf _ _ _ h
  case bbarr => exact execBbarr_wf _ _ _ h
  case bbwait => exact execBbwait_wf _ _ _ h
  case ckinit => exact groupForm_wf (State.ckinit_wf _ _ h) h
  case ckres => exact execCkres_wf _ _ _ _ h
  case ckacq => exact execCkacq_wf _ _ _ _ h
  case ckpub | ckrel => exact groupForm_wf (State.withCask_wf _ _ (fun team k => State.ckMove_wf _ _ _ _ _ _ h) h) h
  case wait => exact execWait_wf _ _ _ h
  case fence => exact groupForm_wf (State.atDelivery_wf (by simp [h]) h) h
  -- tasks, budgets, reducers and the window base
  case spawn => exact convergentForm_wf (fun t ht => t.spawn_wf _ _ _ _ ht) h
  case join => exact execJoin_wf _ h
  case exit => exact execExit_wf _ h
  case allocHeap => exact convergentForm_wf (fun t ht => t.allocHeap_wf _ _ ht) h
  case allocLog => exact convergentForm_wf (fun t ht => t.allocLog_wf _ _ ht) h
  case rdecl => exact convergentFormIf_wf (fun t ht => t.rdecl_wf _ _ _ ht) h
  case rview => exact convergentForm_wf (fun t ht => t.rview_wf _ _ _ ht) h
  case wbaseImm | wbaseReg => exact convergentForm_wf (fun t ht => t.setWbase_wf _ ht) h
  -- traps and prefixes
  case trap => exact groupForm_wf (State.take_wf _ (by simp [h])) h
  case eret => exact execEret_wf _ h
  case limm => exact execLimm_wf _ h
  case rep => exact execRep_wf _ _ _ _ h
  -- events of the device
  case createQueue | destroyQueue | resetQueue | abortQueue | setQuantum | invalidate | pageResponse => exact nextWf_next.2 (s.submit_wf _ h)
  case doorbell | registerWrite | packetRead | teamDispatch | taskStart | hostRead | remoteRequestTimeout | powerThrottle =>
    exact nextWf_next.2 (by simp [h])
  case hostWrite => exact nextWf_next.2 (s.outsideWrite_wf _ _ h)
  case headPublish => exact nextWf_next.2 (s.headPublish_wf _ h)
  case engineArrival => exact nextWf_next.2 (s.engineArrival_wf _ h)
  case joinComplete => exact nextWf_next.2 (s.joinComplete_wf h)
  case linkTraining | attestationRequest | thermalStepChange | droopEvent | tapRebind | taskCompletionReport =>
    exact nextWf_next.2 (by split <;> simp [h])
  case triggeredOpComplete | completionSignal | launchEnd => exact nextWf_next.2 (by split <;> simp [h])
  case taskSteal | timeSlice | racking | restore | engineContextSwitch | pageRequest | trapEntry =>
    refine nextWf_next.2 ?_
    split
    · simp [h]
    · split <;> simp [h]
  case rootViewFold | deferredAddApply | grpAbsent =>
    refine nextWf_next.2 ?_
    split
    · split <;> simp [h]
    · simp [h]
  case remoteRequest => exact execRemoteRequest_wf _ _ _ _ h
  case thermalHalt => exact execThermalHalt_wf h
  case waitSignalTimeout => exact execWaitSignalTimeout_wf h
  case launchPacket => exact execLaunchPacket_wf _ h
  case copyPacket => exact execCopyPacket_wf _ h
  case waitSignalPacket => exact execWaitSignalPacket_wf _ h
  case setSignalPacket => exact execSetSignalPacket_wf _ h
  case switchOut => exact execSwitchOut_wf _ _ h
  case timer => exact execTimer_wf h
  case alarm => exact execAlarm_wf h
  case resetBoot => exact execResetBoot_wf _ _ _ _ h

/-! ## One step -/

theorem State.ready_wf {s : State} (t : Turn) (h : Memory.wf s.mem = true) : (s.ready t).Wf := by
  unfold State.ready
  split
  case h_1 => exact State.issueTurn_wf (State.issueSplit_wf _ _ h) h
  case h_2 => exact State.issueTurn_wf (State.issueQuadrant_wf _ _ h) h
  case h_3 =>
    split
    · exact (congrArg Memory.wf (s.focus_mem _ _)).trans h
    · exact h
  case h_4 => exact s.nextCommand_wf h
  case h_5 => exact s.element_wf _ _ h
  case h_6 => exact s.elsewhere_wf _ _ h
  case h_7 => exact s.upset_wf _ h
  case h_8 => exact h
  case h_9 => exact (congrArg Memory.wf (s.swap_mem _)).trans h
  case h_10 => exact (congrArg Memory.wf (s.moveImage_mem _ _ _)).trans h
  case h_11 => exact s.alter_wf _ _ h
  case h_12 => exact s.spoil_wf _ _ h

theorem runReady_wf {r : Ready} (h : r.Wf) : NextWf (runReady r) := by
  cases r with
  | done s => exact nextWf_next.2 h
  | run i s =>
    intro u hu
    dsimp only [runReady] at hu
    split at hu
    next t he =>
      have ht : Memory.wf t.mem = true := exec_wf i h t he
      split at hu
      · have hp : t.partner.Wf := State.fetchDecode_wf _ ht
        split at hu
        next k v hk => rw [hk] at hp; exact exec_wf k hp u hu
        next v hk => rw [hk] at hp; cases hu; exact hp
      · cases hu; exact ht
    next => exact exec_wf i h u hu

theorem step_wf {s : State} (h : Memory.wf s.mem = true) : NextWf (step s) := by
  unfold step
  split
  · intro t ht; cases ht
  · split
    · exact nextWf_next.2 h
    · exact runReady_wf (State.ready_wf _ h)

/-- Settles O2. A step is a turn's instructions, every instruction a form around stores and updates of registers and records, and stores alone
reach memory but for RESET_BOOT, which drops bytes: each keeps the form. -/
theorem stepKeepsForm : Obligations.StepKeepsForm := by
  unfold Obligations.StepKeepsForm
  exact fun _ t h ht => step_wf h t ht

/-! ## What a store adds to the history -/

theorem since_store (s : State) (loc mark : Nat) (bs : List Byte) (h : mark ≤ s.hist.length) :
    (s.store loc bs).since mark = ⟨loc, s.bytesAt loc bs.length⟩ :: s.since mark := by
  have hlen : s.hist.length + 1 - mark = s.hist.length - mark + 1 := by omega
  simp only [State.since, State.store, List.length_cons, hlen, List.take_succ_cons]

theorem touches_self (loc n : Nat) (old : List Byte) (hold : old.length = n) (hn : 0 < n) : Write.touches ⟨loc, old⟩ loc n = true := by
  simp [Write.touches, hold, hn]

theorem touches_of_noOverlap {loc n a k : Nat} {old : List Byte} (hold : old.length = n) (h : NoOverlap loc n a k) :
    Write.touches ⟨loc, old⟩ a k = false := by
  unfold NoOverlap at h
  simp only [Write.touches, hold, Bool.and_eq_false_iff, decide_eq_false_iff_not]
  omega

/-- Undoing a write over just the bytes it replaced gives those back, whatever stands there now. -/
theorem undo_self (loc : Nat) (old now : List Byte) : Write.undo ⟨loc, old⟩ loc old.length now = old := by
  apply List.ext_getElem (by simp [Write.undo])
  intro i hi ho
  simp [Write.undo, ho]

/-! ## The values held since a mark

`State.heldSince` goes back through the writes with the value before each; `heldBack` is its step. -/

/-- Going back over one write: the bytes before it, added to those found where it touched them. -/
def heldBack (loc n : Nat) (p : List Byte × List (List Byte)) (w : Write) : List Byte × List (List Byte) :=
  if w.touches loc n then (w.undo loc n p.1, p.2 ++ [w.undo loc n p.1]) else p

theorem heldSince_eq (s : State) (mark loc n : Nat) :
    s.heldSince mark loc n = ((s.since mark).foldl (heldBack loc n) (s.bytesAt loc n, [s.bytesAt loc n])).2.eraseDups := rfl

/-- What was found before stands in front of what is found. -/
theorem foldl_heldBack_append (loc n : Nat) (ws : List Write) (now : List Byte) (pre l : List (List Byte)) :
    (ws.foldl (heldBack loc n) (now, pre ++ l)).2 = pre ++ (ws.foldl (heldBack loc n) (now, l)).2 := by
  induction ws generalizing now l with
  | nil => rfl
  | cons w ws ih =>
    simp only [List.foldl_cons, heldBack]
    split
    · rw [List.append_assoc]
      exact ih _ _
    · exact ih _ _

theorem mem_heldSince_store {s : State} {loc mark : Nat} {bs : List Byte} (hm : mark ≤ s.hist.length) (hn : 0 < bs.length) (b : List Byte) :
    b ∈ (s.store loc bs).heldSince mark loc bs.length ↔
      b = (s.store loc bs).bytesAt loc bs.length ∨ b ∈ s.heldSince mark loc bs.length := by
  have hlen := bytesAt_length s loc bs.length
  have hback : ∀ now, heldBack loc bs.length (now, [now]) ⟨loc, s.bytesAt loc bs.length⟩ =
      (s.bytesAt loc bs.length, [now] ++ [s.bytesAt loc bs.length]) := by
    intro now
    have hundo : Write.undo ⟨loc, s.bytesAt loc bs.length⟩ loc bs.length now = s.bytesAt loc bs.length := by
      simpa only [hlen] using undo_self loc (s.bytesAt loc bs.length) now
    rw [heldBack, if_pos (touches_self loc _ _ hlen hn), hundo]
  rw [heldSince_eq, heldSince_eq, since_store s loc mark bs hm, List.foldl_cons, hback, foldl_heldBack_append]
  simp only [List.mem_eraseDups, List.mem_append, List.mem_singleton]

theorem heldSince_store_outside {s : State} {loc mark a k : Nat} {bs : List Byte} (hm : mark ≤ s.hist.length)
    (ho : NoOverlap loc bs.length a k) : (s.store loc bs).heldSince mark a k = s.heldSince mark a k := by
  have hnow : (s.store loc bs).bytesAt a k = s.bytesAt a k := bytesAt_store_outside s ho.symm
  have hback : ∀ p, heldBack a k p ⟨loc, s.bytesAt loc bs.length⟩ = p := by
    intro p
    simp only [heldBack, touches_of_noOverlap (bytesAt_length s loc bs.length) ho, Bool.false_eq_true, if_false]
  rw [heldSince_eq, heldSince_eq, since_store s loc mark bs hm, List.foldl_cons, hnow, hback]

/-- Settles O28: a store puts one write before the history, whose undoing gives back the bytes that stood there. -/
theorem storedBytesRead : Obligations.StoredBytesRead := by
  unfold Obligations.StoredBytesRead
  intro s loc n x mark hm t
  have hlen : (leBytes n x).length = n := leBytes_length n x
  refine ⟨?_, fun a ha => ?_, fun hn b => ?_, fun a k _ ho => ?_⟩
  · rw [pow_mul]
    exact natAt_storeNat s loc n x
  · exact byteAt_store_outside s (by rwa [hlen])
  · have hb := mem_heldSince_store (loc := loc) (bs := leBytes n x) hm (by rwa [hlen]) b
    rw [hlen] at hb
    exact hb
  · exact heldSince_store_outside hm (by rwa [hlen])

end Sys2Proof.Machine
end

section

/-!
# A code page of a package that does not answer (04 R74, 06 R124, 14 R272)

O6 asks of the page at a split's PC that it translates with X set and holds no registers, and not that its package answers. A fetch from a
package whose number is 4,608 or above fails, so such a step holds the page and runs nothing.
-/

namespace Sys2Proof.Machine
open Host

/-- The smallest launch, its code page mapped executable to package 5000, with the word of an IADD at its place there. -/
def farCode : State :=
  let s := State.reset.withFetchWord 32 0x0000C082
  { s with mem := memPut (memPut s.mem (soloRoot + 0x2000) (leBytes 8 (5000 * 2 ^ 44 + 15))) (5000 * 2 ^ 44 + 0x10000) (leBytes 4 0x0000C082) }

/-- The turn of its one strand. -/
def farTurn : Turn := ⟨1, 1, 1, 2, .group 2 0⟩

/-- The strand in focus, its split table settled. -/
def farFocus : State :=
  let f := (farCode.begin farTurn).focus 2 0
  f.setCur (f.settle f.cur)

/-- The strand at the issue of its first instruction. -/
def farIssue : State := { farFocus.setCur (farFocus.cur.starts farFocus.cycles) with split := 0 }

/-- The page at its PC. -/
def farPage : Page := ⟨5000 * 2 ^ 44 + 0x10000, true, true, 0⟩

/-- The page requests of the next state. -/
def requestsOf : Outcome State Fault Refusal → List PageReq
  | .next t => t.reqs
  | _ => []

theorem farCode_turn : farCode.boot ≠ .halted ∧ farCode.agenda = [farTurn] ∧ ((farCode.begin farTurn).groupOf 2).isSome := by decide +kernel

theorem farIssue_ready : (farFocus.canIssue farFocus.cur).any (fun p => p.entry == 0) = true ∧ farIssue.entering = none ∧ farIssue.due = none ∧
    farIssue.sp.mask ≠ 0#32 ∧ farIssue.sp.rep = none ∧ farIssue.sp.pc.toNat < 2 ^ 57 := by decide +kernel

theorem farIssue_page : farIssue.translate farIssue.job.root farIssue.sp.pc.toNat = some farPage ∧ farPage.x = true ∧
    farIssue.isMmio farPage.pa = false ∧ farIssue.written farIssue.job.mark farPage.pa 4 = false := by decide +kernel

theorem farIssue_word : decodeBytes (farIssue.bytesAt farPage.pa 4) = .ok (.iaddV 0#2 3#7 1#7 2#7, []) := by decide +kernel

/-- The step asks for the page of the strand's PC. -/
theorem farCode_step_asks : (requestsOf (step farCode)).length = 1 := by decide +kernel

/-- The instruction at the PC asks for none, and is no LIMM. -/
theorem farIssue_exec_asks : (requestsOf (exec (.iaddV 0#2 3#7 1#7 2#7) farIssue)).length = 0 ∧
    ∀ t, exec (.iaddV 0#2 3#7 1#7 2#7) farIssue = .next t → t.limm = none := by
  refine ⟨by decide +kernel, fun t ht => ?_⟩
  have h : (match exec (.iaddV 0#2 3#7 1#7 2#7) farIssue with | .next t => t.limm | _ => none) = none := by decide +kernel
  rwa [ht] at h

/-- Refutes O6: the word at the PC decodes, but its page lies in a package that does not answer, so the step holds the strand on that page
where exec of the word goes on. -/
theorem not_stepRunsDecoded : ¬ Obligations.StepRunsDecoded := by
  unfold Obligations.StepRunsDecoded
  intro h
  obtain ⟨hboot, hagenda, hgroup⟩ := farCode_turn
  obtain ⟨hcan, hentering, hdue, hmask, hrep, hpc⟩ := farIssue_ready
  obtain ⟨htranslate, hx, hmmio, hwritten⟩ := farIssue_page
  obtain ⟨hnone, hlimm⟩ := farIssue_exec_asks
  have hstep : step farCode = exec (.iaddV 0#2 3#7 1#7 2#7) farIssue :=
    (((h farCode (farCode.begin farTurn) farTurn [] 2 0 farPage (.iaddV 0#2 3#7 1#7 2#7) hboot hagenda).1 (.inl ⟨rfl, rfl⟩)
      hgroup hcan hentering hdue hmask hrep hpc htranslate hx hmmio hwritten farIssue_word).1 hlimm)
  have hasks := farCode_step_asks
  rw [hstep, hnone] at hasks
  exact absurd hasks (by decide)

end Sys2Proof.Machine
end

section

/-!
# The limits of a pedigree (02 R37 to R40)

O45: the bits of an encoded pedigree are the sum of the bits of its ranks, so a rank change fails exactly where its rank or that sum does.
-/

namespace Sys2Proof.Machine
open Host

/-! ## Bits of ranks and of pedigrees (02 R37, R38) -/

/-- The bits of a rank's code (02 R37, R38). -/
def rankBits (root : Bool) (v : Nat) : Nat := if v < 4 then 3 else if v < 36 then 7 else if v < 1060 then 13 else if root then 35 else 23

/-- Whether a rank has a code. -/
def rankFits (root : Bool) (v : Nat) : Prop := v < 1060 + if root then 2 ^ 32 else 2 ^ 20

/-- The bits of a list of elements, the first one the root element or not. -/
def pedSize : Bool → List (Nat × Nat) → Nat
  | _, [] => 0
  | root, e :: l => rankBits root e.1 + rankBits root e.2 + pedSize false l

/-- Whether every rank of a list of elements has a code. -/
def pedFits : Bool → List (Nat × Nat) → Prop
  | _, [] => True
  | root, e :: l => rankFits root e.1 ∧ rankFits root e.2 ∧ pedFits false l

theorem three_le_rankBits (root : Bool) (v : Nat) : 3 ≤ rankBits root v := by
  unfold rankBits
  cases root <;> (repeat' split) <;> omega

theorem rankFits_zero (root : Bool) : rankFits root 0 := by unfold rankFits; split <;> omega

theorem rankCode_fits {root : Bool} {v : Nat} (h : rankFits root v) : ∃ x, rankCode root v = some (rankBits root v, x) := by
  unfold rankFits at h
  unfold rankCode rankBits
  cases root <;> simp only [Bool.false_eq_true, if_false, if_true] at h ⊢ <;> (repeat' split) <;> exact ⟨_, rfl⟩

theorem rankCode_unfit {root : Bool} {v : Nat} (h : ¬ rankFits root v) : rankCode root v = none := by
  unfold rankFits at h
  have h1 : 1060 ≤ v := by split at h <;> omega
  unfold rankCode
  rw [if_neg (by omega), if_neg (by omega), if_neg (by omega)]
  cases root with
  | true => simpa using h
  | false => simpa using h

/-- The bits of a list of elements all of whose ranks have codes. -/
theorem pedBits_fits {root : Bool} {l : List (Nat × Nat)} (h : pedFits root l) : ∃ x, pedBits root l = some (pedSize root l, x) := by
  induction l generalizing root with
  | nil => exact ⟨0, rfl⟩
  | cons e l ih =>
    obtain ⟨h1, h2, h3⟩ := h
    obtain ⟨x, hx⟩ := rankCode_fits h1
    obtain ⟨y, hy⟩ := rankCode_fits h2
    obtain ⟨z, hz⟩ := ih h3
    exact ⟨_, by unfold pedBits; rw [hx, hy, hz]; rfl⟩

theorem fits_of_pedBits {root : Bool} {l : List (Nat × Nat)} {n x : Nat} (h : pedBits root l = some (n, x)) : pedFits root l := by
  induction l generalizing root n x with
  | nil => trivial
  | cons e l ih =>
    unfold pedBits at h
    split at h
    · rename_i h1 h2 h3
      refine ⟨?_, ?_, ih h3⟩
      · by_contra hn; rw [rankCode_unfit hn] at h1; cases h1
      · by_contra hn; rw [rankCode_unfit hn] at h2; cases h2
    · cases h

theorem pedEncode_none {l : List (Nat × Nat)} (h : 120 < pedSize true l) : pedEncode l = none := by
  unfold pedEncode
  cases hb : pedBits true l with
  | none => rfl
  | some p =>
    obtain ⟨x, hx⟩ := pedBits_fits (fits_of_pedBits (n := p.1) (x := p.2) hb)
    rw [hx] at hb
    cases hb
    simp only [if_pos h]

theorem pedEncode_some {l : List (Nat × Nat)} (hf : pedFits true l) (h : pedSize true l ≤ 120) : ∃ c, pedEncode l = some c := by
  obtain ⟨x, hx⟩ := pedBits_fits hf
  unfold pedEncode
  simp only [hx, if_neg (Nat.not_lt.2 h)]
  exact ⟨_, rfl⟩

theorem fits_of_pedEncode {l : List (Nat × Nat)} {c : W64 × W64} (h : pedEncode l = some c) : pedFits true l := by
  unfold pedEncode at h
  split at h
  · rename_i hb; exact fits_of_pedBits hb
  · cases h

/-- Every level takes at least six bits. -/
theorem six_mul_length_le_pedSize (root : Bool) (l : List (Nat × Nat)) : 6 * l.length ≤ pedSize root l := by
  induction l generalizing root with
  | nil => exact Nat.le_refl _
  | cons e l ih =>
    have h1 := three_le_rankBits root e.1
    have h2 := three_le_rankBits root e.2
    have h3 := ih false
    simp only [List.length_cons, pedSize]
    omega

theorem pedFits_append {root : Bool} {l : List (Nat × Nat)} {e : Nat × Nat} (hl : l ≠ []) :
    pedFits root (l ++ [e]) ↔ pedFits root l ∧ rankFits false e.1 ∧ rankFits false e.2 := by
  induction l generalizing root with
  | nil => exact absurd rfl hl
  | cons x l ih =>
    cases l with
    | nil => simp [pedFits, and_assoc]
    | cons y l =>
      have h := ih (root := false) (by simp)
      simp only [List.cons_append] at h ⊢
      rw [pedFits, h]
      simp only [pedFits, and_assoc]

/-! ## SPAWN and JOIN of a pedigree (02 R39, R40) -/

/-- A list of two elements or more of which every rank has a code: what stands before the last element, and the last one. -/
theorem withLast_split {l : List (Nat × Nat)} (hl : l ≠ []) (hf : pedFits true l) :
    (withLast l).dropLast ≠ [] ∧ pedFits true (withLast l).dropLast ∧
    rankFits false ((withLast l).getLastD (0, 0)).1 ∧ rankFits false ((withLast l).getLastD (0, 0)).2 := by
  have h0 : rankFits false 0 := rankFits_zero false
  unfold withLast
  split
  · rw [List.dropLast_concat, List.getLastD_concat]
    exact ⟨hl, hf, h0, h0⟩
  · rename_i h2
    obtain ⟨init, e, rfl⟩ := List.eq_nil_or_concat'  l |>.resolve_left hl
    have hi : init ≠ [] := by rintro rfl; exact h2 (by simp)
    rw [List.dropLast_concat, List.getLastD_concat]
    exact ⟨hi, (pedFits_append hi).1 hf⟩

theorem withLast_fits {l : List (Nat × Nat)} (hl : l ≠ []) (hf : pedFits true l) : pedFits true (withLast l ++ [(0, 0)]) := by
  have h0 : rankFits false 0 := rankFits_zero false
  unfold withLast
  split
  · exact (pedFits_append (by simp)).2 ⟨(pedFits_append hl).2 ⟨hf, h0, h0⟩, h0, h0⟩
  · exact (pedFits_append hl).2 ⟨hf, h0, h0⟩

theorem withLast_eq {l : List (Nat × Nat)} (hl : l ≠ []) : withLast l = if l.length = 1 then l ++ [(0, 0)] else l := by
  have h := List.length_pos_iff.2 hl
  unfold withLast
  by_cases h1 : l.length = 1
  · rw [if_pos h1, if_pos (by omega)]
  · rw [if_neg h1, if_neg (by omega)]

theorem rankFits_of_le_rankMax {v : Nat} (h : v ≤ rankMax) : rankFits false v := by
  unfold rankMax at h
  unfold rankFits
  rw [if_neg (by decide)]
  omega

/-- SPAWN's pedigrees: none where the rank or the size of one fails. -/
theorem spawnPedigree_none {h d : W64} {l : List (Nat × Nat)} (hl : withLast (pedigree h d) = l)
    (hbad : rankMax < (l.getLastD (0, 0)).2 + 1 ∨ 120 < pedSize true (l ++ [(0, 0)]) ∨
      120 < pedSize true (l.dropLast ++ [((l.getLastD (0, 0)).1, (l.getLastD (0, 0)).2 + 1)])) : spawnPedigree h d = none := by
  unfold spawnPedigree
  simp only [hl]
  split
  · rfl
  · rename_i hr
    rcases hbad with hbad | hbad | hbad
    · exact absurd hbad hr
    · rw [pedEncode_none hbad]
    · rw [pedEncode_none hbad]
      split
      · rename_i h2; cases h2
      · rfl

theorem spawnPedigree_some {h d : W64} {l : List (Nat × Nat)} (hl : withLast (pedigree h d) = l) (hr : (l.getLastD (0, 0)).2 + 1 ≤ rankMax)
    {c p : W64 × W64} (hc : pedEncode (l ++ [(0, 0)]) = some c)
    (hp : pedEncode (l.dropLast ++ [((l.getLastD (0, 0)).1, (l.getLastD (0, 0)).2 + 1)]) = some p) : spawnPedigree h d = some (c, p) := by
  unfold spawnPedigree
  simp only [hl, if_neg (Nat.not_lt.2 hr), hc, hp]

theorem joinPedigree_none {h d : W64} {l : List (Nat × Nat)} (hl : withLast (pedigree h d) = l)
    (hbad : rankMax < (l.getLastD (0, 0)).1 + 1 ∨ 120 < pedSize true (l.dropLast ++ [((l.getLastD (0, 0)).1 + 1, 0)])) :
    joinPedigree h d = none := by
  unfold joinPedigree
  simp only [hl]
  split
  · rfl
  · rename_i hr
    exact pedEncode_none (hbad.resolve_left hr)

theorem joinPedigree_some {h d : W64} {l : List (Nat × Nat)} (hl : withLast (pedigree h d) = l) (hr : (l.getLastD (0, 0)).1 + 1 ≤ rankMax)
    {p : W64 × W64} (hp : pedEncode (l.dropLast ++ [((l.getLastD (0, 0)).1 + 1, 0)]) = some p) : joinPedigree h d = some p := by
  unfold joinPedigree
  simp only [hl, if_neg (Nat.not_lt.2 hr), hp]

/-! ## SPAWN and JOIN, once every split has converged -/

@[simp] theorem mergeParked_pdh (s : State) : s.mergeParked.cur.pdh = s.cur.pdh := rfl
@[simp] theorem mergeParked_pdl (s : State) : s.mergeParked.cur.pdl = s.cur.pdl := rfl
@[simp] theorem mergeParked_gGet (s : State) (n : Nat) : s.mergeParked.cur.gGet n = s.cur.gGet n := rfl

@[simp] theorem Pend.follow_code (es : List Nat) (e : Nat) (x : Pend) : (x.follow es e).code = x.code := by
  unfold Pend.follow; split <;> rfl

/-- Merging moves no report to or from another code. -/
theorem find_follow_eq_none (es : List Nat) (e c : Nat) (l : List Pend) :
    (l.map (Pend.follow es e)).find? (fun p => p.code == c) = none ↔ l.find? (fun p => p.code == c) = none := by
  simp only [List.find?_eq_none, List.forall_mem_map, Pend.follow_code]

theorem raceDue_eq_none (s : State) : s.raceDue = none ↔ s.cur.handler.isSome = true ∨
    (s.cur.pend.find? (fun p => p.code == 0x30) = none ∧ s.cur.pend.find? (fun p => p.code == 0x31) = none) := by
  unfold State.raceDue
  cases s.cur.handler.isSome <;> cases s.cur.pend.find? (fun p => p.code == 0x30) <;> simp

theorem mergeParked_raceDue {s : State} (h : s.raceDue = none) : s.mergeParked.raceDue = none := by
  rw [raceDue_eq_none] at h ⊢
  exact h.imp id (fun h => ⟨(find_follow_eq_none _ _ _ _).2 h.1, (find_follow_eq_none _ _ _ _).2 h.2⟩)

theorem atDelivery_none {s : State} (h : s.raceDue = none) (f : State → State) : s.atDelivery f = f s := by
  unfold State.atDelivery; rw [h]

/-- SPAWN under a true guard is `State.spawn` of the merged split. -/
theorem exec_spawn_run {s : State} {q : BitVec 2} {d a b : BitVec 7} (h : Runs (.spawn q d a b) s) (hc : s.Converged) (hg : s.gpGuard q = true) :
    exec (.spawn q d a b) s = .next (s.mergeParked.spawn (encode (.spawn q d a b)) d a b) := by
  rw [exec_spawn, execSpawn, convergentForm_run h hc]
  exact congrArg Outcome.next (if_pos hg)

/-- JOIN under a true guard with no report due is `State.joinThen` of the merged split. -/
theorem exec_join_run {s : State} {q : BitVec 2} (h : Runs (.join q) s) (hc : s.Converged) (hg : s.gpGuard q = true) (hr : s.raceDue = none) :
    exec (.join q) s = .next (s.mergeParked.joinThen State.finish) := by
  rw [exec_join, execJoin, convergentForm_run h hc, ← atDelivery_none (mergeParked_raceDue hr) (fun s => s.joinThen State.finish)]
  exact congrArg Outcome.next (if_pos hg)

theorem spawn_target_ok {t : W64} (h : badTarget t = false) : ¬(t.toNat / 2 ^ 57 ≠ 0 ∨ t.toNat / 2 ^ 48 = 0x1FF) := by
  unfold badTarget at h
  simpa using h

theorem spawn_of_none {s : State} {w : W32} {d a b : BitVec 7} (ht : badTarget (s.cur.gGet a.toNat &&& 0xFFFFFFFFFFFFFFFC#64) = false)
    (hp : spawnPedigree s.cur.pdh s.cur.pdl = none) : s.spawn w d a b = s.stopFault 0x13 0 0#64 0xFF := by
  unfold State.spawn
  simp only [if_neg (spawn_target_ok ht), hp]

theorem joinThen_of_none {s : State} {f : State → State} (hp : joinPedigree s.cur.pdh s.cur.pdl = none) :
    s.joinThen f = s.stopFault 0x13 1 0#64 0xFF := by
  unfold State.joinThen
  simp only [hp]

/-- Settles O45: a rank change has its pedigrees exactly where its rank and their sizes fit. -/
theorem pedigreeRanks : Obligations.PedigreeRanks := by
  unfold Obligations.PedigreeRanks
  intro bits total
  have hsize : ∀ l, total l = pedSize true l := by
    intro l
    have hrest : ∀ l : List (Nat × Nat), (l.map (fun e => bits false e.1 + bits false e.2)).sum = pedSize false l := by
      intro l
      induction l with
      | nil => rfl
      | cons e l ih => rw [List.map_cons, List.sum_cons, ih]; rfl
    cases l with
    | nil => rfl
    | cons e l => exact congrArg (rankBits true e.1 + rankBits true e.2 + ·) (hrest l)
  refine ⟨fun l hl => ?_, ?_⟩
  · have h := six_mul_length_le_pedSize true l
    rw [hsize] at hl
    omega
  intro s q d a b hconv hguard l l' last child own after hl henc
  have hfit : pedFits true l := fits_of_pedEncode henc
  have hlast : withLast l = l' := withLast_eq hl
  obtain ⟨hinit, hfinit, hf1, hf2⟩ := withLast_split hl hfit
  have hchild := withLast_fits hl hfit
  rw [hlast] at hinit hfinit hf1 hf2 hchild
  rw [hsize, hsize, hsize]
  refine ⟨fun hrun ht hbad => ?_, fun hr h1 h2 => ?_, fun hrun hrace hbad => ?_, fun hr h1 => ?_⟩
  · rw [exec_spawn_run hrun hconv hguard, spawn_of_none (s := s.mergeParked) ht (spawnPedigree_none hlast hbad)]
  · obtain ⟨c, hc⟩ := pedEncode_some hchild h1
    obtain ⟨p, hp⟩ := pedEncode_some (l := own) ((pedFits_append hinit).2 ⟨hfinit, hf1, rankFits_of_le_rankMax hr⟩) h2
    exact ⟨c, p, spawnPedigree_some hlast hr hc hp, hc, hp⟩
  · rw [exec_join_run hrun hconv hguard hrace, joinThen_of_none (s := s.mergeParked) (joinPedigree_none hlast hbad)]
  · obtain ⟨p, hp⟩ := pedEncode_some (l := after) ((pedFits_append hinit).2 ⟨hfinit, rankFits_of_le_rankMax hr, rankFits_zero false⟩) h1
    exact ⟨p, joinPedigree_some hlast hr hp, hp⟩

end Sys2Proof.Machine
end

section

/-!
# One record for each queue, packet, team and strand (02 R25, R30, 12 R233, R242)

O3. Most operations leave the numbers of `State.Records` as they are, and then `s.Records` and the next state's `Records` are the same
statement by definition: such a step of a proof is `h` itself. First the tables and the strands, then the operations in the model's order.
-/

namespace Sys2Proof.Machine
open Host

/-! ## Keyed tables -/

theorem keys_put {α : Type} (l : List (Nat × α)) (k : Nat) (x : α) :
    (put l k x).map Prod.fst = if k ∈ l.map Prod.fst then l.map Prod.fst else l.map Prod.fst ++ [k] := by
  induction l with
  | nil => simp [put]
  | cons p l ih =>
    obtain ⟨a, y⟩ := p
    by_cases h : k = a
    · subst h; simp [put]
    · rw [put, if_neg h, List.map_cons, ih]
      simp only [List.map_cons, List.mem_cons, h, false_or]
      split <;> rfl

theorem nodup_keys_put {α : Type} {l : List (Nat × α)} (k : Nat) (x : α) (h : (l.map Prod.fst).Nodup) :
    ((put l k x).map Prod.fst).Nodup := by
  rw [keys_put]
  split
  · exact h
  · rename_i hk
    exact List.nodup_append.2 ⟨h, List.nodup_singleton k, by simpa using fun a b hab e => hk (by simpa using ⟨b, e ▸ hab⟩)⟩

theorem mem_put {α : Type} {l : List (Nat × α)} {k : Nat} {x : α} {p : Nat × α} (h : p ∈ put l k x) : p = (k, x) ∨ p ∈ l := by
  induction l with
  | nil => simpa [put] using h
  | cons q l ih =>
    obtain ⟨a, y⟩ := q
    unfold put at h
    split at h
    · exact (List.mem_cons.1 h).imp id (List.mem_cons_of_mem _)
    · rcases List.mem_cons.1 h with h | h
      · exact .inr (h ▸ List.mem_cons_self)
      · exact (ih h).imp id (List.mem_cons_of_mem _)

theorem forall_mem_put {α : Type} {P : Nat × α → Prop} {l : List (Nat × α)} {k : Nat} {x : α} (hx : P (k, x)) (h : ∀ p ∈ l, P p) :
    ∀ p ∈ put l k x, P p := fun p hp => (mem_put hp).elim (fun e => e ▸ hx) (h p)

theorem nodup_keys_filter {α : Type} {l : List (Nat × α)} (f : Nat × α → Bool) (h : (l.map Prod.fst).Nodup) :
    ((l.filter f).map Prod.fst).Nodup := (List.filter_sublist.map _).nodup h

theorem look_mem {α : Type} {l : List (Nat × α)} {k : Nat} {x : α} (h : look l k = some x) : (k, x) ∈ l := by
  induction l with
  | nil => cases h
  | cons p l ih =>
    obtain ⟨a, y⟩ := p
    unfold look at h
    split at h
    · rename_i e; cases h; exact e ▸ List.mem_cons_self
    · exact List.mem_cons_of_mem _ (ih h)

theorem look_eq_none {α : Type} {l : List (Nat × α)} {k : Nat} : look l k = none ↔ k ∉ l.map Prod.fst := by
  induction l with
  | nil => simp [look]
  | cons p l ih =>
    obtain ⟨a, y⟩ := p
    by_cases h : k = a <;> simp [look, h, ih]

theorem look_of_mem {α : Type} {l : List (Nat × α)} {k : Nat} {x : α} (hn : (l.map Prod.fst).Nodup) (h : (k, x) ∈ l) : look l k = some x := by
  induction l with
  | nil => cases h
  | cons p l ih =>
    obtain ⟨a, y⟩ := p
    simp only [List.map_cons, List.nodup_cons] at hn
    rcases List.mem_cons.1 h with h | h
    · cases h; simp [look]
    · have : k ≠ a := fun e => hn.1 (e ▸ List.mem_map_of_mem (f := Prod.fst) h)
      rw [look, if_neg this]
      exact ih hn.2 h

theorem look_drop {α : Type} (l : List (Nat × α)) (k j : Nat) : look (drop l k) j = if j = k then none else look l j := by
  induction l with
  | nil => simp [drop, look]
  | cons p l ih =>
    obtain ⟨a, y⟩ := p
    unfold drop at ih ⊢
    by_cases e : a = k
    · subst e
      by_cases hj : j = a
      · subst hj; simpa using ih
      · simp [ih, look, hj]
    · by_cases ja : j = a
      · subst ja; simp [e, look]
      · simp [e, look, ja, ih]

theorem look_map {α β : Type} (f : α → β) (l : List (Nat × α)) (k : Nat) : look (l.map (fun p => (p.1, f p.2))) k = (look l k).map f := by
  induction l with
  | nil => rfl
  | cons p l ih =>
    obtain ⟨a, y⟩ := p
    by_cases h : k = a <;> simp [look, h, ih]

/-! ## Tables and strands -/

/-- The part of `State.Records` that speaks of queues, packets and teams. -/
structure State.TablesOk (s : State) : Prop where
  queues : (s.queues.map Prod.fst).Nodup
  jobs : (s.jobs.map Prod.fst).Nodup
  jobIds : ∀ p ∈ s.jobs, p.2.id = p.1
  teams : ∀ p ∈ s.teams, p.1 = teamKey p.2.job p.2.idx

/-- Whether a group may stand under its number in the state. -/
def State.Numbered (s : State) (g : Group) : Prop := g.gid < s.nextId ∧ (g.kind = .idle ↔ g.gid = 0)

/-- The part of `State.Records` that speaks of strands. -/
structure State.StrandsOk (s : State) : Prop where
  keys : (s.groups.map Prod.fst).Nodup
  gids : ∀ p ∈ s.groups, p.2.gid = p.1
  numbered : ∀ p ∈ s.groups, s.Numbered p.2
  focus : s.Numbered s.cur
  apart : s.cur.kind ≠ .idle → look s.groups s.cur.gid = none

theorem records_iff (s : State) : s.Records ↔ s.TablesOk ∧ s.StrandsOk := by
  constructor
  · rintro ⟨hq, hj, hi, ht, hk, hg, hn, hc, ha⟩
    refine ⟨⟨hq, hj, hi, ht⟩, hk, fun p hp => (hg p hp).1, fun p hp => ?_, ⟨hn, hc⟩, ha⟩
    obtain ⟨h1, h2, h3⟩ := hg p hp
    exact ⟨h1 ▸ h2, h1 ▸ h3⟩
  · rintro ⟨⟨hq, hj, hi, ht⟩, hk, hg, hn, hf, ha⟩
    refine ⟨hq, hj, hi, ht, hk, fun p hp => ?_, hf.1, hf.2, ha⟩
    obtain ⟨h1, h2⟩ := hn p hp
    rw [hg p hp] at h1 h2
    exact ⟨hg p hp, h1, h2⟩

theorem State.Records.tables {s : State} (h : s.Records) : s.TablesOk := ((records_iff s).1 h).1
theorem State.Records.strands {s : State} (h : s.Records) : s.StrandsOk := ((records_iff s).1 h).2

/-- New tables beside the same strands. -/
theorem State.Records.withTables {s t : State} (h : s.Records) (ht : t.TablesOk) (hg : t.groups = s.groups) (hn : t.nextId = s.nextId)
    (hc : t.cur.gid = s.cur.gid) (hk : t.cur.kind = s.cur.kind) : t.Records := by
  obtain ⟨h1, h2, h3, h4, h5⟩ := h.strands
  refine (records_iff t).2 ⟨ht, hg ▸ h1, hg ▸ h2, ?_, ?_, ?_⟩
  · unfold State.Numbered at h3 ⊢; rw [hg, hn]; exact h3
  · unfold State.Numbered at h4 ⊢; rw [hc, hk, hn]; exact h4
  · rw [hg, hc, hk]; exact h5

/-- New strands beside the same tables. -/
theorem State.Records.withStrands {s t : State} (h : s.Records) (ht : t.StrandsOk) (hq : t.queues = s.queues) (hj : t.jobs = s.jobs)
    (hm : t.teams = s.teams) : t.Records := by
  obtain ⟨h1, h2, h3, h4⟩ := h.tables
  exact (records_iff t).2 ⟨⟨hq ▸ h1, hj ▸ h2, hj ▸ h3, hm ▸ h4⟩, ht⟩

/-- What `State.Records` speaks of. -/
def State.roster (s : State) : List (Nat × Queue) × List (Nat × Job) × List (Nat × Team) × List (Nat × Group) × Nat × Kind × Nat :=
  (s.queues, s.jobs, s.teams, s.groups, s.cur.gid, s.cur.kind, s.nextId)

theorem State.Records.ofRoster {s t : State} (h : s.Records) (e : t.roster = s.roster) : t.Records := by
  simp only [State.roster, Prod.mk.injEq] at e
  obtain ⟨hq, hj, hm, hg, hc, hk, hn⟩ := e
  unfold State.Records at h ⊢
  rwa [hq, hj, hm, hg, hc, hk, hn]

theorem reset_records : State.reset.Records := by
  refine (records_iff _).2 ⟨⟨List.nodup_nil, List.nodup_nil, by simp [State.reset], by simp [State.reset]⟩, List.nodup_nil, by simp [State.reset], by simp [State.reset],
    ⟨Nat.one_pos, by decide⟩, fun h => rfl⟩

theorem foldl_keeps {α : Type} {f : State → α → State} (hf : ∀ t x, t.Records → (f t x).Records) (l : List α) {s : State} (h : s.Records) :
    (l.foldl f s).Records := l.foldlRecOn f (motive := State.Records) h (fun t ht x _ => hf t x ht)

theorem foldl_fst_keeps {α β : Type} {f : State × β → α → State × β} (hf : ∀ p x, p.1.Records → (f p x).1.Records) (l : List α)
    {p : State × β} (h : p.1.Records) : (l.foldl f p).1.Records :=
  l.foldlRecOn f (motive := fun q => q.1.Records) h (fun q hq x _ => hf q x hq)

theorem foldl_bind_keeps {α : Type} {f : State → α → Option State} (hf : ∀ t x u, t.Records → f t x = some u → u.Records) (l : List α)
    {o : Option State} {t : State} (ho : ∀ u, o = some u → u.Records) (h : l.foldl (fun o x => o.bind (fun u => f u x)) o = some t) :
    t.Records := by
  refine l.foldlRecOn _ (motive := fun o => ∀ u, o = some u → u.Records) ho (fun o ho x _ u hu => ?_) t h
  obtain ⟨v, hv, hw⟩ := Option.bind_eq_some_iff.1 hu
  exact hf v x u (ho v hv) hw

theorem getD_keeps {o : Option State} {t : State} (h : ∀ u, o = some u → u.Records) (ht : t.Records) : (o.getD t).Records := by
  cases o with
  | none => exact ht
  | some u => exact h u rfl

/-! ## Updates of the tables -/

theorem State.withJobs_keeps {s : State} {l : List (Nat × Job)} (h : s.Records) (hn : (l.map Prod.fst).Nodup) (hi : ∀ p ∈ l, p.2.id = p.1) :
    ({ s with jobs := l } : State).Records :=
  h.withTables ⟨h.tables.queues, hn, hi, h.tables.teams⟩ rfl rfl rfl rfl

theorem State.withQueues_keeps {s : State} {l : List (Nat × Queue)} (h : s.Records) (hn : (l.map Prod.fst).Nodup) :
    ({ s with queues := l } : State).Records :=
  h.withTables ⟨hn, h.tables.jobs, h.tables.jobIds, h.tables.teams⟩ rfl rfl rfl rfl

theorem State.withTeams_keeps {s : State} {l : List (Nat × Team)} (h : s.Records) (ht : ∀ p ∈ l, p.1 = teamKey p.2.job p.2.idx) :
    ({ s with teams := l } : State).Records :=
  h.withTables ⟨h.tables.queues, h.tables.jobs, h.tables.jobIds, ht⟩ rfl rfl rfl rfl

/-- A packet's record put under its own number. -/
@[simp] theorem State.putJobAt_keeps {s : State} {k : Nat} {j : Job} (h : s.Records) (hj : j.id = k) : ({ s with jobs := put s.jobs k j } : State).Records :=
  State.withJobs_keeps h (nodup_keys_put _ _ h.tables.jobs) (forall_mem_put hj h.tables.jobIds)

@[simp] theorem State.putJob_keeps {s : State} (j : Job) (h : s.Records) : (s.putJob j).Records := State.putJobAt_keeps h rfl

@[simp] theorem State.dropJob_keeps {s : State} (k : Nat) (h : s.Records) : ({ s with jobs := drop s.jobs k } : State).Records :=
  State.withJobs_keeps h (nodup_keys_filter _ h.tables.jobs) (fun p hp => h.tables.jobIds p (List.mem_of_mem_filter hp))

@[simp] theorem State.putQueueAt_keeps {s : State} (n : Nat) (q : Queue) (h : s.Records) : ({ s with queues := put s.queues n q } : State).Records :=
  State.withQueues_keeps h (nodup_keys_put _ _ h.tables.queues)

@[simp] theorem State.putQueue_keeps {s : State} (n : Nat) (q : Queue) (h : s.Records) : (s.putQueue n q).Records := State.putQueueAt_keeps n q h

@[simp] theorem State.dropQueue_keeps {s : State} (n : Nat) (h : s.Records) : ({ s with queues := drop s.queues n } : State).Records :=
  State.withQueues_keeps h (nodup_keys_filter _ h.tables.queues)

@[simp] theorem State.putTeam_keeps {s : State} (t : Team) (h : s.Records) : (s.putTeam t).Records :=
  State.withTeams_keeps h (forall_mem_put rfl h.tables.teams)

@[simp] theorem State.filterTeams_keeps {s : State} (f : Nat × Team → Bool) (h : s.Records) : ({ s with teams := s.teams.filter f } : State).Records :=
  State.withTeams_keeps h (fun p hp => h.tables.teams p (List.mem_of_mem_filter hp))

@[simp] theorem State.onJob_keeps {s : State} (id : Nat) (f : Job → Job) (h : s.Records) : (s.onJob id f).Records := by
  unfold State.onJob
  split
  · exact State.putJob_keeps _ h
  · exact h

@[simp] theorem State.queueError_keeps {s : State} (n : Nat) (h : s.Records) : (s.queueError n).Records := by
  unfold State.queueError
  split
  · exact State.putQueue_keeps _ _ h
  · exact h

/-! ## Updates of the strands -/

/-- A group of the state stands under its own number, which was handed out. -/
theorem State.Records.ofLook {s : State} (h : s.Records) {n : Nat} {g : Group} (hg : look s.groups n = some g) : g.gid = n ∧ s.Numbered g :=
  ⟨h.strands.gids _ (look_mem hg), h.strands.numbered _ (look_mem hg)⟩

theorem State.Records.ofGroupOf {s : State} (h : s.Records) {n : Nat} {g : Group} (hg : s.groupOf n = some g) : g.gid = n ∧ s.Numbered g := by
  unfold State.groupOf at hg
  split at hg
  · rename_i hn; cases hg; exact ⟨hn, h.strands.focus⟩
  · exact h.ofLook hg

/-- A group of a number handed out goes beside the one in focus, or in its place. -/
@[simp] theorem State.putGroup_keeps {s : State} {g : Group} (h : s.Records) (hg : s.Numbered g) : (s.putGroup g).Records := by
  obtain ⟨hk, hi, hn, hf, ha⟩ := h.strands
  unfold State.putGroup
  split
  · rename_i hc
    refine h.withStrands ⟨hk, hi, hn, hg, fun hne => ?_⟩ rfl rfl rfl
    have hcur : s.cur.kind ≠ .idle := fun e => hne (hg.2.2 (hc ▸ hf.2.1 e))
    exact hc ▸ ha hcur
  · rename_i hc
    refine h.withStrands ⟨nodup_keys_put _ _ hk, forall_mem_put rfl hi, forall_mem_put hg hn, hf, fun hne => ?_⟩ rfl rfl rfl
    rw [look_put, if_neg hc]
    exact ha hne

/-- A group found by its number, changed in nothing that numbers it. -/
theorem State.putFound_keeps {s : State} {n : Nat} {g x : Group} (h : s.Records) (hg : s.groupOf n = some g) (hi : x.gid = g.gid)
    (hk : x.kind = g.kind) : (s.putGroup x).Records := by
  refine State.putGroup_keeps h ?_
  obtain ⟨-, h1, h2⟩ := h.ofGroupOf hg
  exact ⟨hi ▸ h1, by rw [hi, hk]; exact h2⟩

@[simp] theorem State.focus_keeps {s : State} (gid entry : Nat) (h : s.Records) : (s.focus gid entry).Records := by
  obtain ⟨hk, hi, hn, hf, ha⟩ := h.strands
  unfold State.focus
  split
  · exact h
  · rename_i hc
    split
    · exact h
    · rename_i g hg
      obtain ⟨hid, hnum⟩ := h.ofLook hg
      refine h.withStrands ⟨nodup_keys_filter _ (nodup_keys_put _ _ hk), fun p hp => ?_, fun p hp => ?_, hnum, fun _ => ?_⟩ rfl rfl rfl
      · exact forall_mem_put (P := fun p => p.2.gid = p.1) rfl hi p (List.mem_of_mem_filter hp)
      · exact forall_mem_put (P := fun p => s.Numbered p.2) hf hn p (List.mem_of_mem_filter hp)
      · show look (drop (put s.groups s.cur.gid s.cur) gid) g.gid = none
        rw [look_drop, if_pos hid]

/-- Every strand changed in nothing that numbers it. -/
theorem State.eachGroup_keeps {s : State} {f : Group → Group} (hf : ∀ g, (f g).gid = g.gid ∧ (f g).kind = g.kind) (h : s.Records) :
    ({ s with cur := f s.cur, groups := s.groups.map (fun p => (p.1, f p.2)) } : State).Records := by
  obtain ⟨hk, hi, hn, hc, ha⟩ := h.strands
  have hnum : ∀ g, s.Numbered g → s.Numbered (f g) := fun g hg => by
    unfold State.Numbered at hg ⊢; rw [(hf g).1, (hf g).2]; exact hg
  refine h.withStrands ⟨?_, ?_, ?_, hnum _ hc, fun hne => ?_⟩ rfl rfl rfl
  · show ((s.groups.map (fun p => (p.1, f p.2))).map Prod.fst).Nodup
    rw [List.map_map]; exact hk
  · simp only [List.forall_mem_map, (hf _).1]
    exact hi
  · simp only [List.forall_mem_map]
    exact fun p hp => hnum _ (hn p hp)
  · show look (s.groups.map (fun p => (p.1, f p.2))) (f s.cur).gid = none
    rw [look_map, (hf _).1, ha ((hf _).2 ▸ hne)]
    rfl

theorem State.mapGroups_keeps {s : State} {f : Group → Group} (hf : ∀ g, (f g).gid = g.gid ∧ (f g).kind = g.kind) (h : s.Records) :
    (s.mapGroups f).Records := State.eachGroup_keeps hf h

/-- The group in focus leaves its place for good. -/
@[simp] theorem State.blank_keeps {s : State} (h : s.Records) : ({ s with cur := Group.blank } : State).Records := by
  obtain ⟨hk, hi, hn, hc, -⟩ := h.strands
  exact h.withStrands ⟨hk, hi, hn, ⟨Nat.zero_lt_of_lt hc.1, iff_of_true rfl rfl⟩, fun h => absurd rfl h⟩ rfl rfl rfl

@[simp] theorem State.vacate_keeps {s : State} (h : s.Records) : s.vacate.Records := State.blank_keeps h

/-- Groups that stay. -/
@[simp] theorem State.filterGroups_keeps {s : State} (f : Nat × Group → Bool) (h : s.Records) : ({ s with groups := s.groups.filter f } : State).Records := by
  obtain ⟨hk, hi, hn, hc, ha⟩ := h.strands
  refine h.withStrands ⟨nodup_keys_filter _ hk, fun p hp => hi p (List.mem_of_mem_filter hp), fun p hp => hn p (List.mem_of_mem_filter hp), hc,
    fun hne => ?_⟩ rfl rfl rfl
  have := ha hne
  rw [look_eq_none] at this ⊢
  exact fun hm => this ((List.filter_sublist.map _).subset hm)

/-- Numbers handed out. -/
@[simp] theorem State.skipIds_keeps {s : State} (n : Nat) (h : s.Records) : ({ s with nextId := s.nextId + n } : State).Records := by
  obtain ⟨hk, hi, hn, hc, ha⟩ := h.strands
  have hnum : ∀ g, s.Numbered g → ({ s with nextId := s.nextId + n } : State).Numbered g := fun g hg => ⟨Nat.lt_add_right n hg.1, hg.2⟩
  exact h.withStrands ⟨hk, hi, fun p hp => hnum _ (hn p hp), hnum _ hc, ha⟩ rfl rfl rfl

/-- Strands that start under the next numbers. -/
theorem State.startGroups_keeps {s : State} (n : Nat) {l : List Group} (h : s.Records)
    (hl : ∀ g ∈ l, s.nextId ≤ g.gid ∧ g.gid < s.nextId + n ∧ g.kind ≠ .idle) :
    ({ s with groups := l.foldl (fun m g => put m g.gid g) s.groups, nextId := s.nextId + n } : State).Records := by
  have hpos : 0 < s.nextId := Nat.zero_lt_of_lt h.strands.focus.1
  have hcur : ∀ g ∈ l, s.cur.gid ≠ g.gid := fun g hg e => by have := h.strands.focus.1; have := (hl g hg).1; omega
  have hstart := State.skipIds_keeps n h
  suffices ∀ (l : List Group) (m : List (Nat × Group)), (∀ g ∈ l, s.nextId ≤ g.gid ∧ g.gid < s.nextId + n ∧ g.kind ≠ .idle) →
      ({ s with groups := m, nextId := s.nextId + n } : State).Records →
      ({ s with groups := l.foldl (fun m g => put m g.gid g) m, nextId := s.nextId + n } : State).Records from this l s.groups hl hstart
  intro l
  induction l with
  | nil => exact fun m _ hm => hm
  | cons g l ih =>
    intro m hl hm
    obtain ⟨h1, h2, h3⟩ := hl g List.mem_cons_self
    refine ih _ (fun x hx => hl x (List.mem_cons_of_mem _ hx)) ?_
    have hne : s.cur.gid ≠ g.gid := fun e => by have := h.strands.focus.1; omega
    have hput := State.putGroup_keeps hm (g := g) ⟨h2, iff_of_false h3 (by omega)⟩
    unfold State.putGroup at hput
    rwa [if_neg hne] at hput

end Sys2Proof.Machine
end

section
namespace Sys2Proof.Machine
open Host

/-! ## Device registers, page requests and the device's stores -/

@[simp] theorem State.request_keeps {s : State} (page : Nat) (root : W64) (queue access : Nat) (o : Owner) (h : s.Records) :
    (s.request page root queue access o).1.Records := by
  unfold State.request; split <;> exact h

/-- A device access whose page is not there changes requests and refusals only (14 R270). -/
theorem State.devPage_waits_keeps {s t : State} {key queue va : Nat} {root : W64} {write : Bool} (h : s.Records)
    (hd : s.devPage key root queue va write = .waits t) : t.Records := by
  unfold State.devPage at hd
  dsimp only at hd
  split at hd
  · cases hd
  · split at hd
    · cases hd; exact h
    · split at hd
      · cases hd; exact State.request_keeps _ _ _ _ _ h
      · split at hd
        · cases hd; exact State.request_keeps _ _ _ _ _ h
        · split at hd <;> cases hd

theorem State.devPage_refused_keeps {s t : State} {key queue va cause : Nat} {root : W64} {write : Bool} (h : s.Records)
    (hd : s.devPage key root queue va write = .refused t cause) : t.Records := by
  unfold State.devPage at hd
  dsimp only at hd
  split at hd
  · cases hd; exact h
  · split at hd
    · cases hd
    · split at hd
      · cases hd
      · split at hd
        · cases hd
        · split at hd <;> cases hd; exact h

@[simp] theorem State.ring_keeps {s : State} (n value : Nat) (h : s.Records) : (s.ring n value).Records := by
  unfold State.ring
  split
  · exact h
  · exact State.putQueueAt_keeps _ _ h

@[simp] theorem State.mmioWrite_keeps {s : State} (off size x : Nat) (h : s.Records) : (s.mmioWrite off size x).Records := by
  unfold State.mmioWrite
  split_ifs
  · exact h
  · exact h
  · exact State.ring_keeps _ _ h
  · exact h
  · exact h
  · exact h
  · exact h

@[simp] theorem State.devStore_keeps {s : State} (pa n x : Nat) (h : s.Records) : (s.devStore pa n x).Records := by
  unfold State.devStore
  split
  · exact State.mmioWrite_keeps _ _ _ h
  · exact h

@[simp] theorem State.devPut_keeps {s : State} (pa : Nat) (bs : List Byte) (h : s.Records) : (s.devPut pa bs).Records := by
  unfold State.devPut
  split
  · exact foldl_keeps (fun t i ht => State.devStore_keeps _ _ _ ht) _ h
  · exact h

@[simp] theorem State.store_keeps {s : State} (loc : Nat) (bs : List Byte) (h : s.Records) : (s.store loc bs).Records := h
@[simp] theorem State.storeNat_keeps {s : State} (loc n x : Nat) (h : s.Records) : (s.storeNat loc n x).Records := h
@[simp] theorem State.idle_keeps {s : State} (h : s.Records) : s.idle.Records := h
@[simp] theorem State.forget_keeps {s : State} (key : Nat) (h : s.Records) : (s.forget key).Records := h

/-! ## Exceptions and the end of a launch -/

@[simp] theorem State.slotZero_keeps {s : State} (j : Job) (rec : List Byte) (h : s.Records) : (s.slotZero j rec).Records := by
  unfold State.slotZero
  split
  · split
    · exact State.putJob_keeps _ h
    · split
      next => exact State.devStore_keeps _ _ _ h
      next hw => exact State.putJob_keeps _ (State.devPage_waits_keeps h hw)
      next hr => exact State.devPage_refused_keeps h hr
  · split
    next => exact State.putJob_keeps _ (State.devPut_keeps _ _ h)
    next hw => exact State.putJob_keeps _ (State.devPage_waits_keeps h hw)
    next hr => exact State.putJob_keeps _ (State.devPage_refused_keeps h hr)

@[simp] theorem State.endJob_keeps {s : State} (id status : Nat) (rec : List Byte) (h : s.Records) : (s.endJob id status rec).Records := by
  unfold State.endJob
  split
  · exact h
  · dsimp only
    split
    · exact State.slotZero_keeps _ _ h
    · exact State.putJob_keeps _ (State.slotZero_keeps _ _ h)

@[simp] theorem State.saveRep_keeps {s : State} (h : s.Records) : s.saveRep.Records := by unfold State.saveRep; split <;> exact h

@[simp] theorem State.enterHandler_keeps {s : State} (e : Exc) (slot : Nat) (h : s.Records) : (s.enterHandler e slot).Records := by
  have h1 := State.saveRep_keeps h
  unfold State.enterHandler
  generalize s.saveRep = s1 at h1 ⊢
  exact h1

theorem Group.leaveRegion_same (g : Group) : g.leaveRegion.gid = g.gid ∧ g.leaveRegion.kind = g.kind := by
  unfold Group.leaveRegion; split <;> exact ⟨rfl, rfl⟩

/-- The group in focus changed in nothing that numbers it. -/
@[simp] theorem State.setCur_keeps {s : State} {g : Group} (h : s.Records) (hi : g.gid = s.cur.gid := by simp)
    (hk : g.kind = s.cur.kind := by simp) : (s.setCur g).Records := by
  obtain ⟨hq, hj, hd, ht⟩ := h.tables
  exact h.withTables ⟨hq, hj, hd, ht⟩ rfl rfl hi hk

/-- A step that comes to its end. -/
@[simp] theorem State.ticked_records (s : State) (n : Nat) (l : Option (BitVec 24)) :
    ({ s with tick := n, limm := l } : State).Records ↔ s.Records := Iff.rfl

@[simp] theorem State.block_keeps {s : State} (w : Wait) (h : s.Records) : (s.block w).Records := h

@[simp] theorem State.leaveRegion_keeps {s : State} (h : s.Records) : (s.setCur s.cur.leaveRegion).Records :=
  State.setCur_keeps h s.cur.leaveRegion_same.1 s.cur.leaveRegion_same.2

@[simp] theorem State.takeIn_keeps {s : State} (e : Exc) (slot : Nat) (h : s.Records) : (s.takeIn e slot).Records := by
  unfold State.takeIn
  split
  next hw => exact State.block_keeps _ (State.leaveRegion_keeps (State.devPage_waits_keeps h hw))
  next hr => exact State.putJob_keeps _ (State.devPage_refused_keeps h hr)
  next => exact State.enterHandler_keeps _ _ (State.devPut_keeps _ _ h)

@[simp] theorem State.takeOr_keeps {s : State} (e : Exc) (again : Option Exc) (h : s.Records) : (s.takeOr e again).Records := by
  unfold State.takeOr
  split
  · exact State.endJob_keeps _ _ _ h
  · split
    · exact State.block_keeps _ (State.leaveRegion_keeps h)
    · exact State.takeIn_keeps _ _ (State.putJob_keeps _ h)

@[simp] theorem State.take_keeps {s : State} (e : Exc) (h : s.Records) : (s.take e).Records := State.takeOr_keeps _ _ h

@[simp] theorem State.stopFault_keeps {s : State} (code detail : Nat) (addr : W64) (lane : Nat) (h : s.Records) :
    (s.stopFault code detail addr lane).Records := State.take_keeps _ h

@[simp] theorem State.illegal_keeps {s : State} (word : W32) (h : s.Records) : (s.illegal word).Records := State.stopFault_keeps _ _ _ _ h

@[simp] theorem State.leaveHandler_keeps {s : State} (h : s.Records) : s.leaveHandler.Records := by
  unfold State.leaveHandler
  split
  · exact h
  · exact State.setCur_keeps (State.putJob_keeps _ h) rfl rfl

@[simp] theorem State.resume_keeps {s : State} (epc : W64) (h : s.Records) : (s.resume epc).Records := by
  have h1 := State.leaveHandler_keeps h
  refine h1.ofRoster ?_
  simp [State.roster, State.resume, State.setSplit]

@[simp] theorem State.deliver_keeps {s : State} (e : Exc) (keep : List Pend) (h : s.Records) : (s.deliver e keep).Records := by
  have ht : ((s.setCur { s.cur with pend := keep }).takeOr e none).Records := State.takeOr_keeps _ _ (State.setCur_keeps h rfl rfl)
  unfold State.deliver
  dsimp only
  split
  · exact State.setCur_keeps ht rfl rfl
  · exact ht

@[simp] theorem State.atDelivery_keeps {s : State} {f : State → State} (hf : (f s).Records) (h : s.Records) : (s.atDelivery f).Records := by
  unfold State.atDelivery
  split
  · exact State.deliver_keeps _ _ h
  · exact hf

@[simp] theorem State.finish_keeps {s : State} (h : s.Records) : s.finish.Records := h
@[simp] theorem State.jump_keeps {s : State} (t : W64) (h : s.Records) : (s.jump t).Records := h

@[simp] theorem State.consume_keeps {s : State} (h : s.Records) : s.consume.Records := by unfold State.consume; split <;> exact h

@[simp] theorem State.hold_keeps {s : State} (misses : List Miss) (h : s.Records) : (s.hold misses).Records := by
  have h1 := State.saveRep_keeps h
  unfold State.hold
  generalize s.saveRep = s1 at h1 ⊢
  dsimp only
  refine State.setCur_keeps (foldl_fst_keeps (fun p m hp => ?_) misses ?_) rfl rfl
  · exact State.request_keeps _ _ _ _ _ hp
  · exact h1

@[simp] theorem State.report'_keeps {s : State} (code detail : Nat) (addr : W64) (h : s.Records) : (s.report' code detail addr).Records := h
@[simp] theorem State.mergeParked_keeps {s : State} (h : s.Records) : s.mergeParked.Records := h
@[simp] theorem State.setSplit_keeps {s : State} (p : Split) (h : s.Records) : (s.setSplit p).Records := h

end Sys2Proof.Machine
end

section
namespace Sys2Proof.Machine
open Host

/-! ## Groups changed in nothing that numbers them -/

/-- The same strand: its number and its kind. -/
def Group.Same (x g : Group) : Prop := x.gid = g.gid ∧ x.kind = g.kind

@[simp] theorem Group.same_refl (g : Group) : g.Same g := ⟨rfl, rfl⟩
theorem Group.Same.trans {x g y : Group} (h1 : x.Same g) (h2 : g.Same y) : x.Same y := ⟨h1.1.trans h2.1, h1.2.trans h2.2⟩

theorem State.setCur_same {s : State} {g : Group} (h : s.Records) (hg : g.Same s.cur) : (s.setCur g).Records := State.setCur_keeps h hg.1 hg.2

/-! ## Accesses of an instruction -/

@[simp] theorem State.spadUpset_keeps {s : State} (addr : W64) (h : s.Records) : (s.spadUpset addr).Records := State.endJob_keeps _ _ _ h

@[simp] theorem State.lostStore_keeps {s : State} (addr : W64) (h : s.Records) : (s.lostStore addr).Records := State.endJob_keeps _ _ _ h

@[simp] theorem State.boundaryFault_keeps {s : State} (code : Nat) (h : s.Records) : (s.boundaryFault code).Records := State.takeOr_keeps _ _ h

@[simp] theorem State.race_keeps {s : State} (store : Bool) (loc : Nat) (addr : W64) (w : W64 × W64) (h : s.Records) :
    (s.race store loc addr w).Records := by
  unfold State.race; split <;> exact h

@[simp] theorem State.spillFull_keeps {s : State} (detail : Nat) (addr : W64) (h : s.Records) : (s.spillFull detail addr).Records :=
  State.putJob_keeps _ (State.report'_keeps _ _ _ h)

@[simp] theorem State.recordWriter_keeps {s : State} (loc : Nat) (addr : W64) (h : s.Records) : (s.recordWriter loc addr).Records := by
  unfold State.recordWriter
  dsimp only
  split <;> simp [h]

@[simp] theorem State.storeGranule_keeps {s : State} (loc : Nat) (addr : W64) (bs : List Byte) (h : s.Records) :
    (s.storeGranule loc addr bs).Records := by
  unfold State.storeGranule
  split <;> simp [h]

@[simp] theorem State.storeTo_keeps {s : State} (k : Acc) (t : Target) (addr : W64) (bs : List Byte) (h : s.Records) :
    (s.storeTo k t addr bs).Records := by
  unfold State.storeTo
  split
  · split_ifs <;> simp [h]
  · simp [h]
  · exact h

@[simp] theorem State.loadGranule_keeps {s : State} (loc : Nat) (addr : W64) (h : s.Records) : (s.loadGranule loc addr).Records := by
  unfold State.loadGranule; split <;> simp [h]

@[simp] theorem State.loadFrom_keeps {s : State} (k : Acc) (t : Target) (addr : W64) (size red : Nat) (h : s.Records) :
    (s.loadFrom k t addr size red).1.Records := by
  unfold State.loadFrom
  split
  · dsimp only
    split_ifs <;> simp [h]
  all_goals exact h

@[simp] theorem State.laneFaults_keeps {s : State} (l : List LaneAcc) (h : s.Records) : (s.laneFaults l).Records := by
  refine foldl_keeps (fun t a ht => ?_) l h
  split <;> exact ht

@[simp] theorem State.readLanes_keeps {s : State} (k : Acc) (size : Nat) (got : List (MemberRef × Option Nat)) (l : List LaneAcc)
    (h : s.Records) : (s.readLanes k size got l).1.Records := by
  refine foldl_fst_keeps (fun p a hp => ?_) l h
  split <;> simp [hp]

theorem State.gate_keeps {s t : State} {l : List LaneAcc} (h : s.Records) (hg : s.gate l = some t) : t.Records := by
  unfold State.gate at hg
  dsimp only at hg
  split at hg
  · cases hg; simp [h]
  · split at hg
    · cases hg; simp [h]
    · split at hg
      · cases hg; simp [h]
      · obtain ⟨a, -, rfl⟩ := Option.map_eq_some_iff.1 hg
        simp [h]

theorem State.groupGate_keeps {s t : State} {a : LaneAcc} (h : s.Records) (hg : s.groupGate a = some t) : t.Records := by
  unfold State.groupGate at hg
  split at hg
  · cases hg; simp [h]
  · exact State.gate_keeps h hg

theorem State.gather_keeps {s t : State} {l : List LaneAcc} (h : s.Records) (hg : s.gather l = .error t) : t.Records := by
  unfold State.gather at hg
  dsimp only at hg
  split at hg
  · cases hg; simp [h]
  · split at hg <;> cases hg
    simp [h]

/-- A lane load whose destination is a register. -/
theorem State.laneLoad_keeps {s : State} {put : Group → W32 → (Nat → Nat) → Group} (k : Acc) (mask : W32) (size : Nat) (addr : Nat → W64)
    (hp : ∀ g m x, (put g m x).Same g) (h : s.Records) : (s.laneLoad k mask size addr put).Records := by
  unfold State.laneLoad
  dsimp only
  split
  next hg => exact State.gate_keeps h hg
  next =>
    split
    next hg => exact State.gather_keeps h hg
    next =>
      refine State.finish_keeps ?_
      have hl : ∀ l : List LaneAcc, ∀ t : State, t.Records → ∀ m x, ((t.setCur (put t.cur m x)).laneFaults l).Records :=
        fun l t ht m x => State.laneFaults_keeps l (State.setCur_same ht (hp _ _ _))
      split
      · exact State.report'_keeps _ _ _ (hl _ _ (State.readLanes_keeps _ _ _ _ h) _ _)
      · exact hl _ _ (State.readLanes_keeps _ _ _ _ h) _ _

@[simp] theorem State.laneStore_keeps {s : State} (k : Acc) (mask : W32) (size : Nat) (addr : Nat → W64) (data : Nat → Nat) (h : s.Records) :
    (s.laneStore k mask size addr data).Records := by
  unfold State.laneStore
  dsimp only
  split
  next hg => exact State.gate_keeps h hg
  next =>
    split
    next => exact State.block_keeps _ h
    next =>
      refine State.finish_keeps (State.laneFaults_keeps _ (foldl_keeps (fun t a ht => ?_) _ h))
      split_ifs <;> simp [ht]

/-- A group-wide load whose destination is a register. -/
theorem State.groupLoad_keeps {s : State} {put : Group → Nat → Group} (k : Acc) (ea : W64) (size : Nat) (hp : ∀ g x, (put g x).Same g)
    (h : s.Records) : (s.groupLoad k ea size put).Records := by
  unfold State.groupLoad
  dsimp only
  split
  next hg => exact State.groupGate_keeps h hg
  next =>
    split
    next hg => exact State.gather_keeps h hg
    next =>
      refine State.finish_keeps ?_
      split
      · exact State.report'_keeps _ _ _ (State.setCur_same (State.loadFrom_keeps _ _ _ _ _ h) (hp _ _))
      · exact State.setCur_same (State.loadFrom_keeps _ _ _ _ _ h) (hp _ _)

@[simp] theorem State.groupStore_keeps {s : State} (k : Acc) (ea : W64) (size data : Nat) (h : s.Records) :
    (s.groupStore k ea size data).Records := by
  unfold State.groupStore
  dsimp only
  split
  next hg => exact State.groupGate_keeps h hg
  next =>
    split
    next => exact State.block_keeps _ h
    next =>
      refine State.finish_keeps ?_
      split <;> simp [h]

/-! ## Atomics, deferred adds and regions -/

theorem State.appendAdd_keeps {s t : State} {j : Job} {a : DefAdd} (h : s.Records) (ha : s.appendAdd j a = some t) : t.Records := by
  unfold State.appendAdd at ha
  split at ha <;> cases ha
  exact State.putJob_keeps _ h

@[simp] theorem State.deferAdd_keeps {s : State} (loc width : Nat) (x : W64) (lane : Nat) (addr : W64) (h : s.Records) :
    (s.deferAdd loc width x lane addr).Records := by
  have h1 : (s.setCur { s.cur with seqNo := s.cur.seqNo.set lane (BitVec.ofNat 32 ((s.cur.seqNo.get lane).toNat + 1)) }).Records := h
  exact getD_keeps (fun _ => State.appendAdd_keeps h1) (State.spillFull_keeps _ _ h1)

theorem State.appendPartial_keeps {s t : State} {j : Job} {team loc width : Nat} {x : W64} (h : s.Records)
    (ha : s.appendPartial j team loc width x = some t) : t.Records := by
  unfold State.appendPartial at ha
  dsimp only at ha
  split at ha
  · cases ha; exact State.putJob_keeps _ h
  · split at ha <;> cases ha
    exact State.putJob_keeps _ h

@[simp] theorem State.partialAdd_keeps {s : State} (team loc width : Nat) (x addr : W64) (h : s.Records) :
    (s.partialAdd team loc width x addr).Records :=
  getD_keeps (fun _ => State.appendPartial_keeps h) (State.spillFull_keeps _ _ h)

theorem atomLane_keeps (g : Group) (c : BitVec 5) (d : BitVec 7) {p : State × List (Nat × Nat)} (a : LaneAcc) (h : p.1.Records) :
    (atomLane g c d p a).1.Records := by
  unfold atomLane
  split
  · dsimp only
    split <;> exact h
  all_goals exact h

theorem redLane_keeps (g : Group) (c : BitVec 5) (d : BitVec 7) {s : State} (a : LaneAcc) (h : s.Records) : (redLane g c d s a).Records := by
  unfold redLane
  dsimp only
  split
  · split_ifs <;> simp [h]
  · simp [h]
  · exact h

end Sys2Proof.Machine
end

section
namespace Sys2Proof.Machine
open Host

/-! ## Register writes and branches

A write of a lane or group register, a predicate or flags leaves the strand the same by definition, and so does a completion. -/

@[simp] theorem laneWrite_keeps {s : State} (d : BitVec 7) (f : Nat → W32) (m : W32) (h : s.Records) : (laneWrite d f m s).Records :=
  State.finish_keeps (State.setCur_keeps h)
@[simp] theorem laneWrite2_keeps {s : State} (d : BitVec 7) (f : Nat → W64) (m : W32) (h : s.Records) : (laneWrite2 d f m s).Records :=
  State.finish_keeps (State.setCur_keeps h)
@[simp] theorem groupWrite_keeps {s : State} (d : BitVec 7) (x : W64) (h : s.Records) : (groupWrite d x s).Records :=
  State.finish_keeps (State.setCur_keeps h)
@[simp] theorem groupWrite32_keeps {s : State} (d : BitVec 7) (x : W32) (h : s.Records) : (groupWrite32 d x s).Records :=
  groupWrite_keeps d (x.signExtend 64) h
@[simp] theorem predWrite_keeps {s : State} (d : Nat) (f : Nat → Bool) (m : W32) (h : s.Records) : (predWrite d f m s).Records :=
  State.finish_keeps (State.setCur_keeps h)
@[simp] theorem gpredWrite_keeps {s : State} (d : Nat) (x : Bool) (h : s.Records) : (gpredWrite d x s).Records :=
  State.finish_keeps (State.setCur_keeps h)
@[simp] theorem laneFloat_keeps {s : State} (d : BitVec 7) (f : Nat → FRes) (m : W32) (h : s.Records) : (laneFloat d f m s).Records :=
  State.finish_keeps (State.setCur_keeps h (by simp) (by simp))
@[simp] theorem laneFloat2_keeps {s : State} (d : BitVec 7) (f : Nat → FRes) (m : W32) (h : s.Records) : (laneFloat2 d f m s).Records :=
  State.finish_keeps (State.setCur_keeps h)

theorem Group.genSet_same (g : Group) (m : W32) (f : Nat → W64 × W64) : (g.genSet m f).Same g := by simp [Group.genSet, Group.Same]
theorem Group.advance_same (g : Group) (m : W32) : (g.advance m).Same g := g.genSet_same m _

@[simp] theorem State.place_keeps {s : State} (first : Path) (rest : List Path) (h : s.Records) : (s.place first rest).Records :=
  State.jump_keeps _ (State.setCur_keeps h)

/-- A branch whose link is written in a register. -/
theorem State.branch_keeps {s : State} {link : Group → Group} (word chk : W32) (dest : Nat → W64) (hl : ∀ g, (link g).Same g) (h : s.Records) :
    (s.branch word chk dest link).Records := by
  unfold State.branch
  split
  · simp [h]
  · split
    · simp [h]
    · exact State.jump_keeps _ (State.setCur_same h (hl _))
    · split
      · simp [h]
      · exact State.place_keeps _ _ (State.setCur_same h (hl _))

theorem State.goto_keeps {s : State} {link : Group → Group} (word : W32) (t : W64) (hl : ∀ g, (link g).Same g) (h : s.Records) :
    (s.goto word t link).Records := by
  unfold State.goto
  split
  · simp [h]
  · exact State.jump_keeps _ (State.setCur_same h (hl _))

@[simp] theorem State.repStart_keeps {s : State} (ctl : W32) (done left : Nat) (h : s.Records) : (s.repStart ctl done left).Records := by
  have hrun : ∀ p n l, ({ s.consume.setSplit p with tick := n, limm := l } : State).Records :=
    fun p _ _ => State.setSplit_keeps p (State.consume_keeps h)
  unfold State.repStart
  dsimp only
  split
  · simp [h]
  · split
    · simp [h]
    · split
      · split
        · simp [h]
        · exact hrun _ _ _
      · split_ifs
        · simp [h]
        · simp [h]
        · exact hrun _ _ _

@[simp] theorem State.setWbase_keeps {s : State} (x : Nat) (h : s.Records) : (s.setWbase x).Records := by
  unfold State.setWbase
  split
  · simp [h]
  · exact h

theorem tileForm_keeps (t : BitVec 3) {f : W32 → State → State} (m : W32) {s : State} (hf : (f m s).Records) (h : s.Records) :
    (tileForm t f m s).Records := by
  unfold tileForm
  split
  · simp [h]
  · exact hf

/-! ## Barriers and casks -/

@[simp] theorem State.barMember_keeps {s : State} (cause : Nat) (h : s.Records) : (s.barMember cause).Records := State.stopFault_keeps _ _ _ _ h

@[simp] theorem State.bara_keeps {s : State} (d n : BitVec 7) (h : s.Records) : (s.bara d n).Records := by
  unfold State.bara
  dsimp only
  split_ifs
  · simp [h]
  · simp [h]
  · simp [h]
  · exact State.finish_keeps (State.setCur_keeps (State.putTeam_keeps _ h))
  · simp [h]
  · exact State.finish_keeps (State.setCur_keeps (State.putJob_keeps _ h))

@[simp] theorem State.barm_keeps {s : State} (a n : BitVec 7) (h : s.Records) : (s.barm a n).Records := by
  unfold State.barm
  dsimp only
  split_ifs <;> simp [h]

@[simp] theorem State.bbUpdate_keeps {s : State} (job team off dexp darr cause : Nat) (h : s.Records) :
    (s.bbUpdate job team off dexp darr cause).Records := by
  unfold State.bbUpdate
  dsimp only
  split <;> simp [h]

theorem State.withBarrier_keeps {s : State} (va : W64) {f : Nat → Nat → State → State} (hf : ∀ team off, (f team off s).Records) (h : s.Records) :
    (s.withBarrier va f).Records := by
  unfold State.withBarrier
  split
  · exact hf _ _
  · simp [h]
  · simp [h]

theorem State.onWord_keeps {s : State} (va : W64) (team off : Nat) {f : State → State} (hf : (f s).Records) (h : s.Records) :
    (s.onWord va team off f).Records := by
  unfold State.onWord
  split
  · simp [h]
  · exact hf

@[simp] theorem State.sleepOn_keeps {s : State} (w : Wait) (loc : Nat) (h : s.Records) : (s.sleepOn w loc).Records := h

@[simp] theorem State.disarm_keeps {s : State} (h : s.Records) : s.disarm.Records := by
  unfold State.disarm
  generalize (_ && _ : Bool) = b
  cases b
  · exact h
  · exact h

@[simp] theorem State.caskFail_keeps {s : State} (h : s.Records) : s.caskFail.Records := State.stopFault_keeps _ _ _ _ h

@[simp] theorem State.putCask_keeps {s : State} (team n : Nat) (k : Cask) (h : s.Records) : (s.putCask team n k).Records := State.putTeam_keeps _ h

@[simp] theorem State.ckinit_keeps {s : State} (a : BitVec 7) (n : Nat) (h : s.Records) : (s.ckinit a n).Records := by
  simp only [State.ckinit]
  split_ifs
  · exact State.caskFail_keeps h
  · exact State.finish_keeps (State.putCask_keeps _ _ _ (foldl_keeps (fun t i ht => State.storeNat_keeps _ _ _ ht) _ h))

theorem State.withCask_keeps {s : State} (c n : Nat) {f : Nat → Cask → State → State} (hf : ∀ team k, (f team k s).Records) (h : s.Records) :
    (s.withCask c n f).Records := by
  unfold State.withCask
  dsimp only
  split
  · split
    · split_ifs
      · simp [h]
      · split
        · simp [h]
        · exact hf _ _
    · simp [h]
  · simp [h]
  · split_ifs
    · simp [h]
    · split
      · simp [h]
      · exact hf _ _

@[simp] theorem State.slotEntry_keeps {s : State} (team n i : Nat) (k : Cask) (on : Bool) (h : s.Records) : (s.slotEntry team n i k on).Records := by
  unfold State.slotEntry
  dsimp only
  split
  · exact State.skipIds_keeps 1 h
  · exact h

@[simp] theorem State.ckMove_keeps {s : State} (team n : Nat) (k : Cask) (a : BitVec 7) (old new : SlotState) (h : s.Records) :
    (s.ckMove team n k a old new).Records := by
  unfold State.ckMove
  dsimp only
  split
  · simp [h]
  · exact State.finish_keeps (State.putCask_keeps _ _ _ (State.slotEntry_keeps _ _ _ _ _ h))

/-! ## Tasks, budgets and reducers -/

@[simp] theorem State.spawn_keeps {s : State} (word : W32) (d a b : BitVec 7) (h : s.Records) : (s.spawn word d a b).Records := by
  unfold State.spawn
  dsimp only
  split
  · simp [h]
  · split
    · simp [h]
    · split_ifs
      · simp [h]
      · simp [h]
      · simp [h]
      · exact State.finish_keeps (State.setCur_keeps (s := { s with deques := _ }) h)

@[simp] theorem State.allocHeap_keeps {s : State} (d a : BitVec 7) (h : s.Records) : (s.allocHeap d a).Records := by
  unfold State.allocHeap
  dsimp only
  split
  · simp [h]
  · exact State.finish_keeps (State.setCur_keeps h)

@[simp] theorem State.allocLog_keeps {s : State} (d a : BitVec 7) (h : s.Records) : (s.allocLog d a).Records := by
  unfold State.allocLog
  dsimp only
  split
  · simp [h]
  · split
    next => simp [h]
    next =>
      split
      next hg => exact State.gate_keeps h hg
      next =>
        split
        next => simp [h]
        next =>
          refine State.finish_keeps (State.setCur_keeps (foldl_keeps (fun t x ht => ?_) _ h))
          split <;> simp [ht]

@[simp] theorem State.rdecl_keeps {s : State} (word : W32) (a n : BitVec 7) (h : s.Records) : (s.rdecl word a n).Records := by
  simp only [State.rdecl]
  split
  · simp [h]
  · split
    next hg => exact State.gate_keeps h hg
    next =>
      split
      next =>
        split_ifs
        · simp [h]
        · exact State.finish_keeps (State.setCur_keeps (State.putJob_keeps _ h))
        · exact State.finish_keeps (State.setCur_keeps (State.putJob_keeps _ h))
      next => simp [h]

@[simp] theorem State.noPlace_keeps {s : State} (h : s.Records) : s.noPlace.Records := by
  unfold State.noPlace
  dsimp only
  split
  · exact State.finish_keeps (State.report'_keeps _ _ _ (State.putJob_keeps _ h))
  · exact State.take_keeps _ (State.putJob_keeps _ h)

@[simp] theorem State.newView_keeps {s : State} (n va : Nat) (h : s.Records) : (s.newView n va).Records :=
  State.setCur_keeps (s := { s.store _ _ with nextId := s.nextId + 1 }) (State.skipIds_keeps 1 h) rfl rfl

@[simp] theorem State.rview_keeps {s : State} (word : W32) (d n : BitVec 7) (h : s.Records) : (s.rview word d n).Records := by
  unfold State.rview
  dsimp only
  split
  · simp [h]
  · split
    · exact h
    · split
      · simp [h]
      · refine State.finish_keeps (State.setCur_keeps ?_)
        split
        · exact h
        · simp [h]

@[simp] theorem State.combineViews_keeps {s : State} (b : List Byte) (left right : View) (h : s.Records) : (s.combineViews b left right).Records :=
  foldl_keeps (fun _ _ ht => State.storeNat_keeps _ _ _ ht) _ h

@[simp] theorem State.foldOne_keeps {s : State} (n : Nat) (vs : List View) (h : s.Records) : (s.foldOne n vs).1.Records := by
  unfold State.foldOne
  split
  · exact h
  · exact foldl_keeps (fun t r ht => State.combineViews_keeps _ _ _ ht) _ h

@[simp] theorem State.joinMerge_keeps {s : State} (h : s.Records) : s.joinMerge.1.Records := by
  unfold State.joinMerge
  refine foldl_fst_keeps (fun p n hp => ?_) _ h
  exact State.foldOne_keeps n _ hp

@[simp] theorem State.placeFold_keeps {s : State} (v : View) (h : s.Records) : (s.placeFold v).Records := State.setCur_keeps h rfl rfl

@[simp] theorem State.joined_keeps {s : State} (p : W64 × W64) (h : s.Records) : (s.joined p).Records :=
  foldl_keeps (fun _ v ht => State.placeFold_keeps v ht) _ (State.setCur_keeps (State.joinMerge_keeps h))

theorem State.joinThen_keeps {s : State} {f : State → State} (hf : ∀ t, t.Records → (f t).Records) (h : s.Records) : (s.joinThen f).Records := by
  unfold State.joinThen
  split
  · simp [h]
  · split_ifs
    · simp [h]
    · simp [h]
    · exact hf _ (State.joined_keeps _ h)

/-! ## The end of a group -/

@[simp] theorem State.teamEnd_keeps {s : State} (job team : Nat) (h : s.Records) : (s.teamEnd job team).Records := by
  unfold State.teamEnd
  dsimp only
  split
  · exact h
  · split
    · exact State.filterTeams_keeps _ h
    next j hj =>
      refine State.putJob_keeps (s := { s with teams := drop s.teams (teamKey job team), ops := _ }) _ ?_
      exact State.filterTeams_keeps _ h

@[simp] theorem State.reportTo_keeps {s : State} (t : Group) (h : s.Records) : (s.reportTo t).Records := by
  unfold State.reportTo
  split
  · exact h
  next p hp =>
    obtain ⟨hg, -⟩ := Option.filter_eq_some_iff.1 hp
    exact State.putFound_keeps h hg rfl rfl

@[simp] theorem State.endGroup_keeps {s : State} (h : s.Records) : s.endGroup.Records := by
  unfold State.endGroup
  dsimp only
  split
  · split
    · exact h
    · exact State.vacate_keeps (State.reportTo_keeps _ h)
  · exact State.vacate_keeps (State.putJob_keeps _ h)
  · exact State.teamEnd_keeps _ _ (State.vacate_keeps (State.putJob_keeps _ (State.putTeam_keeps _ h)))

@[simp] theorem State.deliverLane_keeps {s : State} (p : Pend) (h : s.Records) : (s.deliverLane p).Records := State.deliver_keeps _ _ h

@[simp] theorem State.exitLast_keeps {s : State} (h : s.Records) : s.exitLast.Records := by
  unfold State.exitLast
  dsimp only
  split <;> simp [h]

theorem Group.popPath_same (g : Group) : g.popPath.Same g := by
  unfold Group.popPath
  split
  · exact ⟨rfl, rfl⟩
  · split <;> exact ⟨rfl, rfl⟩

@[simp] theorem State.exit_keeps {s : State} (h : s.Records) : s.exit.Records := by
  unfold State.exit
  split
  · have hl := State.leaveHandler_keeps h
    refine State.atDelivery_keeps ?_ hl
    split
    · exact State.exitLast_keeps h
    · exact State.joinThen_keeps (fun t ht => State.exitLast_keeps ht) h
  · have h1 := State.leaveHandler_keeps (State.consume_keeps h)
    exact (State.ticked_records _ _ _).2 (State.setCur_same h1 (Group.Same.trans (Group.popPath_same _) ⟨rfl, rfl⟩))

end Sys2Proof.Machine
end

section
namespace Sys2Proof.Machine
open Host

/-! ## Engine operations -/

@[simp] theorem State.idle'_keeps {s : State} (n : Nat) (h : s.Records) : ({ s with tick := n } : State).Records := h

theorem State.engWaits_keeps {s t : State} {root : W64} {queue : Nat} {o : Owner} {l : List Aimed} (h : s.Records)
    (hw : s.engWaits root queue o l = some t) : t.Records := by
  unfold State.engWaits at hw
  dsimp only at hw
  split at hw
  · cases hw; exact foldl_keeps (fun t m ht => State.request_keeps _ _ _ _ _ ht) _ h
  · split at hw <;> cases hw
    exact h

@[simp] theorem State.spillAt_keeps {s : State} (jid gid : Nat) (addr : W64) (h : s.Records) : (s.spillAt jid gid addr).Records := by
  have hput : ∀ t : State, t.Records → (match look t.jobs jid with | some j => t.putJob { j with feat := true } | none => t).Records := by
    intro t ht
    split
    · exact State.putJob_keeps _ ht
    · exact ht
  unfold State.spillAt
  refine hput _ ?_
  split
  next g hg => exact State.putFound_keeps h hg rfl rfl
  next => exact h

@[simp] theorem State.launchOp_keeps {s : State} (k : OpKind) (team off : Nat) (reads writes : List (Nat × Nat)) (h : s.Records) :
    (s.launchOp k team off reads writes).Records := by
  unfold State.launchOp
  exact State.finish_keeps (State.putJob_keeps _ (State.skipIds_keeps 1 h))

@[simp] theorem State.putOp_keeps {s : State} (o : EngOp) (h : s.Records) : (s.putOp o).Records := h

@[simp] theorem State.arming_keeps {s : State} (gp : Nat) (desc : W64) (b : List Byte) (h : s.Records) : (s.arm gp desc b).Records := by
  unfold State.arm
  dsimp only
  generalize (if recField b 20 1 = 0 then ([] : List Nat) else _) = slots
  split
  · exact State.finish_keeps (State.setCur_keeps h)
  · generalize hs1 : (if recField b 20 1 = 0 then s else _) = s1
    have h1 : s1.Records := by
      rw [← hs1]
      split
      · exact h
      · exact State.putCask_keeps _ _ _ h
    exact State.finish_keeps (State.setCur_keeps (State.putJob_keeps _ (State.skipIds_keeps 1 h1)) (by simp) (by simp))

@[simp] theorem State.ctrAdd_keeps {s : State} (job c : Nat) (x : W64) (h : s.Records) : (s.ctrAdd job c x).Records := by
  unfold State.ctrAdd
  split
  · split <;> simp [h]
  · exact h

@[simp] theorem copyElem_keeps {t : State} (x : Nat) (dst : EngTarget) (e : Elem) (h : t.Records) : (copyElem t x dst e).Records := by
  unfold copyElem
  split <;> simp [h]

@[simp] theorem copySix_keeps {t : State} (x : Nat) (dst : EngTarget) (e : Elem) (h : t.Records) : (copySix t x dst e).Records :=
  copyElem_keeps _ dst e h

@[simp] theorem reduceElem_keeps (jid gid rop rtype : Nat) (pdh pdl : W64) {t : State} (x : Nat) (dst : EngTarget) (e : Elem) (h : t.Records) :
    (reduceElem jid gid rop rtype pdh pdl t x dst e).Records := by
  unfold reduceElem
  dsimp only
  split
  · split
    · refine getD_keeps (fun u hu => ?_) (State.spillAt_keeps _ _ _ h)
      split at hu
      · exact State.appendPartial_keeps h hu
      · exact State.appendAdd_keeps h hu
    · exact State.storeNat_keeps _ _ _ h
  · exact h

@[simp] theorem EngOp.perform_keeps (o : EngOp) {t : State} (x : Nat) (dst : EngTarget) (e : Elem) (h : t.Records) :
    (o.perform t x dst e).Records := by
  unfold EngOp.perform
  cases o.kind with
  | reduce _ _ _ rop rtype => exact reduceElem_keeps _ _ _ _ _ _ x dst e h
  | box b _ _ _ =>
    dsimp only
    split
    · exact copySix_keeps x dst e h
    · exact copyElem_keeps x dst e h
  | _ => exact copyElem_keeps x dst e h

@[simp] theorem Armed.perform_keeps (job : Nat) (a : Armed) {t : State} (x : Nat) (dst : EngTarget) (e : Elem) (h : t.Records) :
    (a.perform job t x dst e).Records := by
  unfold Armed.perform
  split <;> simp [h]

theorem moveOne_keeps {s0 : State} {bad : Bool} {f : Perform} (hf : ∀ t x dst e, t.Records → (f t x dst e).Records) (p : State × Nat) (a : Aimed)
    (h : p.1.Records) : (moveOne s0 bad f p a).1.Records := by
  unfold moveOne
  split
  · exact h
  · exact hf _ _ _ _ h

theorem State.moveAll_keeps {s : State} {listed : Bool} {l : List Aimed} {f : Perform} (hf : ∀ t x dst e, t.Records → (f t x dst e).Records)
    (h : s.Records) : (s.moveAll listed l f).1.Records := by
  unfold State.moveAll
  exact foldl_fst_keeps (p := (s, 0)) (moveOne_keeps hf) _ h

theorem State.withCompletion_keeps {s : State} (x : Nat) {f : Nat → Nat → State} (hf : ∀ team off, (f team off).Records) (h : s.Records) :
    (s.withCompletion x f).Records := by
  unfold State.withCompletion
  split
  · exact hf _ _
  · simp [h]
  · simp [h]

@[simp] theorem State.arrive_keeps {s : State} (o : EngOp) (bytes cause : Nat) (h : s.Records) : (s.arrive o bytes cause).Records := by
  have h1 : ({ s with ops := s.ops.filter (fun x => x.id != o.id), tick := s.tick + 1 } : State).Records := h
  unfold State.arrive
  dsimp only
  refine State.teamEnd_keeps _ _ ?_
  split_ifs
  · exact h1
  · exact State.endJob_keeps _ _ _ h1
  · exact State.bbUpdate_keeps _ _ _ _ _ _ h1

@[simp] theorem State.boxWord_keeps {s : State} (o : EngOp) (l : List Aimed) (k : Nat) (h : s.Records) : (s.boxWord o l k).1.Records := by
  have hw : ∀ g : List Aimed, (g.foldl (fun t a => o.perform t (s.readElem a) a.dst a.elem) s).Records :=
    fun g => foldl_keeps (fun t a ht => EngOp.perform_keeps o _ _ _ ht) g h
  unfold State.boxWord
  dsimp only
  split <;> exact hw _

@[simp] theorem State.boxAll_keeps {s : State} (o : EngOp) (h : s.Records) : (s.boxAll o).1.Records := by
  unfold State.boxAll
  refine foldl_fst_keeps (fun p x hp => ?_) _ h
  split
  · exact hp
  · exact State.boxWord_keeps _ _ _ hp

@[simp] theorem State.arriveAll_keeps {s : State} (o : EngOp) (h : s.Records) : (s.arriveAll o).Records := by
  unfold State.arriveAll
  dsimp only
  split
  next hw => exact State.idle_keeps (State.engWaits_keeps h hw)
  next =>
    refine State.arrive_keeps _ _ _ ?_
    split
    · exact State.boxAll_keeps o h
    · exact State.moveAll_keeps (fun t x dst e ht => EngOp.perform_keeps o x dst e ht) h

@[simp] theorem State.engineArrival_keeps {s : State} (id : Nat) (h : s.Records) : (s.engineArrival id).Records := by
  unfold State.engineArrival
  split
  · exact h
  · split
    · exact h
    · split
      · exact h
      · dsimp only
        split
        · split_ifs <;> simp [h]
        · simp [h]
        · simp [h]
        · exact h
      · simp [h]

@[simp] theorem State.opElement_keeps {s : State} (o : EngOp) (k : Nat) (h : s.Records) : (s.opElement o k).Records := by
  unfold State.opElement
  split
  · exact h
  · split
    · split
      · split
        · exact State.idle_keeps (State.putOp_keeps _ h)
        · exact h
      · exact h
    · dsimp only
      split
      · exact h
      · exact State.idle_keeps (State.putOp_keeps _ (State.boxWord_keeps _ _ _ h))
    · split
      · split
        · exact State.idle_keeps (State.putOp_keeps _ (EngOp.perform_keeps _ _ _ _ h))
        · exact h
      · exact h

@[simp] theorem State.completeArmed_keeps {s : State} (job : Nat) (a : Armed) (cause : Nat) (h : s.Records) :
    (s.completeArmed job a cause).Records := by
  have hgo : ∀ t : State, t.Records → (match look t.jobs job with
      | none => t
      | some j =>
        let s2 := t.putJob { j with armed := j.armed.filter (fun x => x.id != a.id) }
        let s3 := if a.cctr = 0xFFFFFFFF then s2 else s2.ctrAdd job a.cctr 1#64
        let s4 := if cause = 0 then s3 else
          s3.endJob job 1 (recordBytes (trapInfo 0x32 3 cause 0) 0#64 0#64 a.desc a.pdl a.pdh (recordTail 0#64 0 3 0xFF s.time))
        { s4 with tick := s4.tick + 1 }).Records := by
    intro t ht
    split
    · exact ht
    · dsimp only
      have h2 := State.putJob_keeps { ‹Job› with armed := (‹Job›).armed.filter (fun x => x.id != a.id) } ht
      refine State.idle'_keeps _ ?_
      split_ifs <;> simp [h2]
  unfold State.completeArmed
  refine hgo _ ?_
  split
  · exact h
  · exact State.putTeam_keeps _ h

@[simp] theorem State.triggered_keeps {s : State} (j : Job) (a : Armed) (h : s.Records) : (s.triggered j a).Records := by
  unfold State.triggered
  dsimp only
  split_ifs
  · exact h
  · simp [h]
  · split
    next hw => exact State.idle_keeps (State.engWaits_keeps h hw)
    next => exact State.completeArmed_keeps _ _ _ (State.moveAll_keeps (fun t x dst e ht => Armed.perform_keeps j.id a x dst e ht) h)

@[simp] theorem State.armedElement_keeps {s : State} (j : Job) (a : Armed) (k : Nat) (h : s.Records) : (s.armedElement j a k).Records := by
  unfold State.armedElement
  split
  · exact h
  · split
    · exact h
    · split
      · exact h
      · have ht := Armed.perform_keeps j.id a (s.readElem ‹Aimed›) (‹Aimed›).dst (‹Aimed›).elem h
        dsimp only
        split
        · exact State.idle_keeps ht
        · exact State.idle_keeps (State.putJob_keeps _ ht)

@[simp] theorem State.element_keeps {s : State} (op k : Nat) (h : s.Records) : (s.element op k).Records := by
  unfold State.element
  split <;> simp [h]

@[simp] theorem State.trigDesc_keeps {s : State} (gp : Nat) (desc : W64) (b : List Byte) (h : s.Records) : (s.trigDesc gp desc b).Records := by
  unfold State.trigDesc
  split_ifs <;> simp [h]

/-! ## Regions and the matrix engine -/

theorem regionStep_keeps {p : State × List (Nat × W64)} (x : RegionAcc × Target) (h : p.1.Records) : (regionStep p x).1.Records := by
  unfold regionStep
  dsimp only
  split
  · split_ifs <;> simp [h]
  · split <;> simp [h]
  · split <;> simp [h]

@[simp] theorem State.regionAdd_keeps {s : State} (r : Region) (word : W32) (live : Bool) (e : RegionAcc) (h : s.Records) :
    (s.regionAdd r word live e).Records := by
  unfold State.regionAdd
  split_ifs
  · simp [h]
  · simp [h]
  · exact State.finish_keeps (State.setCur_keeps h rfl rfl)

@[simp] theorem State.putEngine_keeps {s : State} (e : Engine) (h : s.Records) : (s.putEngine e).Records := State.putJob_keeps _ h

@[simp] theorem State.markBst_keeps {s : State} (use : Bool) (h : s.Records) : (s.markBst use).Records := by
  unfold State.markBst; split <;> simp [h]

@[simp] theorem State.push_keeps {s : State} (i : Instr) (r : BitVec 7) (m : W32) (f : Nat → W32) (h : s.Records) : (s.push i r m f).Records := by
  unfold State.push
  dsimp only
  split_ifs <;> simp [h]

theorem State.pop_keeps {s : State} {write : Group → (Nat → W32) → Group} (i : Instr) (m : W32) (hw : ∀ g f, (write g f).Same g) (h : s.Records) :
    (s.pop i m write).Records := by
  unfold State.pop
  split_ifs
  · simp [h]
  · simp [h]
  · split
    · simp [h]
    · exact State.finish_keeps (State.setCur_same (State.putEngine_keeps _ h) (hw _ _))

@[simp] theorem State.vgLimit_keeps {s : State} (cause col word : Nat) (h : s.Records) : (s.vgLimit cause col word).Records :=
  State.stopFault_keeps _ _ _ _ h

theorem State.withOperand_keeps {s : State} (va : W64) (n : Nat) {f : List Byte → State} (hf : ∀ b, (f b).Records) (h : s.Records) :
    (s.withOperand va n f).Records := by
  unfold State.withOperand
  split
  · split
    · simp [h]
    · split
      · simp [h]
      · exact hf _
  · simp [h]
  · simp [h]

theorem State.listCheck_keeps {s : State} (list : Option Nat) (b : List Byte) {go : State} (hg : go.Records) (h : s.Records) :
    (s.listCheck list b go).Records := by
  unfold State.listCheck
  split
  · exact hg
  · split
    · simp [h]
    · exact hg

theorem State.fetchRows_keeps {s : State} (dreg d n : Nat) (list : Option Nat) {go : State → State} (hg : ∀ t, t.Records → (go t).Records)
    (h : s.Records) : (s.fetchRows dreg d n list go).Records := by
  have hu : (s.markBst (mdB d == 0)).Records := State.markBst_keeps _ h
  simp only [State.fetchRows]
  generalize s.markBst (mdB d == 0) = u at hu ⊢
  have he : ∀ e, (u.putEngine e).Records := fun e => State.putEngine_keeps e hu
  split
  · exact hg _ hu
  · split
    · exact State.listCheck_keeps _ _ (hg _ (he _)) hu
    · exact State.withOperand_keeps _ _ (fun b => State.listCheck_keeps _ _ (hg _ (he _)) hu) hu
    · generalize (if list.isSome then u.engine.pull 0 1 else u.engine) = e1
      split
      · exact he e1
      · refine State.listCheck_keeps _ _ ?_ (he e1)
        split
        · exact State.block_keeps _ (he _)
        · exact hg _ (he _)

theorem State.fetchQueue_keeps {s : State} (q n : Nat) {go : State → State} (hg : ∀ t, t.Records → (go t).Records) (h : s.Records) :
    (s.fetchQueue q n go).Records := by
  unfold State.fetchQueue
  dsimp only
  split
  · simp [h]
  · exact hg _ (State.putEngine_keeps _ h)

@[simp] theorem State.mmaFinish_keeps {s : State} (fa fb bank d : Nat) (list : Bool) (h : s.Records) : (s.mmaFinish fa fb bank d list).Records :=
  State.finish_keeps (State.putEngine_keeps _ h)

@[simp] theorem State.scaFinish_keeps {s : State} (q d : Nat) (scales : List Byte) (h : s.Records) : (s.scaFinish q d scales).Records :=
  State.finish_keeps (State.putEngine_keeps _ h)

@[simp] theorem State.drain_keeps {s : State} (f q dreg d : Nat) (h : s.Records) : (s.drain f q dreg d).Records := by
  unfold State.drain
  dsimp only
  split
  · exact State.block_keeps _ (State.putEngine_keeps _ h)
  · exact State.finish_keeps (State.setCur_keeps (State.putEngine_keeps _ h))

@[simp] theorem State.mmaRun_keeps {s : State} (word : W32) (fa fb bank dreg d : Nat) (list : Bool) (h : s.Records) :
    (s.mmaRun word fa fb bank dreg d list).Records := by
  unfold State.mmaRun
  split
  · simp [h]
  · exact State.fetchRows_keeps _ _ _ _ (fun t ht => State.fetchQueue_keeps _ _ (fun u hu => State.mmaFinish_keeps _ _ _ _ _ hu) ht) h

@[simp] theorem State.vgStore_keeps {s : State} (fa fb q d : Nat) (h : s.Records) : (s.vgStore fa fb q d).Records :=
  State.finish_keeps (State.putEngine_keeps _ h)

@[simp] theorem State.vgPop_keeps (fa fb q d j n : Nat) {s : State} (h : s.Records) : (s.vgPop fa fb q d j n).1.Records := by
  induction n generalizing s with
  | zero => exact h
  | succ n ih =>
    unfold State.vgPop
    dsimp only
    split
    · exact State.putEngine_keeps _ h
    · exact State.vgLimit_keeps _ _ _ h
    · split
      · exact State.block_keeps _ (State.putEngine_keeps _ h)
      · exact ih (State.putEngine_keeps _ h)

@[simp] theorem State.vgQueue_keeps (fa fb q d n : Nat) {s : State} (h : s.Records) : (s.vgQueue fa fb q d n).Records := by
  induction n generalizing s with
  | zero => exact State.finish_keeps (State.putEngine_keeps _ h)
  | succ n ih =>
    unfold State.vgQueue
    dsimp only
    split
    · exact ih (State.vgPop_keeps _ _ _ _ _ _ h)
    · exact State.vgPop_keeps _ _ _ _ _ _ h

@[simp] theorem State.mmavRun_keeps {s : State} (word : W32) (fa fb q dreg d : Nat) (h : s.Records) : (s.mmavRun word fa fb q dreg d).Records := by
  unfold State.mmavRun
  dsimp only
  split
  · simp [h]
  · split
    · simp [h]
    · split
      · simp [h]
      · split
        · simp [h]
        · refine State.fetchRows_keeps _ _ _ _ (fun t ht => ?_) h
          split <;> simp [ht]

/-! ## Control registers and boundary events -/

theorem Group.ctlSet_same (g : Group) (n : Nat) (x : W64) : (g.ctlSet n x).Same g := by
  unfold Group.ctlSet
  split <;> exact ⟨rfl, rfl⟩

@[simp] theorem State.ctlWrite_keeps {s : State} (n : Nat) (a : BitVec 7) (h : s.Records) : (s.ctlWrite n a).Records :=
  State.finish_keeps (State.setCur_same (State.consume_keeps h) (Group.ctlSet_same _ _ _))

@[simp] theorem State.absent_keeps {s : State} (w : Wait) (h : s.Records) : (s.absent w).Records := by
  unfold State.absent
  split
  · simp [h]
  · simp [h]
  · split <;> simp [h]
  · exact h

end Sys2Proof.Machine
end

section
namespace Sys2Proof.Machine
open Host

/-! ## Page requests and commands of the driver -/

@[simp] theorem State.setReg64_keeps {s : State} (off x : Nat) (h : s.Records) : (s.setReg64 off x).Records := h

@[simp] theorem State.stopJob_keeps {s : State} (id status : Nat) (h : s.Records) : (s.stopJob id status).Records := by
  unfold State.stopJob
  split
  · exact State.putJob_keeps _ h
  · exact h

@[simp] theorem State.clearStrands_keeps {s : State} (id : Nat) (h : s.Records) : (s.clearStrands id).Records := by
  have h1 : ({ s with
      groups := s.groups.filter (fun p => p.2.job != id || p.2.kind == .idle)
      deques := s.deques.map (fun d => (d.1, d.2.filter (fun e => e.job != id)))
      images := s.images.filter (fun m => m.job != id) } : State).Records := State.filterGroups_keeps _ h
  unfold State.clearStrands
  dsimp only
  split
  · exact State.vacate_keeps h1
  · exact h1

@[simp] theorem State.discardJob_keeps {s : State} (id : Nat) (h : s.Records) : (s.discardJob id).Records := by
  have h1 := State.clearStrands_keeps id h
  unfold State.discardJob
  generalize s.clearStrands id = t at h1 ⊢
  exact State.dropJob_keeps id h1

@[simp] theorem State.closeQueue_keeps {s : State} (n st : Nat) (q : Queue) (h : s.Records) : (s.closeQueue n st q).Records :=
  foldl_keeps (fun _ id ht => State.discardJob_keeps id ht) _ (State.putQueueAt_keeps _ _ h)

@[simp] theorem State.forgetQueue_keeps {s : State} (q : Nat) (h : s.Records) : (s.forgetQueue q).Records := h.ofRoster rfl

theorem State.mapJobs_keeps {s : State} {f : Job → Job} (hf : ∀ j, (f j).id = j.id) (h : s.Records) :
    ({ s with jobs := s.jobs.map (fun p => (p.1, f p.2)) } : State).Records := by
  refine State.withJobs_keeps h ?_ ?_
  · rw [List.map_map]; exact h.tables.jobs
  · simp only [List.forall_mem_map, hf]
    exact h.tables.jobIds

@[simp] theorem State.refuse_keeps {s : State} (page : Nat) (o : Owner) (h : s.Records) : (s.refuse page o).Records := by
  unfold State.refuse
  split
  · split <;> simp [h]
  · exact h
  · exact State.mapJobs_keeps (f := fun j => { j with
      armed := j.armed.map (fun a => if a.id = _ then { a with refused := a.refused ++ [page] } else a) }) (fun _ => rfl) h
  · exact h

@[simp] theorem State.unholdAll_keeps {s : State} (id : Nat) (h : s.Records) : (s.unholdAll id).Records :=
  State.eachGroup_keeps (f := fun g => g.unhold id) (fun _ => ⟨rfl, rfl⟩) h

@[simp] theorem State.respond_keeps {s : State} (r : PageReq) (answer : Nat) (h : s.Records) : (s.respond r answer).Records := by
  have h1 : (({ s with reqs := s.reqs.filter (fun x => x.id != r.id) } : State).unholdAll r.id).Records := State.unholdAll_keeps r.id h
  unfold State.respond
  dsimp only
  generalize ({ s with reqs := s.reqs.filter (fun x => x.id != r.id) } : State).unholdAll r.id = s1 at h1 ⊢
  split
  · exact h1
  · exact foldl_keeps (fun t o ht => State.refuse_keeps _ _ ht) _ h1

@[simp] theorem State.sendRequest_keeps {s : State} (r : PageReq) (h : s.Records) : (s.sendRequest r).Records := by
  have hend : ∀ t : State, t.Records → ∀ l n, ({ t with reqs := l, msi := n } : State).Records := fun _ ht _ _ => ht
  unfold State.sendRequest
  exact hend _ (State.setReg64_keeps _ _ (State.store_keeps _ _ h)) _ _

theorem State.command_keeps {s t : State} {i : Instr} (h : s.Records) (hc : s.command i = some t) : t.Records := by
  unfold State.command at hc
  split at hc
  case h_1 q _ _ _ _ _ _ _ _ =>
    split at hc <;> cases hc
    exact State.putQueueAt_keeps (s := s.forgetQueue q) _ _ h
  case h_2 =>
    obtain ⟨q, -, rfl⟩ := Option.map_eq_some_iff.1 hc
    exact State.closeQueue_keeps _ _ _ h
  case h_3 q _ _ =>
    obtain ⟨x, -, rfl⟩ := Option.map_eq_some_iff.1 hc
    exact State.putQueueAt_keeps (s := s.forget (keyRing q)) _ _ h
  case h_4 =>
    obtain ⟨q, -, rfl⟩ := Option.map_eq_some_iff.1 hc
    refine foldl_keeps (fun t id ht => ?_) _ h
    split
    · split <;> simp [ht]
    · exact ht
  case h_5 => split at hc <;> cases hc; exact h
  case h_6 => cases hc; exact h
  case h_7 =>
    split at hc
    · split at hc <;> cases hc; simp [h]
    · cases hc
  case h_8 => cases hc

@[simp] theorem State.putStatus_keeps {s : State} (va status : Nat) (h : s.Records) : (s.putStatus va status).Records := by
  simp only [State.putStatus]
  split <;> simp [h]

@[simp] theorem State.cmdDone_keeps {s : State} (i : Instr) (status : Nat) (h : s.Records) : (s.cmdDone i status).Records := by
  unfold State.cmdDone
  refine State.putStatus_keeps _ _ ?_
  split
  · split
    · exact State.dropQueue_keeps _ h
    · exact h
  · exact h

@[simp] theorem State.runCommand_keeps {s : State} (i : Instr) (h : s.Records) : (s.runCommand i).Records := by
  unfold State.runCommand
  split
  next => exact State.cmdDone_keeps _ _ h
  next t hc =>
    have ht : t.Records := by
      split at hc
      · cases hc
      · exact State.command_keeps h hc
    split
    · exact ht
    · exact State.cmdDone_keeps _ _ ht

@[simp] theorem State.drainCommands_keeps (n : Nat) {s : State} (h : s.Records) : (State.drainCommands n s).Records := by
  induction n generalizing s with
  | zero => exact h
  | succ n ih =>
    unfold State.drainCommands
    split
    · exact h
    · split
      · exact h
      · exact ih (State.runCommand_keeps _ h)

@[simp] theorem State.nextCommand_keeps {s : State} (h : s.Records) : s.nextCommand.Records := by
  simp only [State.nextCommand]
  split
  · exact h
  · refine State.idle_keeps ?_
    split
    · exact State.runCommand_keeps _ (State.setReg64_keeps _ _ h)
    · exact State.putStatus_keeps _ _ (State.setReg64_keeps _ _ h)

@[simp] theorem State.submit_keeps {s : State} (i : Instr) (h : s.Records) : (s.submit i).Records := by
  unfold State.submit
  refine State.idle_keeps ?_
  split
  · exact State.runCommand_keeps _ h
  · exact h

@[simp] theorem State.outsideWrite_keeps {s : State} (pa : Nat) (data : List Byte) (h : s.Records) : (s.outsideWrite pa data).Records := by
  unfold State.outsideWrite
  split_ifs <;> simp [h]

end Sys2Proof.Machine
end

section
namespace Sys2Proof.Machine
open Host

/-! ## Teams and contexts on their cores -/

theorem State.dependency_refused_keeps {s t : State} {n : Nat} {q : Queue} {b : List Byte} (h : s.Records) (hd : s.dependency n q b = .refused t) :
    t.Records := by
  unfold State.dependency at hd
  dsimp only at hd
  split at hd
  · cases hd
  · split at hd
    next => cases hd
    next hp => cases hd; exact State.devPage_refused_keeps h hp
    next => split at hd <;> [(cases hd; exact h); (split at hd <;> cases hd)]

theorem State.dependency_waits_keeps {s t : State} {n : Nat} {q : Queue} {b : List Byte} (h : s.Records) (hd : s.dependency n q b = .waits t) :
    t.Records := by
  unfold State.dependency at hd
  dsimp only at hd
  split at hd
  · cases hd
  · split at hd
    next hp => cases hd; exact State.devPage_waits_keeps h hp
    next => cases hd
    next => split at hd <;> [cases hd; (split at hd <;> cases hd)]

@[simp] theorem State.packetStarts_keeps {s : State} (j : Job) (h : s.Records) : (s.packetStarts j).Records := by
  have hserve : ∀ t : State, t.Records → ∀ n q l, ({ t with lastTap := l, queues := put t.queues n q } : State).Records :=
    fun _ ht n q _ => State.putQueueAt_keeps n q ht
  unfold State.packetStarts
  split
  · exact h
  next q _ => exact hserve _ (State.putJobAt_keeps (j := { j with prio := (q.tap.map Prod.snd).getD j.prio }) h rfl) _ _ _

/-- A strand at its start has the number and the kind it is given. -/
theorem strandOf_gid (j : Job) (kind : Kind) (gid team grp lcore core slot time cyc : Nat) (pc : W64) :
    (strandOf j kind gid team grp lcore core slot time cyc pc).gid = gid := rfl
theorem strandOf_kind (j : Job) (kind : Kind) (gid team grp lcore core slot time cyc : Nat) (pc : W64) :
    (strandOf j kind gid team grp lcore core slot time cyc pc).kind = kind := rfl

theorem rootGroup_gid (s : State) (j : Job) (t k core slot : Nat) : (s.rootGroup j t k core slot).gid = s.nextId + k := rfl
theorem rootGroup_kind (s : State) (j : Job) (t k core slot : Nat) : (s.rootGroup j t k core slot).kind = .root := rfl

@[simp] theorem State.startTeam_keeps {s : State} (j : Job) (core : Nat) (h : s.Records) : (s.startTeam j core).Records := by
  have hgs : ∀ g ∈ (List.range j.perTeam).map (fun k => s.rootGroup j j.nextTeam k core ((s.freeSlots core).getD k 0)),
      s.nextId ≤ g.gid ∧ g.gid < s.nextId + j.perTeam ∧ g.kind ≠ .idle := by
    intro g hg
    obtain ⟨k, hk, rfl⟩ := List.mem_map.1 hg
    rw [rootGroup_gid, rootGroup_kind]
    exact ⟨Nat.le_add_right _ _, Nat.add_lt_add_left (List.mem_range.1 hk) _, by decide⟩
  have h1 := State.startGroups_keeps _ h hgs
  unfold State.startTeam
  dsimp only
  split
  · exact State.packetStarts_keeps _ (State.putJob_keeps _ (State.putTeam_keeps _ h1))
  · exact State.putJob_keeps _ (State.putTeam_keeps _ h1)

theorem State.startAll_keeps {id n : Nat} {first : Option Nat} {s t : State} (h : s.Records) (hs : State.startAll id n first s = some t) :
    t.Records := by
  induction n generalizing first s with
  | zero => cases hs; exact h
  | succ n ih =>
    unfold State.startAll at hs
    split at hs
    · cases hs
    · split at hs
      · cases hs; exact h
      · dsimp only at hs
        split at hs
        · cases hs
        · exact ih (State.startTeam_keeps _ _ h) hs

@[simp] theorem State.addImage_keeps {s : State} (j : Job) (ref : Nat) (kind : ImageKind) (core : Nat) (h : s.Records) :
    (s.addImage j ref kind core).Records := h
@[simp] theorem State.dropImage_keeps {s : State} (job ref : Nat) (h : s.Records) : (s.dropImage job ref).Records := h

theorem Group.saveRepeat_same (g : Group) : g.saveRepeat.Same g := by
  unfold Group.saveRepeat
  split
  · split <;> exact ⟨rfl, rfl⟩
  · split <;> exact ⟨rfl, rfl⟩

theorem Group.out_same (s : State) (g : Group) : (g.out s).Same g := (g.leaveRegion.saveRepeat_same).trans g.leaveRegion_same
theorem Group.back_same (s : State) (g : Group) (core slot : Nat) : (g.back s core slot).Same g := ⟨rfl, rfl⟩

/-- A change of some strands in nothing that numbers them. -/
theorem Group.ite_same (p : Group → Prop) [DecidablePred p] {f : Group → Group} (hf : ∀ g, (f g).Same g) (g : Group) :
    (if p g then f g else g).Same g := by
  split
  · exact hf g
  · exact Group.same_refl g

@[simp] theorem State.teamOut_keeps {s : State} (j : Job) (team : Nat) (h : s.Records) : (s.teamOut j team).Records := by
  unfold State.teamOut
  exact State.addImage_keeps _ _ _ _ (State.onJob_keeps _ _ (State.putTeam_keeps _
    (State.mapGroups_keeps (Group.ite_same _ (Group.out_same s)) h)))

/-- A group of the state stands under a number handed out. -/
theorem State.Records.ofAll {s : State} (h : s.Records) {g : Group} (hg : g ∈ s.allGroups) : s.Numbered g := by
  rcases List.mem_cons.1 hg with rfl | hg
  · exact h.strands.focus
  · obtain ⟨p, hp, rfl⟩ := List.mem_map.1 hg
    exact h.strands.numbered p hp

@[simp] theorem State.putGroup_nextId (s : State) (g : Group) : (s.putGroup g).nextId = s.nextId := by unfold State.putGroup; split <;> rfl

theorem State.seat_keeps {s : State} (core : Nat) (slots : List Nat) {gs : List Group} (hg : ∀ g ∈ gs, s.Numbered g) (h : s.Records) :
    (s.seat core slots gs).Records := by
  unfold State.seat
  suffices ((gs.zip slots).foldl (fun t p => t.putGroup (p.1.back s core p.2)) s).Records ∧
      ((gs.zip slots).foldl (fun t p => t.putGroup (p.1.back s core p.2)) s).nextId = s.nextId from this.1
  refine List.foldlRecOn _ _ (motive := fun t : State => t.Records ∧ t.nextId = s.nextId) ⟨h, rfl⟩ (fun t ht p hp => ⟨?_, ?_⟩)
  · obtain ⟨h1, h2⟩ := hg p.1 (List.of_mem_zip hp).1
    exact State.putGroup_keeps ht.1 ⟨ht.2 ▸ h1, h2⟩
  · rw [State.putGroup_nextId, ht.2]

@[simp] theorem State.teamIn_keeps {s : State} (j : Job) (team core : Nat) (h : s.Records) : (s.teamIn j team core).Records := by
  unfold State.teamIn
  exact State.dropImage_keeps _ _ (State.onJob_keeps _ _ (State.putTeam_keeps _
    (State.seat_keeps _ _ (fun g hg => h.ofAll (List.mem_filter.1 hg).1) h)))

theorem State.clusterOut_keeps {s t : State} {j : Job} {c : Nat} (h : s.Records) (hc : s.clusterOut j c = some t) : t.Records := by
  unfold State.clusterOut at hc
  dsimp only at hc
  split at hc <;> cases hc
  exact State.addImage_keeps _ _ _ _ (State.onJob_keeps _ _ (State.mapGroups_keeps (Group.ite_same _ (Group.out_same s))
    (foldl_keeps (fun x t hx => State.teamOut_keeps j t hx) _ h)))

theorem State.clusterBack_keeps {s t : State} {j : Job} {c : Nat} (h : s.Records) (hc : s.clusterBack j c = some t) : t.Records := by
  unfold State.clusterBack at hc
  dsimp only at hc
  split at hc
  · cases hc
  · split at hc <;> cases hc
    · exact State.stopJob_keeps _ _ h
    · exact State.dropImage_keeps _ _ (State.mapGroups_keeps (Group.ite_same _ (fun g => Group.back_same s g _ _))
        (foldl_keeps (fun x t hx => State.teamIn_keeps j t _ hx) _ (State.onJob_keeps _ _ h)))

theorem State.clusterIn_keeps {s t : State} {j : Job} {c : Nat} (h : s.Records) (hc : s.clusterIn j c = some t) : t.Records := by
  unfold State.clusterIn at hc
  split at hc
  · cases hc
  · exact State.clusterBack_keeps h hc

theorem State.contextsIn_keeps {s t : State} {j : Job} (h : s.Records) (hc : s.contextsIn j = some t) : t.Records := by
  refine foldl_bind_keeps (fun t c u ht hu => ?_) _ (fun u hu => by cases hu; exact h) hc
  split at hu
  · split at hu
    · cases hu; exact ht
    · exact State.clusterIn_keeps ht hu
  · cases hu

end Sys2Proof.Machine
end

section
namespace Sys2Proof.Machine
open Host

@[simp] theorem State.teamDispatch_keeps {s : State} (id core : Nat) (h : s.Records) : (s.teamDispatch id core).Records := by
  unfold State.teamDispatch
  split
  · exact h
  · split
    · exact h
    · split
      · exact h
      · exact h
      · refine State.idle_keeps (getD_keeps (fun u hu => ?_) h)
        obtain ⟨v, hv, hs⟩ := Option.bind_eq_some_iff.1 hu
        exact State.startAll_keeps (State.contextsIn_keeps h hv) hs
      · split
        · exact State.idle_keeps (State.startTeam_keeps _ _ h)
        · exact h

@[simp] theorem State.clusterSwitch_keeps {s : State} (j : Job) (c : Nat) (h : s.Records) : (s.clusterSwitch j c).Records := by
  refine State.idle_keeps (getD_keeps (fun u hu => ?_) h)
  split at hu
  · exact State.clusterIn_keeps h hu
  · split at hu
    · exact State.clusterOut_keeps h hu
    · split at hu
      · obtain ⟨v, hv, rfl⟩ := Option.map_eq_some_iff.1 hu
        exact State.onJob_keeps _ _ (State.clusterOut_keeps h hv)
      · cases hu

@[simp] theorem State.timeSlice_keeps {s : State} (j : Job) (lc core : Nat) (h : s.Records) : (s.timeSlice j lc core).Records := by
  unfold State.timeSlice
  split
  · simp [h]
  · split
    · simp [h]
    · split
      · split <;> simp [h]
      · split
        · simp [h]
        · split_ifs <;> simp [h]

@[simp] theorem State.takeEntry_keeps {s : State} (thief victim : Nat) (e : TaskEntry) (h : s.Records) : (s.takeEntry thief victim e).Records := h

@[simp] theorem State.rackTask_keeps {s : State} (j : Job) (gid core : Nat) (h : s.Records) : (s.rackTask j gid core).Records := by
  unfold State.rackTask
  split
  · exact h
  next g hg =>
    split_ifs
    · exact h
    · exact State.putFound_keeps h hg rfl rfl
    · exact State.stopJob_keeps _ _ h
    · exact State.stopJob_keeps _ _ h
    · refine State.dropImage_keeps _ _ (State.seat_keeps _ _ (fun x hx => ?_) h)
      rw [List.mem_singleton.1 hx]
      exact (h.ofGroupOf hg).2
    · exact h

@[simp] theorem State.rackTeam_keeps {s : State} (j : Job) (t core : Nat) (h : s.Records) : (s.rackTeam j t core).Records := by
  unfold State.rackTeam
  split
  · exact h
  · generalize hs1 : (if (s.teamOf j.id t).resident then s.teamOut j t else s) = s1
    have h1 : s1.Records := by
      rw [← hs1]
      split
      · exact State.teamOut_keeps _ _ h
      · exact h
    dsimp only
    split_ifs <;> simp [h, h1]

@[simp] theorem State.rack_keeps {s : State} (j : Job) (lc core : Nat) (h : s.Records) : (s.rack j lc core).Records := by
  unfold State.rack
  split
  · exact h
  · split
    · exact State.idle_keeps (State.rackTask_keeps _ _ _ h)
    · split
      · split
        · split
          · exact State.idle_keeps (State.takeEntry_keeps _ _ _ h)
          · exact h
        · exact h
      · split
        · exact h
        · exact State.idle_keeps (State.rackTeam_keeps _ _ _ h)

@[simp] theorem State.taskOut_keeps {s : State} (j : Job) (gid : Nat) (h : s.Records) : (s.taskOut j gid).Records :=
  State.addImage_keeps _ _ _ _ (State.mapGroups_keeps (Group.ite_same _ (Group.out_same s)) h)

@[simp] theorem State.evict_keeps {s : State} (j : Job) (ref : Nat) (h : s.Records) : (s.evict j ref).Records := by
  unfold State.evict
  split
  · split
    · exact State.idle_keeps (getD_keeps (fun _ hu => State.clusterOut_keeps h hu) h)
    · split
      · exact h
      · exact State.idle_keeps (State.teamOut_keeps _ _ h)
  · split
    · exact h
    · exact State.idle_keeps (State.taskOut_keeps _ _ h)

@[simp] theorem State.restore_keeps {s : State} (j : Job) (ref core : Nat) (h : s.Records) : (s.restore j ref core).Records := by
  unfold State.restore
  split
  · exact h
  · split
    · exact State.idle_keeps (State.stopJob_keeps _ _ h)
    · split
      · split
        · exact h
        next g hg =>
          split
          · refine State.idle_keeps (State.dropImage_keeps _ _ (State.seat_keeps _ _ (fun x hx => ?_) h))
            rw [List.mem_singleton.1 hx]
            exact (h.ofGroupOf hg).2
          · exact h
      · split
        · exact State.clusterSwitch_keeps _ _ h
        · split
          · exact State.idle_keeps (State.teamIn_keeps _ _ _ h)
          · exact h

/-! ## Tasks on their cores -/

theorem taskGroup_gid (s : State) (j : Job) (e : TaskEntry) (core slot : Nat) : (s.taskGroup j e core slot).gid = s.nextId := rfl
theorem taskGroup_kind (s : State) (j : Job) (e : TaskEntry) (core slot : Nat) : (s.taskGroup j e core slot).kind = .task := rfl

@[simp] theorem State.startTask_keeps {s : State} (j : Job) (e : TaskEntry) (core : Nat) (h : s.Records) : (s.startTask j e core).Records := by
  refine State.startGroups_keeps (s := { s with deques := _ }) 1 (l := [_]) h (fun g hg => ?_)
  rw [List.mem_singleton.1 hg, taskGroup_gid, taskGroup_kind]
  exact ⟨Nat.le_refl _, Nat.lt_succ_self _, by decide⟩

theorem State.suspend_keeps {s t : State} {j : Job} {gid : Nat} (h : s.Records) (hs : s.suspend j gid = some t) : t.Records := by
  unfold State.suspend at hs
  split at hs
  · cases hs
  next g hg =>
    split at hs <;> cases hs
    have hend : ∀ t : State, t.Records → ∀ l, ({ t with images := l } : State).Records := fun _ ht _ => ht
    have hput := State.putFound_keeps (x := { g.saveRepeat with resident := false, away := true, cycAcc := s.cycOf g }) h hg
      g.saveRepeat_same.1 g.saveRepeat_same.2
    exact hend _ (State.putJob_keeps _ hput) _

theorem State.startFor_keeps {s t : State} {core : Nat} {e : TaskEntry} (h : s.Records) (hs : s.startFor core e = some t) : t.Records := by
  unfold State.startFor at hs
  split at hs
  · split at hs
    · cases hs
    · obtain ⟨v, hv, hr⟩ := Option.bind_eq_some_iff.1 hs
      split at hr <;> cases hr
      exact State.startTask_keeps _ _ _ (State.suspend_keeps h hv)
  · cases hs

@[simp] theorem State.taskStart_keeps {s : State} (core : Nat) (h : s.Records) : (s.taskStart core).Records := by
  unfold State.taskStart
  split
  · exact h
  · split
    · exact h
    · split
      · exact State.idle_keeps (State.startTask_keeps _ _ _ h)
      · refine State.idle_keeps (getD_keeps (fun u hu => ?_) h)
        obtain ⟨e, -, he⟩ := List.exists_of_findSome?_eq_some hu
        exact State.startFor_keeps h he

@[simp] theorem State.unsuspend_keeps {s : State} (h : s.Records) : s.unsuspend.Records := by
  unfold State.unsuspend
  dsimp only
  generalize (if s.cur.kind = .task then s.cur.windowBytes else 0) = bytes
  split_ifs
  · exact h
  · exact State.stopJob_keeps _ _ h
  · exact State.dropImage_keeps _ _ (State.onJob_keeps _ _ (State.setCur_keeps h rfl rfl))
  · exact h

end Sys2Proof.Machine
end

section
namespace Sys2Proof.Machine
open Host

/-! ## Packets -/

@[simp] theorem State.openJob_keeps {s : State} (n : Nat) (q : Queue) (i : Nat) (b : List Byte) (ph : Phase) (h : s.Records) :
    (s.openJob n q i b ph).1.Records := by
  have hput : ∀ j : Job, ({ s with nextId := s.nextId + 1, jobs := put s.jobs j.id j } : State).Records :=
    fun j => State.putJobAt_keeps (s := { s with nextId := s.nextId + 1 }) (State.skipIds_keeps 1 h) rfl
  exact State.putQueue_keeps _ _ (hput _)

@[simp] theorem State.packetHere_keeps {s : State} (n : Nat) (q : Queue) (b : List Byte) (h : s.Records) : (s.packetHere n q b).Records := by
  unfold State.packetHere
  dsimp only
  split
  · split
    · exact State.putQueue_keeps _ _ h
    · exact State.openJob_keeps _ _ _ _ _ h
  · exact State.putQueue_keeps _ _ h

@[simp] theorem State.packetRead_keeps {s : State} (n : Nat) (h : s.Records) : (s.packetRead n).Records := by
  unfold State.packetRead
  split
  · exact h
  · split
    · exact h
    · split
      next hw => exact State.idle_keeps (State.devPage_waits_keeps h hw)
      next hr => exact State.idle_keeps (State.queueError_keeps _ (State.devPage_refused_keeps h hr))
      next =>
        dsimp only
        split
        · exact State.idle_keeps (State.queueError_keeps _ h)
        · exact State.idle_keeps (State.packetHere_keeps _ _ _ h)

@[simp] theorem State.bind_keeps {s : State} (n : Nat) (h : s.Records) : (s.bind n).Records := by
  unfold State.bind
  split
  · exact h
  · dsimp only
    split
    · exact State.putQueue_keeps _ _ h
    · exact h

theorem State.mapQueues_keeps {s : State} {f : Nat × Queue → Queue} (h : s.Records) :
    ({ s with queues := s.queues.map (fun p => (p.1, f p)) } : State).Records := by
  refine State.withQueues_keeps h ?_
  rw [List.map_map]
  exact h.tables.queues

@[simp] theorem State.rebind_keeps {s : State} (h : s.Records) : s.rebind.Records := by
  have hq : ∀ f : Nat × Queue → Queue, ({ s with quantum := s.nextQuantum, queues := s.queues.map (fun p => (p.1, f p)) } : State).Records :=
    fun f => State.mapQueues_keeps (s := { s with quantum := s.nextQuantum }) (f := f) h
  exact foldl_keeps (fun t n ht => State.bind_keeps n ht) _ (hq _)

/-- The sequencers of a launch join the strands away from the focus under fresh numbers. -/
theorem State.startStrands_keeps {s : State} (n : Nat) {mk : Nat → Group} (h : s.Records)
    (hk : ∀ c, (mk c).gid = s.nextId + c ∧ (mk c).kind ≠ .idle) :
    ({ s with groups := (List.range n).foldl (fun l c => put l (s.nextId + c) (mk c)) s.groups, nextId := s.nextId + n } : State).Records := by
  have hl : ∀ g ∈ (List.range n).map mk, s.nextId ≤ g.gid ∧ g.gid < s.nextId + n ∧ g.kind ≠ .idle := by
    intro g hg
    obtain ⟨c, hc, rfl⟩ := List.mem_map.1 hg
    have := List.mem_range.1 hc
    exact ⟨by rw [(hk c).1]; omega, by rw [(hk c).1]; omega, (hk c).2⟩
  have e := State.startGroups_keeps n h hl
  rw [List.foldl_map] at e
  simpa only [(hk _).1] using e

@[simp] theorem State.startSequencers_keeps {s : State} (j : Job) (h : s.Records) : (s.startSequencers j).Records := by
  unfold State.startSequencers
  split
  · exact h
  · dsimp only
    have h1 := State.onJob_keeps j.id (fun k : Job => { k with
      liveSeqs := (j.logical + 7) / 8
      engines := (List.range ((j.logical + 7) / 8)).map (fun c => (c, { Engine.start with resident := false })) })
      (State.startStrands_keeps ((j.logical + 7) / 8) (mk := fun c =>
        { (((strandOf j .seq (s.nextId + c) 0 c (8 * c) (8 * j.clusterAt c) 0 s.time s.cycles j.seqEntry).gSet 1 (BitVec.ofNat 64 c)).gSet 2 j.args) with
          resident := false, allot := 0, tiles := 0 }) h (fun c => ⟨rfl, Kind.noConfusion⟩))
    split
    · exact h1
    · refine foldl_keeps (fun t c ht => ?_) _ h1
      split
      · exact getD_keeps (fun _ hu => State.clusterIn_keeps ht hu) ht
      · exact ht

@[simp] theorem State.launchPacket_keeps {s : State} (n : Nat) (q : Queue) (i : Nat) (b : List Byte) (h : s.Records) :
    (s.launchPacket n q i b).Records := by
  unfold State.launchPacket
  split
  next hd => exact State.openJob_keeps _ _ _ _ _ (State.dependency_refused_keeps h hd)
  next =>
    dsimp only
    split
    · exact State.openJob_keeps _ _ _ _ _ h
    · exact State.startSequencers_keeps _ (State.putJob_keeps _ (State.openJob_keeps _ _ _ _ _ h))

@[simp] theorem State.acceptLaunch_keeps {s : State} (n : Nat) (h : s.Records) : (s.acceptLaunch n).Records := by
  unfold State.acceptLaunch
  split
  · exact h
  · split
    · split
      · exact State.launchPacket_keeps _ _ _ _ h
      · exact h
    · exact h

theorem State.dependencyMiss_keeps {s t : State} {n : Nat} (h : s.Records) (hm : s.dependencyMiss n = some t) : t.Records := by
  unfold State.dependencyMiss at hm
  split at hm
  · cases hm
  · split at hm
    · cases hm
    · split at hm
      · cases hm
      · split at hm
        next hd => cases hm; exact State.dependency_waits_keeps h hd
        next => cases hm

@[simp] theorem State.endPacket_keeps {s : State} (j : Job) (status : Nat) (h : s.Records) : (s.endPacket j status).Records :=
  State.putJob_keeps _ h

@[simp] theorem State.headPublish_keeps {s : State} (n : Nat) (h : s.Records) : (s.headPublish n).Records := by
  unfold State.headPublish
  split
  · exact h
  · split
    · exact h
    · dsimp only
      split
      next hw => exact State.idle_keeps (State.devPage_waits_keeps h hw)
      next hr => exact State.idle_keeps (State.putQueue_keeps _ _ (State.devPage_refused_keeps h hr))
      next =>
        split
        · exact State.idle_keeps (State.putQueue_keeps _ _ h)
        · exact State.idle_keeps (State.putQueue_keeps _ _ (State.devStore_keeps _ _ _ h))

theorem State.withPacket_keeps {s : State} (n type : Nat) {start : Queue → Nat → List Byte → State} {go : State → Job → State}
    (hs : ∀ q i b, (start q i b).Records) (hg : ∀ j, (go s j).Records) (h : s.Records) : (s.withPacket n type start go).Records := by
  unfold State.withPacket
  split
  · exact h
  · dsimp only
    split
    · exact State.idle_keeps (hg _)
    · exact State.idle_keeps (hs _ _ _)
    · exact h

theorem State.startPacket_keeps {s : State} (n : Nat) (q : Queue) (i : Nat) (b : List Byte) (bad : Bool) {go : State → Job → State}
    (hg : ∀ t j, t.Records → (go t j).Records) (h : s.Records) : (s.startPacket n q i b bad go).Records := by
  unfold State.startPacket
  dsimp only
  split
  · exact State.endPacket_keeps _ _ (State.openJob_keeps _ _ _ _ _ h)
  · exact hg _ _ (State.packetStarts_keeps _ (State.openJob_keeps _ _ _ _ _ h))

@[simp] theorem State.copyRun_keeps {s : State} (j : Job) (h : s.Records) : (s.copyRun j).Records := by
  unfold State.copyRun
  dsimp only
  split
  next hw => exact State.engWaits_keeps h hw
  next => exact State.endPacket_keeps _ _ (State.forget_keeps _ (State.moveAll_keeps (fun t x dst e ht => copyElem_keeps x dst e ht) h))

theorem State.withSignal_keeps {s : State} (j : Job) (write : Bool) {wait : State → State} {f : Nat → State}
    (hw : ∀ t, t.Records → (wait t).Records) (hf : ∀ loc, (f loc).Records) (h : s.Records) : (s.withSignal j write wait f).Records := by
  unfold State.withSignal
  dsimp only
  split
  · exact State.endPacket_keeps _ _ h
  · split
    next hp => exact hw _ (State.devPage_waits_keeps h hp)
    next hp => exact State.endPacket_keeps _ _ (State.devPage_refused_keeps h hp)
    next =>
      split
      · exact State.endPacket_keeps _ _ h
      · exact hf _

@[simp] theorem State.waitRun_keeps {s : State} (j : Job) (h : s.Records) : (s.waitRun j).Records := by
  refine State.withSignal_keeps _ _ (fun _ ht => ht) (fun loc => ?_) h
  split
  · exact State.endPacket_keeps _ _ h
  · exact h

@[simp] theorem State.setRun_keeps {s : State} (j : Job) (h : s.Records) : (s.setRun j).Records :=
  State.withSignal_keeps _ _ (fun _ ht => ht) (fun _ => State.endPacket_keeps _ _ (State.devStore_keeps _ _ _ h)) h

/-! ## The end of a launch -/

@[simp] theorem State.launchEnd_keeps {s : State} (j : Job) (h : s.Records) : (s.launchEnd j).Records := by
  unfold State.launchEnd
  split
  · exact State.idle_keeps (State.clearStrands_keeps _ h)
  · exact h
  · exact h
  · split
    · exact State.idle_keeps (State.clearStrands_keeps _ (State.putJob_keeps _ h))
    · exact h

theorem State.foldFrom_keeps (j : Job) (v : View) (b : List Byte) (n k : Nat) {s : State} (h : s.Records) : (s.foldFrom j v b n k).1.Records := by
  induction n generalizing s k with
  | zero => exact h
  | succ n ih =>
    unfold State.foldFrom
    dsimp only
    split
    next hw => exact State.onJob_keeps _ _ (State.devPage_waits_keeps h hw)
    next hr => exact State.endJob_keeps _ _ _ (State.devPage_refused_keeps h hr)
    next =>
      split
      · exact State.endJob_keeps _ _ _ h
      · split
        · exact State.endJob_keeps _ _ _ h
        · split
          · exact State.endJob_keeps _ _ _ h
          · exact ih _ (State.devStore_keeps _ _ _ h)

@[simp] theorem State.rootFold_keeps {s : State} (j : Job) (h : s.Records) : (s.rootFold j).Records := by
  unfold State.rootFold
  split
  · exact h
  · dsimp only
    split
    · exact State.idle_keeps (State.putJob_keeps _ h)
    · refine State.idle_keeps ?_
      split
      · exact State.putJob_keeps _ (State.foldFrom_keeps _ _ _ _ _ h)
      · exact State.foldFrom_keeps _ _ _ _ _ h

@[simp] theorem State.addAt_keeps {s : State} (id loc width x lane : Nat) (pdl pdh : W64) (h : s.Records) :
    (s.addAt id loc width x lane pdl pdh).Records := by
  unfold State.addAt
  split_ifs
  · exact h
  · exact State.endJob_keeps _ _ _ h
  · exact State.storeNat_keeps _ _ _ h

@[simp] theorem State.applyPartials_keeps {s : State} (j : Job) (loc width : Nat) (h : s.Records) : (s.applyPartials j loc width).Records := by
  unfold State.applyPartials
  dsimp only
  split
  · exact State.addAt_keeps _ _ _ _ _ _ _ h
  · exact h

@[simp] theorem State.applyAdds_keeps {s : State} (j : Job) (h : s.Records) : (s.applyAdds j).Records :=
  State.onJob_keeps _ _ (foldl_keeps (fun _ _ ht => State.applyPartials_keeps _ _ _ ht) _
    (foldl_keeps (fun _ _ ht => State.addAt_keeps _ _ _ _ _ _ _ ht) _ h))

theorem State.flushRecord_keeps {s : State} (j : Job) (h : s.Records) : (s.flushRecord j).1.Records := by
  unfold State.flushRecord
  dsimp only
  split
  · split
    next => exact State.putJob_keeps _ (State.devPut_keeps _ _ h)
    next hw => exact State.devPage_waits_keeps h hw
    next hr => exact State.putJob_keeps _ (State.devPage_refused_keeps h hr)
  · split
    · split
      next => exact State.putJob_keeps _ (State.devStore_keeps _ _ _ h)
      next hw => exact State.devPage_waits_keeps h hw
      next hr => exact State.putJob_keeps _ (State.devPage_refused_keeps h hr)
    · exact h

@[simp] theorem State.retire_keeps {s : State} (j : Job) (h : s.Records) : (s.retire j).Records := by
  have h1 : ({ s with
      jobs := drop s.jobs j.id
      ops := s.ops.filter (fun o => o.job != j.id)
      teams := s.teams.filter (fun t => t.2.job != j.id) } : State).Records :=
    State.filterTeams_keeps (s := { s with jobs := drop s.jobs j.id, ops := s.ops.filter (fun o => o.job != j.id) }) _
      (State.dropJob_keeps j.id h)
  unfold State.retire
  dsimp only
  refine State.drainCommands_keeps _ ?_
  split
  · exact State.putQueue_keeps _ _ h1
  · exact h1

@[simp] theorem State.completionSignal_keeps {s : State} (j : Job) (h : s.Records) : (s.completionSignal j).Records := by
  have hr := State.flushRecord_keeps j h
  unfold State.completionSignal
  split
  · split
    · exact h
    · dsimp only
      split
      · exact State.idle_keeps hr
      · split_ifs
        · exact State.idle_keeps hr
        · exact State.idle_keeps (State.retire_keeps _ hr)
        · exact State.idle_keeps (State.retire_keeps _ (State.queueError_keeps _ hr))
        · split
          next hw => exact State.idle_keeps (State.devPage_waits_keeps hr hw)
          next hd => exact State.idle_keeps (State.retire_keeps _ (State.queueError_keeps _ (State.devPage_refused_keeps hr hd)))
          next =>
            split
            · exact State.idle_keeps (State.retire_keeps _ (State.queueError_keeps _ hr))
            · exact State.idle_keeps (State.retire_keeps _ (State.devStore_keeps _ _ _ hr))
  · exact h

/-! ## Partitions and images -/

@[simp] theorem State.partitionOut_keeps {s : State} (j : Job) (h : s.Records) : (s.partitionOut j).Records := by
  have h1 : ∀ l : List Nat, (l.foldl (fun t c => match look t.jobs j.id with
      | some k => (t.clusterOut k c).getD t
      | none => t) s).Records := by
    refine fun l => foldl_keeps (fun t c ht => ?_) l h
    split
    · exact getD_keeps (fun _ hu => State.clusterOut_keeps ht hu) ht
    · exact ht
  have h2 : ∀ (l : List Team) (t : State), t.Records → (l.foldl (fun t m => match look t.jobs j.id with
      | some k => t.teamOut k m.idx
      | none => t) t).Records := by
    refine fun l t ht => foldl_keeps (fun t m ht => ?_) l ht
    split
    · exact State.teamOut_keeps _ _ ht
    · exact ht
  have h3 : ∀ (l : List Group) (t : State), t.Records → (l.foldl (fun t g => t.taskOut j g.gid) t).Records :=
    fun l t ht => foldl_keeps (fun t g ht => State.taskOut_keeps _ _ ht) l ht
  unfold State.partitionOut
  exact State.addImage_keeps _ _ _ _ (State.onJob_keeps _ _ (h3 _ _ (h2 _ _ (h1 _))))

@[simp] theorem State.partitionIn_keeps {s : State} (j : Job) (h : s.Records) : (s.partitionIn j).Records := by
  unfold State.partitionIn
  split
  · exact State.stopJob_keeps _ _ h
  · refine getD_keeps (fun u hu => ?_) h
    refine foldl_bind_keeps (fun t e v ht hv => ?_) _ (fun v hv => ?_) hu
    · obtain ⟨k, -, hk⟩ := Option.bind_eq_some_iff.1 hv
      exact State.clusterBack_keeps ht hk
    · cases hv
      exact State.dropImage_keeps _ _ (State.onJob_keeps _ _ h)

@[simp] theorem State.swap_keeps {s : State} (job : Nat) (h : s.Records) : (s.swap job).Records := by
  unfold State.swap
  split
  · exact h
  · dsimp only
    split_ifs
    · exact foldl_keeps (fun t k ht => State.partitionIn_keeps k ht) _ h
    · exact foldl_keeps (fun t k ht => State.partitionOut_keeps k ht) _ h
    · exact h

@[simp] theorem State.moveImage_keeps {s : State} (job ref : Nat) (place : ImagePlace) (h : s.Records) : (s.moveImage job ref place).Records := by
  unfold State.moveImage
  dsimp only
  cases place with
  | kiln c => dsimp only; split <;> exact h
  | hbm => exact h
  | imgb => exact h

theorem State.anyGroup_same (s : State) (g : Group) : (s.anyGroup g).Same g := ⟨rfl, rfl⟩
theorem State.anyStrand_same (s : State) (g : Group) : (s.anyStrand g).Same g := ⟨rfl, rfl⟩

@[simp] theorem State.anyBytes_keeps {s : State} (base loc n : Nat) (h : s.Records) : (s.anyBytes base loc n).Records := State.store_keeps _ _ h

@[simp] theorem State.anyViews_keeps {s : State} (l : List View) (h : s.Records) : (s.anyViews l).Records :=
  foldl_keeps (fun _ _ ht => State.anyBytes_keeps _ _ _ ht) l h

@[simp] theorem State.anyTeam_keeps {s : State} (j : Job) (t : Team) (h : s.Records) : (s.anyTeam j t).Records := by
  unfold State.anyTeam
  exact State.putTeam_keeps _ (State.anyViews_keeps _ (State.anyBytes_keeps _ _ _
    (State.mapGroups_keeps (Group.ite_same _ (State.anyStrand_same s)) h)))

@[simp] theorem State.anyNamed_keeps {s : State} (j : Job) (h : s.Records) : (s.anyNamed j).Records :=
  foldl_keeps (fun _ _ ht => State.storeNat_keeps _ _ _ ht) _ h

@[simp] theorem State.anyDeques_keeps {s : State} (j : Job) (first : Nat) (h : s.Records) : (s.anyDeques j first).Records := h

@[simp] theorem State.anyPartition_keeps {s : State} (j : Job) (h : s.Records) : (s.anyPartition j).Records := by
  have hend : ∀ t : State, t.Records → ∀ d, ({ t with deques := d } : State).Records := fun _ ht _ => ht
  unfold State.anyPartition
  exact hend _ (State.putJob_keeps _ h) _

@[simp] theorem State.alter_keeps {s : State} (job ref : Nat) (h : s.Records) : (s.alter job ref).Records := by
  unfold State.alter
  split
  · split
    · split
      · exact State.mapGroups_keeps (Group.ite_same _ (State.anyGroup_same s)) h
      · exact State.anyViews_keeps _ (State.mapGroups_keeps (Group.ite_same _ (State.anyStrand_same s)) h)
    · exact State.anyTeam_keeps _ _ h
    · exact State.putJob_keeps _ (State.mapGroups_keeps (Group.ite_same _ (State.anyGroup_same s)) h)
    · exact State.anyPartition_keeps _ h
  · exact h

@[simp] theorem State.spoil_keeps {s : State} (id k : Nat) (h : s.Records) : (s.spoil id k).Records := by
  unfold State.spoil
  split
  · exact h
  · split
    · exact h
    · split
      · exact State.anyDeques_keeps _ _ h
      · exact State.putJob_keeps _ (State.anyNamed_keeps _ h)
      · exact State.putJob_keeps _ (State.anyNamed_keeps _ h)
      · exact State.putJob_keeps _ (State.anyViews_keeps _ (State.anyNamed_keeps _ h))
      · exact State.mapGroups_keeps (Group.ite_same _ (State.anyGroup_same s)) h
      · exact h

end Sys2Proof.Machine
end

section
namespace Sys2Proof.Machine
open Host

/-! ## Acts that are no events of the tables -/

@[simp] theorem State.elsewhere_keeps {s : State} (pa : Nat) (data : List Byte) (h : s.Records) : (s.elsewhere pa data).Records := by
  unfold State.elsewhere
  dsimp only
  split
  · exact h
  · exact State.store_keeps _ _ h

@[simp] theorem State.upsetEnd_keeps {s : State} (job detail : Nat) (g : Group) (source : Nat) (h : s.Records) :
    (s.upsetEnd job detail g source).Records := by
  unfold State.upsetEnd
  split
  · split
    · exact State.endJob_keeps _ _ _ h
    · exact h
  · exact h

@[simp] theorem State.upset_keeps {s : State} (u : Upset) (h : s.Records) : (s.upset u).Records := by
  cases u with
  | memory k => exact h
  | scratchpad job => exact State.upsetEnd_keeps _ _ _ _ h
  | registers gid =>
    unfold State.upset
    dsimp only
    split
    · split
      · exact h
      · exact State.upsetEnd_keeps _ _ _ _ h
    · exact h
  | engine job => exact State.upsetEnd_keeps _ _ _ _ h

@[simp] theorem State.crowd_keeps {s : State} (line : Nat) (h : s.Records) : (s.crowd line).Records :=
  State.mapGroups_keeps (fun _ => ⟨rfl, rfl⟩) h

/-! ## The forms of an instruction -/

/-- The next state an instruction answers, where it answers one, has its records and strands in their places. -/
def NextKeeps (o : Outcome State Fault Refusal) : Prop := ∀ t, o = .next t → t.Records

@[simp] theorem nextKeeps_next {t : State} : NextKeeps (.next t) ↔ t.Records := ⟨fun h => h t rfl, fun h u e => by cases e; exact h⟩

theorem laneForm_keeps {i : Instr} {f : W32 → State → State} {s : State} (hf : ∀ m, (f m s).Records) (h : s.Records) :
    NextKeeps (laneForm i f s) := by
  unfold laneForm
  rw [nextKeeps_next]
  split_ifs
  · exact State.illegal_keeps _ h
  · exact State.stopFault_keeps _ _ _ _ h
  · exact hf _

theorem laneFormIf_keeps {bad : Bool} {i : Instr} {f : W32 → State → State} {s : State} (hf : ∀ m, (f m s).Records) (h : s.Records) :
    NextKeeps (laneFormIf bad i f s) := by
  unfold laneFormIf
  split
  · exact nextKeeps_next.2 (State.illegal_keeps _ h)
  · exact laneForm_keeps hf h

theorem groupForm_keeps {i : Instr} {f : State → State} {s : State} (hf : (f s).Records) (h : s.Records) : NextKeeps (groupForm i f s) := by
  unfold groupForm
  rw [nextKeeps_next]
  split_ifs
  · exact State.illegal_keeps _ h
  · exact State.finish_keeps h
  · exact hf

theorem groupFormIf_keeps {bad : Bool} {i : Instr} {f : State → State} {s : State} (hf : (f s).Records) (h : s.Records) :
    NextKeeps (groupFormIf bad i f s) := by
  unfold groupFormIf
  split
  · exact nextKeeps_next.2 (State.illegal_keeps _ h)
  · exact groupForm_keeps hf h

theorem convergentForm_keeps {i : Instr} {f : State → State} {s : State} (hf : ∀ t : State, t.Records → (f t).Records) (h : s.Records) :
    NextKeeps (convergentForm i f s) := by
  unfold convergentForm
  rw [nextKeeps_next]
  split_ifs
  · exact State.illegal_keeps _ h
  · exact State.finish_keeps (State.mergeParked_keeps h)
  · exact hf _ (State.mergeParked_keeps h)
  · exact (State.ticked_records ..).2 (State.setSplit_keeps _ h)

theorem convergentFormIf_keeps {bad : Bool} {i : Instr} {f : State → State} {s : State} (hf : ∀ t : State, t.Records → (f t).Records)
    (h : s.Records) : NextKeeps (convergentFormIf bad i f s) := by
  unfold convergentFormIf
  split
  · exact nextKeeps_next.2 (State.illegal_keeps _ h)
  · exact convergentForm_keeps hf h

theorem memoryForm_keeps {i : Instr} {e : State → RegionAcc} {f : State → State} {s : State} (hf : (f s).Records) (h : s.Records) :
    NextKeeps (memoryForm i e f s) := by
  unfold memoryForm
  rw [nextKeeps_next]
  split
  · exact State.illegal_keeps _ h
  · split
    · exact State.regionAdd_keeps _ _ _ _ h
    · split
      · exact State.finish_keeps h
      · exact hf

theorem matrixForm_keeps {i : Instr} {desc : BitVec 7} {f : Nat → State → State} {s : State} (hf : ∀ x, (f x s).Records) (h : s.Records) :
    NextKeeps (matrixForm i desc f s) := groupForm_keeps (hf _) h

end Sys2Proof.Machine
end

section
namespace Sys2Proof.Machine
open Host

/-! ## Writes to the group in focus keep its number and kind -/

@[simp] theorem Group.gSet_same (g : Group) (r : Nat) (x : W64) : (g.gSet r x).Same g := by
  exact ⟨rfl, rfl⟩

theorem Group.vSet_same (g : Group) (m : W32) (r : Nat) (f : Nat → W32) : (g.vSet m r f).Same g := ⟨rfl, rfl⟩
theorem Group.vSet2_same (g : Group) (m : W32) (r : Nat) (f : Nat → W64) : (g.vSet2 m r f).Same g := ⟨rfl, rfl⟩
theorem Group.sliceSet_same (g : Group) (m : W32) (t : Nat) (r : Bool) (x : Nat) (f : Nat → W32) : (g.sliceSet m t r x f).Same g := ⟨rfl, rfl⟩
theorem Group.orFlags_same (g : Group) (x : Nat) : (g.orFlags x).Same g := ⟨rfl, rfl⟩

theorem Group.vSetN_same (k : Nat) (g : Group) (m : W32) (n : Nat) (f : Nat → Nat) : (g.vSetN m n f k).Same g := by
  induction k generalizing g n f with
  | zero => exact Group.same_refl g
  | succ k ih => exact (ih _ _ _).trans (g.vSet_same _ _ _)

theorem Group.putLoad_same (c : BitVec 3) (d : BitVec 7) (g : Group) (m : W32) (x : Nat → Nat) : (Group.putLoad c d g m x).Same g := by
  unfold Group.putLoad
  split
  · exact g.vSet_same _ _ _
  · exact g.vSet_same _ _ _
  · exact g.vSet2_same _ _ _
  · exact g.vSetN_same _ _ _ _
  · exact g.vSet_same _ _ _

theorem Group.foldl_gSet_same (l : List (Nat × W64)) (g : Group) : (l.foldl (fun g x => g.gSet x.1 x.2) g).Same g := by
  induction l generalizing g with
  | nil => exact Group.same_refl g
  | cons x l ih => exact (ih _).trans (g.gSet_same _ _)

theorem State.finishSame_keeps {s : State} {g : Group} (h : s.Records) (hg : g.Same s.cur) : (s.setCur g).finish.Records :=
  State.finish_keeps (State.setCur_same h hg)

/-! ## Instructions whose effect reaches memory or waits -/

theorem execAtom_keeps {s : State} (q : BitVec 2) (d a : BitVec 7) (o c : BitVec 5) (h : s.Records) : NextKeeps (execAtom q d a o c s) := by
  refine laneForm_keeps (fun m => ?_) h
  dsimp only
  split
  next hg => exact State.gate_keeps h hg
  next =>
    split
    next => exact State.block_keeps _ h
    next =>
      have hp : ∀ l : List LaneAcc, (l.foldl (atomLane s.cur c d) (s, [])).1.Records :=
        fun l => foldl_fst_keeps (p := (s, [])) (fun p a hp => atomLane_keeps _ _ _ a hp) l h
      have hs : ∀ (t : State) (b : Bool) (x y : Group), t.Records → x.Same t.cur → y.Same t.cur → (t.setCur (if b then x else y)).Records :=
        fun t b x y ht hx hy => State.setCur_same ht (by split; exacts [hx, hy])
      refine State.finish_keeps ?_
      split
      · exact State.report'_keeps _ _ _ (State.laneFaults_keeps _ (hs _ _ _ _ (hp _) (Group.vSet2_same ..) (Group.vSet_same ..)))
      · exact State.laneFaults_keeps _ (hs _ _ _ _ (hp _) (Group.vSet2_same ..) (Group.vSet_same ..))

theorem execRed_keeps {s : State} (q : BitVec 2) (d a : BitVec 7) (o c : BitVec 5) (h : s.Records) : NextKeeps (execRed q d a o c s) := by
  refine laneForm_keeps (fun m => ?_) h
  dsimp only
  split
  next hg => exact State.gate_keeps h hg
  next =>
    split
    next => exact State.block_keeps _ h
    next => exact State.finish_keeps (State.laneFaults_keeps _ (foldl_keeps (fun t a ht => redLane_keeps _ _ _ a ht) _ h))

theorem execBarw_keeps {s : State} (q : BitVec 2) (a n : BitVec 7) (h : s.Records) : NextKeeps (execBarw q a n s) := by
  refine convergentForm_keeps (fun t ht => State.atDelivery_keeps ?_ ht) h
  split_ifs
  · exact State.barMember_keeps _ ht
  · exact State.finish_keeps ht
  · exact State.block_keeps _ ht

theorem execBbinit_keeps {s : State} (q : BitVec 2) (a b : BitVec 7) (h : s.Records) : NextKeeps (execBbinit q a b s) :=
  groupForm_keeps (State.withBarrier_keeps _ (fun _ _ => State.finish_keeps (State.storeNat_keeps _ _ _ h)) h) h

theorem execBbexp_keeps {s : State} (q : BitVec 2) (a b : BitVec 7) (h : s.Records) : NextKeeps (execBbexp q a b s) :=
  groupForm_keeps (State.withBarrier_keeps _ (fun _ _ => State.onWord_keeps _ _ _ (State.finish_keeps (State.bbUpdate_keeps _ _ _ _ _ _ h)) h) h) h

theorem execBbarr_keeps {s : State} (q : BitVec 2) (a b : BitVec 7) (h : s.Records) : NextKeeps (execBbarr q a b s) :=
  groupForm_keeps (State.withBarrier_keeps _ (fun _ _ => State.onWord_keeps _ _ _ (State.finish_keeps (State.bbUpdate_keeps _ _ _ _ _ _ h)) h) h) h

theorem execBbwait_keeps {s : State} (q : BitVec 2) (a b : BitVec 7) (h : s.Records) : NextKeeps (execBbwait q a b s) := by
  refine groupForm_keeps (State.withBarrier_keeps _ (fun team off => State.onWord_keeps _ _ _ ?_ h) h) h
  dsimp only
  split
  · exact State.sleepOn_keeps _ _ h
  · split
    · exact State.finish_keeps (State.report'_keeps _ _ _ (State.disarm_keeps h))
    · exact State.finish_keeps (State.disarm_keeps h)

theorem execWait_keeps {s : State} (q : BitVec 2) (a b : BitVec 7) (h : s.Records) : NextKeeps (execWait q a b s) := by
  refine groupForm_keeps ?_ h
  split
  · exact State.finish_keeps (State.disarm_keeps h)
  · dsimp only
    split
    next hg => exact State.groupGate_keeps h hg
    next =>
      split
      · split
        · exact State.finish_keeps (State.disarm_keeps h)
        · exact State.sleepOn_keeps _ _ h
      · exact State.finish_keeps (State.disarm_keeps h)
      · exact State.finish_keeps (State.report'_keeps _ _ _ (State.disarm_keeps h))

theorem execCkres_keeps {s : State} (q : BitVec 2) (d : BitVec 7) (c : BitVec 3) (n : BitVec 4) (h : s.Records) :
    NextKeeps (execCkres q d c n s) := by
  refine groupForm_keeps (State.withCask_keeps _ _ (fun team k => ?_) h) h
  split
  · exact State.block_keeps _ h
  · exact State.finishSame_keeps (State.putCask_keeps _ _ _ (State.storeNat_keeps _ _ _ h)) (Group.gSet_same _ _ _)

theorem execCkacq_keeps {s : State} (q : BitVec 2) (d : BitVec 7) (c : BitVec 3) (n : BitVec 4) (h : s.Records) :
    NextKeeps (execCkacq q d c n s) := by
  refine groupForm_keeps (State.withCask_keeps _ _ (fun team k => ?_) h) h
  split
  · exact State.block_keeps _ h
  · have h1 : ∀ k', ((s.slotEntry team n.toNat k.ap k true).putCask team n.toNat k').Records :=
      fun _ => State.putCask_keeps _ _ _ (State.slotEntry_keeps _ _ _ _ _ h)
    dsimp only
    split
    · exact State.finish_keeps (State.report'_keeps _ _ _ (State.setCur_same (h1 _) (Group.gSet_same _ _ _)))
    · exact State.finishSame_keeps (h1 _) (Group.gSet_same _ _ _)

theorem execCpy_keeps {s : State} (q : BitVec 2) (d a b : BitVec 7) (h : s.Records) : NextKeeps (execCpy q d a b s) := by
  refine laneFormIf_keeps (fun m => State.withCompletion_keeps _ (fun team off => ?_) h) h
  split_ifs
  · exact State.onWord_keeps _ _ _ (State.finish_keeps (State.bbUpdate_keeps _ _ _ _ _ _ h)) h
  · exact State.block_keeps _ h
  · exact State.launchOp_keeps _ _ _ _ _ h

theorem execCpyr_keeps {s : State} (q : BitVec 2) (d a b : BitVec 7) (h : s.Records) : NextKeeps (execCpyr q d a b s) := by
  refine laneFormIf_keeps (fun m => State.withCompletion_keeps _ (fun team off => ?_) h) h
  split
  · exact State.onWord_keeps _ _ _ (State.finish_keeps (State.bbUpdate_keeps _ _ _ _ _ _ h)) h
  · split
    · exact State.block_keeps _ h
    · exact State.launchOp_keeps _ _ _ _ _ (State.setCur_same h ⟨rfl, rfl⟩)

theorem execCpyt_keeps {s : State} (q : BitVec 2) (d a b : BitVec 7) (h : s.Records) : NextKeeps (execCpyt q d a b s) := by
  refine groupForm_keeps ?_ h
  dsimp only
  split
  · exact State.illegal_keeps _ h
  · refine State.withCompletion_keeps _ (fun team off => ?_) h
    split
    · exact State.block_keeps _ h
    · exact State.launchOp_keeps _ _ _ _ _ h

theorem execTrig_keeps {s : State} (q p : BitVec 2) (a : BitVec 7) (h : s.Records) : NextKeeps (execTrig q p a s) := by
  have hr : ∀ detail, (s.report' 0x32 detail (s.cur.gGet a.toNat)).finish.Records :=
    fun _ => State.finish_keeps (State.report'_keeps _ _ _ h)
  refine groupForm_keeps ?_ h
  dsimp only
  split
  · exact hr _
  · split
    · exact State.stopFault_keeps _ _ _ _ h
    · split
      next hg => exact State.gate_keeps h hg
      next =>
        split
        · exact hr _
        · split
          · split
            · exact State.trigDesc_keeps _ _ _ h
            · exact hr _
          · exact hr _

theorem execAbeg_keeps {s : State} (q : BitVec 2) (a : BitVec 7) (h : s.Records) : NextKeeps (execAbeg q a s) := by
  refine groupForm_keeps ?_ h
  dsimp only
  split_ifs
  · exact State.stopFault_keeps _ _ _ _ h
  · exact State.stopFault_keeps _ _ _ _ h
  · exact State.setCur_same (State.finish_keeps h) ⟨rfl, rfl⟩

theorem execAcom_keeps {s : State} (q : BitVec 2) (o : BitVec 7) (h : s.Records) : NextKeeps (execAcom q o s) := by
  refine groupForm_keeps ?_ h
  split
  · exact State.illegal_keeps _ h
  · dsimp only
    split
    · exact State.stopFault_keeps _ _ _ _ h
    · split
      next hg => exact State.gate_keeps h hg
      next =>
        split
        · exact State.block_keeps _ h
        · exact State.finishSame_keeps (foldl_fst_keeps (p := (s, [])) (fun p x hp => regionStep_keeps x hp) _ h)
            (Group.Same.trans ⟨rfl, rfl⟩ (Group.foldl_gSet_same _ _))

theorem execEret_keeps {s : State} (q : BitVec 2) (h : s.Records) : NextKeeps (execEret q s) := by
  refine groupForm_keeps ?_ h
  split
  · exact State.illegal_keeps _ h
  · split
    next hw => exact State.block_keeps _ (State.devPage_waits_keeps h hw)
    next hr => exact (State.ticked_records ..).2 (State.putJob_keeps _ (State.devPage_refused_keeps h hr))
    next => exact State.resume_keeps _ (State.consume_keeps h)

theorem execMsca_keeps {s : State} (q : BitVec 2) (a : BitVec 4) (c : BitVec 3) (d : BitVec 7) (h : s.Records) :
    NextKeeps (execMsca q a c d s) := by
  refine matrixForm_keeps (fun x => ?_) h
  dsimp only
  split_ifs
  · exact State.illegal_keeps _ h
  · exact State.scaFinish_keeps _ _ _ h
  · exact State.withOperand_keeps _ _ (fun b => State.scaFinish_keeps _ _ _ h) h
  · exact State.fetchQueue_keeps _ _ (fun t ht => State.scaFinish_keeps _ _ _ ht) h

theorem execLimm_keeps {s : State} (i : BitVec 24) (h : s.Records) : NextKeeps (execLimm i s) := by
  unfold execLimm
  rw [nextKeeps_next]
  split
  · exact State.illegal_keeps _ h
  · split
    · exact State.hold_keeps _ h
    · split
      · split
        · exact h
        · exact State.illegal_keeps _ h
      · exact State.illegal_keeps _ h

theorem execRep_keeps {s : State} (n : BitVec 6) (m st : BitVec 3) (g : BitVec 7) (h : s.Records) : NextKeeps (execRep n m st g s) := by
  unfold execRep
  rw [nextKeeps_next]
  extract_lets word count resumed done left
  split
  · exact State.illegal_keeps _ h
  · split
    · exact State.illegal_keeps _ h
    · split
      · exact State.jump_keeps _ h
      · exact State.repStart_keeps _ _ _ h

theorem execExit_keeps {s : State} (q : BitVec 2) (h : s.Records) : NextKeeps (execExit q s) := groupForm_keeps (State.exit_keeps h) h

theorem execJoin_keeps {s : State} (q : BitVec 2) (h : s.Records) : NextKeeps (execJoin q s) :=
  convergentForm_keeps (fun _ ht => State.atDelivery_keeps (State.joinThen_keeps (fun _ hu => State.finish_keeps hu) ht) ht) h

theorem execYield_keeps {s : State} (q : BitVec 2) (h : s.Records) : NextKeeps (execYield q s) := by
  have hend : ∀ t : State, t.Records → ∀ l, ({ t with lastIssue := l } : State).Records := fun _ ht _ => ht
  exact groupForm_keeps (State.finish_keeps (hend _ (State.setSplit_keeps _ h) _)) h

theorem execTrap_keeps {s : State} (q : BitVec 2) (n : BitVec 7) (h : s.Records) : NextKeeps (execTrap q n s) :=
  groupForm_keeps (State.take_keeps _ (State.consume_keeps h)) h

/-! ## Issue -/

/-- The table of a group settles and nothing else of it changes: it stays the same group. -/
theorem State.settleGo_same (s : State) (n : Nat) (g : Group) : (s.settleGo n g).Same g := by
  induction n generalizing g with
  | zero => exact Group.same_refl g
  | succ n ih =>
    unfold State.settleGo
    dsimp only
    split
    · exact ⟨rfl, rfl⟩
    · exact (ih _).trans ((Group.popPath_same _).trans ⟨rfl, rfl⟩)

theorem State.settle_same (s : State) (g : Group) : (s.settle g).Same g := by
  unfold State.settle
  split
  · exact Group.same_refl g
  · exact s.settleGo_same _ _

theorem Group.starts_same (g : Group) (c : Nat) : (g.starts c).Same g := by
  unfold Group.starts
  split <;> exact ⟨rfl, rfl⟩

/-- What an issue comes to has its records and strands in their places: the state it says, or the one its instruction is to run on. -/
def Ready.Keeps : Ready → Prop
  | .run _ s => s.Records
  | .done s => s.Records

theorem State.decoded_keeps {s : State} (w : W32) (h : s.Records) : (s.decoded w).Keeps := by
  unfold State.decoded
  split
  · exact h
  · exact State.illegal_keeps w h

theorem State.fetchDecode_keeps {s : State} (va : W64) (h : s.Records) : (s.fetchDecode va).Keeps := by
  unfold State.fetchDecode
  split
  · exact State.decoded_keeps _ h
  · exact State.hold_keeps _ h

theorem State.entering_keeps {s t : State} (h : s.Records) (he : s.entering = some t) : t.Records := by
  unfold State.entering at he
  split at he
  · cases he; exact State.takeIn_keeps _ _ h
  · cases he; exact State.take_keeps _ h
  · cases he

theorem State.issue_keeps {s : State} (h : s.Records) : s.issue.Keeps := by
  unfold State.issue
  split
  next he => exact State.entering_keeps h he
  next =>
    split
    · exact h
    · split
      · exact h
      · split
        · exact State.decoded_keeps _ h
        · exact State.fetchDecode_keeps _ h

theorem State.splitIn_keeps {s : State} (e : Nat) (h : s.Records) : ({ s with split := e } : State).Records := h

theorem State.issueSplit_keeps {s : State} (gid entry : Nat) (h : s.Records) : (s.issueSplit gid entry).Keeps := by
  have hs := State.setCur_same (State.focus_keeps gid entry h) (State.settle_same (s.focus gid entry) (s.focus gid entry).cur)
  unfold State.issueSplit
  split
  · exact State.idle_keeps h
  · dsimp only
    split
    · exact State.idle_keeps hs
    · refine State.issue_keeps ?_
      exact State.splitIn_keeps _ (State.setCur_same hs (Group.starts_same _ _))

theorem State.settleQuadrant_keeps {s : State} (core quad : Nat) (h : s.Records) : (s.settleQuadrant core quad).Records :=
  State.eachGroup_keeps (fun g => Group.ite_same (fun g => (g.inQuadrant core quad && s.live g) = true) (s.settle_same) g) h

theorem State.passOver_keeps {s : State} (core quad gid entry : Nat) (h : s.Records) : (s.passOver core quad gid entry).Records := by
  unfold State.passOver
  extract_lets l upd
  have hl : ∀ t : State, t.Records → ∀ l, ({ t with lastIssue := l } : State).Records := fun _ ht _ => ht
  exact hl _ (State.eachGroup_keeps (f := upd) (fun _ => ⟨rfl, rfl⟩) h) _

theorem State.issueQuadrant_keeps {s : State} (core quad : Nat) (h : s.Records) : (s.issueQuadrant core quad).Keeps := by
  unfold State.issueQuadrant
  dsimp only
  split
  · exact State.idle_keeps (State.settleQuadrant_keeps _ _ h)
  · exact State.issueSplit_keeps _ _ (State.passOver_keeps _ _ _ _ (State.settleQuadrant_keeps _ _ h))

theorem State.issueTurn_keeps {s : State} {f : State → Ready} (hf : (f s).Keeps) (h : s.Records) : (s.issueTurn f).Keeps := by
  unfold State.issueTurn
  split
  · exact State.idle_keeps h
  · exact hf

end Sys2Proof.Machine
end

section
namespace Sys2Proof.Machine
open Host

/-! ## Events of the device -/

theorem State.joinFocus_keeps {s : State} (e : Nat) (h : s.Records) : ({ s with split := e, limm := none } : State).Records := h

theorem State.joinComplete_keeps {s : State} (h : s.Records) : s.joinComplete.Records := by
  have hu := State.unsuspend_keeps h
  unfold State.joinComplete
  split
  · exact State.idle_keeps h
  next p _ =>
    dsimp only
    split_ifs
    · exact State.idle_keeps h
    · exact State.idle_keeps hu
    · have hi : (State.issue { s.unsuspend with split := p.entry, limm := none }).Keeps := State.issue_keeps (State.joinFocus_keeps p.entry hu)
      split
      next q x hx =>
        rw [hx] at hi
        split
        next hy => exact execJoin_keeps q hi _ hy
        next => exact State.idle_keeps hu
      next q x hx =>
        rw [hx] at hi
        split
        next hy => exact execExit_keeps q hi _ hy
        next => exact State.idle_keeps hu
      next => exact State.idle_keeps hu
      next x hx => rw [hx] at hi; exact hi

theorem execRemoteRequest_keeps {s : State} (kind code pa : Nat) (data : List Byte) (h : s.Records) :
    NextKeeps (execRemoteRequest kind code pa data s) := by
  have hd : ∀ t : State, t.Records → ∀ b, (State.idle { t with remoteData := b }).Records := fun _ ht _ => State.idle_keeps ht
  unfold execRemoteRequest
  rw [nextKeeps_next]
  split
  · exact hd _ h _
  · exact State.idle_keeps (State.outsideWrite_keeps _ _ h)
  · generalize (if code % 2 = 1 then 8 else 4) = w
    dsimp only
    split
    · split
      · exact hd _ (State.storeNat_keeps _ _ _ h) _
      · exact hd _ h _
    · exact State.idle_keeps h
  · exact State.idle_keeps h

theorem execThermalHalt_keeps {s : State} (h : s.Records) : NextKeeps (execThermalHalt s) := by
  have hb : ∀ t : State, t.Records → ∀ b, (State.idle { t with boot := b }).Records := fun _ ht _ => State.idle_keeps ht
  unfold execThermalHalt
  rw [nextKeeps_next]
  split
  · exact State.idle_keeps h
  · refine hb _ (foldl_keeps (fun t p ht => ?_) s.jobs h) _
    split
    · exact State.stopJob_keeps _ _ ht
    · exact ht

theorem execWaitSignalTimeout_keeps {s : State} (h : s.Records) : NextKeeps (execWaitSignalTimeout s) := by
  unfold execWaitSignalTimeout
  rw [nextKeeps_next]
  split
  · exact State.idle_keeps h
  next j _ =>
    split
    · exact State.idle_keeps (State.withSignal_keeps j _ (fun _ _ => State.endPacket_keeps _ _ h) (fun _ => State.endPacket_keeps _ _ h) h)
    · exact State.idle_keeps h

theorem execLaunchPacket_keeps {s : State} (q : Nat) (h : s.Records) : NextKeeps (execLaunchPacket q s) := by
  unfold execLaunchPacket
  rw [nextKeeps_next]
  split
  next hd => exact State.idle_keeps (State.dependencyMiss_keeps h hd)
  next => exact State.idle_keeps (State.acceptLaunch_keeps _ h)

theorem execCopyPacket_keeps {s : State} (q : Nat) (h : s.Records) : NextKeeps (execCopyPacket q s) :=
  nextKeeps_next.2 (State.withPacket_keeps _ _ (fun _ _ _ => State.startPacket_keeps _ _ _ _ _ (fun _ j ht => State.copyRun_keeps j ht) h)
    (fun j => State.copyRun_keeps j h) h)

theorem execWaitSignalPacket_keeps {s : State} (q : Nat) (h : s.Records) : NextKeeps (execWaitSignalPacket q s) :=
  nextKeeps_next.2 (State.withPacket_keeps _ _ (fun _ _ _ => State.startPacket_keeps _ _ _ _ _ (fun _ j ht => State.waitRun_keeps j ht) h)
    (fun j => State.waitRun_keeps j h) h)

theorem execSetSignalPacket_keeps {s : State} (q : Nat) (h : s.Records) : NextKeeps (execSetSignalPacket q s) :=
  nextKeeps_next.2 (State.withPacket_keeps _ _ (fun _ _ _ => State.startPacket_keeps _ _ _ _ _ (fun _ j ht => State.setRun_keeps j ht) h)
    (fun j => State.setRun_keeps j h) h)

theorem execSwitchOut_keeps {s : State} (job team : Nat) (h : s.Records) : NextKeeps (execSwitchOut job team s) := by
  unfold execSwitchOut
  rw [nextKeeps_next]
  split
  · exact State.idle_keeps h
  · split
    · exact State.idle_keeps h
    · split
      · exact State.evict_keeps _ _ h
      · exact State.idle_keeps h

theorem execTimer_keeps {s : State} (h : s.Records) : NextKeeps (execTimer s) := by
  have ht := State.boundaryFault_keeps 0x1D (State.setCur_same h (g := { s.cur with tmr := 0 }) ⟨rfl, rfl⟩)
  unfold execTimer
  rw [nextKeeps_next]
  split
  · exact State.idle_keeps h
  · dsimp only
    split
    · exact State.setCur_same ht ⟨rfl, rfl⟩
    · exact ht

theorem execAlarm_keeps {s : State} (h : s.Records) : NextKeeps (execAlarm s) := by
  have ht := State.boundaryFault_keeps 0x1E (State.setCur_same h (g := { s.cur with alarm := 0 }) ⟨rfl, rfl⟩)
  unfold execAlarm
  rw [nextKeeps_next]
  split
  · exact State.idle_keeps h
  · dsimp only
    split
    · exact State.setCur_same ht ⟨rfl, rfl⟩
    · exact ht

theorem execTrapEntry_keeps {s : State} (h : s.Records) : NextKeeps (execTrapEntry s) := by
  unfold execTrapEntry
  rw [nextKeeps_next]
  split
  · exact State.idle_keeps h
  · split
    · exact State.deliverLane_keeps _ h
    · exact State.deliver_keeps _ _ h

theorem execGrpAbsent_keeps {s : State} (h : s.Records) : NextKeeps (execGrpAbsent s) := by
  unfold execGrpAbsent
  rw [nextKeeps_next]
  split
  · split
    · exact State.absent_keeps _ h
    · exact State.idle_keeps h
  · exact State.idle_keeps h

theorem execResetBoot_keeps {s : State} (firmware fwSig record recSig : List Byte) :
    NextKeeps (execResetBoot firmware fwSig record recSig s) := nextKeeps_next.2 (reset_records.ofRoster rfl)

end Sys2Proof.Machine
end

section
namespace Sys2Proof.Machine
open Host

/-! ## Every instruction and event -/

theorem ite_keeps {p : Prop} [Decidable p] {s t : State} (hs : s.Records) (ht : t.Records) : (if p then s else t).Records := by
  split
  · exact hs
  · exact ht

theorem exec_keeps (i : Instr) {s : State} (h : s.Records) : NextKeeps (exec i s) := by
  have hflags : ∀ x, (s.setCur (s.cur.orFlags x)).Records := fun _ => State.setCur_same h (Group.orFlags_same _ _)
  have hdraws : ∀ m, (s.setCur (s.cur.advance m)).Records := fun m => State.setCur_same h (Group.advance_same _ m)
  cases i <;> dsimp only [exec]
  -- lanes and the group: registers alone change
  case movV | iaddImmV | clzV | popcV | brevV | iaddV | isubV | imulV | imulhS32V | imulhZ32V | bfxZV | bfxSV | imadV | bfiV | dp4 | shlV |
      shrV | sarV | rotV | movSpecialV | moviV | fclass | cvtGxDecode | shfl =>
    exact laneForm_keeps (fun m => laneWrite_keeps _ _ m h) h
  case movV64 | iaddImmV64 | clzV64 | popcV64 | iaddV64 | isubV64 | imulV64 | imulhS64V | imulhZ64V | imadV64 | shlV64 | shrV64 | sarV64 |
      rotV64 | leaV | isect => exact laneForm_keeps (fun m => laneWrite2_keeps _ _ m h) h
  case selV | bcast => exact laneForm_keeps (fun m => ite_keeps (laneWrite2_keeps _ _ m h) (laneWrite_keeps _ _ m h)) h
  case imaxV | iminV | andV | orV | xorV | andnV =>
    refine laneForm_keeps (fun m => ?_) h
    split
    · exact laneWrite2_keeps _ _ m h
    · exact laneWrite_keeps _ _ m h
  case rand => exact laneForm_keeps (fun m => laneWrite_keeps _ _ m (hdraws m)) h
  case icmpV | psetV | psetNzV => exact laneForm_keeps (fun m => predWrite_keeps _ _ m h) h
  case fcmp => exact laneForm_keeps (fun m => predWrite_keeps _ _ m (hflags _)) h
  case iabsV | ffma | frnd | hfuse | fadd | fsub | fmul | fdiv | fmin | fmax | fsqrt | frcp | frsq | fexp2 | flog2 | ftrigSinpi | ftrigCospi =>
    exact laneForm_keeps (fun m => laneFloat_keeps _ _ m h) h
  case iabsV64 | ffmaF64 | fsqrtF64 | frndF64 | faddF64 | fsubF64 | fmulF64 | fdivF64 | fminF64 | fmaxF64 =>
    exact laneForm_keeps (fun m => laneFloat2_keeps _ _ m h) h
  case cvt q r d a p =>
    refine laneForm_keeps (fun m => ?_) h
    have hg := State.setCur_same h (Group.ite_same (fun _ => r = 5#3) (fun g => g.advance_same m) s.cur)
    extract_lets g f wide
    split
    · exact laneFloat2_keeps _ _ m hg
    · exact laneFloat_keeps _ _ m hg
  case cvtGxEncode q d a r c =>
    refine laneForm_keeps (fun m => ?_) h
    have hg := Group.ite_same (fun _ => r = 1#1) (fun g => g.advance_same m) s.cur
    dsimp only
    split
    · exact State.finish_keeps h
    · exact State.finishSame_keeps h ((Group.orFlags_same _ _).trans ((Group.vSet_same _ _ _ _).trans hg))
  case vote =>
    exact laneForm_keeps (fun m => ite_keeps (gpredWrite_keeps _ _ h) (ite_keeps (gpredWrite_keeps _ _ h) (groupWrite_keeps _ _ h))) h
  case redux =>
    exact laneForm_keeps (fun m => ite_keeps (groupWrite_keeps _ _ (hflags _)) (groupWrite32_keeps _ _ (hflags _))) h
  case scan =>
    exact laneForm_keeps (fun m => ite_keeps (laneWrite2_keeps _ _ m (hflags _)) (laneWrite_keeps _ _ m (hflags _))) h
  case pitch => exact laneForm_keeps (fun m => State.finishSame_keeps h (Group.genSet_same _ _ _)) h
  case nzscan =>
    exact laneFormIf_keeps (fun m => ite_keeps (State.stopFault_keeps _ _ _ _ h) (laneWrite_keeps _ _ m h)) h
  case iaddImmG32 | clzG32 | popcG32 | brevG | movG32 | iaddG32 | isubG32 | imulG32 | imulhS32G | imulhZ32G | bfxZG | bfxSG | imadG32 | bfiG |
      shlG32 | shrG32 | sarG32 | rotG32 => exact groupForm_keeps (groupWrite32_keeps _ _ h) h
  case iaddImmG64 | clzG64 | popcG64 | movG64 | iaddG64 | isubG64 | imulG64 | imulhS64G | imulhZ64G | imadG64 | shlG64 | shrG64 | sarG64 |
      rotG64 | movSpecialG | moviG | leaG => exact groupForm_keeps (groupWrite_keeps _ _ h) h
  case iabsG32 => exact groupForm_keeps (groupWrite32_keeps _ _ (hflags _)) h
  case iabsG64 => exact groupForm_keeps (groupWrite_keeps _ _ (hflags _)) h
  case selG => exact groupForm_keeps (ite_keeps (groupWrite_keeps _ _ h) (groupWrite32_keeps _ _ h)) h
  case imaxG | iminG | andG | orG | xorG | andnG =>
    refine groupForm_keeps ?_ h
    split
    · exact groupWrite_keeps _ _ h
    · exact groupWrite32_keeps _ _ h
  case icmpG | psetG | psetNzG => exact groupForm_keeps (gpredWrite_keeps _ _ h) h
  case qpoll => exact groupFormIf_keeps (gpredWrite_keeps _ _ h) h
  case nop => exact groupForm_keeps (State.finish_keeps h) h
  case ctlrd => exact groupForm_keeps (State.finishSame_keeps h (Group.gSet_same _ _ _)) h
  case ctlrdFflags => exact groupForm_keeps (State.finishSame_keeps h (Group.gSet_same _ _ _)) h
  case tsrf =>
    have hr : ∀ t : State, t.Records → ∀ l, ({ t with records := l } : State).Records := fun _ ht _ => ht
    exact groupForm_keeps (State.finish_keeps (hr _ (State.setCur_same h ⟨rfl, rfl⟩) _)) h
  case ctlwr | ctlwrFflags | ctlwrLfm | ctlwrRepc | ctlwrTmr | ctlwrAlarm => exact groupForm_keeps (State.ctlWrite_keeps _ _ h) h
  case yield => exact execYield_keeps _ h
  case mzero => exact groupForm_keeps (State.finish_keeps (State.putEngine_keeps _ h)) h
  case movSliceToV => exact laneForm_keeps (fun m => tileForm_keeps _ _ (laneWrite_keeps _ _ m h) h) h
  case movVToSlice => exact laneForm_keeps (fun m => tileForm_keeps _ _ (State.finishSame_keeps h (Group.sliceSet_same _ _ _ _ _ _)) h) h
  -- branches
  case brxV | retV | braV => exact laneForm_keeps (fun m => State.branch_keeps _ _ _ Group.same_refl h) h
  case callV => exact laneForm_keeps (fun m => State.branch_keeps _ _ _ (fun g => g.vSet2_same _ _ _) h) h
  case brxG | retG | braG => exact groupForm_keeps (State.goto_keeps _ _ Group.same_refl h) h
  case callG => exact groupForm_keeps (State.goto_keeps _ _ (fun g => g.gSet_same _ _) h) h
  -- memory, the queues and the engines
  case ldV | ldOrdered => exact laneForm_keeps (fun m => State.laneLoad_keeps _ _ _ _ (fun g => Group.putLoad_same _ _ g) h) h
  case stV | stOrdered => exact laneForm_keeps (fun m => State.laneStore_keeps _ _ _ _ _ h) h
  case ldt => exact laneForm_keeps (fun m => tileForm_keeps _ _ (State.laneLoad_keeps _ _ _ _ (fun g _ _ => g.sliceSet_same _ _ _ _ _) h) h) h
  case stt => exact laneForm_keeps (fun m => tileForm_keeps _ _ (State.laneStore_keeps _ _ _ _ _ h) h) h
  case ldG => exact memoryForm_keeps (State.groupLoad_keeps _ _ _ (fun g _ => g.gSet_same _ _) h) h
  case stG => exact memoryForm_keeps (State.groupStore_keeps _ _ _ _ h) h
  case atom => exact execAtom_keeps _ _ _ _ _ h
  case red => exact execRed_keeps _ _ _ _ _ h
  case abeg => exact execAbeg_keeps _ _ h
  case acom => exact execAcom_keeps _ _ h
  case movQueuePush => exact laneFormIf_keeps (fun m => State.push_keeps _ _ _ _ h) h
  case movQueuePop => exact laneFormIf_keeps (fun m => State.pop_keeps _ _ (fun g _ => g.vSet_same _ _ _) h) h
  case movSlicePush => exact laneFormIf_keeps (fun m => tileForm_keeps _ _ (State.push_keeps _ _ _ _ h) h) h
  case movSlicePop => exact laneFormIf_keeps (fun m => tileForm_keeps _ _ (State.pop_keeps _ _ (fun g _ => g.sliceSet_same _ _ _ _ _) h) h) h
  case cpy => exact execCpy_keeps _ _ _ _ h
  case cpyr => exact execCpyr_keeps _ _ _ _ h
  case cpyt => exact execCpyt_keeps _ _ _ _ h
  case trig => exact execTrig_keeps _ _ _ h
  case mma | mmag => exact matrixForm_keeps (fun x => State.mmaRun_keeps _ _ _ _ _ _ _ h) h
  case mmav => exact matrixForm_keeps (fun x => State.mmavRun_keeps _ _ _ _ _ _ h) h
  case msca => exact execMsca_keeps _ _ _ _ h
  case mdrn =>
    exact matrixForm_keeps (fun x => ite_keeps (State.illegal_keeps _ h) (State.drain_keeps _ _ _ _ h)) h
  -- barriers, casks and waits
  case bara => exact convergentForm_keeps (fun t ht => State.atDelivery_keeps (State.bara_keeps _ _ ht) ht) h
  case barm => exact convergentForm_keeps (fun t ht => State.atDelivery_keeps (State.barm_keeps _ _ ht) ht) h
  case barw => exact execBarw_keeps _ _ _ h
  case bbinit => exact execBbinit_keeps _ _ _ h
  case bbexp => exact execBbexp_keeps _ _ _ h
  case bbarr => exact execBbarr_keeps _ _ _ h
  case bbwait => exact execBbwait_keeps _ _ _ h
  case ckinit => exact groupForm_keeps (State.ckinit_keeps _ _ h) h
  case ckres => exact execCkres_keeps _ _ _ _ h
  case ckacq => exact execCkacq_keeps _ _ _ _ h
  case ckpub | ckrel => exact groupForm_keeps (State.withCask_keeps _ _ (fun team k => State.ckMove_keeps _ _ _ _ _ _ h) h) h
  case wait => exact execWait_keeps _ _ _ h
  case fence => exact groupForm_keeps (State.atDelivery_keeps (State.finish_keeps h) h) h
  -- tasks, budgets, reducers and the window base
  case spawn => exact convergentForm_keeps (fun t ht => State.spawn_keeps _ _ _ _ ht) h
  case join => exact execJoin_keeps _ h
  case exit => exact execExit_keeps _ h
  case allocHeap => exact convergentForm_keeps (fun t ht => State.allocHeap_keeps _ _ ht) h
  case allocLog => exact convergentForm_keeps (fun t ht => State.allocLog_keeps _ _ ht) h
  case rdecl => exact convergentFormIf_keeps (fun t ht => State.rdecl_keeps _ _ _ ht) h
  case rview => exact convergentForm_keeps (fun t ht => State.rview_keeps _ _ _ ht) h
  case wbaseImm | wbaseReg => exact convergentForm_keeps (fun t ht => State.setWbase_keeps _ ht) h
  -- traps and prefixes
  case trap => exact execTrap_keeps _ _ h
  case eret => exact execEret_keeps _ h
  case limm => exact execLimm_keeps _ h
  case rep => exact execRep_keeps _ _ _ _ h
  -- events of the device
  case createQueue | destroyQueue | resetQueue | abortQueue | setQuantum | invalidate | pageResponse =>
    exact nextKeeps_next.2 (State.submit_keeps _ h)
  case doorbell | registerWrite => exact nextKeeps_next.2 (State.idle_keeps (State.mmioWrite_keeps _ _ _ h))
  case hostRead | remoteRequestTimeout | powerThrottle => exact nextKeeps_next.2 h
  case linkTraining | attestationRequest | thermalStepChange | droopEvent =>
    exact nextKeeps_next.2 (ite_keeps h h)
  case packetRead => exact nextKeeps_next.2 (State.packetRead_keeps _ h)
  case teamDispatch => exact nextKeeps_next.2 (State.teamDispatch_keeps _ _ h)
  case taskStart => exact nextKeeps_next.2 (State.taskStart_keeps _ h)
  case hostWrite => exact nextKeeps_next.2 (State.idle_keeps (State.outsideWrite_keeps _ _ h))
  case headPublish => exact nextKeeps_next.2 (State.headPublish_keeps _ h)
  case engineArrival => exact nextKeeps_next.2 (State.engineArrival_keeps _ h)
  case joinComplete => exact nextKeeps_next.2 (State.joinComplete_keeps h)
  case tapRebind =>
    exact nextKeeps_next.2 (ite_keeps (State.idle_keeps h) (State.idle_keeps (State.rebind_keeps h)))
  case taskCompletionReport =>
    exact nextKeeps_next.2 (ite_keeps (State.vacate_keeps (State.reportTo_keeps _ h)) (State.idle_keeps h))
  case triggeredOpComplete =>
    refine nextKeeps_next.2 ?_
    split
    · exact State.idle_keeps h
    · exact State.triggered_keeps _ _ h
  case completionSignal =>
    refine nextKeeps_next.2 ?_
    split
    · exact State.completionSignal_keeps _ h
    · exact State.idle_keeps h
  case launchEnd =>
    refine nextKeeps_next.2 ?_
    split
    · exact State.launchEnd_keeps _ h
    · exact State.idle_keeps h
  case taskSteal =>
    refine nextKeeps_next.2 ?_
    split
    · exact State.idle_keeps h
    · split
      · exact State.idle_keeps h
      · exact State.idle_keeps (State.takeEntry_keeps _ _ _ h)
  case timeSlice =>
    refine nextKeeps_next.2 ?_
    split
    · exact State.idle_keeps h
    · exact ite_keeps (State.timeSlice_keeps _ _ _ h) (State.idle_keeps h)
  case racking =>
    refine nextKeeps_next.2 ?_
    split
    · exact State.idle_keeps h
    · exact ite_keeps (State.rack_keeps _ _ _ h) (State.idle_keeps h)
  case restore =>
    refine nextKeeps_next.2 ?_
    split
    · exact State.idle_keeps h
    · exact ite_keeps (State.restore_keeps _ _ _ h) (State.idle_keeps h)
  case engineContextSwitch =>
    refine nextKeeps_next.2 ?_
    split
    · exact State.idle_keeps h
    · exact ite_keeps (State.clusterSwitch_keeps _ _ h) (State.idle_keeps h)
  case pageRequest =>
    refine nextKeeps_next.2 ?_
    split
    · exact State.idle_keeps h
    · exact ite_keeps (State.idle_keeps (State.sendRequest_keeps _ h)) (State.idle_keeps h)
  case rootViewFold =>
    refine nextKeeps_next.2 ?_
    split
    · exact ite_keeps (State.rootFold_keeps _ h) (State.idle_keeps h)
    · exact State.idle_keeps h
  case deferredAddApply =>
    refine nextKeeps_next.2 ?_
    split
    · exact ite_keeps (State.idle_keeps (State.applyAdds_keeps _ h)) (State.idle_keeps h)
    · exact State.idle_keeps h
  case trapEntry => exact execTrapEntry_keeps h
  case grpAbsent => exact execGrpAbsent_keeps h
  case remoteRequest => exact execRemoteRequest_keeps _ _ _ _ h
  case thermalHalt => exact execThermalHalt_keeps h
  case waitSignalTimeout => exact execWaitSignalTimeout_keeps h
  case launchPacket => exact execLaunchPacket_keeps _ h
  case copyPacket => exact execCopyPacket_keeps _ h
  case waitSignalPacket => exact execWaitSignalPacket_keeps _ h
  case setSignalPacket => exact execSetSignalPacket_keeps _ h
  case switchOut => exact execSwitchOut_keeps _ _ h
  case timer => exact execTimer_keeps h
  case alarm => exact execAlarm_keeps h
  case resetBoot => exact execResetBoot_keeps _ _ _ _

/-! ## One step -/

theorem State.ready_keeps {s : State} (t : Turn) (h : s.Records) : (s.ready t).Keeps := by
  unfold State.ready
  split
  case h_1 => exact State.issueTurn_keeps (State.issueSplit_keeps _ _ h) h
  case h_2 => exact State.issueTurn_keeps (State.issueQuadrant_keeps _ _ h) h
  case h_3 =>
    split
    · exact State.focus_keeps _ _ h
    · exact State.idle_keeps h
  case h_4 => exact State.nextCommand_keeps h
  case h_5 => exact State.element_keeps _ _ h
  case h_6 => exact State.idle_keeps (State.elsewhere_keeps _ _ h)
  case h_7 => exact State.idle_keeps (State.upset_keeps _ h)
  case h_8 => exact State.idle_keeps (State.crowd_keeps _ h)
  case h_9 => exact State.idle_keeps (State.swap_keeps _ h)
  case h_10 => exact State.idle_keeps (State.moveImage_keeps _ _ _ h)
  case h_11 => exact State.idle_keeps (State.alter_keeps _ _ h)
  case h_12 => exact State.idle_keeps (State.spoil_keeps _ _ h)

/-- What an issue comes to keeps its records, the instruction behind a LIMM with it. -/
theorem runReady_keeps {r : Ready} (h : r.Keeps) : NextKeeps (runReady r) := by
  cases r with
  | done s => exact nextKeeps_next.2 h
  | run i s =>
    have hi := exec_keeps i (s := s) h
    unfold runReady
    dsimp only
    split
    next t ht =>
      have hp : t.partner.Keeps := State.fetchDecode_keeps _ (hi t ht)
      split
      · split
        next k u hu =>
          rw [hu] at hp
          exact exec_keeps k hp
        next u hu =>
          rw [hu] at hp
          exact nextKeeps_next.2 hp
      · exact nextKeeps_next.2 (hi t ht)
    next ho => exact fun t ht => absurd ht (ho t)

theorem step_keeps {s : State} (h : s.Records) : NextKeeps (step s) := by
  unfold step
  split
  · exact fun t ht => nomatch ht
  · split
    · exact nextKeeps_next.2 h
    · exact runReady_keeps (State.ready_keeps _ h)

/-- Settles O3: the state after reset has its records and strands in their places, and so has what each act of the device, each
instruction and each event leads to. -/
theorem stepKeepsRecords : Obligations.StepKeepsRecords := ⟨reset_records, fun _ t hs ht => step_keeps hs t ht⟩

end Sys2Proof.Machine
end


section

/-!
# Splits park, merge, take the table and are chosen (02 R21, R22, R24, 12 R245)

O37.
-/

namespace Sys2Proof.Machine
open Host

/-! ## Convergent instructions (02 R24) -/

/-- The convergent instructions run one form around their effect; RDECL in a task apart. -/
theorem exec_convergent {s : State} {i : Instr} {q : BitVec 2} {d a b n : BitVec 7} {c : BitVec 4}
    (hi : i ∈ [.wbaseImm q c, .wbaseReg q a, .bara q d n, .barw q a n, .barm q a n, .spawn q d a b, .join q, .allocHeap q d a,
      .allocLog q d a, .rdecl q a n, .rview q d n]) (hk : i = .rdecl q a n → s.cur.kind ≠ .task) :
    (∃ f, exec i s = convergentForm i f s) ∧ i.guardOf = q := by
  simp only [List.mem_cons, List.not_mem_nil, or_false] at hi
  rcases hi with rfl | rfl | rfl | rfl | rfl | rfl | rfl | rfl | rfl | rfl | rfl
  · exact ⟨⟨_, exec_wbaseImm ..⟩, rfl⟩
  · exact ⟨⟨_, exec_wbaseReg ..⟩, rfl⟩
  · exact ⟨⟨_, exec_bara ..⟩, rfl⟩
  · exact ⟨⟨_, exec_barw ..⟩, rfl⟩
  · exact ⟨⟨_, exec_barm ..⟩, rfl⟩
  · exact ⟨⟨_, exec_spawn ..⟩, rfl⟩
  · exact ⟨⟨_, exec_join ..⟩, rfl⟩
  · exact ⟨⟨_, exec_allocHeap ..⟩, rfl⟩
  · exact ⟨⟨_, exec_allocLog ..⟩, rfl⟩
  · exact ⟨⟨_, (exec_rdecl ..).trans (if_neg (by simpa using hk rfl))⟩, rfl⟩
  · exact ⟨⟨_, exec_rview ..⟩, rfl⟩

theorem convergentForm_parks {i : Instr} {f : State → State} {s : State} (h : Runs i s) (hc : ¬s.Converged) :
    convergentForm i f s = .next { s.setSplit { s.sp with st := .parked } with tick := s.tick + 1, limm := none } := by
  have hn : (s.othersParked && s.lowestPc) = false := by
    rw [Bool.and_eq_false_iff, ← Bool.not_eq_true, ← Bool.not_eq_true, ← not_and_or]
    exact hc
  unfold convergentForm
  rw [h.1, hn]
  rfl

/-- The union of masks, lane by lane. -/
theorem getLsbD_foldl_mask (l : List Split) (m : W32) (k : Nat) :
    (l.foldl (fun x p => x ||| p.mask) m).getLsbD k = (m.getLsbD k || l.any (fun p => p.mask.getLsbD k)) := by
  induction l generalizing m with
  | nil => simp
  | cons p l ih => rw [List.foldl_cons, ih, BitVec.getLsbD_or, List.any_cons, Bool.or_assoc]

/-- After merging one split holds the lanes of every split at its PC, and no other is left there. -/
theorem mergeParked_only {s : State} {p : Split} (hp : s.cur.splitAt s.split = some p) :
    ∃ r ∈ s.mergeParked.cur.splits, r.entry = s.mergeParked.split ∧ r.pc = p.pc ∧
      (∀ l, r.mask.getLsbD l = s.cur.splits.any (fun x => x.pc == p.pc && x.mask.getLsbD l)) ∧
      ∀ x ∈ s.mergeParked.cur.splits, x.pc = p.pc → x = r := by
  have hsp := sp_of_splitAt hp
  have hpc : s.sp.pc = p.pc := by rw [hsp]
  refine ⟨_, List.mem_append_right _ (List.mem_singleton_self _), rfl, hpc, fun l => ?_, fun x hx he => ?_⟩
  · rw [getLsbD_foldl_mask, List.any_filter, hsp]
    simp
  · rcases List.mem_append.1 hx with hx | hx
    · have := (List.mem_filter.1 hx).2
      rw [hsp, he] at this
      simp at this
    · exact List.mem_singleton.1 hx

/-! ## What merges before an issue selection (02 R22) -/

/-- Two groups that differ in their tables, stacks and pending reports only. -/
def Group.Retabled (g t : Group) : Prop := t = { g with splits := t.splits, stack := t.stack, pend := t.pend }

theorem Group.Retabled.trans {g t u : Group} (h : g.Retabled t) (k : t.Retabled u) : g.Retabled u := by
  unfold Group.Retabled at *
  rw [k, h]

theorem Group.Retabled.readyAgain {g t : Group} (h : g.Retabled t) (s : State) (p : Split) : s.readyAgain t p = s.readyAgain g p := by
  rw [h]; rfl

/-- Whether a list of splits has a lane at a PC. -/
def laneAt (l : List Split) (pc : W64) (k : Nat) : Prop := ∃ p ∈ l, p.pc = pc ∧ p.mask.getLsbD k = true

theorem laneAt_append (l m : List Split) (pc : W64) (k : Nat) : laneAt (l ++ m) pc k ↔ laneAt l pc k ∨ laneAt m pc k := by
  unfold laneAt
  simp only [List.mem_append, or_and_right, exists_or]

theorem laneAt_singleton (p : Split) (pc : W64) (k : Nat) : laneAt [p] pc k ↔ p.pc = pc ∧ p.mask.getLsbD k = true := by
  simp [laneAt]

/-- Two splits are ready at one PC and, of a repeat, at equal progress. -/
def State.Mates (s : State) (g : Group) (p r : Split) : Prop :=
  s.readyAgain g p = true ∧ s.readyAgain g r = true ∧ p.pc = r.pc ∧ p.rep = r.rep

theorem mergeable_iff {s : State} {g : Group} {q p : Split} : s.mergeable g q p = true ↔ s.Mates g q p := by
  simp [State.mergeable, State.Mates, and_assoc]

theorem State.Mates.trans {s : State} {g : Group} {p q r : Split} (h : s.Mates g p q) (k : s.Mates g q r) : s.Mates g p r :=
  ⟨h.1, k.2.1, h.2.2.1.trans k.2.2.1, h.2.2.2.trans k.2.2.2⟩

theorem State.Mates.symm {s : State} {g : Group} {p q : Split} (h : s.Mates g p q) : s.Mates g q p :=
  ⟨h.2.1, h.1, h.2.2.1.symm, h.2.2.2.symm⟩

/-- A merged split is ready: it keeps a wait only where a member that has come wakes it. -/
theorem readyAgain_join {s : State} {g : Group} {q p : Split} (h : s.Mates g q p) : s.readyAgain g (q.join p) = true := by
  obtain ⟨hq, hp, -, -⟩ := h
  unfold State.readyAgain at hq hp ⊢
  have hst : (q.join p).st = q.st.join p.st := rfl
  rw [hst]
  generalize q.st = a at hq ⊢
  generalize p.st = b at hp ⊢
  generalize hj : a.join b = c
  unfold SplitState.join at hj
  split at hj <;> subst hj
  · simp only [Wait.again, State.wakes, Bool.true_and, List.any_append, Bool.or_eq_true] at hq ⊢
    exact Or.inl hq
  · exact hq
  · exact hp
  · rfl

/-- What merging makes of the splits `ps`: the list `l`. -/
structure State.Merged (s : State) (g : Group) (ps l : List Split) : Prop where
  apart : l.Pairwise (fun p r => ¬s.Mates g p r)
  lanes : ∀ pc k, laneAt l pc k ↔ laneAt ps pc k
  waits : ∀ p ∈ ps, s.readyAgain g p = false → p ∈ l
  into : ∀ p ∈ ps, s.readyAgain g p = true → ∃ r ∈ l, s.Mates g r p ∧ r.entry ≤ p.entry ∧ ∀ k, p.mask.getLsbD k = true → r.mask.getLsbD k = true
  of : ∀ r ∈ l, ∃ p ∈ ps, r.entry = p.entry ∧ r.pc = p.pc ∧ r.rep = p.rep

theorem State.merged_nil (s : State) (g : Group) : s.Merged g [] [] :=
  ⟨.nil, fun _ _ => Iff.rfl, fun _ h => absurd h List.not_mem_nil, fun _ h => absurd h List.not_mem_nil, fun _ h => absurd h List.not_mem_nil⟩

/-- A split that finds no mate is one more of the list. -/
theorem State.Merged.append {s : State} {g : Group} {ps l : List Split} {p : Split} (h : s.Merged g ps l) (hn : ∀ q ∈ l, ¬s.Mates g q p) :
    s.Merged g (ps ++ [p]) (l ++ [p]) := by
  obtain ⟨hapart, hlanes, hwaits, hinto, hof⟩ := h
  have old : ∀ {r}, r ∈ l → r ∈ l ++ [p] := fun h => List.mem_append_left _ h
  have new : p ∈ l ++ [p] := List.mem_append_right _ (List.mem_singleton_self p)
  refine ⟨?_, fun pc k => ?_, fun x hx hr => ?_, fun x hx hr => ?_, fun r hr => ?_⟩
  · refine List.pairwise_append.2 ⟨hapart, List.pairwise_singleton _ _, fun q hq x hx => ?_⟩
    rw [List.mem_singleton.1 hx]
    exact hn q hq
  · rw [laneAt_append, laneAt_append, hlanes]
  · rcases List.mem_append.1 hx with hx | hx
    · exact old (hwaits x hx hr)
    · exact List.mem_singleton.1 hx ▸ new
  · rcases List.mem_append.1 hx with hx | hx
    · obtain ⟨r, hr, hm⟩ := hinto x hx hr
      exact ⟨r, old hr, hm⟩
    · obtain rfl := List.mem_singleton.1 hx
      exact ⟨x, new, ⟨hr, hr, rfl, rfl⟩, Nat.le_refl _, fun _ h => h⟩
  · rcases List.mem_append.1 hr with hr | hr
    · obtain ⟨x, hx, he⟩ := hof r hr
      exact ⟨x, List.mem_append_left _ hx, he⟩
    · exact ⟨p, List.mem_append_right _ (List.mem_singleton_self p), List.mem_singleton.1 hr ▸ ⟨rfl, rfl, rfl⟩⟩

/-- What a split of the list becomes as `p` joins its mates. -/
def State.joinMate (s : State) (g : Group) (p q : Split) : Split := if s.mergeable g q p then q.join p else q

theorem joinMate_of {s : State} {g : Group} {p q : Split} (h : s.Mates g q p) : s.joinMate g p q = q.join p := if_pos (mergeable_iff.2 h)
theorem joinMate_not {s : State} {g : Group} {p q : Split} (h : ¬s.Mates g q p) : s.joinMate g p q = q := if_neg (mt mergeable_iff.1 h)

@[simp] theorem joinMate_pc (s : State) (g : Group) (p q : Split) : (s.joinMate g p q).pc = q.pc := by
  unfold State.joinMate; split <;> rfl
@[simp] theorem joinMate_rep (s : State) (g : Group) (p q : Split) : (s.joinMate g p q).rep = q.rep := by
  unfold State.joinMate; split <;> rfl

theorem joinMate_entry_le (s : State) (g : Group) (p q : Split) : (s.joinMate g p q).entry ≤ q.entry := by
  unfold State.joinMate
  split
  · exact Nat.min_le_left _ _
  · exact Nat.le_refl _

theorem joinMate_lane {s : State} {g : Group} {p q : Split} {k : Nat} (h : q.mask.getLsbD k = true) : (s.joinMate g p q).mask.getLsbD k = true := by
  unfold State.joinMate
  split
  · simp [Split.join, h]
  · exact h

theorem joinMate_ready (s : State) (g : Group) (p q : Split) : s.readyAgain g (s.joinMate g p q) = s.readyAgain g q := by
  by_cases h : s.Mates g q p
  · rw [joinMate_of h, readyAgain_join h, h.1]
  · rw [joinMate_not h]

theorem joinMate_mates {s : State} {g : Group} {p q r : Split} : s.Mates g (s.joinMate g p q) r ↔ s.Mates g q r := by
  unfold State.Mates
  rw [joinMate_ready, joinMate_pc, joinMate_rep]

theorem absorb_mate {s : State} {g : Group} {l : List Split} {p q : Split} (hq : q ∈ l) (h : s.Mates g q p) :
    s.absorb g l p = l.map (s.joinMate g p) := by
  have ha : l.any (fun q => s.mergeable g q p) = true := List.any_eq_true.2 ⟨q, hq, mergeable_iff.2 h⟩
  exact if_pos ha

theorem absorb_alone {s : State} {g : Group} {l : List Split} {p : Split} (h : ∀ q ∈ l, ¬s.Mates g q p) : s.absorb g l p = l ++ [p] :=
  if_neg (fun hc => by
    obtain ⟨q, hq, hm⟩ := List.any_eq_true.1 hc
    exact h q hq (mergeable_iff.1 hm))

/-- A split that finds a mate joins it. -/
theorem State.Merged.join {s : State} {g : Group} {ps l : List Split} {p q : Split} (h : s.Merged g ps l) (hq : q ∈ l) (hm : s.Mates g q p) :
    s.Merged g (ps ++ [p]) (l.map (s.joinMate g p)) := by
  obtain ⟨hapart, hlanes, hwaits, hinto, hof⟩ := h
  refine ⟨?_, fun pc k => ?_, fun x hx hr => ?_, fun x hx hr => ?_, fun r hr => ?_⟩
  · refine List.pairwise_map.2 (hapart.imp (fun {a b} hab hmates => hab ?_))
    exact (joinMate_mates.1 (joinMate_mates.1 hmates).symm).symm
  · rw [laneAt_append, laneAt_singleton, ← hlanes]
    constructor
    · rintro ⟨r, hr, hpc, hk⟩
      obtain ⟨x, hx, rfl⟩ := List.mem_map.1 hr
      rw [joinMate_pc] at hpc
      by_cases hxm : s.Mates g x p
      · rw [joinMate_of hxm] at hk
        have hk : (x.mask ||| p.mask).getLsbD k = true := hk
        rw [BitVec.getLsbD_or, Bool.or_eq_true] at hk
        exact hk.imp (fun hk => ⟨x, hx, hpc, hk⟩) (fun hk => ⟨hxm.2.2.1 ▸ hpc, hk⟩)
      · rw [joinMate_not hxm] at hk
        exact Or.inl ⟨x, hx, hpc, hk⟩
    · rintro (⟨x, hx, hpc, hk⟩ | ⟨hpc, hk⟩)
      · exact ⟨_, List.mem_map_of_mem hx, by rw [joinMate_pc, hpc], joinMate_lane hk⟩
      · refine ⟨_, List.mem_map_of_mem hq, by rw [joinMate_pc, hm.2.2.1, hpc], ?_⟩
        rw [joinMate_of hm]
        simp [Split.join, hk]
  · rcases List.mem_append.1 hx with hx | hx
    · refine List.mem_map.2 ⟨x, hwaits x hx hr, joinMate_not (fun hxm => ?_)⟩
      exact Bool.noConfusion (hr.symm.trans hxm.1)
    · rw [List.mem_singleton.1 hx, hm.2.1] at hr
      exact Bool.noConfusion hr
  · rcases List.mem_append.1 hx with hx | hx
    · obtain ⟨r, hr, hrm, hle, hk⟩ := hinto x hx hr
      exact ⟨_, List.mem_map_of_mem hr, joinMate_mates.2 hrm, (joinMate_entry_le ..).trans hle, fun k h => joinMate_lane (hk k h)⟩
    · obtain rfl := List.mem_singleton.1 hx
      refine ⟨_, List.mem_map_of_mem hq, joinMate_mates.2 hm, ?_, fun k h => ?_⟩
      · rw [joinMate_of hm]; exact Nat.min_le_right _ _
      · rw [joinMate_of hm]; simp [Split.join, h]
  · obtain ⟨x, hx, rfl⟩ := List.mem_map.1 hr
    obtain ⟨y, hy, he, hpc, hrep⟩ := hof x hx
    rw [joinMate_pc, joinMate_rep]
    by_cases hxm : s.Mates g x p
    · rw [joinMate_of hxm]
      rcases Nat.le_total x.entry p.entry with hle | hle
      · exact ⟨y, List.mem_append_left _ hy, (Nat.min_eq_left hle).trans he, hpc, hrep⟩
      · exact ⟨p, List.mem_append_right _ (List.mem_singleton_self p), Nat.min_eq_right hle, hxm.2.2⟩
    · rw [joinMate_not hxm]
      exact ⟨y, List.mem_append_left _ hy, he, hpc, hrep⟩

theorem State.Merged.absorb {s : State} {g : Group} {ps l : List Split} (h : s.Merged g ps l) (p : Split) :
    s.Merged g (ps ++ [p]) (s.absorb g l p) := by
  by_cases hm : ∃ q ∈ l, s.Mates g q p
  · obtain ⟨q, hq, hm⟩ := hm
    rw [absorb_mate hq hm]
    exact h.join hq hm
  · have hn : ∀ q ∈ l, ¬s.Mates g q p := fun q hq hqm => hm ⟨q, hq, hqm⟩
    rw [absorb_alone hn]
    exact h.append hn

theorem State.Merged.foldl {s : State} {g : Group} (qs : List Split) {ps l : List Split} (h : s.Merged g ps l) :
    s.Merged g (ps ++ qs) (qs.foldl (s.absorb g) l) := by
  induction qs generalizing ps l with
  | nil => simpa using h
  | cons q qs ih => simpa using ih (h.absorb q)

theorem State.merge_merged (s : State) (g : Group) : s.Merged g g.splits (s.merge g).splits := (s.merged_nil g).foldl g.splits

theorem State.merge_retabled (s : State) (g : Group) : g.Retabled (s.merge g) := rfl

/-! ## Which stacked paths enter the table (02 R21) -/

/-- What settling makes of a group: the group `t`. -/
structure State.Settled (s : State) (g t : Group) : Prop where
  rest : g.Retabled t
  stack : ∃ l, g.stack = l ++ t.stack
  full : t.stack = [] ∨ 4 ≤ t.splits.length
  apart : t.splits.Pairwise (fun p r => ¬s.Mates g p r)
  lanes : ∀ pc k, (laneAt t.splits pc k ∨ ∃ p ∈ t.stack, p.pc = pc ∧ p.mask.getLsbD k = true) ↔
    (laneAt g.splits pc k ∨ ∃ p ∈ g.stack, p.pc = pc ∧ p.mask.getLsbD k = true)
  waits : ∀ p ∈ g.splits, s.readyAgain g p = false → p ∈ t.splits
  into : ∀ p ∈ g.splits, s.readyAgain g p = true →
    ∃ r ∈ t.splits, s.Mates g r p ∧ r.entry ≤ p.entry ∧ ∀ k, p.mask.getLsbD k = true → r.mask.getLsbD k = true
  of : g.stack = [] → ∀ r ∈ t.splits, ∃ p ∈ g.splits, r.entry = p.entry ∧ r.pc = p.pc ∧ r.rep = p.rep

/-- Merging alone settles a group whose table is full or whose stack is empty. -/
theorem State.merge_settled {s : State} {g : Group} (h : g.stack = [] ∨ 4 ≤ (s.merge g).splits.length) : s.Settled g (s.merge g) :=
  have m := s.merge_merged g
  ⟨s.merge_retabled g, ⟨[], rfl⟩, h, m.apart, fun pc k => or_congr_left (m.lanes pc k), m.waits, m.into, fun _ => m.of⟩

/-- The split a stacked path becomes in a table. -/
def Group.placed (g : Group) (top : Path) : Split := ⟨freeEntry g.splits, top.pc, top.mask, .ready, none, false, 0, g.born, false⟩

theorem popPath_cons {g : Group} {top : Path} {rest : List Path} (h : g.stack = top :: rest) (hr : g.splits.length < 4) :
    g.popPath = { g with splits := g.splits ++ [g.placed top], stack := rest } := by
  unfold Group.popPath
  rw [h]
  exact if_pos hr

/-- A path popped between two merges. -/
theorem State.Settled.pop {s : State} {g t : Group} {top : Path} {rest : List Path} (hs : g.stack = top :: rest)
    (hr : (s.merge g).splits.length < 4) (h : s.Settled (s.merge g).popPath t) : s.Settled g t := by
  have m := s.merge_merged g
  have he := popPath_cons (g := s.merge g) hs hr
  have hre : g.Retabled (s.merge g).popPath := by rw [he]; rfl
  have hmates : ∀ p r, s.Mates (s.merge g).popPath p r ↔ s.Mates g p r := fun p r => by
    unfold State.Mates; rw [hre.readyAgain, hre.readyAgain]
  have hsplits : (s.merge g).popPath.splits = (s.merge g).splits ++ [(s.merge g).placed top] := by rw [he]
  have hstack : (s.merge g).popPath.stack = rest := by rw [he]
  obtain ⟨hrest, ⟨l, hl⟩, hfull, hapart, hlanes, hwaits, hinto, -⟩ := h
  have hin : ∀ {p}, p ∈ (s.merge g).splits → p ∈ (s.merge g).popPath.splits := fun hp => hsplits ▸ List.mem_append_left _ hp
  refine ⟨hre.trans hrest, ⟨top :: l, by rw [hs, ← hstack, hl]; rfl⟩, hfull, ?_, fun pc k => ?_, fun p hp hw => ?_, fun p hp hw => ?_, fun h0 => ?_⟩
  · exact hapart.imp (fun {a b} hab hm => hab ((hmates a b).2 hm))
  · rw [hlanes, hsplits, hstack, hs, laneAt_append, laneAt_singleton, m.lanes, or_assoc]
    refine or_congr_right ?_
    simp [Group.placed]
  · exact hwaits p (hin (m.waits p hp hw)) ((hre.readyAgain s p).trans hw)
  · obtain ⟨r, hr, hrm, hle, hk⟩ := m.into p hp hw
    obtain ⟨x, hx, hxm, hxle, hxk⟩ := hinto r (hin hr) ((hre.readyAgain s r).trans hrm.1)
    exact ⟨x, hx, ((hmates x r).1 hxm).trans hrm, hxle.trans hle, fun k h => hxk k (hk k h)⟩
  · rw [hs] at h0; cases h0

theorem State.settleGo_settled {s : State} {n : Nat} {g : Group} (hn : g.stack.length < n) : s.Settled g (s.settleGo n g) := by
  induction n generalizing g with
  | zero => exact absurd hn (Nat.not_lt_zero _)
  | succ n ih =>
    unfold State.settleGo
    dsimp only
    split
    next h =>
      rw [Bool.or_eq_true, List.isEmpty_iff, decide_eq_true_iff] at h
      exact State.merge_settled h
    next h =>
      rw [Bool.or_eq_true, List.isEmpty_iff, decide_eq_true_iff, not_or, Nat.not_le] at h
      obtain ⟨hs, hr⟩ := h
      obtain ⟨top, rest, hs⟩ := List.exists_cons_of_ne_nil hs
      refine State.Settled.pop hs hr (ih ?_)
      rw [popPath_cons hs hr]
      have hs' : g.stack = top :: rest := hs
      rw [hs', List.length_cons] at hn
      exact Nat.lt_of_succ_lt_succ hn

theorem State.settle_settled {s : State} {g : Group} (hh : g.handler = none) (hr : g.region = none) (hl : g.stack.length ≤ 16) :
    s.Settled g (s.settle g) := by
  have hc : ¬(g.handler.isSome || g.region.isSome) = true := by rw [hh, hr]; exact Bool.false_ne_true
  rw [State.settle, if_neg hc]
  exact s.settleGo_settled (Nat.lt_succ_of_le hl)

theorem settle_held {s : State} {g : Group} (h : g.handler ≠ none ∨ g.region ≠ none) : s.settle g = g := by
  refine if_pos ?_
  rw [Bool.or_eq_true, Option.isSome_iff_ne_none, Option.isSome_iff_ne_none]
  exact h

/-- No lane of one mask is missing from another. -/
theorem and_not_eq_zero {p r : W32} (h : ∀ k, p.getLsbD k = true → r.getLsbD k = true) : p &&& ~~~r = 0#32 := by
  refine BitVec.eq_of_getLsbD_eq (fun k hk => ?_)
  have := h k
  rw [BitVec.getLsbD_and, BitVec.getLsbD_not, BitVec.getLsbD_zero]
  cases hp : p.getLsbD k
  · rfl
  · rw [this hp]; simp

/-! ## The choice of a quadrant (12 R245) -/

/-- What `bestOf` finds is in the list and nothing in it is better. -/
theorem bestOf_eq_some {α : Type} {better : α → α → Bool} (hasymm : ∀ x y, better x y = true → better y x = false)
    (htrans : ∀ x y z, better y x = false → better z y = false → better z x = false) {l : List α} {x : α} (h : bestOf better l = some x) :
    x ∈ l ∧ ∀ y ∈ l, better y x = false := by
  have hrefl : ∀ x, better x x = false := fun x => by
    by_contra hx
    rw [Bool.not_eq_false] at hx
    exact Bool.noConfusion ((hasymm x x hx).symm.trans hx)
  induction l generalizing x with
  | nil => cases h
  | cons a l ih =>
    unfold bestOf at h
    split at h
    next hn =>
      cases h
      have hl : l = [] := by
        cases l with
        | nil => rfl
        | cons b l =>
          unfold bestOf at hn
          split at hn
          · cases hn
          · split at hn <;> cases hn
      subst hl
      exact ⟨List.mem_singleton_self _, fun y hy => List.mem_singleton.1 hy ▸ hrefl _⟩
    next y hy =>
      obtain ⟨hyl, hbest⟩ := ih hy
      split at h
      next hb =>
        cases h
        refine ⟨List.mem_cons_of_mem _ hyl, fun z hz => ?_⟩
        rcases List.mem_cons.1 hz with rfl | hz
        · exact hasymm _ _ hb
        · exact hbest z hz
      next hb =>
        cases h
        refine ⟨List.mem_cons_self, fun z hz => ?_⟩
        rcases List.mem_cons.1 hz with rfl | hz
        · exact hrefl _
        · exact htrans _ _ _ (Bool.eq_false_iff.2 hb) (hbest z hz)

theorem bestOf_eq_none {α : Type} {better : α → α → Bool} {l : List α} : bestOf better l = none ↔ l = [] := by
  cases l with
  | nil => exact ⟨fun _ => rfl, fun _ => rfl⟩
  | cons a l =>
    refine ⟨fun h => ?_, fun h => nomatch h⟩
    unfold bestOf at h
    split at h
    · cases h
    · split at h <;> cases h

/-- Passed over longer, else the lower slot, else the lower entry. -/
def longerPassed (y x : Group × Split) : Bool :=
  decide (x.2.passed < y.2.passed) || (x.2.passed == y.2.passed &&
    (decide (y.1.slot < x.1.slot) || (y.1.slot == x.1.slot && decide (y.2.entry < x.2.entry))))
/-- Older, else the lower entry. -/
def olderSplit (y x : Group × Split) : Bool := decide (y.2.age < x.2.age) || (y.2.age == x.2.age && decide (y.2.entry < x.2.entry))

theorem longerPassed_eq_false {y x : Group × Split} : longerPassed y x = false ↔ y.2.passed ≤ x.2.passed ∧
    (y.2.passed = x.2.passed → x.1.slot ≤ y.1.slot ∧ (y.1.slot = x.1.slot → x.2.entry ≤ y.2.entry)) := by
  simp only [longerPassed, Bool.or_eq_false_iff, Bool.and_eq_false_iff, decide_eq_false_iff_not, beq_eq_false_iff_ne, ne_eq]
  omega

theorem olderSplit_eq_false {y x : Group × Split} : olderSplit y x = false ↔
    x.2.age ≤ y.2.age ∧ (y.2.age = x.2.age → x.2.entry ≤ y.2.entry) := by
  simp only [olderSplit, Bool.or_eq_false_iff, Bool.and_eq_false_iff, decide_eq_false_iff_not, beq_eq_false_iff_ne, ne_eq]
  omega

theorem longerPassed_best {l : List (Group × Split)} {x : Group × Split} (h : bestOf longerPassed l = some x) :
    x ∈ l ∧ ∀ y ∈ l, longerPassed y x = false := by
  refine bestOf_eq_some (fun x y hxy => ?_) (fun x y z hyx hzy => ?_) h
  · rw [longerPassed_eq_false]
    simp only [longerPassed, Bool.or_eq_true, Bool.and_eq_true, decide_eq_true_eq, beq_iff_eq] at hxy
    omega
  · rw [longerPassed_eq_false] at *
    omega

theorem olderSplit_best {l : List (Group × Split)} {x : Group × Split} (h : bestOf olderSplit l = some x) :
    x ∈ l ∧ ∀ y ∈ l, olderSplit y x = false := by
  refine bestOf_eq_some (fun x y hxy => ?_) (fun x y z hyx hzy => ?_) h
  · rw [olderSplit_eq_false]
    simp only [olderSplit, Bool.or_eq_true, Bool.and_eq_true, decide_eq_true_eq, beq_iff_eq] at hxy
    omega
  · rw [olderSplit_eq_false] at *
    omega

/-- The launch priority of a split. -/
def State.prioOf (s : State) (x : Group × Split) : Nat := ((look s.jobs x.1.job).getD Job.blank).prio
/-- The best launch priority in a quadrant. -/
def State.bestPrio (s : State) (core quad : Nat) : Nat := (s.quadrantSplits core quad).foldl (fun m x => min m (s.prioOf x)) 8
/-- The splits of a quadrant passed over 64 times or more. -/
def State.starved (s : State) (core quad : Nat) : List (Group × Split) := (s.quadrantSplits core quad).filter (fun x => decide (64 ≤ x.2.passed))
/-- The splits of a quadrant of the best launch priority. -/
def State.topSplits (s : State) (core quad : Nat) : List (Group × Split) :=
  (s.quadrantSplits core quad).filter (fun x => s.prioOf x == s.bestPrio core quad)
/-- The split of the best launch priority that the quadrant issued last. -/
def State.lastTop (s : State) (core quad : Nat) : Option (Group × Split) :=
  (look s.lastIssue (4 * core + quad)).bind (fun p => (s.topSplits core quad).find? (fun x => x.1.gid == p.1 && x.2.greedy))

theorem quadrantPick_eq (s : State) (core quad : Nat) : s.quadrantPick core quad =
    ((bestOf longerPassed (s.starved core quad)).or (s.lastTop core quad)).or (bestOf olderSplit (s.topSplits core quad)) := by
  unfold State.quadrantPick
  change (match bestOf longerPassed (s.starved core quad) with
    | some x => some x
    | none => match s.lastTop core quad with
      | some x => some x
      | none => bestOf olderSplit (s.topSplits core quad)) = _
  cases bestOf longerPassed (s.starved core quad) <;> cases s.lastTop core quad <;> rfl

theorem mem_starved {s : State} {core quad : Nat} {x : Group × Split} :
    x ∈ s.starved core quad ↔ x ∈ s.quadrantSplits core quad ∧ 64 ≤ x.2.passed := by
  unfold State.starved
  rw [List.mem_filter, decide_eq_true_iff]

theorem mem_topSplits {s : State} {core quad : Nat} {x : Group × Split} :
    x ∈ s.topSplits core quad ↔ x ∈ s.quadrantSplits core quad ∧ s.prioOf x = s.bestPrio core quad := by
  unfold State.topSplits
  rw [List.mem_filter, beq_iff_eq]

theorem mem_quadrantSplits {s : State} {core quad : Nat} {x : Group × Split} : x ∈ s.quadrantSplits core quad ↔
    x.1 ∈ s.allGroups ∧ (x.1.kind = .root ∨ x.1.kind = .task) ∧ x.1.core = core ∧ x.1.slot % 4 = quad ∧ x.2 ∈ s.canIssue x.1 := by
  obtain ⟨g, p⟩ := x
  unfold State.quadrantSplits
  simp only [List.mem_flatMap, List.mem_filter, List.mem_map, Prod.mk.injEq, Group.inQuadrant, Bool.and_eq_true, Bool.or_eq_true, beq_iff_eq]
  constructor
  · rintro ⟨g', ⟨hg, ⟨hk, hc⟩, hq⟩, p', hp, rfl, rfl⟩
    exact ⟨hg, hk, hc, hq, hp⟩
  · rintro ⟨hg, hk, hc, hq, hp⟩
    exact ⟨g, ⟨hg, ⟨hk, hc⟩, hq⟩, p, hp, rfl, rfl⟩

theorem foldl_min_le {α : Type} (f : α → Nat) (l : List α) (m : Nat) :
    l.foldl (fun m x => min m (f x)) m ≤ m ∧ ∀ x ∈ l, l.foldl (fun m x => min m (f x)) m ≤ f x := by
  induction l generalizing m with
  | nil => exact ⟨Nat.le_refl _, fun _ h => absurd h List.not_mem_nil⟩
  | cons a l ih =>
    obtain ⟨h1, h2⟩ := ih (min m (f a))
    refine ⟨h1.trans (Nat.min_le_left _ _), fun x hx => ?_⟩
    rcases List.mem_cons.1 hx with rfl | hx
    · exact h1.trans (Nat.min_le_right _ _)
    · exact h2 x hx

theorem foldl_min_attained {α : Type} (f : α → Nat) (l : List α) (m : Nat) :
    l.foldl (fun m x => min m (f x)) m = m ∨ ∃ x ∈ l, f x = l.foldl (fun m x => min m (f x)) m := by
  induction l generalizing m with
  | nil => exact Or.inl rfl
  | cons a l ih =>
    rw [List.foldl_cons]
    rcases ih (min m (f a)) with h | ⟨x, hx, h⟩
    · rcases Nat.le_total m (f a) with hm | hm
      · exact Or.inl (h.trans (Nat.min_eq_left hm))
      · exact Or.inr ⟨a, List.mem_cons_self, by rw [h, Nat.min_eq_right hm]⟩
    · exact Or.inr ⟨x, List.mem_cons_of_mem _ hx, h⟩

theorem bestPrio_le {s : State} {core quad : Nat} {x : Group × Split} (h : x ∈ s.quadrantSplits core quad) :
    s.bestPrio core quad ≤ s.prioOf x := (foldl_min_le s.prioOf _ 8).2 x h

/-- Where no priority is above 8, some split has the best one. -/
theorem topSplits_eq_nil {s : State} {core quad : Nat} (h8 : ∀ x ∈ s.quadrantSplits core quad, s.prioOf x ≤ 8) :
    s.topSplits core quad = [] ↔ s.quadrantSplits core quad = [] := by
  refine ⟨fun h => ?_, fun h => by unfold State.topSplits; rw [h]; rfl⟩
  by_contra hne
  obtain ⟨y, hy⟩ := List.exists_mem_of_ne_nil _ hne
  have hnone : ∀ x, x ∉ s.topSplits core quad := fun x => h ▸ List.not_mem_nil
  rcases foldl_min_attained s.prioOf (s.quadrantSplits core quad) 8 with he | ⟨x, hx, he⟩
  · have hb : s.bestPrio core quad = 8 := he
    exact hnone y (mem_topSplits.2 ⟨hy, Nat.le_antisymm (hb ▸ h8 y hy) (bestPrio_le hy)⟩)
  · exact hnone x (mem_topSplits.2 ⟨hx, he⟩)

theorem lastTop_eq_some {s : State} {core quad : Nat} {x : Group × Split} (h : s.lastTop core quad = some x) :
    x ∈ s.topSplits core quad ∧ x.2.greedy = true ∧ (look s.lastIssue (4 * core + quad)).any (fun p => p.1 == x.1.gid) = true := by
  unfold State.lastTop at h
  obtain ⟨p, hp, hf⟩ := Option.bind_eq_some_iff.1 h
  have hx := List.find?_some hf
  rw [Bool.and_eq_true, beq_iff_eq] at hx
  refine ⟨List.mem_of_find?_eq_some hf, hx.2, ?_⟩
  rw [hp, hx.1]
  exact beq_self_eq_true _

theorem lastTop_eq_none {s : State} {core quad : Nat} (h : s.lastTop core quad = none) {x : Group × Split} (hx : x ∈ s.topSplits core quad)
    (hg : x.2.greedy = true) : (look s.lastIssue (4 * core + quad)).any (fun p => p.1 == x.1.gid) = false := by
  unfold State.lastTop at h
  cases hp : look s.lastIssue (4 * core + quad) with
  | none => rfl
  | some p =>
    rw [hp] at h
    have := List.find?_eq_none.1 h x hx
    rw [hg, Bool.and_true, beq_iff_eq] at this
    exact beq_eq_false_iff_ne.2 (Ne.symm this)

theorem quadrantPick_eq_none {s : State} {core quad : Nat} (h8 : ∀ x ∈ s.quadrantSplits core quad, s.prioOf x ≤ 8) :
    s.quadrantPick core quad = none ↔ s.quadrantSplits core quad = [] := by
  rw [quadrantPick_eq, Option.or_eq_none_iff, Option.or_eq_none_iff, bestOf_eq_none, bestOf_eq_none, topSplits_eq_nil h8]
  refine ⟨fun h => h.2, fun h => ⟨⟨by unfold State.starved; rw [h]; rfl, ?_⟩, h⟩⟩
  cases hl : s.lastTop core quad with
  | none => rfl
  | some x => exact absurd ((lastTop_eq_some hl).1) ((topSplits_eq_nil h8).2 h ▸ List.not_mem_nil)

/-- The choice: the longest starved split, else the one issued last of the best priority, else the oldest of it. -/
theorem quadrantPick_cases {s : State} {core quad : Nat} {x : Group × Split} (h : s.quadrantPick core quad = some x) :
    (x ∈ s.starved core quad ∧ ∀ y ∈ s.starved core quad, longerPassed y x = false) ∨
    (s.starved core quad = [] ∧ x ∈ s.topSplits core quad ∧ (s.lastTop core quad = some x ∨
      s.lastTop core quad = none ∧ ∀ y ∈ s.topSplits core quad, olderSplit y x = false)) := by
  rw [quadrantPick_eq] at h
  cases hb : bestOf longerPassed (s.starved core quad) with
  | some y =>
    rw [hb] at h
    cases h
    exact Or.inl (longerPassed_best hb)
  | none =>
    rw [hb] at h
    refine Or.inr ⟨bestOf_eq_none.1 hb, ?_⟩
    cases hl : s.lastTop core quad with
    | some y =>
      rw [hl] at h
      cases h
      exact ⟨(lastTop_eq_some hl).1, Or.inl rfl⟩
    | none =>
      rw [hl] at h
      obtain ⟨hx, hy⟩ := olderSplit_best h
      exact ⟨hx, Or.inr ⟨rfl, hy⟩⟩

/-- Settles O37: a convergent form parks or runs on the merged split, settling is a run of merges and pops, and a quadrant chooses in the
order of its three tests. -/
theorem convergentParks : Obligations.ConvergentParks := by
  unfold Obligations.ConvergentParks
  intro s i q d a b n c
  refine ⟨fun hi hk hrun => ?_, fun g => ⟨settle_held, fun hh hr hl => ?_⟩, fun core quad => ?_⟩
  · obtain ⟨⟨f, hf⟩, hq⟩ := exec_convergent hi hk
    refine ⟨fun hc => hf.trans (convergentForm_parks hrun hc), fun hc hg => ⟨s.mergeParked.finish, ?_, movedFrom_finish rfl rfl rfl rfl⟩,
      fun p hp => mergeParked_only hp⟩
    rw [hf, convergentForm_run hrun hc, hq, hg]
    rfl
  · obtain ⟨hrest, hstack, hfull, hapart, hlanes, hwaits, hinto, hof⟩ := s.settle_settled hh hr hl
    refine ⟨hrest, hstack, hfull, hapart, hlanes, fun p hp => ⟨hwaits p hp, fun hw => ?_⟩, hof⟩
    obtain ⟨r, hr, ⟨hready, -, hpc, hrep⟩, hle, hk⟩ := hinto p hp hw
    exact ⟨r, hr, hready, hpc, hrep, hle, and_not_eq_zero hk⟩
  · refine ⟨fun x => mem_quadrantSplits, fun h8 => ⟨quadrantPick_eq_none h8, fun x hx => ?_⟩⟩
    rcases quadrantPick_cases hx with ⟨hmem, hbest⟩ | ⟨hnone, hmem, hlast⟩
    · obtain ⟨hl, h64⟩ := mem_starved.1 hmem
      refine ⟨hl, fun _ => ⟨h64, fun y hy => ?_⟩, fun hless => absurd h64 (Nat.not_le.2 (hless x hl))⟩
      by_cases hy64 : 64 ≤ y.2.passed
      · exact longerPassed_eq_false.1 (hbest y (mem_starved.2 ⟨hy, hy64⟩))
      · omega
    · obtain ⟨hl, hp⟩ := mem_topSplits.1 hmem
      refine ⟨hl, fun ⟨y, hy, hy64⟩ => absurd (mem_starved.2 ⟨hy, hy64⟩) (hnone ▸ List.not_mem_nil), fun _ => ⟨fun y hy => ?_, ?_, ?_⟩⟩
      · exact hp.le.trans (bestPrio_le hy)
      · rintro ⟨y, hy, hyp, hyg, hyl⟩
        rcases hlast with hlast | ⟨hlast, -⟩
        · exact (lastTop_eq_some hlast).2
        · exact Bool.noConfusion ((lastTop_eq_none hlast (mem_topSplits.2 ⟨hy, hyp.trans hp⟩) hyg).symm.trans hyl)
      · intro hall y hy hyp
        rcases hlast with hlast | ⟨-, hold⟩
        · obtain ⟨-, hg, ha⟩ := lastTop_eq_some hlast
          rcases hall x hl rfl with h | h
          · exact Bool.noConfusion (h.symm.trans hg)
          · exact Bool.noConfusion (h.symm.trans ha)
        · exact olderSplit_eq_false.1 (hold y (mem_topSplits.2 ⟨hy, hyp.trans hp⟩))

end Sys2Proof.Machine
end

section

/-!
# EXIT ends its split, and with the last split its group (02 R34, 12 R246, 19 R335)

O47.
-/

namespace Sys2Proof.Machine
open Host

theorem exec_exit_run {s : State} {q : BitVec 2} (h : Runs (.exit q) s) (hg : s.gpGuard q = true) : exec (.exit q) s = .next s.exit := by
  rw [exec_exit, execExit, groupForm_run h]
  exact congrArg Outcome.next (if_pos hg)

theorem lastSplit_iff {s : State} : s.lastSplit = true ↔ s.cur.splits.length ≤ 1 ∧ s.cur.stack = [] := by
  unfold State.lastSplit
  rw [Bool.and_eq_true, decide_eq_true_iff, List.isEmpty_iff]

theorem leaveHandler_none {s : State} (h : s.cur.handler = none) : s.leaveHandler = s := by
  unfold State.leaveHandler
  rw [h]

theorem leaveHandler_some {s : State} {k slot : Nat} (h : s.cur.handler = some (k, slot)) : s.leaveHandler =
    (s.putJob { s.job with slots := s.job.slots.erase slot }).setCur { s.cur with trapinfo := 0, handler := none, held := [] } := by
  unfold State.leaveHandler
  rw [h]

/-! ## A split that is not the last -/

/-- What EXIT makes of the group in focus before a stacked path takes an entry. -/
def State.splitEnded (s : State) : Group :=
  { s.cur with
    splits := s.cur.splits.filter (fun x => x.entry != s.split)
    repc := if s.sp.fresh then repcDone s.cur.repc else s.cur.repc
    pend := s.cur.pend.map (Pend.orphan s.split) }

/-- Other splits of a table see nothing of a split put in its place. -/
theorem putSplit_dropSplit (g : Group) (p : Split) : (g.putSplit p).dropSplit p.entry = g.dropSplit p.entry := by
  have h : ∀ l : List Split, (l.map (fun x => if x.entry = p.entry then p else x)).filter (fun x => x.entry != p.entry) =
      l.filter (fun x => x.entry != p.entry) := by
    intro l
    induction l with
    | nil => rfl
    | cons x l ih => by_cases hx : x.entry = p.entry <;> simp [hx, ih]
  exact congrArg (fun l => { g with splits := l }) (h g.splits)

/-- What consuming ctl.repc leaves of the group in focus, its split in focus apart. -/
theorem consume_eq (s : State) : ∃ g, s.consume = s.setCur g ∧ g.handler = s.cur.handler ∧
    { g.dropSplit s.split with pend := g.pend.map (Pend.orphan s.split) } = s.splitEnded := by
  unfold State.splitEnded State.consume
  split
  next h =>
    refine ⟨_, rfl, rfl, ?_⟩
    have := putSplit_dropSplit s.cur { s.sp with fresh := false }
    rw [show ({ s.sp with fresh := false } : Split).entry = s.split from sp_entry s] at this
    exact congrArg (fun g : Group => { g with repc := repcDone s.cur.repc, pend := s.cur.pend.map (Pend.orphan s.split) }) this
  next h => exact ⟨s.cur, rfl, rfl, rfl⟩

theorem exit_split {s : State} (h : s.lastSplit = false) (hh : s.cur.handler = none) :
    s.exit = { s with cur := s.splitEnded.popPath, tick := s.tick + 1, limm := none } := by
  obtain ⟨g, hg, hgh, he⟩ := consume_eq s
  unfold State.exit
  rw [h, if_neg Bool.false_ne_true, hg, leaveHandler_none (hgh.trans hh), ← he]
  rfl

theorem setCur_setCur (s : State) (g h : Group) : (s.setCur g).setCur h = s.setCur h := rfl

theorem setCur_putJob (s : State) (g : Group) (J : Job) : (s.setCur g).putJob J = (s.putJob J).setCur g := rfl

theorem putJob_setCur_ticked (s : State) (g : Group) (J : Job) (n : Nat) : { (s.putJob J).setCur g with tick := n, limm := none } =
    { s with cur := g, jobs := put s.jobs J.id J, tick := n, limm := none } := rfl

/-- A split leaves the table the same before and after its group leaves the handler. -/
theorem dropSplit_left (g : Group) (e : Nat) :
    ({ ({ g with trapinfo := 0, handler := none, held := [] } : Group).dropSplit e with pend := g.pend.map (Pend.orphan e) } : Group) =
      { { g.dropSplit e with pend := g.pend.map (Pend.orphan e) } with trapinfo := 0, handler := none, held := [] } := rfl

theorem exit_handlerSplit {s : State} {k slot : Nat} (h : s.lastSplit = false) (hh : s.cur.handler = some (k, slot)) :
    s.exit = { s with
      cur := ({ s.splitEnded with trapinfo := 0, handler := none, held := [] } : Group).popPath
      jobs := put s.jobs s.job.id { s.job with slots := s.job.slots.erase slot }, tick := s.tick + 1, limm := none } := by
  obtain ⟨g, hg, hgh, he⟩ := consume_eq s
  have hj : (s.setCur g).job = s.job := by
    have : s.consume.job = s.job := by unfold State.consume; split <;> rfl
    rw [← hg, this]
  unfold State.exit
  rw [h, if_neg Bool.false_ne_true, hg, leaveHandler_some (s := s.setCur g) (hgh.trans hh), hj, ← he]
  dsimp only
  rw [setCur_putJob, setCur_setCur, setCur_setCur, putJob_setCur_ticked]
  exact congrArg (fun x : Group => { s with
    cur := x.popPath, jobs := put s.jobs s.job.id { s.job with slots := s.job.slots.erase slot }, tick := s.tick + 1, limm := none })
    (dropSplit_left g s.split)

/-- A table that is full, or no stacked path: nothing is popped. -/
theorem popPath_stays {g : Group} (h : g.stack = [] ∨ 4 ≤ g.splits.length) : g.popPath = g := by
  unfold Group.popPath
  split
  · rfl
  next hs =>
    rw [hs] at h
    exact if_neg (Nat.not_lt.2 (h.resolve_left (List.cons_ne_nil _ _)))

theorem popPath_retabled (g : Group) : g.popPath = { g with splits := g.popPath.splits, stack := g.popPath.stack } := by
  unfold Group.popPath
  split
  · rfl
  · split <;> rfl

theorem pop_popped {g : Group} {top : Path} {rest : List Path} (h : g.stack = top :: rest) (hr : g.splits.length < 4) :
    g.popPath.splits = g.splits ++ [g.placed top] ∧ g.popPath.stack = rest := by
  rw [popPath_cons h hr]
  exact ⟨rfl, rfl⟩

/-! ## The last split -/

theorem exit_last {s : State} (h : s.lastSplit = true) (hc : s.cur.children = 0) (hs : s.cur.spawned = 0) :
    s.exit = s.leaveHandler.atDelivery (fun _ => s.exitLast) := by
  unfold State.exit
  rw [h, if_pos rfl, if_pos ⟨hc, hs⟩]

/-- Without a handler, a race or a lane report the last split ends its group. -/
theorem exit_endGroup {s : State} (h : s.lastSplit = true) (hc : s.cur.children = 0) (hs : s.cur.spawned = 0) (hr : s.raceDue = none)
    (hh : s.cur.handler = none) (hl : s.cur.laneOwed = none) : s.exit = s.endGroup := by
  rw [exit_last h hc hs, leaveHandler_none hh, atDelivery_none hr, State.exitLast, leaveHandler_none hh, hl]

/-- EXIT of the last split of a handler is EXIT after it has left the handler. -/
theorem exec_exit_leaveHandler {s : State} {q : BitVec 2} {k slot : Nat} (h : Runs (.exit q) s) (hg : s.gpGuard q = true)
    (hh : s.cur.handler = some (k, slot)) (hl : s.lastSplit = true) (hc : s.cur.children = 0) (hs : s.cur.spawned = 0) :
    exec (.exit q) s = exec (.exit q) s.leaveHandler := by
  have hnone : s.leaveHandler.cur.handler = none := by rw [leaveHandler_some hh]; rfl
  have hlast : s.leaveHandler.lastSplit = true := by rw [leaveHandler_some hh]; exact hl
  have hc' : s.leaveHandler.cur.children = 0 := by rw [leaveHandler_some hh]; exact hc
  have hs' : s.leaveHandler.cur.spawned = 0 := by rw [leaveHandler_some hh]; exact hs
  have hg' : s.leaveHandler.gpGuard q = true := by rw [leaveHandler_some hh]; exact hg
  have hrun : Runs (.exit q) s.leaveHandler := by
    obtain ⟨ha, hw⟩ := h
    unfold State.admits regionAllows at ha
    rw [Bool.and_false, Bool.or_false] at ha
    refine ⟨?_, ?_⟩
    · unfold State.admits regionAllows
      rw [leaveHandler_some hh, Bool.and_false, Bool.or_false]
      exact ha
    · rw [leaveHandler_some hh]
      exact hw
  rw [exec_exit_run h hg, exec_exit_run hrun hg', exit_last hl hc hs, exit_last hlast hc' hs', leaveHandler_none hnone,
    State.exitLast, State.exitLast, leaveHandler_none hnone]

/-- The slot of an ended group is free. -/
def State.groupFreed (s : State) : State := { s with cur := Group.blank, split := 0, limm := none, tick := s.tick + 1 }

theorem endGroup_task {s : State} (hk : s.cur.kind = .task) (hs : s.cur.stolen = false) : s.endGroup = (s.reportTo s.cur).vacate := by
  unfold State.endGroup
  dsimp only
  rw [hk, hs]
  rfl

theorem endGroup_stolen {s : State} (hk : s.cur.kind = .task) (hs : s.cur.stolen = true) : s.endGroup =
    { s with cur := { s.cur with done := true, resident := false, splits := [] }, tick := s.tick + 1, limm := none } := by
  unfold State.endGroup
  dsimp only
  rw [hk, hs]
  rfl

theorem endGroup_seq {s : State} (hk : s.cur.kind = .seq) :
    s.endGroup = s.groupFreed.putJob { s.job with liveSeqs := s.job.liveSeqs - 1 } := by
  unfold State.endGroup
  dsimp only
  rw [hk]
  rfl

/-- A task whose parent is away from the focus hands it what it leaves. -/
theorem reportTo_parent {s : State} {g p : Group} (hp : s.cur.gid ≠ g.parent) (hl : look s.groups g.parent = some p) (hi : p.gid = g.parent)
    (hj : p.job = g.job) : s.reportTo g = { s with groups := put s.groups p.gid { p with
      children := p.children - 1
      childFlags := p.childFlags ||| g.fflags
      childViews := p.childViews ++ g.views.map (fun v => { v with ord := 2 * g.rank - 1 }) } } := by
  have hg : s.groupOf g.parent = some p := by
    unfold State.groupOf
    rw [if_neg hp, hl]
  have hf : (s.groupOf g.parent).filter (fun p => p.job == g.job) = some p := by
    rw [hg, Option.filter_some, if_pos (beq_iff_eq.2 hj)]
  unfold State.reportTo
  rw [hf]
  exact if_neg (hi ▸ hp)

theorem reportTo_none {s : State} {g : Group} (h : ∀ x, s.groupOf g.parent = some x → x.job ≠ g.job) : s.reportTo g = s := by
  have hf : (s.groupOf g.parent).filter (fun p => p.job == g.job) = none :=
    Option.filter_eq_none_iff.2 (fun x hx => by simpa using h x hx)
  unfold State.reportTo
  rw [hf]

/-! ## The end of a team's group (02 R34, 12 R246) -/

theorem TBar.leave_eq (b : TBar) (g : Nat) : b.leave g =
    if b.mask &&& BitVec.ofNat 16 (2 ^ g) = 0#16 then b else
      { (if b.arrived &&& BitVec.ofNat 16 (2 ^ g) ≠ 0#16 then b
        else if b.mask &&& ~~~(b.arrived ||| BitVec.ofNat 16 (2 ^ g)) = 0#16 then { b with gen := b.gen + 1#64, arrived := 0#16 }
        else { b with arrived := b.arrived ||| BitVec.ofNat 16 (2 ^ g) } : TBar) with mask := b.mask &&& ~~~BitVec.ofNat 16 (2 ^ g) } := by
  unfold TBar.leave
  dsimp only
  split
  · rfl
  · by_cases ha : b.arrived &&& BitVec.ofNat 16 (2 ^ g) = 0#16
    · rw [if_pos ha, if_neg (not_not.2 ha), TBar.arrive, TBar.settle]
      split <;> rfl
    · rw [if_neg ha, if_pos ha]

/-- The team of the group in focus once the group has left it. -/
def State.teamLeft (s : State) : Team :=
  { s.team with live := s.team.live - 1, bars := (List.range 16).map (fun n => (n, (s.team.bar n).leave s.cur.grp)) }
/-- The launch of the group in focus once the group's views wait for the root fold. -/
def State.jobLeft (s : State) : Job :=
  { s.job with folds := if s.cur.views = [] then s.job.folds else s.job.folds ++ [((s.cur.team, s.cur.grp), s.cur.views)] }

theorem endGroup_root {s : State} (hk : s.cur.kind = .root) :
    s.endGroup = ((s.groupFreed.putTeam s.teamLeft).putJob s.jobLeft).teamEnd s.cur.job s.cur.team := by
  unfold State.endGroup State.jobLeft
  dsimp only
  rw [hk]
  simp only [List.isEmpty_iff]
  rfl

/-- A team that still has a group, or an operation in flight, goes on. -/
theorem teamEnd_stays {s : State} {job team : Nat} (h : (s.teamOf job team).live ≠ 0 ∨ s.ops.any (fun o => o.inFlight job team) = true) :
    s.teamEnd job team = s := by
  unfold State.teamEnd
  exact if_pos (h.imp id Or.inl)

/-- The last group of a team frees the logical core. -/
theorem teamEnd_frees {s : State} {job team : Nat} {T : Team} {J : Job} (hT : look s.teams (teamKey job team) = some T)
    (hJ : look s.jobs job = some J) (hl : T.live = 0) (ho : s.ops.any (fun o => o.inFlight job team) = false) : s.teamEnd job team =
    { s with teams := drop s.teams (teamKey job team), ops := s.ops.filter (fun o => !(o.job == job && o.team == team && !o.task)) }.putJob
      { J with
        liveTeams := J.liveTeams - 1
        lcores := put J.lcores T.lcore { J.lcoreOf T.lcore with team := none, rounds := team / max 1 J.logical + 1 } } := by
  have ht : s.teamOf job team = T := by unfold State.teamOf; rw [hT]; rfl
  unfold State.teamEnd
  dsimp only
  rw [ht, hT, hJ, if_neg]
  rw [hl, ho]
  simp

theorem teamLeft_eq (s : State) : s.teamLeft = { s.team with live := s.team.live - 1, bars := (List.range 16).map (fun n => (n,
      let b := s.team.bar n
      let bit := BitVec.ofNat 16 (2 ^ s.cur.grp)
      let b1 := if b.arrived &&& bit ≠ 0#16 then b
        else if b.mask &&& ~~~(b.arrived ||| bit) = 0#16 then { b with gen := b.gen + 1#64, arrived := 0#16 } else { b with arrived := b.arrived ||| bit }
      if b.mask &&& bit = 0#16 then b else { b1 with mask := b.mask &&& ~~~bit })) } := by
  unfold State.teamLeft
  simp only [TBar.leave_eq]

theorem popPath_table (g : Group) :
    (g.stack = [] ∨ 4 ≤ g.splits.length → g.popPath.splits = g.splits ∧ g.popPath.stack = g.stack) ∧
    ∀ top rest, g.stack = top :: rest → g.splits.length < 4 → g.popPath.splits = g.splits ++ [g.placed top] ∧ g.popPath.stack = rest :=
  ⟨fun h => by rw [popPath_stays h]; exact ⟨rfl, rfl⟩, fun _ _ => pop_popped⟩

/-- Settles O47: by whether the split is the last, then by what kind of group ends with it. -/
theorem strandEnds : Obligations.StrandEnds := by
  unfold Obligations.StrandEnds
  intro s q p hrun hg freed T T' J others
  refine ⟨fun hmore => ?_, fun hh hl hst hc hsp => ?_, fun hr hh hl hst hc hsp howed => ?_⟩
  · have hlast : s.lastSplit = false := by
      rw [← Bool.not_eq_true, lastSplit_iff]
      rcases hmore with h | h
      · exact fun hc => absurd hc.1 (Nat.not_le.2 h)
      · exact fun hc => h hc.2
    refine ⟨s.exit, exec_exit_run hrun hg, ?_⟩
    cases hh : s.cur.handler with
    | none =>
      rw [exit_split hlast hh]
      obtain ⟨hstays, hpops⟩ := popPath_table s.splitEnded
      exact ⟨hstays, hpops, fun _ => congrArg (fun g => { s with cur := g, tick := s.tick + 1, limm := none }) (popPath_retabled s.splitEnded),
        fun _ _ h => nomatch h⟩
    | some x =>
      rw [exit_handlerSplit hlast hh]
      obtain ⟨hstays, hpops⟩ := popPath_table { s.splitEnded with trapinfo := 0, handler := none, held := [] }
      refine ⟨hstays, hpops, fun h => (nomatch h), fun k slot h => ?_⟩
      cases h
      exact congrArg (fun g => { s with
        cur := g, jobs := put s.jobs s.job.id { s.job with slots := s.job.slots.erase slot }, tick := s.tick + 1, limm := none })
        (popPath_retabled { s.splitEnded with trapinfo := 0, handler := none, held := [] })
  · obtain ⟨⟨k, slot⟩, hk⟩ := Option.isSome_iff_exists.1 hh
    exact exec_exit_leaveHandler hrun hg hk (lastSplit_iff.2 ⟨hl, hst⟩) hc hsp
  · rw [exec_exit_run hrun hg, exit_endGroup (lastSplit_iff.2 ⟨hl, hst⟩) hc hsp hr hh howed]
    refine ⟨fun hk hs hne hp hi hj => ?_, fun hk hs hn => ?_, fun hk hs => ?_, fun hk => ?_, fun hk hplaced hT hTj hTi => ?_⟩
    · rw [endGroup_task hk hs, reportTo_parent hne hp hi hj]
      rfl
    · rw [endGroup_task hk hs, reportTo_none hn]
      rfl
    · rw [endGroup_stolen hk hs]
    · rw [endGroup_seq hk]
      rfl
    · have hT' : s.teamLeft = T' := teamLeft_eq s
      have hkey : teamKey T'.job T'.idx = teamKey s.cur.job s.cur.team := by
        rw [show T'.job = s.cur.job from hTj, show T'.idx = s.cur.team from hTi]
      have hteams : ((freed.putTeam T').putJob J).teams = put s.teams (teamKey s.cur.job s.cur.team) T' := congrArg (put s.teams · T') hkey
      have hjobs : ((freed.putTeam T').putJob J).jobs = put s.jobs s.cur.job J := congrArg (put s.jobs · J) hplaced.2
      have hlook : look ((freed.putTeam T').putJob J).teams (teamKey s.cur.job s.cur.team) = some T' := by
        rw [hteams, look_put, if_pos rfl]
      have hend : s.endGroup = ((freed.putTeam T').putJob J).teamEnd s.cur.job s.cur.team := by rw [← hT']; exact endGroup_root hk
      rw [hend]
      refine ⟨fun hstay hlive => ?_, fun hlive ho => ?_⟩
      · refine congrArg Outcome.next (teamEnd_stays ?_)
        unfold State.teamOf
        rw [hlook]
        exact hstay.imp (fun h => Nat.sub_ne_zero_of_lt h) id
      · refine ⟨_, rfl, ?_⟩
        have hJ : look ((freed.putTeam T').putJob J).jobs s.cur.job = some J := by rw [hjobs, look_put, if_pos rfl]
        have hl0 : T'.live = 0 := by show T.live - 1 = 0; rw [hlive]
        rw [teamEnd_frees hlook hJ hl0 ho, ← hteams]
        refine ⟨rfl, ?_⟩
        rw [← hjobs, ← (show J.id = s.cur.job from hplaced.2)]
        rfl

end Sys2Proof.Machine
end

section

/-!
# A racing stamp of ALLOC.LOG (09 R173, R186, R187, 18 R306)

O44 asks that an ALLOC.LOG whose two stores are performed changes of the group its cursor, its result and its split alone. Under CHK each
store goes through the race filter, which queues RACE in the group where another writer of the granule is parallel.
-/

namespace Sys2Proof.Machine
open Host

/-- A strand of another team of the launch. -/
def rivalStrand : W64 × W64 := (pedEncode [(0, 1)]).getD (0, 0)

/-- The strand of the smallest launch, in focus. -/
def soloFocus : State := (State.reset.withFetchWord 32 0xC0000000).focus 2 0

/-- The same under CHK, its log's cursor at two granules that a strand of another team has written. -/
def racedLog : State :=
  (soloFocus.putJob { soloFocus.job with pkt := soloFocus.job.pkt.set 2 4, races := [(0x4000, rivalStrand), (0x4001, rivalStrand)] }).setCur
    (((soloFocus.cur.gSet 93 0x20000).gSet 94 0x20030).gSet 11 20)

/-- The pending reports of the next state. -/
def reportsOf : Outcome State Fault Refusal → List Pend
  | .next t => t.cur.pend
  | _ => []

theorem racedLog_runs : Runs (.allocLog 0 10 11) racedLog ∧ racedLog.Converged ∧ racedLog.gpGuard 0 = true := by
  unfold Runs State.Converged
  decide +kernel

theorem racedLog_fits : (racedLog.cur.gGet 11).toNat < 2 ^ 32 ∧
    (racedLog.cur.gGet 93).toNat + (roundUp (racedLog.cur.gGet 11).toNat 16 + 16) ≤ (racedLog.cur.gGet 94).toNat ∧ racedLog.NoStall := by
  unfold State.NoStall
  decide +kernel

theorem storable_of_mem {s : State} {k : Acc} {ea : W64} {n loc attr : Nat} {sc : Bool} (h : s.target k ea n = .mem loc attr sc) :
    s.Storable k ea n := by
  unfold State.Storable
  rw [h]
  trivial

theorem racedLog_target : racedLog.mergeParked.target .store (racedLog.cur.gGet 93) 8 = .mem 0x20000 0 false ∧
    racedLog.mergeParked.target .store (racedLog.cur.gGet 93 + 8#64) 8 = .mem 0x20008 0 false := by decide +kernel

/-- ALLOC.LOG queues a report where there was none. -/
theorem racedLog_reports : reportsOf (exec (.allocLog 0 10 11) racedLog) ≠ [] ∧ racedLog.mergeParked.cur.pend = [] := by decide +kernel

/-- Refutes O44: the stamp of ALLOC.LOG races with the store of another team, and the RACE it queues stands in the group afterwards. -/
theorem not_taskResults : ¬ Obligations.TaskResults := by
  unfold Obligations.TaskResults
  intro h
  obtain ⟨hrun, hconv, hguard⟩ := racedLog_runs
  obtain ⟨hsize, hroom, hstall⟩ := racedLog_fits
  obtain ⟨hlo, hhi⟩ := racedLog_target
  obtain ⟨hreports, hnone⟩ := racedLog_reports
  obtain ⟨-, -, -, -, -, -, -, -, hlog⟩ := h racedLog 0 10 11 0 hconv hguard
  obtain ⟨t, ht, ⟨-, hcur, -⟩, -⟩ := hlog hrun hsize hroom hstall (storable_of_mem hlo) (storable_of_mem hhi)
  have hpend : t.cur.pend = racedLog.mergeParked.cur.pend := by rw [hcur]; rfl
  rw [ht] at hreports
  exact hreports (hpend.trans hnone)

end Sys2Proof.Machine
end

section

/-!
# Tasks on cores (02 R30, R33 to R35)

O58.
-/

namespace Sys2Proof.Machine
open Host

/-! ## The registers a strand starts with (02 R30, R31) -/

theorem strandOf_gGet (j : Job) (k : Kind) (gid team grp lcore core slot time cyc : Nat) (pc : W64) (r : Nat) :
    (strandOf j k gid team grp lcore core slot time cyc pc).gGet r = 0#64 := by
  unfold Group.gGet
  split <;> rfl

/-- A group's cursors, and its other registers as they were. -/
theorem gGet_withCursors (g : Group) (c : W64 × W64 × W64 × W64) (r : Nat) : (g.withCursors c).gGet r =
    if r = 91 then c.1 else if r = 92 then c.2.1 else if r = 93 then c.2.2.1 else if r = 94 then c.2.2.2 else g.gGet r := by
  unfold Group.withCursors
  simp only [gGet_gSet]
  grind

/-- Two groups that differ in their scalar registers only. -/
def Group.Reg (g t : Group) : Prop := t = { g with g := t.g }

theorem Group.Reg.trans {g t u : Group} (h : g.Reg t) (k : t.Reg u) : g.Reg u := by
  unfold Group.Reg at *
  rw [k, h]

theorem gSet_reg (g : Group) (n : Nat) (x : W64) : g.Reg (g.gSet n x) := rfl

theorem withCursors_reg (g : Group) (c : W64 × W64 × W64 × W64) : g.Reg (g.withCursors c) :=
  (((gSet_reg _ _ _).trans (gSet_reg _ _ _)).trans (gSet_reg _ _ _)).trans (gSet_reg _ _ _)

/-! ## TASK_START (02 R30, R33, R35) -/

theorem taskGroup_eq (s : State) (j : Job) (e : TaskEntry) (core slot : Nat) : s.taskGroup j e core slot = { Group.blank with
    gid := s.nextId, kind := .task, job := j.id, team := e.team, grp := e.grp, lcore := j.lcoreAt core e.lcore, core
    slot, resident := true, born := s.time, cycFrom := s.cycles, allot := j.regs, tiles := j.tileCount, tileBase := j.tileBase
    trapvec := j.handler &&& 0x01FFFFFFFFFFFFFC#64, splits := [⟨0, e.pc, BitVec.allOnes 32, .ready, none, false, 0, s.time, false⟩]
    g := (s.taskGroup j e core slot).g, pdh := e.pdh, pdl := e.pdl, fpmode := e.fpmode, parent := e.parent, rank := e.rank, stolen := e.stolen } := by
  have h := (gSet_reg (strandOf j .task s.nextId e.team e.grp (j.lcoreAt core e.lcore) core slot s.time s.cycles e.pc) 1 e.arg).trans
    (withCursors_reg _ (e.heap, e.heapEnd, e.log, e.logEnd))
  unfold Group.Reg at h
  unfold State.taskGroup
  dsimp only
  rw [h]
  rfl

theorem taskGroup_gGet (s : State) (j : Job) (e : TaskEntry) (core slot r : Nat) : (s.taskGroup j e core slot).gGet r =
    if r = 1 then e.arg else if r = 91 then e.heap else if r = 92 then e.heapEnd else if r = 93 then e.log
      else if r = 94 then e.logEnd else 0#64 := by
  have h : (s.taskGroup j e core slot).gGet r = (((strandOf j .task s.nextId e.team e.grp (j.lcoreAt core e.lcore) core slot s.time s.cycles e.pc).gSet 1
      e.arg).withCursors (e.heap, e.heapEnd, e.log, e.logEnd)).gGet r := rfl
  rw [h, gGet_withCursors, gGet_gSet, strandOf_gGet]
  grind

/-- Replacing a group leaves everything else. -/
theorem putGroup_eq (s : State) (g : Group) : s.putGroup g = { s with cur := (s.putGroup g).cur, groups := (s.putGroup g).groups } := by
  unfold State.putGroup; split <;> rfl

theorem taskStart_room {s : State} {core : Nat} {e : TaskEntry} {j : Job} (he : s.nextEntry core = some e) (hj : look s.jobs e.job = some j)
    (hr : s.room core 1 j.regs 0 = true) : s.taskStart core = (s.startTask j e core).idle := by
  unfold State.taskStart
  simp only [he, hj, hr, if_true]

theorem taskStart_full {s : State} {core : Nat} {e : TaskEntry} {j : Job} {t : State} (he : s.nextEntry core = some e)
    (hj : look s.jobs e.job = some j) (hr : s.room core 1 j.regs 0 = false)
    (hf : (s.readyEntries core).findSome? (s.startFor core) = some t) : s.taskStart core = t.idle := by
  unfold State.taskStart
  simp only [he, hj, hr, hf, Bool.false_eq_true, if_false, Option.getD_some]

/-! ## The entry that goes next (02 R33, R35) -/

/-- The parent of an entry that no other core took waits at JOIN. -/
def State.ParentJoins (s : State) (e : TaskEntry) : Prop :=
  e.stolen = false ∧ ∃ p, s.groupOf e.parent = some p ∧ p.job = e.job ∧ p.joining = true

theorem joiningParent_some {s : State} {e : TaskEntry} {p : Group} (he : e.stolen = false) (hp : s.groupOf e.parent = some p)
    (hj : p.job = e.job) (hw : p.joining = true) : s.joiningParent e = some p := by
  unfold State.joiningParent
  rw [he, hp, if_neg Bool.false_ne_true, Option.filter_some, if_pos]
  rw [hj, hw, beq_self_eq_true]
  rfl

theorem joiningParent_isSome {s : State} {e : TaskEntry} : (s.joiningParent e).isSome = true ↔ s.ParentJoins e := by
  constructor
  · intro h
    obtain ⟨p, hp⟩ := Option.isSome_iff_exists.1 h
    unfold State.joiningParent at hp
    split at hp
    · cases hp
    next he =>
      obtain ⟨hg, hw⟩ := Option.filter_eq_some_iff.1 hp
      rw [Bool.and_eq_true, beq_iff_eq] at hw
      exact ⟨Bool.eq_false_iff.2 he, p, hg, hw⟩
  · rintro ⟨he, p, hp, hj, hw⟩
    rw [joiningParent_some he hp hj hw]
    rfl

theorem nextEntry_head {s : State} {core : Nat} (h : ∀ e ∈ s.readyEntries core, ¬s.ParentJoins e) :
    s.nextEntry core = (s.readyEntries core).head? := by
  have hn : (s.readyEntries core).find? (fun e => (s.joiningParent e).isSome) = none :=
    List.find?_eq_none.2 (fun e he hc => h e he (joiningParent_isSome.1 hc))
  unfold State.nextEntry
  dsimp only
  rw [hn]

/-- Of the entries whose parents wait at JOIN the newest goes next. -/
theorem nextEntry_joins {s : State} {core : Nat} (h : ∃ e ∈ s.readyEntries core, s.ParentJoins e) :
    ∃ e newer older, s.nextEntry core = some e ∧ s.ParentJoins e ∧ s.readyEntries core = newer ++ e :: older ∧ ∀ y ∈ newer, ¬s.ParentJoins y := by
  obtain ⟨x, hx, hxw⟩ := h
  cases hf : (s.readyEntries core).find? (fun e => (s.joiningParent e).isSome) with
  | none => exact absurd (joiningParent_isSome.2 hxw) (List.find?_eq_none.1 hf x hx)
  | some e =>
    obtain ⟨he, newer, older, hd, hn⟩ := List.find?_eq_some_iff_append.1 hf
    refine ⟨e, newer, older, ?_, joiningParent_isSome.1 he, hd, fun y hy hc => ?_⟩
    · unfold State.nextEntry
      dsimp only
      rw [hf]
    · have := hn y hy
      rw [joiningParent_isSome.2 hc] at this
      exact absurd this (by decide)

/-- Some entry goes next wherever one is ready. -/
theorem nextEntry_of_ready {s : State} {core : Nat} (h : s.readyEntries core ≠ []) : ∃ e ∈ s.readyEntries core, s.nextEntry core = some e := by
  by_cases hw : ∃ e ∈ s.readyEntries core, s.ParentJoins e
  · obtain ⟨e, newer, older, he, -, hd, -⟩ := nextEntry_joins hw
    exact ⟨e, by rw [hd]; simp, he⟩
  · push Not at hw
    obtain ⟨e, l, hl⟩ := List.exists_cons_of_ne_nil h
    exact ⟨e, by rw [hl]; simp, by rw [nextEntry_head hw, hl]; rfl⟩

theorem mem_readyEntries {s : State} {core : Nat} {e : TaskEntry} :
    e ∈ s.readyEntries core ↔ e ∈ s.deque core ∧ ((look s.jobs e.job).map Job.running).getD false = true := by
  unfold State.readyEntries
  rw [List.mem_filter]

/-- The launch of a ready entry runs. -/
theorem readyEntries_job {s : State} {core : Nat} {e : TaskEntry} (h : e ∈ s.readyEntries core) : ∃ j, look s.jobs e.job = some j := by
  have := (mem_readyEntries.1 h).2
  cases hj : look s.jobs e.job with
  | none => rw [hj] at this; exact absurd this (by decide)
  | some j => exact ⟨j, rfl⟩

/-- A parent at JOIN gives up its slot to its child's task. -/
theorem startFor_parent {s : State} {core : Nat} {e : TaskEntry} {j : Job} {p : Group} (hj : look s.jobs e.job = some j) (he : e.stolen = false)
    (hp : s.groupOf e.parent = some p) (hpj : p.job = e.job) (hw : p.joining = true) (hr : p.resident = true) (hc : p.core = core)
    (hi : (j.images + 1) * imageBytes j.regs ≤ s.arenaSize j 48) :
    s.startFor core e =
      let t : State := { (s.putGroup { p.saveRepeat with resident := false, away := true, cycAcc := s.cycOf p }).putJob { j with images := j.images + 1 } with
        images := s.images ++ [⟨j.id, parentRef e.parent, .group, s.time, j.bstUse, j.engUse, imageBytes j.regs, .imgb⟩] }
      if t.room core 1 j.regs 0 then some (t.startTask j e core) else none := by
  unfold State.startFor State.suspend
  simp only [hj, joiningParent_some he hp hpj hw, Option.map_some, hc, hp, hw, hr, hi, ne_eq, not_true_eq_false, if_false, and_self, if_true, Option.bind_some]

/-! ## TASK_STEAL, and the deques it changes (02 R35) -/

theorem look_takeEntry {s : State} {thief victim : Nat} (h : thief ≠ victim) (e : TaskEntry) (k : Nat) : (s.takeEntry thief victim e).deque k =
    if k = thief then { e with stolen := true } :: s.deque thief else if k = victim then (s.deque victim).dropLast else s.deque k := by
  unfold State.takeEntry State.deque
  dsimp only
  rw [look_put, look_put, if_neg h]
  split_ifs
  · rfl
  · rw [look_put, if_pos ‹_›]; rfl
  · rw [look_put, if_neg ‹_›]

/-! ## JOIN_COMPLETE (02 R33) -/

theorem convergentForm_next (i : Instr) (f : State → State) (s : State) : ∃ t, convergentForm i f s = .next t := ⟨_, rfl⟩

theorem unsuspend_stays {s : State} (h : s.cur.away = false) : s.unsuspend = s := by
  unfold State.unsuspend
  simp only [h, Bool.not_false, if_true]

/-- A parent that kept its slot goes on with the JOIN its split waits at. -/
theorem joinComplete_join {s u t : State} {p : Split} {q : BitVec 2} (hp : s.cur.joinSplit = some p) (hc : s.cur.children = 0)
    (ha : s.cur.away = false) (hl : s.live s.cur = true) (hi : ({ s with split := p.entry, limm := none } : State).issue = .run (.join q) u)
    (ht : execJoin q u = .next t) : s.joinComplete = t := by
  unfold State.joinComplete
  simp only [hp, hc, unsuspend_stays ha, hl, hi, ht, ne_eq, not_true_eq_false, if_false, Bool.not_true, Bool.false_eq_true]

/-- A parent that kept its slot goes on with the EXIT that performs the JOIN. -/
theorem joinComplete_exit {s u t : State} {p : Split} {q : BitVec 2} (hp : s.cur.joinSplit = some p) (hc : s.cur.children = 0)
    (ha : s.cur.away = false) (hl : s.live s.cur = true) (hi : ({ s with split := p.entry, limm := none } : State).issue = .run (.exit q) u)
    (ht : execExit q u = .next t) : s.joinComplete = t := by
  unfold State.joinComplete
  simp only [hp, hc, unsuspend_stays ha, hl, hi, ht, ne_eq, not_true_eq_false, if_false, Bool.not_true, Bool.false_eq_true]

@[simp] theorem putGroup_deques (s : State) (g : Group) : (s.putGroup g).deques = s.deques := by
  unfold State.putGroup
  split <;> rfl

@[simp] theorem putGroup_tick (s : State) (g : Group) : (s.putGroup g).tick = s.tick := by
  unfold State.putGroup
  split <;> rfl

@[simp] theorem putGroup_time (s : State) (g : Group) : (s.putGroup g).time = s.time := by
  unfold State.putGroup
  split <;> rfl

theorem startTask_idle {t : State} {j : Job} {e : TaskEntry} {core n k : Nat} {d : List (Nat × List TaskEntry)}
    (hd : t.deques = d) (hn : t.nextId = n) (hk : t.tick = k) : (t.startTask j e core).idle =
      { t with deques := put d core (((look d core).getD []).erase e), groups := put t.groups n (t.taskGroup j e core ((t.freeSlots core).headD 0))
               nextId := n + 1, tick := k + 1 } := by
  subst hd hn hk
  rfl

/-- Settles O58: each event of a task by its own lemma. -/
theorem taskScheduling : Obligations.TaskScheduling := by
  unfold Obligations.TaskScheduling
  intro s core victim e j p sp q u ticked
  refine ⟨fun he hj _ hr => ?_, ⟨nextEntry_head, nextEntry_joins, ?_⟩, fun he hj hne hdie hnone hfree => ?_, fun hk hd => ⟨fun hne hp hi hj => ?_, fun hn => ?_⟩, ?_⟩
  · refine ⟨s.taskGroup j e core ((s.freeSlots core).headD 0), ?_, taskGroup_eq .., fun r => taskGroup_gGet ..⟩
    exact congrArg Outcome.next (taskStart_room he hj hr)
  · intro newer older hd hnewer hfull hj hstolen hp hpi hpj hw hres hcore himg away hroom
    have hmem : e ∈ s.readyEntries core := by rw [show s.readyEntries core = newer ++ e :: older from hd]; simp
    obtain ⟨x, hx, hnext⟩ := nextEntry_of_ready (List.ne_nil_of_mem hmem)
    obtain ⟨k, hk⟩ := readyEntries_job hx
    have hxroom : s.room core 1 k.regs 0 = false := by
      have := hfull x hx
      rwa [hk] at this
    have hstart : s.startFor core e = some (away.startTask j e core) := by
      rw [startFor_parent hj hstolen hp hpj hw hres hcore himg, ← hpi]
      exact if_pos hroom
    have hfind : (s.readyEntries core).findSome? (s.startFor core) = some (away.startTask j e core) := by
      rw [show s.readyEntries core = newer ++ e :: older from hd, List.findSome?_append, List.findSome?_eq_none_iff.2 hnewer, Option.none_or,
        List.findSome?_cons, hstart]
    have hdeques : away.deques = s.deques := putGroup_deques _ _
    have hid : away.nextId = s.nextId := State.putGroup_nextId _ _
    have htick : away.tick = s.tick := putGroup_tick _ _
    have htime : away.time = s.time := putGroup_time _ _
    have hg := taskGroup_eq away j e core ((away.freeSlots core).headD 0)
    rw [hid, htime] at hg
    refine ⟨away.taskGroup j e core ((away.freeSlots core).headD 0), congrArg Outcome.next ((taskStart_full hnext hk hxroom hfind).trans ?_), ?_⟩
    · exact startTask_idle hdeques hid htick
    · rw [hg]
      exact ⟨rfl, rfl, rfl, rfl, rfl, rfl, rfl, rfl⟩
  · refine ⟨(s.takeEntry core victim e).idle, ?_, rfl, ?_, ?_, fun k hc hv => ?_⟩
    · refine congrArg Outcome.next ?_
      have hfree' : (s.freeSlots core).isEmpty = false := by rw [List.isEmpty_eq_false_iff]; exact hfree
      simp only [he, hj, hne, hdie, hnone, hfree', ne_eq, not_true_eq_false, List.isEmpty_nil, Bool.not_true, Bool.false_eq_true, Option.getD_some, or_self, if_false]
    · exact (look_takeEntry hne e core).trans (by rw [if_pos rfl, hnone])
    · exact (look_takeEntry hne e victim).trans (by rw [if_neg (Ne.symm hne), if_pos rfl])
    · exact (look_takeEntry hne e k).trans (by rw [if_neg hc, if_neg hv])
  · have h : exec .taskCompletionReport s = .next ((s.reportTo s.cur).vacate) := congrArg Outcome.next (if_pos ⟨hk, hd⟩)
    rw [h, reportTo_parent hne hp hi hj]
    rfl
  · have h : exec .taskCompletionReport s = .next ((s.reportTo s.cur).vacate) := congrArg Outcome.next (if_pos ⟨hk, hd⟩)
    rw [h, reportTo_none hn]
    rfl
  · intro hp hc ha hl hu
    refine ⟨fun hi => ?_, fun hi => ?_⟩
    · obtain ⟨t, ht⟩ : ∃ t, execJoin q u = .next t := convergentForm_next ..
      exact ⟨(congrArg Outcome.next (joinComplete_join hp hc ha hl (hu ▸ hi) ht)).trans ht.symm, t, ht⟩
    · obtain ⟨t, ht⟩ : ∃ t, execExit q u = .next t := ⟨_, rfl⟩
      exact ⟨(congrArg Outcome.next (joinComplete_exit hp hc ha hl (hu ▸ hi) ht)).trans ht.symm, t, ht⟩

end Sys2Proof.Machine
end

section

/-!
# Leaving a core and coming back (02 R27, R36, 11 R215, 13 R261 to R265)

O59.
-/

namespace Sys2Proof.Machine
open Host

/-! ## A group saved to its image, and back (03 R62, 13 R263) -/

theorem leaveRegion_none {g : Group} (h : g.region = none) : g.leaveRegion = g := by
  unfold Group.leaveRegion
  rw [h]

theorem leaveRegion_retabled (g : Group) : g.leaveRegion = { g with region := none, splits := g.leaveRegion.splits } := by
  unfold Group.leaveRegion
  split
  · rfl
  next h => rw [← h]

theorem saveRepeat_retabled (g : Group) : g.saveRepeat = { g with splits := g.saveRepeat.splits, repc := g.saveRepeat.repc } := by
  unfold Group.saveRepeat
  split
  · split <;> rfl
  · split <;> rfl

theorem find_rep_none {l : List Split} (h : ∀ p ∈ l, p.rep = none) : l.find? (fun p => p.rep.isSome) = none :=
  List.find?_eq_none.2 (fun p hp => by rw [h p hp]; exact Bool.false_ne_true)

/-- Without a repeat in progress the first instruction after the restore resumes what ctl.repc holds. -/
theorem saveRepeat_marks {g : Group} (h : ∀ p ∈ g.splits, p.rep = none) : g.saveRepeat = { g with
    splits := g.splits.map (fun p => { p with fresh := p.fresh || (g.repc.getLsbD 63 && g.splits.all (fun q => !q.fresh)) }) } := by
  unfold Group.saveRepeat
  rw [find_rep_none h]
  dsimp only
  split
  next hc => simp only [hc, Bool.or_true]
  next hc =>
    simp only [Bool.not_eq_true] at hc
    simp only [hc, Bool.or_false, List.map_id']

/-- The one split's repeat goes to ctl.repc. -/
theorem saveRepeat_repeat {g : Group} {p : Split} {r : Rep} (h : g.splits = [p]) (hr : p.rep = some r) :
    g.saveRepeat = { g with splits := [{ p with rep := none, fresh := true }], repc := repcOf r.total r.done } := by
  have hf : [p].find? (fun p => p.rep.isSome) = some p := by rw [List.find?_cons_of_pos]; rw [hr]; rfl
  unfold Group.saveRepeat
  rw [h, hf]
  dsimp only
  rw [hr]
  dsimp only
  unfold Group.putSplit
  dsimp only [List.map]
  rw [if_pos (show p.unmark.entry = p.entry from rfl)]

theorem saved_eq (p : Split) : p.saved = match p.st with
    | .blocked .monitor _ | .blocked .phase _ | .blocked (.record _ _) _ | .blocked (.slot (some _)) _ => p
    | .blocked _ _ => { p with st := .ready }
    | _ => p := by
  unfold Split.saved
  split <;> simp_all

theorem saved_pc (p : Split) : p.saved.pc = p.pc := by
  unfold Split.saved
  split <;> rfl

theorem out_eq (g : Group) (s : State) : g.out s = { g with
    resident := false, cycAcc := s.cycOf g, region := none, splits := (g.out s).splits, repc := (g.out s).repc, monitor := (g.out s).monitor } := by
  have h : g.leaveRegion.saveRepeat = { g with region := none, splits := g.leaveRegion.saveRepeat.splits, repc := g.leaveRegion.saveRepeat.repc } := by
    rw [saveRepeat_retabled, leaveRegion_retabled]
  unfold Group.out
  dsimp only
  rw [h]

theorem out_splits (g : Group) (s : State) : (g.out s).splits = g.leaveRegion.saveRepeat.splits.map Split.saved := rfl

theorem out_repc (g : Group) (s : State) : (g.out s).repc = g.leaveRegion.saveRepeat.repc := rfl

/-- A split in a region is taken back to its ABEG. -/
theorem leaveRegion_split {g : Group} {p : Split} {r : Region} (hr : g.region = some r) (h : g.splits = [p]) (he : p.entry = r.split) :
    g.leaveRegion.splits = [{ p with pc := r.pc }] := by
  unfold Group.leaveRegion
  rw [hr, h]
  dsimp only [List.map]
  rw [if_pos he]

theorem out_region_pc {g : Group} {p : Split} {r : Region} (s : State) (hr : g.region = some r) (h : g.splits = [p]) (hp : p.rep = none)
    (he : p.entry = r.split) : (g.out s).splits.map Split.pc = [r.pc] := by
  have hs := leaveRegion_split hr h he
  rw [out_splits, saveRepeat_marks (by rw [hs]; simpa using hp), hs]
  simp [saved_pc]

theorem back_eq (g : Group) (s : State) (core slot : Nat) : g.back s core slot =
    { g with resident := true, core, slot, cycFrom := s.cycles, holds := [], monitor := (g.back s core slot).monitor } := rfl

end Sys2Proof.Machine
end

section

/-! ## A team saved to its image (13 R261, R263) -/

namespace Sys2Proof.Machine
open Host

theorem onJob_found {s : State} {id : Nat} {j : Job} (f : Job → Job) (h : look s.jobs id = some j) : s.onJob id f = s.putJob (f j) := by
  unfold State.onJob
  rw [h]

theorem stopJob_found {s : State} {id : Nat} {j : Job} (st : Nat) (h : look s.jobs id = some j) : s.stopJob id st = s.putJob (j.stop st) := by
  unfold State.stopJob
  rw [h]

theorem stop_id (j : Job) (st : Nat) : (j.stop st).id = j.id := by
  unfold Job.stop
  split <;> rfl

/-- A found job stands under its own number. -/
theorem State.Records.jobId {s : State} (h : s.Records) {n : Nat} {j : Job} (hj : look s.jobs n = some j) : j.id = n :=
  h.tables.jobIds _ (look_mem hj)

/-- A found team stands under its own number. -/
theorem State.Records.teamAt {s : State} (h : s.Records) {k : Nat} {T : Team} (hT : look s.teams k = some T) : teamKey T.job T.idx = k :=
  (h.tables.teams _ (look_mem hT)).symm

theorem teamOf_found {s : State} {job tm : Nat} {T : Team} (h : look s.teams (teamKey job tm) = some T) : s.teamOf job tm = T := by
  unfold State.teamOf
  rw [h]
  rfl

theorem inTeam_iff {g : Group} {job tm : Nat} : g.inTeam job tm = true ↔ g.kind = .root ∧ g.job = job ∧ g.team = tm ∧ g.away = false := by
  unfold Group.inTeam
  simp only [Bool.and_eq_true, beq_iff_eq, Bool.not_eq_true', and_assoc]

theorem mapGroups_inTeam (s : State) (j : Job) (tm : Nat) (f : Group → Group) :
    s.mapGroups (fun g => if g.inTeam j.id tm then f g else g) = s.overTeam j tm f := by
  unfold State.mapGroups State.overTeam
  simp only [inTeam_iff]

theorem teamOut_saved {s : State} {j : Job} {tm : Nat} (hj : look s.jobs j.id = some j)
    (hT : teamKey (s.teamOf j.id tm).job (s.teamOf j.id tm).idx = teamKey j.id tm) : s.TeamSaved j tm (s.teamOut j tm).idle := by
  unfold State.TeamSaved State.teamOut
  dsimp only
  rw [mapGroups_inTeam, ← hT, onJob_found (j := j) _ (show look ((s.overTeam j tm _).putTeam _).jobs j.id = some j from hj)]
  rfl

/-! ## A saved team on a core (13 R262) -/

theorem putGroup_groupOf_same (s : State) (g : Group) : (s.putGroup g).groupOf g.gid = some g := by
  unfold State.putGroup State.groupOf
  split
  · exact if_pos rfl
  · dsimp only
    rw [look_put, if_pos rfl]

theorem putGroup_groupOf_other (s : State) {g : Group} {n : Nat} (h : n ≠ g.gid) : (s.putGroup g).groupOf n = s.groupOf n := by
  unfold State.putGroup State.groupOf
  split
  next hc => exact (if_neg (fun e => h e.symm)).trans (if_neg (fun e => h (e.symm.trans hc))).symm
  · dsimp only
    rw [look_put, if_neg h]

theorem foldl_putGroup_other {s : State} {f : Group × Nat → Group} {l : List (Group × Nat)} (hf : ∀ p, (f p).gid = p.1.gid) {n : Nat}
    (h : ∀ p ∈ l, p.1.gid ≠ n) : (l.foldl (fun t p => t.putGroup (f p)) s).groupOf n = s.groupOf n := by
  induction l generalizing s with
  | nil => rfl
  | cons p l ih =>
    rw [List.foldl_cons, ih (fun q hq => h q (List.mem_cons_of_mem _ hq)), putGroup_groupOf_other]
    rw [hf]
    exact (h p (List.mem_cons_self ..)).symm

theorem foldl_putGroup_at {s : State} {f : Group × Nat → Group} {l : List (Group × Nat)} (hf : ∀ p, (f p).gid = p.1.gid)
    (hn : (l.map (fun p => p.1.gid)).Nodup) {p : Group × Nat} (hp : p ∈ l) :
    (l.foldl (fun t p => t.putGroup (f p)) s).groupOf p.1.gid = some (f p) := by
  induction l generalizing s with
  | nil => cases hp
  | cons q l ih =>
    rw [List.map_cons, List.nodup_cons] at hn
    rw [List.foldl_cons]
    rcases List.mem_cons.1 hp with rfl | hp
    · rw [foldl_putGroup_other hf (fun x hx e => hn.1 (List.mem_map.2 ⟨x, hx, e⟩)), ← hf, putGroup_groupOf_same]
    · exact ih hn.2 hp

theorem foldl_putGroup_eq {s : State} (f : Group × Nat → Group) (l : List (Group × Nat)) : l.foldl (fun t p => t.putGroup (f p)) s = { s with
    cur := (l.foldl (fun t p => t.putGroup (f p)) s).cur, groups := (l.foldl (fun t p => t.putGroup (f p)) s).groups } := by
  induction l generalizing s with
  | nil => rfl
  | cons p l ih =>
    rw [List.foldl_cons]
    have h := ih (s := s.putGroup (f p))
    rw [putGroup_eq] at h ⊢
    exact h

end Sys2Proof.Machine
end

section

namespace Sys2Proof.Machine
open Host

/-- The strands of a state that are no idle places stand under numbers of their own. -/
theorem State.Records.gids_nodup {s : State} (h : s.Records) {f : Group → Bool} (hf : ∀ g, f g = true → g.kind ≠ .idle) :
    ((s.allGroups.filter f).map Group.gid).Nodup := by
  obtain ⟨hk, hi, -, -, ha⟩ := h.strands
  have hg : (s.groups.map Prod.snd).map Group.gid = s.groups.map Prod.fst := by
    rw [List.map_map]
    exact List.map_congr_left hi
  have hl : (((s.groups.map Prod.snd).filter f).map Group.gid).Nodup := (List.filter_sublist.map Group.gid).nodup (hg ▸ hk)
  unfold State.allGroups
  rw [List.filter_cons]
  split
  next hc =>
    refine List.nodup_cons.2 ⟨fun hm => ?_, hl⟩
    have hmem : s.cur.gid ∈ (s.groups.map Prod.snd).map Group.gid := (List.filter_sublist.map Group.gid).subset hm
    rw [hg] at hmem
    exact look_eq_none.1 (ha (hf _ hc)) hmem
  · exact hl

theorem seat_eq (s : State) (core : Nat) (slots : List Nat) (gs : List Group) :
    s.seat core slots gs = { s with cur := (s.seat core slots gs).cur, groups := (s.seat core slots gs).groups } :=
  foldl_putGroup_eq (fun p => p.1.back s core p.2) _

/-- Each group seated takes the slot at its place. -/
theorem seat_groupOf_at {s : State} {core i : Nat} {slots : List Nat} {gs : List Group} {g : Group} (hn : (gs.map Group.gid).Nodup)
    (hl : gs.length ≤ slots.length) (hi : gs[i]? = some g) : (s.seat core slots gs).groupOf g.gid = some (g.back s core (slots.getD i 0)) := by
  obtain ⟨hlt, -⟩ := List.getElem?_eq_some_iff.1 hi
  have hs : slots[i]? = some (slots.getD i 0) := by
    rw [List.getD_eq_getElem?_getD, List.getElem?_eq_getElem (hlt.trans_le hl)]
    rfl
  have hm : (g, slots.getD i 0) ∈ gs.zip slots := List.mem_of_getElem? (List.getElem?_zip_eq_some.2 ⟨hi, hs⟩)
  refine foldl_putGroup_at (f := fun p => p.1.back s core p.2) (fun _ => rfl) ?_ hm
  have : (gs.zip slots).map (fun p => p.1.gid) = gs.map Group.gid := by
    rw [show (fun p : Group × Nat => p.1.gid) = Group.gid ∘ Prod.fst from rfl, ← List.map_map, List.map_fst_zip hl]
  rw [this]
  exact hn

theorem seat_groupOf_other {s : State} {core n : Nat} {slots : List Nat} {gs : List Group} (h : ∀ g ∈ gs, g.gid ≠ n) :
    (s.seat core slots gs).groupOf n = s.groupOf n :=
  foldl_putGroup_other (f := fun p => p.1.back s core p.2) (fun _ => rfl) (fun p hp => h p.1 (List.of_mem_zip hp).1)

theorem room_slots {s : State} {core n regs bytes : Nat} (h : s.room core n regs bytes = true) : n ≤ (s.freeSlots core).length := by
  unfold State.room at h
  simp only [Bool.and_eq_true, decide_eq_true_eq] at h
  exact h.1.1

theorem teamReturns_iff {s : State} {j : Job} {tm core : Nat} : s.teamReturns j tm core = true ↔ j.hasCore core = true ∧
    s.room core (s.allGroups.filter (fun g => g.inTeam j.id tm)).length j.regs (s.teamBytes j tm) = true := by
  unfold State.teamReturns
  rw [Bool.and_eq_true]

theorem teamIn_eq {s : State} {j : Job} {tm core : Nat} (hj : look s.jobs j.id = some j)
    (hT : teamKey (s.teamOf j.id tm).job (s.teamOf j.id tm).idx = teamKey j.id tm) {u : State}
    (hu : u = s.seat core (s.freeSlots core) (s.allGroups.filter (fun g => g.inTeam j.id tm))) : s.teamIn j tm core = { s with
      cur := u.cur, groups := u.groups, teams := put s.teams (teamKey j.id tm) { s.teamOf j.id tm with resident := true, core }
      jobs := put s.jobs j.id { j with lcores := put j.lcores (s.teamOf j.id tm).lcore { j.lcoreOf (s.teamOf j.id tm).lcore with core := some core } }
      images := s.images.filter (fun x => !(x.job == j.id && x.team == tm)) } := by
  have hs := seat_eq s core (s.freeSlots core) (s.allGroups.filter (fun g => g.inTeam j.id tm))
  rw [← hu] at hs
  unfold State.teamIn
  dsimp only
  rw [← hu, hs, ← hT, onJob_found (j := j) _ (show look (State.putTeam { s with cur := u.cur, groups := u.groups } _).jobs j.id = some j from hj)]
  rfl

theorem teamIn_back {s : State} {j : Job} {tm core : Nat} (h : s.Records) (hj : look s.jobs j.id = some j)
    (hT : teamKey (s.teamOf j.id tm).job (s.teamOf j.id tm).idx = teamKey j.id tm) (hr : s.teamReturns j tm core = true) :
    s.TeamBack j tm core (s.teamIn j tm core).idle := by
  generalize hu : s.seat core (s.freeSlots core) (s.allGroups.filter (fun g => g.inTeam j.id tm)) = u
  have he := teamIn_eq hj hT hu.symm
  have hg : ∀ n, (s.teamIn j tm core).idle.groupOf n = u.groupOf n := fun n => by rw [he]; rfl
  have hidle : ∀ g : Group, g.inTeam j.id tm = true → g.kind ≠ .idle := fun g hg hk => by
    rw [(inTeam_iff.1 hg).1] at hk
    cases hk
  refine ⟨?_, fun i g hi => ?_, fun n hn => ?_⟩
  · rw [he]; rfl
  · rw [hg, ← hu]
    exact seat_groupOf_at (h.gids_nodup hidle) (room_slots (teamReturns_iff.1 hr).2) hi
  · rw [hg, ← hu]
    exact seat_groupOf_other (fun g hm => hn g (List.mem_filter.1 hm).1 (List.mem_filter.1 hm).2)

end Sys2Proof.Machine
end

section

/-! ## TIME_SLICE, RACKING, SWITCH_OUT and RESTORE (02 R27, R36, 13 R261, R262, R265) -/

namespace Sys2Proof.Machine
open Host

theorem sequenced_iff {j : Job} : j.sequenced = true ↔ j.seqEntry ≠ 0#64 := by
  unfold Job.sequenced
  rw [bne_iff_ne]

theorem not_sequenced {j : Job} (h : j.seqEntry = 0#64) : j.sequenced = false :=
  Bool.eq_false_iff.2 (fun hs => sequenced_iff.1 hs h)

theorem idle_stopJob {s : State} {j : Job} (h : look s.jobs j.id = some j) (st : Nat) :
    (s.stopJob j.id st).idle = { s with jobs := put s.jobs j.id (j.stop st), tick := s.tick + 1 } := by
  rw [stopJob_found st h, ← stop_id j st]
  rfl

theorem exec_timeSlice_run {s : State} {job lc core : Nat} {j : Job} (hj : look s.jobs job = some j) (hr : j.running = true) (hc : j.cor = false)
    (hl : lc < j.logical) : exec (.timeSlice job lc core) s = .next (s.timeSlice j lc core) := by
  rw [exec_timeSlice]
  unfold execTimeSlice
  rw [hj]
  exact congrArg Outcome.next (if_pos ⟨hr, by rw [hc]; rfl, hl⟩)

theorem timeSlice_out {s : State} {j : Job} {lc core tm : Nat} (hs : j.seqEntry = 0#64) (ht : (j.lcoreOf lc).team = some tm)
    (hr : (s.teamOf j.id tm).resident = true) (hb : s.teamBusy j.id tm = false) : s.timeSlice j lc core = (s.teamOut j tm).idle := by
  unfold State.timeSlice
  simp only [not_sequenced hs, ht, hr, hb, Bool.false_eq_true, if_false, if_true]

theorem timeSlice_in {s : State} {j : Job} {lc core tm : Nat} {m : Image} (hs : j.seqEntry = 0#64) (ht : (j.lcoreOf lc).team = some tm)
    (hr : (s.teamOf j.id tm).resident = false) (hi : s.imageOf j.id tm = some m) (hh : s.headerOk m = true)
    (hf : s.teamReturns j tm core = true) : s.timeSlice j lc core = (s.teamIn j tm core).idle := by
  unfold State.timeSlice
  simp only [not_sequenced hs, ht, hr, hi, hh, hf, Bool.not_true, Bool.false_eq_true, if_false, if_true]

theorem timeSlice_refused {s : State} {j : Job} {lc core tm : Nat} {m : Image} (hs : j.seqEntry = 0#64) (ht : (j.lcoreOf lc).team = some tm)
    (hr : (s.teamOf j.id tm).resident = false) (hi : s.imageOf j.id tm = some m) (hh : s.headerOk m = false) :
    s.timeSlice j lc core = (s.stopJob j.id 3).idle := by
  unfold State.timeSlice
  simp only [not_sequenced hs, ht, hr, hi, hh, Bool.not_false, Bool.false_eq_true, if_false, if_true]

theorem exec_racking_run {s : State} {job lc core : Nat} {j : Job} (hj : look s.jobs job = some j) (hr : j.running = true) :
    exec (.racking job lc core) s = .next (s.rack j lc core) := by
  rw [exec_racking]
  unfold execRacking
  rw [hj]
  exact congrArg Outcome.next (if_pos hr)

/-- RACKING below 4,096 names the team of a logical core. -/
theorem rack_team {s : State} {j : Job} {lc core tm : Nat} (ht : (j.lcoreOf lc).team = some tm) (hl : lc < 4096) (hc : j.hasCore core = true)
    (ha : s.advertises (core / 96) = true) : s.rack j lc core = (s.rackTeam j tm core).idle := by
  unfold State.rack
  rw [hc, ha, if_neg (show ¬2 ^ 32 ≤ lc by omega), if_neg (show ¬4096 ≤ lc by omega), ht]
  rfl

theorem rackTeam_in {s : State} {j : Job} {core tm : Nat} (hs : j.seqEntry = 0#64) (hb : s.teamBusy j.id tm = false)
    (hd : (s.teamOf j.id tm).core / 96 ≠ core / 96) (hr : (s.teamOf j.id tm).resident = false) (hi : s.restorable j.id tm = true)
    (hf : s.teamReturns j tm core = true) : s.rackTeam j tm core = s.teamIn j tm core := by
  unfold State.rackTeam
  simp only [not_sequenced hs, hb, hd, hr, hi, hf, Bool.not_true, Bool.false_eq_true, or_self, if_false, if_true]

theorem rackTeam_refused {s : State} {j : Job} {core tm : Nat} (hs : j.seqEntry = 0#64) (hb : s.teamBusy j.id tm = false)
    (hd : (s.teamOf j.id tm).core / 96 ≠ core / 96) (hr : (s.teamOf j.id tm).resident = false) (hi : s.restorable j.id tm = false) :
    s.rackTeam j tm core = s.stopJob j.id 3 := by
  unfold State.rackTeam
  simp only [not_sequenced hs, hb, hd, hr, hi, Bool.not_false, Bool.false_eq_true, or_self, if_false, if_true]

/-- RACKING from 4,096 on moves the oldest entry of a core's deque. -/
theorem rack_entry {s : State} {j : Job} {lc core : Nat} {e : TaskEntry} (hl : 4096 ≤ lc) (hl' : lc < 2 ^ 32)
    (he : (s.deque (lc - 4096)).getLast? = some e) (hej : e.job = j.id) (hd : (lc - 4096) / 96 ≠ core / 96) (hc : j.hasCore core = true)
    (ha : s.advertises (core / 96) = true) : s.rack j lc core = (s.takeEntry core (lc - 4096) e).idle := by
  unfold State.rack
  simp only [hc, ha, Bool.not_true, Bool.or_self, Bool.false_eq_true, if_false, if_neg (show ¬2 ^ 32 ≤ lc by omega), hl, if_true, he, hej, hd, ne_eq,
    not_false_eq_true, and_self]

/-- RACKING from 2^32 on names a task. -/
theorem rack_task {s : State} {j : Job} {gid core : Nat} (hc : j.hasCore core = true) (ha : s.advertises (core / 96) = true) :
    s.rack j (2 ^ 32 + gid) core = (s.rackTask j gid core).idle := by
  unfold State.rack
  rw [hc, ha, if_pos (Nat.le_add_right _ _), Nat.add_sub_cancel_left]
  rfl

theorem rackTask_in {s : State} {j : Job} {gid core : Nat} {g : Group} (hg : s.groupOf gid = some g) (hk : g.kind = .task) (hj : g.job = j.id)
    (hr : g.resident = false) (hd : g.done = false) (ha : g.away = false) (hc : g.core / 96 ≠ core / 96)
    (hi : s.restorable j.id (2 ^ 32 + gid) = true) (hf : s.room core 1 g.allot g.windowBytes = true) :
    s.rackTask j gid core = (s.seat core (s.freeSlots core) [{ g with stolen := true }]).dropImage j.id (2 ^ 32 + gid) := by
  have hi' : s.restorable j.id (taskRef gid) = true := hi
  unfold State.rackTask
  simp only [hg, hk, hj, hr, hd, ha, hc, hi', hf, ne_eq, not_true_eq_false, Bool.not_true, Bool.false_eq_true, or_self, if_false, if_true]
  rfl

theorem exec_switchOut_run {s : State} {job ref core : Nat} {j : Job} (hj : look s.jobs job = some j) (hc : s.coreOf j ref = some core)
    (hn : ∃ k ∈ s.jobs, s.needsRoom k.2 core = true ∧ ∃ v, s.firstCandidate k.2 core = some v ∧ v.job = job ∧ v.ref = ref) :
    exec (.switchOut job ref) s = .next (s.evict j ref) := by
  obtain ⟨k, hk, hr, v, hv, hvj, hvr⟩ := hn
  rw [exec_switchOut]
  unfold execSwitchOut
  rw [hj]
  dsimp only
  rw [hc]
  refine congrArg Outcome.next (if_pos (List.any_eq_true.2 ⟨k, hk, ?_⟩))
  simp only [hr, hv, hvj, hvr, beq_self_eq_true, Bool.and_self, Bool.or_true]

theorem coreOf_team {s : State} {j : Job} {tm : Nat} {T : Team} (hl : tm < 2 ^ 32) (hT : look s.teams (teamKey j.id tm) = some T)
    (hr : T.resident = true) : s.coreOf j tm = some T.core := by
  unfold State.coreOf
  rw [if_pos hl, teamOf_found hT, hT, hr]
  rfl

theorem coreOf_task {s : State} {j : Job} {gid : Nat} {g : Group} (hg : s.groupOf gid = some g) (hk : g.kind = .task) (hr : g.resident = true)
    (hj : g.job = j.id) : s.coreOf j (2 ^ 32 + gid) = some g.core := by
  unfold State.coreOf
  rw [if_neg (Nat.not_lt.2 (Nat.le_add_right _ _)), Nat.add_sub_cancel_left, hg]
  exact if_pos ⟨hk, hr, hj⟩

theorem evict_team {s : State} {j : Job} {tm : Nat} (hl : tm < 2 ^ 32) (hs : j.seqEntry = 0#64) (hb : s.teamBusy j.id tm = false) :
    s.evict j tm = (s.teamOut j tm).idle := by
  unfold State.evict
  rw [if_pos hl, not_sequenced hs, hb]
  rfl

theorem evict_task {s : State} {j : Job} {gid : Nat} (hb : s.taskBusy gid = false) : s.evict j (2 ^ 32 + gid) = (s.taskOut j gid).idle := by
  unfold State.evict
  rw [if_neg (Nat.not_lt.2 (Nat.le_add_right _ _)), Nat.add_sub_cancel_left, hb]
  rfl

theorem exec_restore_run {s : State} {job ref core : Nat} {j : Job} (hj : look s.jobs job = some j) (hr : j.running = true) :
    exec (.restore job ref core) s = .next (s.restore j ref core) := by
  rw [exec_restore]
  unfold execRestore
  rw [hj]
  exact congrArg Outcome.next (if_pos hr)

theorem restore_refused {s : State} {j : Job} {ref core : Nat} {m : Image} (hi : s.imageOf j.id ref = some m) (hh : s.headerOk m = false) :
    s.restore j ref core = (s.stopJob j.id 3).idle := by
  unfold State.restore
  rw [hi]
  dsimp only
  rw [hh]
  rfl

theorem restore_team {s : State} {j : Job} {tm core : Nat} {m : Image} (hl : tm < 2 ^ 32) (hs : j.seqEntry = 0#64)
    (hi : s.imageOf j.id tm = some m) (hh : s.headerOk m = true) (hf : s.teamReturns j tm core = true) :
    s.restore j tm core = (s.teamIn j tm core).idle := by
  unfold State.restore
  rw [hi]
  dsimp only
  rw [hh, if_neg (show ¬2 ^ 32 ≤ tm by omega), not_sequenced hs, hf]
  rfl

theorem restore_task {s : State} {j : Job} {gid core : Nat} {m : Image} {g : Group} (hg : s.groupOf gid = some g)
    (hi : s.imageOf j.id (2 ^ 32 + gid) = some m) (hh : s.headerOk m = true) (hc : j.hasCore core = true)
    (hf : s.room core 1 g.allot g.windowBytes = true) :
    s.restore j (2 ^ 32 + gid) core = ((s.seat core (s.freeSlots core) [g]).dropImage j.id (2 ^ 32 + gid)).idle := by
  unfold State.restore
  rw [hi]
  dsimp only
  rw [hh, if_pos (Nat.le_add_right _ _), Nat.add_sub_cancel_left, hg]
  dsimp only
  rw [hc, hf]
  rfl

/-! ### A task in its place -/

/-- A task stands behind the focus. -/
theorem State.Records.taskPlace {s : State} (h : s.Records) {g : Group} (hg : look s.groups g.gid = some g) (hk : g.kind = .task) :
    s.cur.gid ≠ g.gid := by
  intro he
  by_cases hc : s.cur.kind = .idle
  · have h0 : g.gid = 0 := he ▸ h.strands.focus.2.1 hc
    have := (h.strands.numbered _ (look_mem hg)).2.2 h0
    rw [hk] at this
    cases this
  · have := h.strands.apart hc
    rw [he, hg] at this
    cases this

theorem groupOf_behind {s : State} {n : Nat} (h : s.cur.gid ≠ n) : s.groupOf n = look s.groups n := if_neg h

theorem seat_one {s : State} {core : Nat} {g x : Group} (hx : x.gid = g.gid) (hc : s.cur.gid ≠ g.gid) (hr : 1 ≤ (s.freeSlots core).length) :
    s.seat core (s.freeSlots core) [x] = { s with groups := put s.groups g.gid (x.back s core ((s.freeSlots core).headD 0)) } := by
  obtain ⟨k, l, hl⟩ := List.exists_cons_of_length_pos hr
  unfold State.seat
  rw [hl]
  show s.putGroup (x.back s core k) = _
  unfold State.putGroup
  rw [if_neg (show s.cur.gid ≠ (x.back s core k).gid from hx ▸ hc), ← hx]
  rfl

/-- One strand behind the focus changes. -/
theorem mapGroups_one {s : State} (h : s.Records) {g : Group} (hg : look s.groups g.gid = some g) (hc : s.cur.gid ≠ g.gid) (f : Group → Group) :
    s.mapGroups (fun x => if x.gid = g.gid then f x else x) = { s with groups := put s.groups g.gid (f g) } := by
  have hkeys := h.strands.keys
  have hgids := h.strands.gids
  have hm : s.groups.map (fun p => (p.1, if p.2.gid = g.gid then f p.2 else p.2)) = put s.groups g.gid (f g) := by
    clear hc h
    generalize s.groups = l at *
    induction l with
    | nil => cases hg
    | cons p l ih =>
      obtain ⟨k, x⟩ := p
      rw [List.map_cons, List.nodup_cons] at hkeys
      have hx : x.gid = k := hgids (k, x) (List.mem_cons_self ..)
      by_cases hk : g.gid = k
      · have hxg : x = g := by
          rw [look, if_pos hk] at hg
          exact Option.some.inj hg
        have hrest : l.map (fun p => (p.1, if p.2.gid = g.gid then f p.2 else p.2)) = l := by
          refine (List.map_congr_left (fun q hq => ?_)).trans (List.map_id _)
          rw [if_neg]
          · rfl
          · rw [hgids q (List.mem_cons_of_mem _ hq), hk]
            exact fun e => hkeys.1 (List.mem_map.2 ⟨q, hq, e⟩)
        rw [List.map_cons, hrest, put, if_pos hk]
        dsimp only
        rw [if_pos (hx.trans hk.symm), hxg, hk]
      · rw [look, if_neg hk] at hg
        rw [List.map_cons, put, if_neg hk, ih hg hkeys.2 (fun q hq => hgids q (List.mem_cons_of_mem _ hq))]
        dsimp only
        rw [if_neg (fun e => hk (e.symm.trans hx))]
  unfold State.mapGroups
  rw [hm]
  dsimp only
  rw [if_neg hc]

end Sys2Proof.Machine
end

section

/-! ## ENGINE_CONTEXT_SWITCH (11 R211, R214, R215, R232) -/

namespace Sys2Proof.Machine
open Host

theorem put_put {α : Type} (l : List (Nat × α)) (k : Nat) (x y : α) : put (put l k x) k y = put l k y := by
  induction l with
  | nil => exact if_pos rfl
  | cons p l ih =>
    obtain ⟨a, z⟩ := p
    by_cases h : k = a
    · rw [put, if_pos h, put, if_pos rfl, put, if_pos h]
    · rw [put, if_neg h, put, if_neg h, ih, put, if_neg h]

/-- Changes the sequencer strand of a logical cluster. -/
def State.overSeq (s : State) (j : Job) (c : Nat) (f : Group → Group) : State :=
  let g := fun x : Group => if x.kind = .seq ∧ x.job = j.id ∧ x.grp = c then f x else x
  { s with cur := g s.cur, groups := s.groups.map (fun p => (p.1, g p.2)) }

theorem isSeq_iff {g : Group} {job c : Nat} : g.isSeq job c = true ↔ g.kind = .seq ∧ g.job = job ∧ g.grp = c := by
  unfold Group.isSeq
  simp only [Bool.and_eq_true, beq_iff_eq, and_assoc]

theorem mapGroups_isSeq (s : State) (j : Job) (c : Nat) (f : Group → Group) :
    s.mapGroups (fun g => if g.isSeq j.id c then f g else g) = s.overSeq j c f := by
  unfold State.mapGroups State.overSeq
  simp only [isSeq_iff]

/-- A job with the cores of some logical cores set, their other fields as in `j`. -/
def Job.withCores (j : Job) (f : Nat → Option Nat) (l : List Nat) (k : Job) : Job :=
  l.foldl (fun k x => k.putLcore x { j.lcoreOf x with core := f x }) k

theorem lcoreOf_putLcore_other {k : Job} {x y : Nat} (v : LCore) (h : y ≠ x) : (k.putLcore x v).lcoreOf y = k.lcoreOf y := by
  show (look (put k.lcores x v) y).getD ⟨none, none, 0⟩ = _
  rw [look_put, if_neg h]
  rfl

/-- A logical core keeps its other fields while the cores of others are set. -/
theorem foldl_core_eq {j : Job} {f : Job → Nat → Option Nat} {y : Nat → Option Nat} {l : List Nat} (hl : l.Nodup)
    (hf : ∀ k : Job, k.dies = j.dies → ∀ x ∈ l, f k x = y x) {k : Job} (hd : k.dies = j.dies) (hk : ∀ x ∈ l, k.lcoreOf x = j.lcoreOf x) :
    l.foldl (fun k x => k.putLcore x { k.lcoreOf x with core := f k x }) k = j.withCores y l k := by
  unfold Job.withCores
  induction l generalizing k with
  | nil => rfl
  | cons x l ih =>
    rw [List.nodup_cons] at hl
    rw [List.foldl_cons, List.foldl_cons, hk x (List.mem_cons_self ..), hf k hd x (List.mem_cons_self ..)]
    exact ih hl.2 (fun k hd z hz => hf k hd z (List.mem_cons_of_mem _ hz)) hd
      (fun z hz => (lcoreOf_putLcore_other _ (fun (e : z = x) => hl.1 (e ▸ hz))).trans (hk z (List.mem_cons_of_mem _ hz)))

theorem withCores_engines (j k : Job) (f : Nat → Option Nat) (l : List Nat) (e : List (Nat × Engine)) :
    { j.withCores f l k with engines := e } = j.withCores f l { k with engines := e } := by
  unfold Job.withCores
  induction l generalizing k with
  | nil => rfl
  | cons x l ih => exact ih _

theorem withCores_keeps (j k : Job) (f : Nat → Option Nat) (l : List Nat) : (j.withCores f l k).engines = k.engines ∧ (j.withCores f l k).id = k.id := by
  unfold Job.withCores
  induction l generalizing k with
  | nil => exact ⟨rfl, rfl⟩
  | cons x l ih => exact ih _

theorem clusterCores_nodup (j : Job) (c : Nat) : (j.clusterCores c).Nodup := by
  unfold Job.clusterCores
  refine List.Nodup.filter _ (List.Nodup.map (fun a b h => ?_) List.nodup_range)
  exact Nat.add_left_cancel h

theorem mem_clusterCores {j : Job} {c l : Nat} : l ∈ j.clusterCores c ↔ l / 8 = c ∧ l < j.logical := by
  unfold Job.clusterCores
  simp only [List.mem_filter, List.mem_map, List.mem_range, decide_eq_true_eq]
  constructor
  · rintro ⟨⟨k, hk, rfl⟩, hl⟩
    exact ⟨by omega, hl⟩
  · rintro ⟨hc, hl⟩
    exact ⟨⟨l % 8, by omega, by omega⟩, hl⟩

/-- A job whose context on a logical cluster has left. -/
def Job.contextLeft (j : Job) (c : Nat) : Job :=
  (j.clusterCores c).foldl (fun k l => k.putLcore l { k.lcoreOf l with core := none }) (j.setContext c false)

/-- A job whose context is on its cluster again. -/
def Job.contextHere (j : Job) (c : Nat) : Job :=
  (j.clusterCores c).foldl (fun k l => k.putLcore l { k.lcoreOf l with core := some (k.seqCore l) }) (j.setContext c true)

theorem contextLeft_eq (j : Job) (c : Nat) : j.contextLeft c = j.withCores (fun _ => none) (j.clusterCores c) (j.setContext c false) :=
  foldl_core_eq (f := fun _ _ => none) (clusterCores_nodup j c) (fun _ _ _ _ => rfl) rfl (fun _ _ => rfl)

theorem contextHere_eq (j : Job) (c : Nat) :
    j.contextHere c = j.withCores (fun l => some (8 * j.clusterAt c + l % 8)) (j.clusterCores c) (j.setContext c true) := by
  refine foldl_core_eq (f := fun k l => some (k.seqCore l)) (clusterCores_nodup j c) (fun k hk l hl => ?_) rfl (fun _ _ => rfl)
  unfold Job.seqCore Job.clusterAt Job.clusters
  rw [(mem_clusterCores.1 hl).1, hk]

/-- The teams of a cluster that are on it. -/
def State.teamsOn (s : State) (j : Job) (c : Nat) : List Nat := (j.clusterTeams c).filter (fun t => (s.teamOf j.id t).resident)

/-- The headers of a cluster's images that the part cannot meet. -/
def State.badHeader (s : State) (j : Job) (c : Nat) : Bool :=
  (s.images.filter (fun m => m.job == j.id && (m.team == contextRef c || (j.clusterTeams c).contains m.team))).any (fun m => !s.headerOk m)

theorem clusterOut_eq (s : State) (j : Job) (c : Nat) : s.clusterOut j c =
    if (s.teamsOn j c).any (fun t => s.teamBusy j.id t) then none
    else some (((((s.teamsOn j c).foldl (fun x t => x.teamOut j t) s).overSeq j c (fun g => g.out s)).onJob j.id (fun k => k.contextLeft c)).addImage j
      (contextRef c) .context (8 * j.clusterAt c)) := by
  rw [← mapGroups_isSeq]
  rfl

theorem clusterBack_eq (s : State) (j : Job) (c : Nat) : s.clusterBack j c =
    if (j.clusterTeams c).any (fun t => !s.teamReturns j t (j.seqCore (s.teamOf j.id t).lcore)) then none
    else if s.badHeader j c then some (s.stopJob j.id 3)
    else some ((((j.clusterTeams c).foldl (fun x t => x.teamIn j t (j.seqCore (s.teamOf j.id t).lcore)) (s.onJob j.id (fun k => k.contextHere c))).overSeq j c
      (fun g => g.back s (8 * j.clusterAt c) 0)).dropImage j.id (contextRef c)) := by
  rw [← mapGroups_isSeq]
  rfl

end Sys2Proof.Machine
end

section

namespace Sys2Proof.Machine
open Host

theorem teamsOn_nil {s : State} {j : Job} {c : Nat} (h : j.clusterTeams c = []) : s.teamsOn j c = [] := by
  unfold State.teamsOn
  rw [h]
  rfl

/-- Without teams a context is saved alone. -/
theorem clusterOut_alone {s : State} {j : Job} {c : Nat} (hj : look s.jobs j.id = some j) (ht : j.clusterTeams c = []) : s.clusterOut j c =
    some { s.overSeq j c (fun g => g.out s) with
      jobs := put s.jobs j.id (j.contextLeft c)
      images := s.images ++ [⟨j.id, 2 ^ 64 + c, .context, s.time, j.bstUse, j.engUse, Config.imageBytes 2 s.tick, s.imagePlace (8 * j.clusterAt c)⟩] } := by
  have hid : (j.contextLeft c).id = j.id := by rw [contextLeft_eq]; exact (withCores_keeps ..).2
  rw [clusterOut_eq, teamsOn_nil ht, List.any_nil, if_neg Bool.false_ne_true, List.foldl_nil,
    onJob_found _ (show look (s.overSeq j c _).jobs j.id = some j from hj)]
  unfold State.putJob
  rw [hid]
  rfl

theorem not_badHeader {s : State} {j : Job} {c : Nat} (ht : j.clusterTeams c = [])
    (hi : ∀ y ∈ s.images, y.job = j.id → y.team = 2 ^ 64 + c → s.headerOk y = true) : s.badHeader j c = false := by
  unfold State.badHeader
  rw [List.any_eq_false]
  intro y hy
  obtain ⟨hm, hp⟩ := List.mem_filter.1 hy
  simp only [ht, Bool.and_eq_true, beq_iff_eq, List.contains_nil, Bool.or_false] at hp
  rw [hi y hm hp.1 hp.2]
  decide

/-- Without teams a context comes back alone where its header fits the part. -/
theorem clusterBack_alone {s : State} {j : Job} {c : Nat} (hj : look s.jobs j.id = some j) (ht : j.clusterTeams c = [])
    (hi : ∀ y ∈ s.images, y.job = j.id → y.team = 2 ^ 64 + c → s.headerOk y = true) : s.clusterBack j c =
    some { s.overSeq j c (fun g => g.back s (8 * j.clusterAt c) 0) with
      jobs := put s.jobs j.id (j.contextHere c)
      images := s.images.filter (fun y => !(y.job == j.id && y.team == 2 ^ 64 + c)) } := by
  have hid : (j.contextHere c).id = j.id := by rw [contextHere_eq]; exact (withCores_keeps ..).2
  rw [clusterBack_eq, ht, List.any_nil, if_neg Bool.false_ne_true, not_badHeader ht hi, if_neg Bool.false_ne_true, List.foldl_nil,
    onJob_found _ hj]
  unfold State.putJob
  rw [hid]
  rfl

theorem exec_contextSwitch {s : State} {job c : Nat} {j : Job} (hj : look s.jobs job = some j) (hr : j.running = true) (hs : j.seqEntry ≠ 0#64)
    (hc : c < (j.logical + 7) / 8) : exec (.engineContextSwitch job c) s = .next (s.clusterSwitch j c) := by
  rw [exec_engineContextSwitch]
  unfold execEngineContextSwitch
  rw [hj]
  exact congrArg Outcome.next (if_pos ⟨hr, sequenced_iff.2 hs, hc⟩)

/-- Whether another launch evicts a launch's context from its cluster. -/
def State.evicts (s : State) (j : Job) (c : Nat) : Bool := s.jobs.any (fun p => s.needsContext p.2 j (8 * j.clusterAt c))

theorem clusterSwitch_stays {s : State} {j : Job} {c : Nat} (hr : (j.engine c).resident = true) (he : s.evicts j c = false)
    (hs : j.slices c = false) : s.clusterSwitch j c = s.idle := by
  unfold State.clusterSwitch
  rw [hr, show (s.jobs.any fun p => s.needsContext p.2 j (8 * j.clusterAt c)) = false from he, hs]
  rfl

theorem clusterSwitch_evicted {s : State} {j : Job} {c : Nat} (hr : (j.engine c).resident = true) (he : s.evicts j c = true) :
    s.clusterSwitch j c = ((s.clusterOut j c).getD s).idle := by
  unfold State.clusterSwitch
  rw [hr, show (s.jobs.any fun p => s.needsContext p.2 j (8 * j.clusterAt c)) = true from he]
  rfl

theorem clusterSwitch_sliced {s : State} {j : Job} {c : Nat} (hr : (j.engine c).resident = true) (he : s.evicts j c = false)
    (hs : j.slices c = true) : s.clusterSwitch j c =
      (((s.clusterOut j c).map (fun t => t.onJob j.id (fun k => k.hadTurn c (s.tick + 1)))).getD s).idle := by
  unfold State.clusterSwitch
  rw [hr, show (s.jobs.any fun p => s.needsContext p.2 j (8 * j.clusterAt c)) = false from he, hs]
  rfl

theorem clusterSwitch_in {s : State} {j : Job} {c : Nat} (hr : (j.engine c).resident = false) (ho : s.contextOn (j.clusterAt c) = false)
    (ha : s.contextAhead j c = false) : s.clusterSwitch j c = ((s.clusterBack j c).getD s).idle := by
  unfold State.clusterSwitch State.clusterIn
  rw [hr, ho, ha]
  rfl

theorem contextLeft_engines (j : Job) (c : Nat) : (j.contextLeft c).engines = put j.engines c { j.engine c with resident := false } := by
  rw [contextLeft_eq]
  exact (withCores_keeps ..).1

theorem contextLeft_id (j : Job) (c : Nat) : (j.contextLeft c).id = j.id := by
  rw [contextLeft_eq]
  exact (withCores_keeps ..).2

/-- A context that leaves as its turn ends. -/
theorem hadTurn_contextLeft (j : Job) (c turn : Nat) : (j.contextLeft c).hadTurn c turn = j.withCores (fun _ => none) (j.clusterCores c)
    { j with engines := put j.engines c { j.engine c with resident := false, since := turn } } := by
  have he : (j.contextLeft c).engine c = { j.engine c with resident := false } := by
    unfold Job.engine
    rw [contextLeft_engines, look_put, if_pos rfl]
    rfl
  unfold Job.hadTurn
  rw [he, contextLeft_engines, put_put, contextLeft_eq, withCores_engines]
  rfl

end Sys2Proof.Machine
end

section

/-! ## A partition leaves (01 R18, 13 R263) -/

namespace Sys2Proof.Machine
open Host

/-- A job with its remap table and the residence of its contexts changed, of those of `held` only. -/
structure Job.Parks (k : Job) (held : List Nat) (l : Job) : Prop where
  rest : l = { k with lcores := l.lcores, engines := l.engines }
  engines : ∀ c, { l.engine c with resident := true } = { k.engine c with resident := true }
  others : ∀ c, c ∉ held → l.engine c = k.engine c

theorem Job.Parks.refl (k : Job) (held : List Nat) : k.Parks held k := ⟨rfl, fun _ => rfl, fun _ _ => rfl⟩

theorem Job.Parks.trans {k l m : Job} {held : List Nat} (h : k.Parks held l) (h' : l.Parks held m) : k.Parks held m := by
  refine ⟨?_, fun c => (h'.engines c).trans (h.engines c), fun c hc => (h'.others c hc).trans (h.others c hc)⟩
  have := h'.rest
  rw [h.rest] at this
  exact this

theorem Job.Parks.id_eq {k l : Job} {held : List Nat} (h : k.Parks held l) : l.id = k.id := by
  rw [h.rest]

theorem parks_putLcore (k : Job) (held : List Nat) (lc : Nat) (v : LCore) : k.Parks held (k.putLcore lc v) :=
  ⟨rfl, fun _ => rfl, fun _ _ => rfl⟩

theorem withCores_rest (j k : Job) (f : Nat → Option Nat) (l : List Nat) :
    j.withCores f l k = { k with lcores := (j.withCores f l k).lcores } := by
  unfold Job.withCores
  induction l generalizing k with
  | nil => rfl
  | cons x l ih =>
    rw [List.foldl_cons]
    exact (ih _).trans rfl

theorem engine_put {j k : Job} {c : Nat} {e : Engine} (h : k.engines = put j.engines c e) (d : Nat) :
    k.engine d = if d = c then e else j.engine d := by
  unfold Job.engine
  rw [h, look_put]
  split <;> rfl

theorem parks_contextLeft {k : Job} {held : List Nat} {c : Nat} (hc : c ∈ held) : k.Parks held (k.contextLeft c) := by
  have he := engine_put (contextLeft_engines k c)
  refine ⟨?_, fun d => ?_, fun d hd => ?_⟩
  · rw [contextLeft_eq, withCores_rest]
    rfl
  · rw [he]
    split
    next h => rw [h]
    · rfl
  · rw [he, if_neg (fun (e : d = c) => hd (e ▸ hc))]

/-- `t` is `s` with work of a launch saved: its job parked, and of everything else no image gone, no team placed. -/
structure State.Saving (s : State) (id : Nat) (held : List Nat) (t : State) : Prop where
  time : t.time = s.time
  images : ∀ m ∈ s.images, m ∈ t.images
  others : ∀ n, n ≠ id → look t.jobs n = look s.jobs n
  teams : ∀ k x, look t.teams k = some x → x.resident = true → look s.teams k = some x
  job : ∀ k, look s.jobs id = some k → k.id = id → ∃ l, look t.jobs id = some l ∧ k.Parks held l

theorem State.Saving.refl (s : State) (id : Nat) (held : List Nat) : s.Saving id held s :=
  ⟨rfl, fun _ h => h, fun _ _ => rfl, fun _ _ h _ => h, fun k h _ => ⟨k, h, .refl k held⟩⟩

theorem State.Saving.trans {s t u : State} {id : Nat} {held : List Nat} (h : s.Saving id held t) (h' : t.Saving id held u) : s.Saving id held u where
  time := h'.time.trans h.time
  images m hm := h'.images m (h.images m hm)
  others n hn := (h'.others n hn).trans (h.others n hn)
  teams k x hx hr := h.teams k x (h'.teams k x hx hr) hr
  job k hk hi := by
    obtain ⟨l, hl, hkl⟩ := h.job k hk hi
    obtain ⟨m, hm, hlm⟩ := h'.job l hl (hkl.id_eq.trans hi)
    exact ⟨m, hm, hkl.trans hlm⟩

theorem look_onJob_other {s : State} {id n : Nat} {f : Job → Job} (hi : ∀ k, look s.jobs id = some k → (f k).id = id) (h : n ≠ id) :
    look (s.onJob id f).jobs n = look s.jobs n := by
  unfold State.onJob
  split
  next k hk =>
    show look (put s.jobs (f k).id (f k)) n = _
    rw [look_put, hi k hk, if_neg h]
  · rfl

theorem look_onJob_same {s : State} {id : Nat} {f : Job → Job} {k : Job} (hk : look s.jobs id = some k) (hi : (f k).id = id) :
    look (s.onJob id f).jobs id = some (f k) := by
  rw [onJob_found f hk]
  show look (put s.jobs (f k).id (f k)) id = _
  rw [look_put, if_pos hi.symm]

/-- A change of a launch's job. -/
theorem saving_onJob {s : State} {id : Nat} {held : List Nat} {f : Job → Job} (hi : ∀ k, look s.jobs id = some k → k.id = id)
    (hf : ∀ k : Job, k.id = id → k.Parks held (f k)) : s.Saving id held (s.onJob id f) where
  time := by unfold State.onJob; split <;> rfl
  images m hm := by unfold State.onJob; split <;> exact hm
  others n hn := look_onJob_other (fun k hk => (hf k (hi k hk)).id_eq.trans (hi k hk)) hn
  teams k x hx hr := by
    unfold State.onJob at hx
    split at hx <;> exact hx
  job k hk hkid := ⟨f k, look_onJob_same hk ((hf k hkid).id_eq.trans hkid), hf k hkid⟩

theorem saving_addImage (s : State) (id : Nat) (held : List Nat) (j : Job) (ref : Nat) (kind : ImageKind) (core : Nat) :
    s.Saving id held (s.addImage j ref kind core) :=
  ⟨rfl, fun _ h => List.mem_append_left _ h, fun _ _ => rfl, fun _ _ h _ => h, fun k h _ => ⟨k, h, .refl k held⟩⟩

theorem saving_mapGroups (s : State) (id : Nat) (held : List Nat) (f : Group → Group) : s.Saving id held (s.mapGroups f) :=
  ⟨rfl, fun _ h => h, fun _ _ => rfl, fun _ _ h _ => h, fun k h _ => ⟨k, h, .refl k held⟩⟩

theorem saving_putTeam (s : State) (id : Nat) (held : List Nat) {T : Team} (h : T.resident = false) : s.Saving id held (s.putTeam T) where
  time := rfl
  images _ hm := hm
  others _ _ := rfl
  teams k x hx hr := by
    change look (put s.teams (teamKey T.job T.idx) T) k = some x at hx
    rw [look_put] at hx
    split at hx
    · cases hx
      rw [h] at hr
      cases hr
    · exact hx
  job k hk _ := ⟨k, hk, .refl k held⟩

theorem saving_teamOut {s : State} (h : s.Records) (j : Job) (team : Nat) (held : List Nat) : s.Saving j.id held (s.teamOut j team) := by
  unfold State.teamOut
  refine .trans (.trans (.trans (saving_mapGroups _ _ _ _) (saving_putTeam _ _ _ ?_)) (saving_onJob ?_ (fun k _ => parks_putLcore ..))) (saving_addImage ..)
  · rfl
  · exact fun k hk => h.jobId hk

theorem saving_taskOut (s : State) (j : Job) (gid id : Nat) (held : List Nat) : s.Saving id held (s.taskOut j gid) := by
  unfold State.taskOut
  exact (saving_mapGroups ..).trans (saving_addImage ..)

/-- A state reached from `s` by saving, its records kept. -/
def State.Reached (s : State) (id : Nat) (held : List Nat) (t : State) : Prop := t.Records ∧ s.Saving id held t

theorem reached_foldl {α : Type} {s t : State} {id : Nat} {held : List Nat} {f : State → α → State} {l : List α} (ht : s.Reached id held t)
    (hf : ∀ (u : State) (x : α), x ∈ l → u.Records → u.Reached id held (f u x)) : s.Reached id held (l.foldl f t) :=
  List.foldlRecOn l f ht (fun u hu x hx => ⟨(hf u x hx hu.1).1, hu.2.trans (hf u x hx hu.1).2⟩)

theorem reached_refl {s : State} (h : s.Records) (id : Nat) (held : List Nat) : s.Reached id held s := ⟨h, .refl s id held⟩

theorem reached_clusterOut {s t : State} {j : Job} {c : Nat} {held : List Nat} (h : s.Records) (hc : c ∈ held) (ho : s.clusterOut j c = some t) :
    s.Reached j.id held t := by
  refine ⟨State.clusterOut_keeps h ho, ?_⟩
  rw [clusterOut_eq] at ho
  split at ho <;> cases ho
  have hts := reached_foldl (l := s.teamsOn j c) (f := fun x t => x.teamOut j t) (reached_refl h j.id held)
    (fun u t _ hu => ⟨State.teamOut_keeps j t hu, saving_teamOut hu j t held⟩)
  rw [← mapGroups_isSeq]
  exact .trans (.trans (.trans hts.2 (saving_mapGroups _ _ _ _)) (saving_onJob (fun k hk => hts.1.jobId hk) (fun k _ => parks_contextLeft hc)))
    (saving_addImage ..)

end Sys2Proof.Machine
end

section

namespace Sys2Proof.Machine
open Host

/-- Every team of a launch is off its core. -/
def State.Off (s : State) (id : Nat) : Prop := ∀ n x, look s.teams (teamKey id n) = some x → x.job = id → x.resident = false

theorem State.Saving.off {s t : State} {id n : Nat} {held : List Nat} (h : s.Saving id held t) (ho : s.Off n) : t.Off n := by
  intro m x hx hj
  by_contra hr
  exact hr (ho m x (h.teams _ x hx (Bool.not_eq_false _ ▸ hr)) hj)

/-- The contexts of logical clusters leave. -/
def State.contextsOut (s : State) (id : Nat) (l : List Nat) : State :=
  l.foldl (fun t c => match look t.jobs id with | some k => (t.clusterOut k c).getD t | none => t) s

/-- Teams leave. -/
def State.teamsOut (s : State) (id : Nat) (l : List Team) : State :=
  l.foldl (fun t m => match look t.jobs id with | some k => t.teamOut k m.idx | none => t) s

/-- The clusters whose contexts are on them. -/
def Job.held (j : Job) : List Nat := (j.engines.filter (fun e => e.2.resident)).map Prod.fst

/-- A launch's teams that are on a core. -/
def State.onCores (s : State) (id : Nat) : List Team := (s.teams.map Prod.snd).filter (fun t => t.job == id && t.resident)

/-- A launch's tasks that are on a core. -/
def State.tasksOn (s : State) (id : Nat) : List Group := s.allGroups.filter (fun g => g.kind == .task && g.job == id && g.resident && !g.done)

/-- A job away, its contexts on their clusters still. -/
def Job.swapOut (k : Job) (held : List Nat) : Job := held.foldl (fun k c => k.setContext c true) { k with phase := .swapped }

/-- A launch's contexts, teams and tasks leave. -/
def State.partsOut (s : State) (j : Job) : State :=
  let s1 := s.contextsOut j.id j.held
  let s2 := s1.teamsOut j.id (s1.onCores j.id)
  (s2.tasksOn j.id).foldl (fun t g => t.taskOut j g.gid) s2

theorem partitionOut_eq (s : State) (j : Job) : s.partitionOut j =
    ((s.partsOut j).onJob j.id (fun k => k.swapOut j.held)).addImage j partitionRef .partition (j.cores.headD 0) := rfl

theorem reached_contextsOut {s : State} (h : s.Records) (id : Nat) {l held : List Nat} (hl : ∀ c ∈ l, c ∈ held) :
    s.Reached id held (s.contextsOut id l) := by
  refine reached_foldl (reached_refl h id held) (fun u c hc hu => ?_)
  split
  next k hk =>
    cases ho : u.clusterOut k c with
    | none => exact reached_refl hu id held
    | some v =>
      have := reached_clusterOut hu (hl c hc) ho
      rwa [hu.jobId hk] at this
  · exact reached_refl hu id held

theorem reached_teamOut {s : State} (h : s.Records) {id : Nat} {k : Job} (hk : look s.jobs id = some k) (n : Nat) (held : List Nat) :
    s.Reached id held (s.teamOut k n) := by
  have := saving_teamOut h k n held
  rw [h.jobId hk] at this
  exact ⟨State.teamOut_keeps k n h, this⟩

theorem teamsOut_cons (s : State) (id : Nat) (m : Team) (l : List Team) :
    s.teamsOut id (m :: l) = (match look s.jobs id with | some k => s.teamOut k m.idx | none => s).teamsOut id l := rfl

theorem reached_teamsOut {s : State} (h : s.Records) (id : Nat) (l : List Team) (held : List Nat) : s.Reached id held (s.teamsOut id l) := by
  refine reached_foldl (reached_refl h id held) (fun u m hm hu => ?_)
  split
  next k hk => exact reached_teamOut hu hk m.idx held
  · exact reached_refl hu id held

theorem teamOut_teams (s : State) (j : Job) (n : Nat) : (s.teamOut j n).teams =
    put s.teams (teamKey (s.teamOf j.id n).job (s.teamOf j.id n).idx) { s.teamOf j.id n with resident := false } := by
  unfold State.teamOut State.addImage State.onJob
  dsimp only
  split <;> rfl

theorem teamOut_off {s : State} (h : s.Records) {j : Job} {n : Nat} {x : Team} (hx : look (s.teamOut j n).teams (teamKey j.id n) = some x) :
    x.resident = false := by
  rw [teamOut_teams, look_put] at hx
  split at hx
  · cases hx; rfl
  next hne =>
    refine absurd ?_ hne
    rw [teamOf_found hx, h.teamAt hx]

/-- Each team told to leave is off its core. -/
theorem teamsOut_off {id : Nat} {l : List Team} {s : State} (h : s.Records) (hj : ∃ k, look s.jobs id = some k) {m : Team} (hm : m ∈ l) {x : Team}
    (hx : look (s.teamsOut id l).teams (teamKey id m.idx) = some x) : x.resident = false := by
  induction l generalizing s with
  | nil => cases hm
  | cons y l ih =>
    obtain ⟨k, hk⟩ := hj
    have hid := h.jobId hk
    have hu := reached_teamOut h hk y.idx []
    rw [teamsOut_cons, hk] at hx
    rcases List.mem_cons.1 hm with rfl | hm
    · by_contra hr
      have hl := (reached_teamsOut hu.1 id l []).2.teams _ x hx (Bool.not_eq_false _ ▸ hr)
      rw [← hid] at hl
      exact hr (teamOut_off h hl)
    · obtain ⟨k', hk', -⟩ := hu.2.job k hk hid
      exact ih hu.1 ⟨k', hk'⟩ hm hx

theorem teamKey_inj {job n m : Nat} (h : teamKey job n = teamKey job m) : n = m := Nat.add_left_cancel h

/-- Once every team on a core has left, none is on one. -/
theorem teamsOut_onCores_off {s : State} (h : s.Records) {id : Nat} (hj : ∃ k, look s.jobs id = some k) : (s.teamsOut id (s.onCores id)).Off id := by
  intro n x hx hxj
  by_contra hr
  have hr' : x.resident = true := Bool.not_eq_false _ ▸ hr
  have hs := (reached_teamsOut h id (s.onCores id) []).2.teams _ x hx hr'
  have hn : n = x.idx := by
    have := h.teamAt hs
    rw [hxj] at this
    exact (teamKey_inj this).symm
  have hm : x ∈ s.onCores id := by
    refine List.mem_filter.2 ⟨List.mem_map.2 ⟨_, look_mem hs, rfl⟩, ?_⟩
    simp only [hxj, hr', beq_self_eq_true, Bool.and_self]
  exact hr (teamsOut_off h hj hm (hn ▸ hx))

theorem mem_held_resident {j : Job} (hn : (j.engines.map Prod.fst).Nodup) {c : Nat} (hc : c ∈ j.held) : (j.engine c).resident = true := by
  obtain ⟨⟨d, e⟩, he, rfl⟩ := List.mem_map.1 hc
  obtain ⟨hm, hr⟩ := List.mem_filter.1 he
  unfold Job.engine
  rw [look_of_mem hn hm]
  exact hr

theorem engine_setContext (k : Job) (c : Nat) (r : Bool) (d : Nat) :
    (k.setContext c r).engine d = if d = c then { k.engine c with resident := r } else k.engine d :=
  engine_put (j := k) rfl d

theorem foldl_setContext_rest (l : List Nat) (k : Job) :
    l.foldl (fun k c => k.setContext c true) k = { k with engines := (l.foldl (fun k c => k.setContext c true) k).engines } := by
  induction l generalizing k with
  | nil => rfl
  | cons c l ih => exact (ih _).trans rfl

theorem foldl_setContext_engine (l : List Nat) (k : Job) (d : Nat) : (l.foldl (fun k c => k.setContext c true) k).engine d =
    if d ∈ l then { k.engine d with resident := true } else k.engine d := by
  induction l generalizing k with
  | nil => rfl
  | cons c l ih =>
    rw [List.foldl_cons, ih, engine_setContext]
    by_cases h : d = c
    · subst h
      simp
    · simp [h]

/-- A launch that has left: its contexts stand as they stood. -/
theorem parks_swapOut {k l : Job} (h : k.Parks k.held l) : l.swapOut k.held = { k with
    phase := .swapped, lcores := (l.swapOut k.held).lcores, engines := (l.swapOut k.held).engines } ∧
    ((k.engines.map Prod.fst).Nodup → ∀ c, (l.swapOut k.held).engine c = k.engine c) := by
  refine ⟨?_, fun hn c => ?_⟩
  · unfold Job.swapOut
    rw [foldl_setContext_rest, h.rest]
  · unfold Job.swapOut
    rw [foldl_setContext_engine]
    split
    next hc =>
      have hr := mem_held_resident hn hc
      have he := h.engines c
      rw [show ({ k.engine c with resident := true } : Engine) = k.engine c by rw [← hr]] at he
      exact he
    next hc => exact h.others c hc

/-- What a launch that has left its partition leaves behind. -/
structure State.Swapped (t : State) (k : Job) (time : Nat) : Prop where
  job : ∃ l, look t.jobs k.id = some l ∧ l = { k with phase := .swapped, lcores := l.lcores, engines := l.engines } ∧
    ((k.engines.map Prod.fst).Nodup → ∀ c, l.engine c = k.engine c)
  off : t.Off k.id
  image : ∃ m ∈ t.images, m = ⟨k.id, partitionRef, .partition, time, k.bstUse, k.engUse, m.size, m.place⟩

theorem reached_partsOut {s : State} (h : s.Records) (j : Job) :
    s.Reached j.id j.held (s.partsOut j) ∧ ((∃ k, look s.jobs j.id = some k) → (s.partsOut j).Off j.id) := by
  have h1 : s.Reached j.id j.held (s.contextsOut j.id j.held) := reached_contextsOut h j.id (fun _ hc => hc)
  have h2 := reached_teamsOut h1.1 j.id ((s.contextsOut j.id j.held).onCores j.id) j.held
  have h3 := reached_foldl (l := State.tasksOn ((s.contextsOut j.id j.held).teamsOut j.id ((s.contextsOut j.id j.held).onCores j.id)) j.id)
    (f := fun (t : State) (g : Group) => t.taskOut j g.gid) (reached_refl h2.1 j.id j.held)
    (fun u g _ hu => ⟨State.taskOut_keeps _ _ hu, saving_taskOut ..⟩)
  refine ⟨⟨h3.1, (h1.2.trans h2.2).trans h3.2⟩, fun ⟨k, hk⟩ => h3.2.off (teamsOut_onCores_off h1.1 ?_)⟩
  obtain ⟨l, hl, -⟩ := h1.2.job k hk (h.jobId hk)
  exact ⟨l, hl⟩

theorem swapOut_id (k : Job) (l : List Nat) : (k.swapOut l).id = k.id := by
  unfold Job.swapOut
  rw [foldl_setContext_rest]

/-- The launches of a partition apart from the one that leaves stay as they were. -/
structure State.Spares (s : State) (id : Nat) (t : State) : Prop where
  time : t.time = s.time
  images : ∀ m ∈ s.images, m ∈ t.images
  others : ∀ n, n ≠ id → look t.jobs n = look s.jobs n
  off : ∀ n, s.Off n → t.Off n

theorem onJob_rest (s : State) (id : Nat) (f : Job → Job) : s.onJob id f = { s with jobs := (s.onJob id f).jobs } := by
  unfold State.onJob
  split <;> rfl

theorem partitionOut_spares {s : State} (h : s.Records) (j : Job) : s.Spares j.id (s.partitionOut j) := by
  rw [partitionOut_eq]
  obtain ⟨⟨hr, hs⟩, -⟩ := reached_partsOut h j
  generalize s.partsOut j = u at hr hs ⊢
  have hu : ∀ k, look u.jobs j.id = some k → (k.swapOut j.held).id = j.id := fun k hk => (swapOut_id ..).trans (hr.jobId hk)
  have ho := fun n hn => (look_onJob_other hu (n := n) hn).trans (hs.others n hn)
  rw [onJob_rest]
  exact ⟨hs.time, fun m hm => List.mem_append_left _ (hs.images m hm), ho, fun n hn => hs.off hn⟩

theorem partitionOut_swapped {s : State} (h : s.Records) {j : Job} (hj : look s.jobs j.id = some j) : (s.partitionOut j).Swapped j s.time := by
  rw [partitionOut_eq]
  obtain ⟨⟨hr, hs⟩, ho⟩ := reached_partsOut h j
  have ho := ho ⟨j, hj⟩
  generalize s.partsOut j = u at hr hs ho ⊢
  obtain ⟨l, hl, hp⟩ := hs.job j hj rfl
  refine ⟨⟨l.swapOut j.held, look_onJob_same hl ((swapOut_id ..).trans (hr.jobId hl)), parks_swapOut hp⟩, ?_, ?_⟩
  · rw [onJob_rest]
    exact ho
  · refine ⟨_, List.mem_append_right _ (List.mem_singleton.2 rfl), ?_⟩
    rw [onJob_rest, ← hs.time]

end Sys2Proof.Machine
end

section

/-! ## A partition comes back (01 R18, 13 R262, R263, R265) -/

namespace Sys2Proof.Machine
open Host

/-- What becomes of a job whose contexts and teams come back: its remap table and contexts change, a bad header stops it. -/
inductive Job.Returns (k : Job) : Job → Prop
  | refl : k.Returns k
  | remap {l : Job} (lc : List (Nat × LCore)) (e : List (Nat × Engine)) : k.Returns l → k.Returns { l with lcores := lc, engines := e }
  | stop {l : Job} : k.Returns l → k.Returns (l.stop 3)

theorem Job.Returns.trans {k l m : Job} (h : k.Returns l) (h' : l.Returns m) : k.Returns m := by
  induction h' with
  | refl => exact h
  | remap lc e _ ih => exact ih.remap lc e
  | stop _ ih => exact ih.stop

theorem Job.Returns.id_eq {k l : Job} (h : k.Returns l) : l.id = k.id := by
  induction h with
  | refl => rfl
  | remap lc e _ ih => exact ih
  | stop _ ih => exact (stop_id ..).trans ih

/-- A job that ran goes on or has ended with FEATURE. -/
theorem Job.Returns.runs_or_ends {k l : Job} (h : k.Returns l) (hk : k.phase = .running) :
    l.phase = .ending 3 ∨ l = { k with lcores := l.lcores, engines := l.engines } := by
  induction h with
  | refl => exact Or.inr rfl
  | remap lc e _ ih =>
    refine ih.imp (fun h => h) (fun hl => ?_)
    rw [hl]
  | @stop l _ ih =>
    left
    unfold Job.stop
    split
    next st hst =>
      rcases ih with h | h
      · exact h
      · rw [h, hk] at hst
        cases hst
    · rfl

/-- `t` is `s` with work of a launch back: the other launches and their images are as they were, no image is new. -/
structure State.Restores (s : State) (id : Nat) (t : State) : Prop where
  others : ∀ n, n ≠ id → look t.jobs n = look s.jobs n
  imageOf : ∀ n, n ≠ id → ∀ ref, t.imageOf n ref = s.imageOf n ref
  images : ∀ m ∈ t.images, m ∈ s.images
  header : ∀ m, t.headerOk m = s.headerOk m

theorem State.Restores.trans {s t u : State} {id : Nat} (h : s.Restores id t) (h' : t.Restores id u) : s.Restores id u where
  others n hn := (h'.others n hn).trans (h.others n hn)
  imageOf n hn ref := (h'.imageOf n hn ref).trans (h.imageOf n hn ref)
  images m hm := h.images m (h'.images m hm)
  header m := (h'.header m).trans (h.header m)

theorem restores_refl (s : State) (id : Nat) : s.Restores id s := ⟨fun _ _ => rfl, fun _ _ _ => rfl, fun _ hm => hm, fun _ => rfl⟩

theorem restores_onJob {s : State} (h : s.Records) {id : Nat} {f : Job → Job} (hf : ∀ k, (f k).id = k.id) : s.Restores id (s.onJob id f) := by
  have ho := fun n (hn : n ≠ id) => look_onJob_other (fun k hk => (hf k).trans (h.jobId hk)) hn
  rw [onJob_rest]
  exact ⟨ho, fun _ _ _ => rfl, fun _ hm => hm, fun _ => rfl⟩

theorem restores_dropImage (s : State) (id ref : Nat) : s.Restores id (s.dropImage id ref) := by
  refine ⟨fun _ _ => rfl, fun n hn r => ?_, fun m hm => (List.mem_filter.1 hm).1, fun _ => rfl⟩
  unfold State.imageOf State.dropImage
  dsimp only
  rw [List.find?_filter]
  congr 1
  funext m
  rw [Bool.eq_iff_iff]
  by_cases hm : m.job = n
  · subst hm
    simp [hn]
  · simp [hm]

theorem stopJob_eq_onJob (s : State) (id st : Nat) : s.stopJob id st = s.onJob id (fun j => j.stop st) := rfl

/-- Work of a launch is back, the records kept; its job, where it stands, has returned. -/
structure State.Back (s : State) (id : Nat) (t : State) : Prop where
  records : t.Records
  restores : s.Restores id t
  job : ∀ k, look s.jobs id = some k → ∃ l, look t.jobs id = some l ∧ k.Returns l

theorem back_refl {s : State} (h : s.Records) (id : Nat) : s.Back id s := ⟨h, restores_refl s id, fun k hk => ⟨k, hk, .refl⟩⟩

theorem State.Back.trans {s t u : State} {id : Nat} (h : s.Back id t) (h' : t.Back id u) : s.Back id u where
  records := h'.records
  restores := h.restores.trans h'.restores
  job k hk := by
    obtain ⟨l, hl, hkl⟩ := h.job k hk
    obtain ⟨m, hm, hlm⟩ := h'.job l hl
    exact ⟨m, hm, hkl.trans hlm⟩

theorem back_onJob {s : State} (h : s.Records) {id : Nat} {f : Job → Job} (hf : ∀ k : Job, k.Returns (f k)) : s.Back id (s.onJob id f) :=
  ⟨State.onJob_keeps _ _ h, restores_onJob h (fun k => (hf k).id_eq),
    fun k hk => ⟨f k, look_onJob_same hk ((hf k).id_eq.trans (h.jobId hk)), hf k⟩⟩

theorem back_dropImage {s : State} (h : s.Records) (id ref : Nat) : s.Back id (s.dropImage id ref) :=
  ⟨State.dropImage_keeps _ _ h, restores_dropImage s id ref, fun k hk => ⟨k, hk, .refl⟩⟩

/-- A change of strands and teams. -/
theorem back_strands {s t : State} (ht : t.Records) (id : Nat) (hj : t.jobs = s.jobs) (hi : t.images = s.images) (hp : t.part = s.part) :
    s.Back id t := by
  refine ⟨ht, ⟨fun _ _ => by rw [hj], fun _ _ _ => ?_, fun _ hm => hi ▸ hm, fun m => ?_⟩, fun k hk => ⟨k, hj ▸ hk, .refl⟩⟩
  · unfold State.imageOf
    rw [hi]
  · unfold State.headerOk State.bst State.dies
    rw [hp]

theorem back_putTeam {s : State} (h : s.Records) (id : Nat) (T : Team) : s.Back id (s.putTeam T) :=
  back_strands (State.putTeam_keeps _ h) id rfl rfl rfl

theorem back_overSeq {s : State} (j : Job) (c id core slot : Nat) {u : State} (h : s.Records) :
    s.Back id (s.overSeq j c (fun g => g.back u core slot)) := by
  rw [← mapGroups_isSeq]
  exact back_strands (State.mapGroups_keeps (Group.ite_same _ (fun g => Group.back_same u g core slot)) h) id rfl rfl rfl

theorem back_seat {s : State} (h : s.Records) (id core : Nat) (slots : List Nat) {gs : List Group} (hg : ∀ g ∈ gs, s.Numbered g) :
    s.Back id (s.seat core slots gs) := by
  refine back_strands (State.seat_keeps core slots hg h) id ?_ ?_ ?_ <;> rw [seat_eq]

theorem back_teamIn {s : State} (h : s.Records) (j : Job) (team core : Nat) : s.Back j.id (s.teamIn j team core) := by
  unfold State.teamIn
  have h1 := back_seat h j.id core (s.freeSlots core) (gs := s.allGroups.filter (fun g => g.inTeam j.id team))
    (fun g hg => h.ofAll (List.mem_filter.1 hg).1)
  have h2 := back_putTeam h1.records j.id { s.teamOf j.id team with resident := true, core }
  have h3 := back_onJob (id := j.id) (f := fun k => k.putLcore (s.teamOf j.id team).lcore { k.lcoreOf (s.teamOf j.id team).lcore with core := some core })
    h2.records (fun k => Job.Returns.refl.remap _ k.engines)
  exact ((h1.trans h2).trans h3).trans (back_dropImage h3.records j.id team)

theorem back_foldl {α : Type} {s : State} {id : Nat} {f : State → α → State} (l : List α) (h : s.Records)
    (hf : ∀ (u : State) (x : α), u.Records → u.Back id (f u x)) : s.Back id (l.foldl f s) :=
  List.foldlRecOn l f (back_refl h id) (fun _ hu x _ => hu.trans (hf _ x hu.records))

theorem returns_contextHere (k : Job) (c : Nat) : k.Returns (k.contextHere c) := by
  rw [contextHere_eq, withCores_rest]
  exact Job.Returns.refl.remap _ _

theorem back_clusterBack {s t : State} {j : Job} {c : Nat} (h : s.Records) (hc : s.clusterBack j c = some t) : s.Back j.id t := by
  rw [clusterBack_eq] at hc
  split at hc
  · cases hc
  · split at hc <;> cases hc
    · rw [stopJob_eq_onJob]
      exact back_onJob h (fun k => Job.Returns.refl.stop)
    · have h1 := back_onJob (id := j.id) (f := fun k => k.contextHere c) h (fun k => returns_contextHere k c)
      have h2 := back_foldl (id := j.id) (f := fun x t => x.teamIn j t (j.seqCore (s.teamOf j.id t).lcore)) (j.clusterTeams c) h1.records
        (fun u t hu => back_teamIn hu j t _)
      have h3 := back_overSeq j c j.id (8 * j.clusterAt c) 0 (u := s) h2.records
      exact ((h1.trans h2).trans h3).trans (back_dropImage h3.records j.id (contextRef c))

end Sys2Proof.Machine
end

section

/-! ## A whole partition out and in (01 R18) -/

namespace Sys2Proof.Machine
open Host

/-- A launch that runs again, its partition image gone. -/
def State.resumed (s : State) (j : Job) : State :=
  (s.onJob j.id (fun k => { k with phase := .running })).dropImage j.id partitionRef

/-- The contexts that stood on their clusters come back to them. -/
def State.contextsBack (s : State) (id : Nat) (l : List (Nat × Engine)) : Option State :=
  l.foldl (fun o e => o.bind (fun t => (look t.jobs id).bind (fun k => t.clusterBack k e.1))) (some s)

theorem partitionIn_eq (s : State) (j : Job) : s.partitionIn j =
    if !s.restorable j.id partitionRef then s.stopJob j.id 3
    else ((s.resumed j).contextsBack j.id (j.engines.filter (fun e => e.2.resident))).getD s := rfl

theorem restores_resumed {s : State} (h : s.Records) (j : Job) : s.Restores j.id (s.resumed j) :=
  (restores_onJob (f := fun k => { k with phase := .running }) h (fun _ => rfl)).trans (restores_dropImage _ j.id partitionRef)

theorem resumed_keeps {s : State} (h : s.Records) (j : Job) : (s.resumed j).Records := State.dropImage_keeps _ _ (State.onJob_keeps _ _ h)

theorem back_contextsBack {s t : State} {id : Nat} {l : List (Nat × Engine)} (h : s.Records) (ht : s.contextsBack id l = some t) : s.Back id t := by
  refine l.foldlRecOn _ (motive := fun o => ∀ u, o = some u → s.Back id u) (fun u hu => by cases hu; exact back_refl h id) (fun o ho e _ u hu => ?_) t ht
  obtain ⟨v, hv, hw⟩ := Option.bind_eq_some_iff.1 hu
  obtain ⟨k, hk, hb⟩ := Option.bind_eq_some_iff.1 hw
  have hbv := ho v hv
  have := back_clusterBack hbv.records hb
  rw [hbv.records.jobId hk] at this
  exact hbv.trans this

theorem restores_partitionIn {s : State} (h : s.Records) (j : Job) : s.Restores j.id (s.partitionIn j) := by
  rw [partitionIn_eq]
  split
  · exact restores_onJob h (fun k => stop_id k 3)
  · cases hc : (s.resumed j).contextsBack j.id (j.engines.filter (fun e => e.2.resident)) with
    | none => exact restores_refl s j.id
    | some t => exact (restores_resumed h j).trans (back_contextsBack (resumed_keeps h j) hc).restores

theorem look_resumed {s : State} {j : Job} (hj : look s.jobs j.id = some j) : look (s.resumed j).jobs j.id = some { j with phase := .running } :=
  look_onJob_same (f := fun k => { k with phase := .running }) hj rfl

/-- No image of a launch's partition. -/
def State.NoPartition (s : State) (id : Nat) : Prop := ∀ m ∈ s.images, m.job = id → m.team ≠ partitionRef

theorem resumed_noPartition (s : State) (j : Job) : (s.resumed j).NoPartition j.id := by
  intro m hm hj ht
  have := (List.mem_filter.1 hm).2
  rw [hj, ht, beq_self_eq_true, beq_self_eq_true] at this
  exact absurd this (by decide)

theorem State.Restores.noPartition {s t : State} {id n : Nat} (h : s.Restores id t) (hn : s.NoPartition n) : t.NoPartition n :=
  fun m hm => hn m (h.images m hm)

/-- What a launch whose partition comes back, with a header the part meets, is then. -/
def State.CameBack (t : State) (k : Job) : Prop :=
  ∃ l, look t.jobs k.id = some l ∧ (l = k ∨ l.phase = .ending 3 ∨
    (l = { k with phase := .running, lcores := l.lcores, engines := l.engines } ∧ t.NoPartition k.id))

theorem partitionIn_cameBack {s : State} (h : s.Records) {j : Job} (hj : look s.jobs j.id = some j) (hr : s.restorable j.id partitionRef = true) :
    (s.partitionIn j).CameBack j := by
  rw [partitionIn_eq, hr, if_neg (by decide)]
  cases hc : (s.resumed j).contextsBack j.id (j.engines.filter (fun e => e.2.resident)) with
  | none => exact ⟨j, hj, Or.inl rfl⟩
  | some t =>
    have hb := back_contextsBack (resumed_keeps h j) hc
    obtain ⟨l, hl, hkl⟩ := hb.job _ (look_resumed hj)
    exact ⟨l, hl, Or.inr ((hkl.runs_or_ends rfl).imp (fun h => h) (fun he => ⟨he, hb.restores.noPartition (resumed_noPartition s j)⟩))⟩

/-- Without contexts a launch just runs again. -/
theorem partitionIn_alone {s : State} {j : Job} (hj : look s.jobs j.id = some j) (hr : s.restorable j.id partitionRef = true)
    (he : ∀ e ∈ j.engines, e.2.resident = false) :
    look (s.partitionIn j).jobs j.id = some { j with phase := .running } ∧ (s.partitionIn j).NoPartition j.id := by
  have hl : j.engines.filter (fun e => e.2.resident) = [] := List.filter_eq_nil_iff.2 (fun e hm => by rw [he e hm]; decide)
  rw [partitionIn_eq, hr, if_neg (by decide), hl]
  exact ⟨look_resumed hj, resumed_noPartition s j⟩

theorem partitionIn_refused {s : State} {j : Job} (hj : look s.jobs j.id = some j) (hr : s.restorable j.id partitionRef = false) :
    look (s.partitionIn j).jobs j.id = some (j.stop 3) := by
  rw [partitionIn_eq, hr, if_pos Bool.not_false, stopJob_eq_onJob]
  exact look_onJob_same (f := fun k => k.stop 3) hj (stop_id j 3)

/-- One launch among several: what holds before its turn, what its turn makes, and what the others' turns leave. -/
theorem foldl_through {f : State → Job → State} {P Q : State → Prop} {k : Job} {l : List Job} (hk : k ∈ l) (hn : (l.map Job.id).Nodup)
    (hP : ∀ t, ∀ x : Job, x.id ≠ k.id → P t → P (f t x)) (hPQ : ∀ t, P t → Q (f t k)) (hQ : ∀ t, ∀ x : Job, x.id ≠ k.id → Q t → Q (f t x))
    {s : State} (h : P s) : Q (l.foldl f s) := by
  induction l generalizing s with
  | nil => cases hk
  | cons x l ih =>
    rw [List.map_cons, List.nodup_cons] at hn
    rw [List.foldl_cons]
    rcases List.mem_cons.1 hk with rfl | hm
    · refine List.foldlRecOn l f (hPQ s h) (fun t ht x hx => hQ t x (fun e => hn.1 ?_) ht)
      exact List.mem_map.2 ⟨x, hx, e⟩
    · exact ih hm hn.2 (hP s x (fun e => hn.1 (List.mem_map.2 ⟨k, hm, e.symm⟩)) h)

theorem mem_partition {s : State} (h : s.Records) {j k : Job} :
    k ∈ s.partition j ↔ (∃ n, look s.jobs n = some k) ∧ k.field 0 1 = 1 ∧ k.dies = j.dies := by
  unfold State.partition
  simp only [List.mem_filter, Bool.and_eq_true, beq_iff_eq, List.mem_map]
  refine and_congr_left (fun _ => ⟨fun ⟨p, hp, he⟩ => ⟨p.1, look_of_mem h.tables.jobs (by rw [← he]; exact hp)⟩, fun ⟨n, hn⟩ => ⟨_, look_mem hn, rfl⟩⟩)

theorem partition_ids {s : State} (h : s.Records) (j : Job) (p : Job → Bool) : (((s.partition j).filter p).map Job.id).Nodup := by
  have hid : (s.jobs.map Prod.snd).map Job.id = s.jobs.map Prod.fst := by
    rw [List.map_map]
    exact List.map_congr_left h.tables.jobIds
  have hsub : ((s.partition j).filter p).Sublist (s.jobs.map Prod.snd) := List.filter_sublist.trans List.filter_sublist
  exact (hsub.map Job.id).nodup (hid ▸ h.tables.jobs)

theorem partition_out {s : State} (h : s.Records) {j k : Job} (hk : k ∈ (s.partition j).filter Job.running) (hj : look s.jobs k.id = some k) :
    (((s.partition j).filter Job.running).foldl State.partitionOut s).Swapped k s.time := by
  refine (foldl_through (P := fun t => t.Records ∧ look t.jobs k.id = some k ∧ t.time = s.time)
    (Q := fun t => t.Records ∧ t.Swapped k s.time) hk (partition_ids h j _) ?_ ?_ ?_ ⟨h, hj, rfl⟩).2
  · rintro t x hx ⟨hr, hl, ht⟩
    have hs := partitionOut_spares hr x
    exact ⟨State.partitionOut_keeps x hr, (hs.others _ hx.symm).trans hl, hs.time.trans ht⟩
  · rintro t ⟨hr, hl, ht⟩
    exact ⟨State.partitionOut_keeps k hr, ht ▸ partitionOut_swapped hr hl⟩
  · rintro t x hx ⟨hr, hl⟩
    have hs := partitionOut_spares hr x
    refine ⟨State.partitionOut_keeps x hr, ?_, hs.off _ hl.off, ?_⟩
    · rw [hs.others _ hx.symm]
      exact hl.job
    · obtain ⟨m, hm, he⟩ := hl.image
      exact ⟨m, hs.images m hm, he⟩

theorem State.Restores.restorable {s t : State} {id n ref : Nat} (h : s.Restores id t) (hn : n ≠ id) : t.restorable n ref = s.restorable n ref := by
  unfold State.restorable
  rw [h.imageOf n hn, funext h.header]

/-- A launch that is away while the others of its partition come back. -/
theorem partition_in {s : State} (h : s.Records) {j k : Job} {Q : State → Prop} (hk : k ∈ (s.partition j).filter (fun k => k.phase == .swapped))
    (hj : look s.jobs k.id = some k)
    (hPQ : ∀ t : State, t.Records → look t.jobs k.id = some k → t.restorable k.id partitionRef = s.restorable k.id partitionRef → Q (t.partitionIn k))
    (hQ : ∀ (t u : State) (n : Nat), n ≠ k.id → t.Restores n u → Q t → Q u) :
    Q (((s.partition j).filter (fun k => k.phase == .swapped)).foldl State.partitionIn s) := by
  refine (foldl_through (P := fun t => t.Records ∧ look t.jobs k.id = some k ∧ t.restorable k.id partitionRef = s.restorable k.id partitionRef)
    (Q := fun t => t.Records ∧ Q t) hk (partition_ids h j _) ?_ ?_ ?_ ⟨h, hj, rfl⟩).2
  · rintro t x hx ⟨hr, hl, ht⟩
    have hs := restores_partitionIn hr x
    exact ⟨State.partitionIn_keeps x hr, (hs.others _ hx.symm).trans hl, (hs.restorable hx.symm).trans ht⟩
  · rintro t ⟨hr, hl, ht⟩
    exact ⟨State.partitionIn_keeps k hr, hPQ t hr hl ht⟩
  · rintro t x hx ⟨hr, hl⟩
    exact ⟨State.partitionIn_keeps x hr, hQ t _ x.id hx (restores_partitionIn hr x) hl⟩

theorem swap_out {s : State} {job : Nat} {j : Job} (hj : look s.jobs job = some j) (hr : j.running = true)
    (ha : ∀ k ∈ s.partition j, k.running = true → s.swappable k = true) :
    s.swap job = ((s.partition j).filter Job.running).foldl State.partitionOut s := by
  have hp : j.phase ≠ .swapped := fun e => by
    unfold Job.running at hr
    rw [e] at hr
    simp at hr
  have hall : ((s.partition j).filter Job.running).all s.swappable = true :=
    List.all_eq_true.2 (fun k hk => ha k (List.mem_filter.1 hk).1 (List.mem_filter.1 hk).2)
  unfold State.swap
  simp only [hj, hp, hr, hall, if_false, Bool.and_self, if_true]

theorem swap_stays {s : State} {job : Nat} {j k : Job} (hj : look s.jobs job = some j) (hr : j.running = true)
    (hk : k ∈ s.partition j) (hkr : k.running = true) (hks : s.swappable k = false) : s.swap job = s := by
  have hp : j.phase ≠ .swapped := fun e => by
    unfold Job.running at hr
    rw [e] at hr
    simp at hr
  have hall : ((s.partition j).filter Job.running).all s.swappable = false :=
    List.all_eq_false.2 ⟨k, List.mem_filter.2 ⟨hk, hkr⟩, by rw [hks]; decide⟩
  unfold State.swap
  simp only [hj, hp, hr, hall, if_false, Bool.and_false, Bool.false_eq_true]

theorem swap_in {s : State} {job : Nat} {j : Job} (hj : look s.jobs job = some j) (hp : j.phase = .swapped) :
    s.swap job = ((s.partition j).filter (fun k => k.phase == .swapped)).foldl State.partitionIn s := by
  unfold State.swap
  simp only [hj, hp, if_true]

end Sys2Proof.Machine
end

section

namespace Sys2Proof.Machine
open Host

/-! ## The statement -/

theorem exec_restore_stopped {s : State} {job ref core : Nat} {j : Job} {m : Image} (hj : look s.jobs job = some j) (hid : j.id = job)
    (hr : j.running = true) (hi : s.imageOf job ref = some m) (hh : s.headerOk m = false) :
    exec (.restore job ref core) s = .next { s with jobs := put s.jobs j.id (j.stop 3), tick := s.tick + 1 } := by
  subst hid
  rw [exec_restore_run hj hr, restore_refused hi hh, idle_stopJob hj]

/-- A task that comes back on a core. -/
theorem seat_task_idle {s : State} {j : Job} {core : Nat} {g x : Group} (h : s.Records) (hg : look s.groups g.gid = some g) (hk : g.kind = .task)
    (hx : x.gid = g.gid) {regs bytes : Nat} (hr : s.room core 1 regs bytes = true) :
    ((s.seat core (s.freeSlots core) [x]).dropImage j.id (2 ^ 32 + g.gid)).idle = { s with
      groups := put s.groups g.gid (x.back s core ((s.freeSlots core).headD 0))
      images := s.images.filter (fun y => !(y.job == j.id && y.team == 2 ^ 32 + g.gid)), tick := s.tick + 1 } := by
  rw [seat_one hx (h.taskPlace hg hk) (room_slots hr)]
  rfl

/-- A task that is saved. -/
theorem taskOut_idle {s : State} (j : Job) {g : Group} (h : s.Records) (hg : look s.groups g.gid = some g) (hk : g.kind = .task) :
    (s.taskOut j g.gid).idle = { s with
      groups := put s.groups g.gid (g.out s), images := s.images ++
        [⟨j.id, 2 ^ 32 + g.gid, .group, s.time, j.bstUse, j.engUse, Config.imageBytes 0 s.tick, s.imagePlace g.core⟩], tick := s.tick + 1 } := by
  have hc := h.taskPlace hg hk
  unfold State.taskOut
  rw [mapGroups_one h hg hc, groupOf_behind hc, hg]
  rfl

/-- A second change of a job takes the first one's place. -/
theorem onJob_put {u : State} {id : Nat} {l : List (Nat × Job)} {k : Job} {f : Job → Job} (hu : u.jobs = put l id k) (hf : (f k).id = id) :
    u.onJob id f = { u with jobs := put l id (f k) } := by
  rw [onJob_found f (show look u.jobs id = some k by rw [hu, look_put, if_pos rfl])]
  unfold State.putJob
  rw [hf, hu, put_put]

/-- Settles O59: each event by its own lemma, a whole partition launch by launch. -/
theorem switchResults : Obligations.SwitchResults := by
  unfold Obligations.SwitchResults
  intro s g j job lc core tm c m e ticked T stopped gone idle
  refine ⟨?_, ⟨back_eq .., Option.isSome_map⟩, saved_eq, ?_, ?_, ?_, ?_, ?_⟩
  · refine ⟨out_eq g s, fun hr hp => ?_, fun p r hr hs hp => ?_, fun p r hr hs hp he => out_region_pc s hr hs hp he⟩
    · rw [out_repc, out_splits, leaveRegion_none hr, saveRepeat_marks hp]
      exact ⟨rfl, List.map_map ..⟩
    · rw [out_repc, out_splits, leaveRegion_none hr, saveRepeat_repeat hs hp]
      exact ⟨rfl, rfl⟩
  · intro h hj hr hT
    have hid := h.jobId hj
    subst hid
    have hkey : teamKey T.job T.idx = teamKey j.id tm := h.teamAt hT
    refine ⟨fun ht hc hl hs => ⟨fun ho hb => ⟨_, ?_, teamOut_saved hj hkey⟩, fun ho hi hh hf => ⟨_, ?_, teamIn_back h hj hkey hf⟩, fun ho hi hh => ?_⟩,
      fun ht hl hs ho hb hc ha hd => ⟨fun hi hf => ⟨_, ?_, teamIn_back h hj hkey hf⟩, fun hi => ?_⟩,
      fun hl ho hs hb hn => ⟨_, ?_, teamOut_saved hj hkey⟩,
      fun hl hs hi => ⟨fun hh hf => ⟨_, ?_, teamIn_back h hj hkey hf⟩, exec_restore_stopped hj rfl hr hi⟩⟩
    · rw [exec_timeSlice_run hj hr hc hl, timeSlice_out hs ht ho hb]
    · rw [exec_timeSlice_run hj hr hc hl, timeSlice_in hs ht ho hi hh hf]
    · rw [exec_timeSlice_run hj hr hc hl, timeSlice_refused hs ht ho hi hh, idle_stopJob hj]
    · rw [exec_racking_run hj hr, rack_team ht hl hc ha, rackTeam_in hs hb hd ho hi hf]
    · rw [exec_racking_run hj hr, rack_team ht hl hc ha, rackTeam_refused hs hb hd ho hi, idle_stopJob hj]
    · rw [exec_switchOut_run hj (coreOf_team hl hT ho) hn, evict_team hl hs hb]
    · rw [exec_restore_run hj hr, restore_team hl hs hi hh hf]
  · intro hj hr hl hl' he hej hd hc ha
    have hex := (exec_racking_run hj hr).trans (congrArg Outcome.next (rack_entry hl hl' he hej hd hc ha))
    generalize lc - 4096 = v at *
    have hne : core ≠ v := fun h => hd (by rw [h])
    refine ⟨_, hex, rfl, ?_, ?_, fun k hk hk' => ?_⟩
    · exact (look_takeEntry hne e core).trans (by rw [if_pos rfl])
    · exact (look_takeEntry hne e v).trans (by rw [if_neg hne.symm, if_pos rfl])
    · exact (look_takeEntry hne e k).trans (by rw [if_neg hk, if_neg hk'])
  · intro h hj hg hk hgj
    have hid := h.jobId hj
    subst hid
    have hgo : s.groupOf g.gid = some g := (groupOf_behind (h.taskPlace hg hk)).trans hg
    refine ⟨fun ho hb hn => ?_, fun ho hdone haway hr hd hc ha hi hf => ?_, fun hr hi hh hc hf => ?_⟩
    · rw [exec_switchOut_run hj (coreOf_task hgo hk ho hgj) hn, evict_task hb, taskOut_idle j h hg hk]
    · rw [exec_racking_run hj hr, rack_task hc ha, rackTask_in hgo hk hgj ho hdone haway hd hi hf]
      exact congrArg Outcome.next (seat_task_idle (j := j) h hg hk (x := { g with stolen := true }) rfl hf)
    · rw [exec_restore_run hj hr, restore_task hgo hi hh hc hf]
      exact congrArg Outcome.next (seat_task_idle (j := j) h hg hk rfl hf)
  · intro h hj hr hs hc ht strand moved evicted leaves turn
    have hid := h.jobId hj
    subst hid
    rw [exec_contextSwitch hj hr hs hc]
    refine ⟨fun ho hst => ?_, fun ho hl => ?_, fun ho hfree hfirst hi => ?_⟩
    · obtain ⟨hsl, hev⟩ := not_or.1 hst
      rw [clusterSwitch_stays ho (Bool.eq_false_iff.2 hev) (Bool.eq_false_iff.2 hsl)]
      rfl
    · by_cases hev : evicted = true
      · rw [clusterSwitch_evicted ho hev, clusterOut_alone hj ht]
        refine congrArg Outcome.next ?_
        have hjob : j.contextLeft c = j.withCores (fun _ => none) (j.clusterCores c)
            { j with engines := put j.engines c { j.engine c with resident := false, since := turn } } := by
          rw [show turn = (j.engine c).since from if_pos hev]
          exact contextLeft_eq j c
        rw [hjob]
        rfl
      · rw [clusterSwitch_sliced ho (Bool.eq_false_iff.2 hev) (hl.resolve_right hev), clusterOut_alone hj ht]
        refine congrArg Outcome.next ?_
        have hjob := hadTurn_contextLeft j c (s.tick + 1)
        rw [Option.map_some, Option.getD_some, onJob_put (f := fun k => k.hadTurn c (s.tick + 1)) rfl (contextLeft_id j c), hjob]
        rw [← show turn = s.tick + 1 from if_neg hev]
        rfl
    · rw [clusterSwitch_in ho hfree hfirst, clusterBack_alone hj ht hi]
      refine congrArg Outcome.next ?_
      have hjob : j.contextHere c = j.withCores (fun l => some (8 * j.clusterAt c + l % 8)) (j.clusterCores c)
          { j with engines := put j.engines c { j.engine c with resident := true, since := (j.engine c).since } } := contextHere_eq j c
      rw [hjob]
      rfl
  · intro h hj hf t together
    have hmem : ∀ k, together k → k ∈ s.partition j := fun k hk => (mem_partition h).2 hk
    have hat : ∀ k, together k → look s.jobs k.id = some k := fun k ⟨⟨n, hn⟩, _⟩ => by rw [h.jobId hn]; exact hn
    refine ⟨fun hr ha k hk hkr => ?_, fun hr ⟨k, hk, hkr, hks⟩ => swap_stays hj hr (hmem k hk) hkr hks, fun hp k hk hkp => ?_⟩
    · have ht : t = _ := swap_out hj hr (fun k hk => ha k ((mem_partition h).1 hk))
      have ho := partition_out h (List.mem_filter.2 ⟨hmem k hk, hkr⟩) (hat k hk)
      rw [← ht] at ho
      exact ⟨ho.job, ho.off, ho.image⟩
    · have ht : t = _ := swap_in hj hp
      have hin := (List.mem_filter (p := fun k : Job => k.phase == .swapped)).2 ⟨hmem k hk, show (k.phase == .swapped) = true by rw [hkp]; rfl⟩
      rw [ht]
      refine ⟨fun hr => ?_, fun hr he => ?_, fun hr => ?_⟩
      · refine partition_in h (Q := fun t => look t.jobs k.id = some (k.stop 3)) hin (hat k hk)
          (fun t _ hl hrt => partitionIn_refused hl (hrt.trans hr)) (fun t u n hn hu hq => (hu.others _ hn.symm).trans hq)
      · exact partition_in h (Q := fun t => look t.jobs k.id = some { k with phase := .running } ∧ t.NoPartition k.id) hin (hat k hk)
          (fun t _ hl hrt => partitionIn_alone hl (hrt.trans hr) he)
          (fun t u n hn hu hq => ⟨(hu.others _ hn.symm).trans hq.1, hu.noPartition hq.2⟩)
      · refine partition_in h (Q := fun t => t.CameBack k) hin (hat k hk) (fun t htr hl hrt => partitionIn_cameBack htr hl (hrt.trans hr)) ?_
        rintro t u n hn hu ⟨l, hl, hq⟩
        exact ⟨l, (hu.others _ hn.symm).trans hl, hq.imp (fun h => h) (Or.imp (fun h => h) (fun hq => ⟨hq.1, hu.noPartition hq.2⟩))⟩

end Sys2Proof.Machine
end


section

/-!
# A launch packet, its sequencers and its teams (12 R236, R242, 02 R25, R26, R31, R44, 11 R212 to R215)

O57.
-/

namespace Sys2Proof.Machine
open Host

/-! ## PACKET_READ (12 R236, R239) -/

theorem written_within {s : State} {mark loc n a k : Nat} (h : s.written mark loc n = false) (hl : loc ≤ a) (hu : a + k ≤ loc + n) :
    s.written mark a k = false := by
  unfold State.written at h ⊢
  rw [List.any_eq_false] at h ⊢
  intro w hw ht
  refine h w hw ?_
  unfold Write.touches at ht ⊢
  simp only [Bool.and_eq_true, decide_eq_true_eq] at ht ⊢
  omega

theorem foldl_heldBack_untouched {loc n : Nat} {l : List Write} (h : ∀ w ∈ l, w.touches loc n = false) (p : List Byte × List (List Byte)) :
    l.foldl (heldBack loc n) p = p := by
  induction l generalizing p with
  | nil => rfl
  | cons w l ih =>
    rw [List.foldl_cons, show heldBack loc n p w = p from if_neg (by rw [h w (List.mem_cons_self ..)]; decide)]
    exact ih (fun w hw => h w (List.mem_cons_of_mem _ hw)) p

/-- Bytes that no write has touched since the mark read as they stand. -/
theorem someHeld_unwritten {s : State} {mark loc n : Nat} (h : s.written mark loc n = false) : s.someHeld mark loc n = s.bytesAt loc n := by
  have hl : s.heldSince mark loc n = [s.bytesAt loc n] := by
    rw [heldSince_eq, foldl_heldBack_untouched (fun w hw => Bool.eq_false_iff.2 (List.any_eq_false.1 h w hw))]
    rfl
  unfold State.someHeld
  rw [hl]
  rfl

theorem bytesAt_add (s : State) (loc m n : Nat) : s.bytesAt loc (m + n) = s.bytesAt loc m ++ s.bytesAt (loc + m) n := by
  induction m generalizing loc with
  | zero => rw [Nat.zero_add]; rfl
  | succ m ih =>
    rw [Nat.add_right_comm, State.bytesAt, State.bytesAt, ih, List.cons_append, Nat.add_assoc, Nat.add_comm 1 m]

theorem flatMap_bytesAt (s : State) (loc n : Nat) : (List.range n).flatMap (fun i => s.bytesAt (loc + 8 * i) 8) = s.bytesAt loc (8 * n) := by
  induction n with
  | zero => rfl
  | succ n ih => rw [List.range_succ, List.flatMap_append, ih, List.flatMap_singleton, Nat.mul_succ, bytesAt_add]

/-- A packet that stands in memory since its doorbell is read as it stands. -/
theorem packetBytes_eq {s : State} {mark pa : Nat} (hw : s.written mark pa 128 = false) (hm : ∀ a, pa ≤ a → a < pa + 128 → s.isMmio a = false) :
    (List.range 16).flatMap (fun i => s.devHeld mark (pa + 8 * i)) = s.bytesAt pa 128 := by
  rw [← flatMap_bytesAt s pa 16]
  refine List.flatMap_congr (fun i hi => ?_)
  rw [List.mem_range] at hi
  unfold State.devHeld
  rw [hm _ (by omega) (by omega), if_neg Bool.false_ne_true, someHeld_unwritten (written_within hw (by omega) (by omega))]

/-- A queue whose next packet is read now. -/
structure State.ReadsNext (s : State) (q : Queue) : Prop where
  recovery : s.inRecovery = false
  error : q.error = false
  closing : q.closing = none
  tap : q.tap.isSome = true
  packet : q.packet = none
  publish : q.publish = false
  unread : q.head < q.tail

theorem packetRead_page {s : State} {n : Nat} {q : Queue} {p : Page} (hq : look s.queues n = some q) (h : s.ReadsNext q)
    (hp : s.devPage (keyRing n) q.root n (q.ring.toNat + 128 * (q.head % q.size)) false = .page p)
    (hw : s.written (q.mark q.head) p.pa 128 = false) (hm : ∀ a, p.pa ≤ a → a < p.pa + 128 → s.isMmio a = false)
    (ht : leNat ((s.bytesAt p.pa 128).take 1) = 1) (hv : leNat (((s.bytesAt p.pa 128).drop 1).take 1) = 1) :
    s.packetRead n = (s.packetHere n q (s.bytesAt p.pa 128)).idle := by
  obtain ⟨k, hk⟩ := Option.isSome_iff_exists.1 h.tap
  unfold State.packetRead
  simp only [hq, h.recovery, h.error, h.closing, hk, h.packet, h.publish, Nat.not_le.2 h.unread, Option.isSome_none, Option.isNone_some, Bool.false_eq_true,
    or_self, if_false, hp, packetBytes_eq hw hm, ht, hv, Nat.lt_irrefl, ne_eq, not_true_eq_false, Nat.not_lt.2 (show 1 ≤ 4 by decide)]

theorem signalOk_iff {s : State} {j : Job} {va : Nat} :
    s.signalOk j va = true ↔ va = 0 ∨ (va / 2 ^ 48 < 0x1FF ∧ ∀ p, s.translate j.root va = some p → p.attr < 2) := by
  unfold State.signalOk State.plainWord
  rw [Bool.or_eq_true, beq_iff_eq, Bool.and_eq_true, decide_eq_true_eq]
  refine or_congr_right (and_congr_right (fun _ => ?_))
  cases s.translate j.root va with
  | none => simp
  | some p => simp

/-- Both signal addresses of a launch packet. -/
def State.signalsOk (s : State) (j : Job) : Prop :=
  ∀ va ∈ [j.field 32 8, j.field 104 8], va = 0 ∨ (va / 2 ^ 48 < 0x1FF ∧ ∀ p, s.translate j.root va = some p → p.attr < 2)

theorem signalsOk_iff {s : State} {j : Job} : s.signalsOk j ↔ s.signalOk j (j.field 32 8) = true ∧ s.signalOk j (j.field 104 8) = true := by
  unfold State.signalsOk
  rw [List.forall_mem_cons, List.forall_mem_singleton, ← signalOk_iff, ← signalOk_iff]

theorem launchLimits_some {s : State} {j : Job} {cap : Nat} {gt : List (List Nat)} (hf : j.fieldsInLimit = true) (hs : s.signalsOk j)
    (ha : s.arenaOk j = true) (hc : s.trapCap j = some cap) (hg : s.readGroups j = some gt) : s.launchLimits j = some (cap, gt) := by
  obtain ⟨h1, h2⟩ := signalsOk_iff.1 hs
  unfold State.launchLimits
  simp only [hf, h1, h2, ha, hc, hg, Bool.and_self, if_true]

theorem launchLimits_none {s : State} {j : Job} (h : j.fieldsInLimit = false ∨ ¬s.signalsOk j ∨ s.arenaOk j = false ∨ s.trapCap j = none ∨
    s.readGroups j = none) : s.launchLimits j = none := by
  cases hl : s.launchLimits j with
  | none => rfl
  | some v =>
    exfalso
    unfold State.launchLimits at hl
    split at hl
    next c g hc hg =>
      split at hc
      next hok =>
        simp only [Bool.and_eq_true] at hok
        obtain ⟨⟨⟨hf, h1⟩, h2⟩, ha⟩ := hok
        rcases h with h | h | h | h | h
        · rw [hf] at h; cases h
        · exact h (signalsOk_iff.2 ⟨h1, h2⟩)
        · rw [ha] at h; cases h
        · rw [hc] at h; cases h
        · rw [hg] at h; cases h
      · cases hc
    · cases hl

end Sys2Proof.Machine
end

section

/-! ## LAUNCH_PACKET: what the dependency and the partition decide (12 R242, 02 R44) -/

namespace Sys2Proof.Machine
open Host

/-- A packet taken up as a job. -/
def State.taken (u : State) (n : Nat) (q : Queue) (e i : Nat) (b : List Byte) (ph : Phase) : Job :=
  { Job.blank with
    id := u.nextId, queue := n, index := i, pkt := b, root := q.root, dies := q.dies, prio := e, phase := ph, born := u.time, mark := u.hist.length }

theorem openJob_eq (u : State) (n : Nat) {q : Queue} {k e : Nat} (i : Nat) (b : List Byte) (ph : Phase) (ht : q.tap = some (k, e)) :
    u.openJob n q i b ph = ({ u with
      nextId := u.nextId + 1, jobs := put u.jobs u.nextId (u.taken n q e i b ph)
      queues := put u.queues n { q with packet := none, started := q.started ++ [u.nextId] } }, u.taken n q e i b ph) := by
  unfold State.openJob
  rw [ht]
  rfl

/-- A queue whose launch packet starts as soon as its dependency is met. -/
structure State.Bound (s : State) (q : Queue) (i : Nat) (b : List Byte) : Prop where
  recovery : s.inRecovery = false
  closing : q.closing = none
  tap : q.tap.isSome = true
  packet : q.packet = some (i, b)
  launch : pktField b 0 1 = 1
  stopped : q.stopped = false
  begun : ∀ id ∈ q.started, s.hasBegun id = true
  ord : pktOrd b = true → q.started = []

theorem startable_of_bound {s : State} {n i : Nat} {q : Queue} {b : List Byte} (h : s.Bound q i b)
    (hd : s.dependency n q b = .met ∨ ∃ u, s.dependency n q b = .refused u) : s.startable n q = true := by
  have hord : (!pktOrd b || q.started.isEmpty) = true := by
    cases ho : pktOrd b with
    | false => rfl
    | true => rw [h.ord ho]; rfl
  unfold State.startable
  simp only [h.recovery, h.stopped, h.closing, h.tap, h.packet, hord, h.launch, List.all_eq_true.2 h.begun, Option.isNone_none, Bool.not_false,
    Bool.and_self, bne_self_eq_false, Bool.false_or, Bool.true_and]
  rcases hd with hd | ⟨u, hd⟩ <;> rw [hd]

theorem dependencyMiss_none {s : State} {n i : Nat} {q : Queue} {b : List Byte} (hq : look s.queues n = some q) (hp : q.packet = some (i, b))
    (hd : s.dependency n q b = .met ∨ ∃ u, s.dependency n q b = .refused u) : s.dependencyMiss n = none := by
  unfold State.dependencyMiss
  simp only [hq, hp]
  split
  · rfl
  · rcases hd with hd | ⟨u, hd⟩ <;> rw [hd]

theorem exec_launchPacket_start {s : State} {n i : Nat} {q : Queue} {b : List Byte} (hq : look s.queues n = some q) (h : s.Bound q i b)
    (hd : s.dependency n q b = .met ∨ ∃ u, s.dependency n q b = .refused u) :
    exec (.launchPacket n) s = .next (s.launchPacket n q i b).idle := by
  rw [exec_launchPacket]
  unfold execLaunchPacket
  rw [dependencyMiss_none hq h.packet hd]
  dsimp only
  unfold State.acceptLaunch
  simp only [hq, h.packet, h.launch, startable_of_bound h hd, and_self, if_true]

theorem launchPacket_refused {s u : State} {n : Nat} {q : Queue} (i : Nat) {b : List Byte} (hd : s.dependency n q b = .refused u) :
    s.launchPacket n q i b = (u.openJob n q i b (.ending 1)).1 := by
  unfold State.launchPacket
  rw [hd]

/-- The job of an accepted launch. -/
def State.accepted (s : State) (n : Nat) (q : Queue) (e i : Nat) (b : List Byte) : Job :=
  let j := s.taken n q e i b .running
  { j with cap := q.control.1, groupTable := q.control.2, phase := if j.cor then .waiting else .running }

theorem launchPacket_cores {s : State} {n : Nat} {q : Queue} {k e : Nat} (i : Nat) {b : List Byte} (ht : q.tap = some (k, e))
    (hd : s.dependency n q b = .met) (hc : (s.accepted n q e i b).cor = true) (hf : (s.accepted n q e i b).corFits = false) :
    s.launchPacket n q i b = (s.openJob n q i b (.ending 2)).1 := by
  have hc' : (s.taken n q e i b .running).cor = true := hc
  have hf' : (s.taken n q e i b .running).corFits = false := hf
  unfold State.launchPacket
  rw [hd, openJob_eq s n i b .running ht]
  simp only [hc', hf', Bool.not_false, Bool.and_self, if_true]

/-- The state with a launch accepted, before its sequencers start. -/
def State.withLaunch (s : State) (n : Nat) (q : Queue) (j : Job) : State :=
  { s with
    nextId := s.nextId + 1, jobs := put s.jobs s.nextId j, queues := put s.queues n { q with packet := none, started := q.started ++ [s.nextId] } }

theorem launchPacket_accepts {s : State} {n : Nat} {q : Queue} {k e : Nat} (i : Nat) {b : List Byte} (ht : q.tap = some (k, e))
    (hd : s.dependency n q b = .met) (hf : (s.accepted n q e i b).cor = false ∨ (s.accepted n q e i b).corFits = true) :
    s.launchPacket n q i b = (s.withLaunch n q (s.accepted n q e i b)).startSequencers (s.accepted n q e i b) := by
  have hf' : ((s.taken n q e i b .running).cor && !(s.taken n q e i b .running).corFits) = false := by
    rcases hf with h | h
    · rw [show (s.taken n q e i b .running).cor = false from h]; rfl
    · rw [show (s.taken n q e i b .running).corFits = true from h, Bool.not_true, Bool.and_false]
  unfold State.launchPacket
  rw [hd, openJob_eq s n i b .running ht]
  simp only [hf', Bool.false_eq_true, if_false]
  unfold State.putJob
  dsimp only
  rw [show (s.taken n q e i b .running).id = s.nextId from rfl, put_put]
  rfl

theorem startSequencers_none {s : State} {j : Job} (h : j.seqEntry = 0#64) : s.startSequencers j = s := by
  unfold State.startSequencers
  rw [not_sequenced h]
  rfl

end Sys2Proof.Machine
end

section

/-! ## The sequencers of an accepted launch (11 R212 to R215) -/

namespace Sys2Proof.Machine
open Host

theorem look_foldl_put_other {α β : Type} (key : β → Nat) (x : β → α) {l : List β} {k : Nat} (h : ∀ b ∈ l, key b ≠ k) (g : List (Nat × α)) :
    look (l.foldl (fun g b => put g (key b) (x b)) g) k = look g k := by
  induction l generalizing g with
  | nil => rfl
  | cons b l ih =>
    rw [List.foldl_cons, ih (fun c hc => h c (List.mem_cons_of_mem _ hc)), look_put, if_neg (h b (List.mem_cons_self ..)).symm]

theorem look_foldl_put_at {α β : Type} (key : β → Nat) (x : β → α) {l : List β} (hn : (l.map key).Nodup) {b : β} (hb : b ∈ l) (g : List (Nat × α)) :
    look (l.foldl (fun g b => put g (key b) (x b)) g) (key b) = some (x b) := by
  induction l generalizing g with
  | nil => cases hb
  | cons c l ih =>
    rw [List.map_cons, List.nodup_cons] at hn
    rw [List.foldl_cons]
    rcases List.mem_cons.1 hb with rfl | hb
    · rw [look_foldl_put_other key x (fun c hc e => hn.1 (List.mem_map.2 ⟨c, hc, e⟩)), look_put, if_pos rfl]
    · exact ih hn.2 hb _

/-- Records under consecutive numbers. -/
theorem look_foldl_range_at {α : Type} (b n : Nat) (x : Nat → α) (g : List (Nat × α)) {c : Nat} (hc : c < n) :
    look ((List.range n).foldl (fun g c => put g (b + c) (x c)) g) (b + c) = some (x c) :=
  look_foldl_put_at (fun c => b + c) x (List.Nodup.map (fun _ _ h => Nat.add_left_cancel h) List.nodup_range) (List.mem_range.2 hc) g

theorem look_foldl_range_other {α : Type} (b n : Nat) (x : Nat → α) (g : List (Nat × α)) {k : Nat} (hk : ∀ c, c < n → k ≠ b + c) :
    look ((List.range n).foldl (fun g c => put g (b + c) (x c)) g) k = look g k :=
  look_foldl_put_other (fun c => b + c) x (fun c hc => (hk c (List.mem_range.1 hc)).symm) g

theorem put_new {α : Type} {l : List (Nat × α)} {k : Nat} (h : ∀ p ∈ l, p.1 ≠ k) (x : α) : put l k x = l ++ [(k, x)] := by
  induction l with
  | nil => rfl
  | cons p l ih =>
    obtain ⟨a, y⟩ := p
    rw [put, if_neg (fun e => h (a, y) (List.mem_cons_self ..) e.symm), ih (fun q hq => h q (List.mem_cons_of_mem _ hq))]
    rfl

/-- Records listed under their places. -/
theorem look_rangeMap {α : Type} (f : Nat → α) {m c : Nat} (h : c < m) : look ((List.range m).map (fun c => (c, f c))) c = some (f c) := by
  refine look_of_mem ?_ (List.mem_map.2 ⟨c, List.mem_range.2 h, rfl⟩)
  rw [List.map_map, show (Prod.fst ∘ fun c => (c, f c)) = id from rfl, List.map_id]
  exact List.nodup_range

theorem put_map {α : Type} (f : Nat → α) {l : List Nat} (hl : l.Nodup) {c : Nat} (hc : c ∈ l) (x : α) :
    put (l.map (fun c => (c, f c))) c x = l.map (fun d => (d, if d = c then x else f d)) := by
  induction l with
  | nil => cases hc
  | cons a l ih =>
    rw [List.nodup_cons] at hl
    by_cases h : c = a
    · subst h
      rw [List.map_cons, List.map_cons, put, if_pos rfl, if_pos rfl]
      refine congrArg (List.cons _) (List.map_congr_left (fun d hd => ?_))
      rw [if_neg (fun (e : d = c) => hl.1 (e ▸ hd))]
    · rw [List.map_cons, List.map_cons, put, if_neg h, if_neg (Ne.symm h), ih hl.2 ((List.mem_cons.1 hc).resolve_left h)]

/-- The sequencer strand of a logical cluster as its launch is accepted. -/
def State.seqStrand (s : State) (j : Job) (c : Nat) : Group :=
  { (((strandOf j .seq (s.nextId + 1 + c) 0 c (8 * c) (8 * j.clusterAt c) 0 s.time s.cycles j.seqEntry).gSet 1 (BitVec.ofNat 64 c)).gSet 2 j.args) with
    resident := false, allot := 0, tiles := 0 }

/-- A launch with its sequencer contexts, none of them placed. -/
def Job.sequencers (j : Job) : Job :=
  { j with
    liveSeqs := (j.logical + 7) / 8
    engines := (List.range ((j.logical + 7) / 8)).map (fun c => (c, { Engine.start with resident := false })) }

/-- `t` is `s` with launch `j` accepted with job `l`, and its sequencers on the clusters below `d` where `placed` says so. -/
structure State.Sequenced (s : State) (n : Nat) (x : Queue) (j : Job) (placed : Nat → Bool) (d : Nat) (l : Job) (t : State) : Prop where
  rest : t = { s.withLaunch n x l with groups := t.groups, nextId := s.nextId + 1 + (j.logical + 7) / 8 }
  job : l = { j.sequencers with engines := l.engines, lcores := l.lcores }
  engines : l.engines = (List.range ((j.logical + 7) / 8)).map (fun c => (c, { Engine.start with resident := decide (c < d) && placed c }))
  lcores : ∀ lc, l.lcoreOf lc = { j.lcoreOf lc with
    core := if lc < j.logical ∧ lc / 8 < d ∧ placed (lc / 8) = true then some (8 * j.clusterAt (lc / 8) + lc % 8) else (j.lcoreOf lc).core }
  others : ∀ g, (∀ c, c < (j.logical + 7) / 8 → g ≠ s.nextId + 1 + c) → look t.groups g = look s.groups g
  strands : ∀ c, c < (j.logical + 7) / 8 → look t.groups (s.nextId + 1 + c) = some { s.seqStrand j c with resident := decide (c < d) && placed c }

/-- The state with the strands of a launch's sequencers, none of them placed. -/
def State.seqStart (s : State) (n : Nat) (x : Queue) (j : Job) : State :=
  { s.withLaunch n x j.sequencers with
    groups := (List.range ((j.logical + 7) / 8)).foldl (fun l c => put l (s.nextId + 1 + c) (s.seqStrand j c)) s.groups
    nextId := s.nextId + 1 + (j.logical + 7) / 8 }

theorem startSequencers_eq {s : State} {n : Nat} {x : Queue} {j : Job} (hj : j.id = s.nextId) (hs : j.seqEntry ≠ 0#64) :
    (s.withLaunch n x j).startSequencers j = if j.cor then s.seqStart n x j
      else (List.range ((j.logical + 7) / 8)).foldl (fun t c => match look t.jobs j.id with | some k => (t.clusterIn k c).getD t | none => t)
        (s.seqStart n x j) := by
  have hput : ∀ u : State, u.jobs = put s.jobs s.nextId j → u.onJob j.id (fun k => { k with
      liveSeqs := (j.logical + 7) / 8, engines := (List.range ((j.logical + 7) / 8)).map (fun c => (c, { Engine.start with resident := false })) }) =
      { u with jobs := put s.jobs s.nextId j.sequencers } := by
    intro u hu
    rw [hj]
    exact onJob_put hu hj
  unfold State.startSequencers
  rw [sequenced_iff.2 hs]
  rw [Bool.not_true, if_neg Bool.false_ne_true]
  have hstart := hput { s.withLaunch n x j with
      groups := (List.range ((j.logical + 7) / 8)).foldl (fun l c => put l (s.nextId + 1 + c) (s.seqStrand j c)) s.groups
      nextId := s.nextId + 1 + (j.logical + 7) / 8 } rfl
  replace hstart := hstart.trans (show _ = s.seqStart n x j from rfl)
  rw [← hstart]
  rfl

end Sys2Proof.Machine
end

section

namespace Sys2Proof.Machine
open Host

/-- Whether the context of a logical cluster is placed as its launch is accepted: its physical cluster is free, none better waits for it, and no
earlier context of the launch stands there. -/
def State.seqPlaced (s : State) (j : Job) (c : Nat) : Bool :=
  !j.cor && !s.contextOn (j.sequencers.clusterAt c) && !s.contextAhead j.sequencers c &&
    (List.range c).all (fun d => j.sequencers.clusterAt d != j.sequencers.clusterAt c)

theorem sequenced_start (s : State) (n : Nat) (x : Queue) (j : Job) (placed : Nat → Bool) :
    s.Sequenced n x j placed 0 j.sequencers (s.seqStart n x j) where
  rest := rfl
  job := rfl
  engines := List.map_congr_left (fun c _ => by rw [decide_eq_false (Nat.not_lt_zero c)]; rfl)
  lcores lc := by
    rw [if_neg (fun h => Nat.not_lt_zero _ h.2.1)]
    rfl
  others g hg := look_foldl_range_other (s.nextId + 1) _ _ _ hg
  strands c hc := by
    rw [decide_eq_false (Nat.not_lt_zero c)]
    exact look_foldl_range_at (s.nextId + 1) _ _ _ hc

/-- A context that finds no place leaves all as it was. -/
theorem State.Sequenced.skip {s t : State} {n d : Nat} {x : Queue} {j l : Job} {placed : Nat → Bool} (h : s.Sequenced n x j placed d l t)
    (hp : placed d = false) : s.Sequenced n x j placed (d + 1) l t := by
  have hb : ∀ c, (decide (c < d + 1) && placed c) = (decide (c < d) && placed c) := fun c => by
    by_cases hc : c = d
    · rw [hc, hp, Bool.and_false, Bool.and_false]
    · rw [decide_eq_decide.2 (show c < d + 1 ↔ c < d by omega)]
  have hc : ∀ c, (c < d + 1 ∧ placed c = true) ↔ (c < d ∧ placed c = true) := fun c => by
    have := hb c
    rw [Bool.eq_iff_iff, Bool.and_eq_true, Bool.and_eq_true, decide_eq_true_eq, decide_eq_true_eq] at this
    exact this
  refine ⟨h.rest, h.job, ?_, fun lc => ?_, h.others, fun c hcm => ?_⟩
  · simp only [hb]
    exact h.engines
  · simp only [hc]
    exact h.lcores lc
  · rw [hb]
    exact h.strands c hcm

section

variable {s t : State} {n d : Nat} {x : Queue} {j l : Job} {placed : Nat → Bool}

theorem State.Sequenced.jobs (h : s.Sequenced n x j placed d l t) (hu : s.Unnamed) : t.jobs = s.jobs ++ [(s.nextId, l)] := by
  rw [h.rest]
  exact put_new (fun p hp => (hu.1 p hp).1) l

theorem State.Sequenced.id_eq (h : s.Sequenced n x j placed d l t) : l.id = j.id := by
  rw [h.job]
  rfl

theorem State.Sequenced.clusterAt_eq (h : s.Sequenced n x j placed d l t) (c : Nat) : l.clusterAt c = j.sequencers.clusterAt c := by
  rw [h.job]
  rfl

theorem State.Sequenced.engine_eq (h : s.Sequenced n x j placed d l t) {c : Nat} (hc : c < (j.logical + 7) / 8) :
    l.engine c = { Engine.start with resident := decide (c < d) && placed c } := by
  unfold Job.engine
  rw [h.engines, look_rangeMap _ hc]
  rfl

theorem State.Sequenced.contextOn_eq (h : s.Sequenced n x j placed d l t) (hu : s.Unnamed) (phys : Nat) : t.contextOn phys =
    (s.contextOn phys || (List.range ((j.logical + 7) / 8)).any (fun c => (decide (c < d) && placed c) && j.sequencers.clusterAt c == phys)) := by
  unfold State.contextOn
  rw [h.jobs hu, List.any_append, List.any_cons, List.any_nil, Bool.or_false, h.engines, List.any_map]
  refine congrArg _ (congrArg _ (funext fun c => ?_))
  simp only [Function.comp, h.clusterAt_eq]

/-- The launches' priorities are as they were: the queue keeps its tap. -/
theorem State.Sequenced.tapKey_eq (h : s.Sequenced n x j placed d l t) (hq : look s.queues n = some x) (k : Job) : t.tapKey k = s.tapKey k := by
  unfold State.tapKey
  rw [h.rest]
  show ((look (put s.queues n _) k.queue).map _).getD _ = _
  rw [look_put]
  split
  next he =>
    rw [he, hq]
    rfl
  · rfl

theorem State.Sequenced.contextAhead_eq (h : s.Sequenced n x j placed d l t) (hu : s.Unnamed) (hq : look s.queues n = some x) {c : Nat}
    (hc : c < (j.logical + 7) / 8) : t.contextAhead l c = s.contextAhead j.sequencers c := by
  have hprio : ∀ k, t.launchPrio k = s.launchPrio k := fun k => by
    unfold State.launchPrio
    rw [h.tapKey_eq hq]
  have hl : s.launchPrio l = s.launchPrio j.sequencers := by rw [h.job]; rfl
  have hsince : (l.engine c).since = (j.sequencers.engine c).since := by
    rw [h.engine_eq hc]
    unfold Job.engine Job.sequencers
    dsimp only
    rw [look_rangeMap _ hc]
    rfl
  have hstart : ∀ k : Job, k.startsBefore l = k.startsBefore j.sequencers := fun k => by rw [h.job]; rfl
  have hid : l.id = j.sequencers.id := h.id_eq
  unfold State.contextAhead
  rw [h.jobs hu, List.any_append, List.any_cons, List.any_nil]
  simp only [bne_self_eq_false, Bool.false_and, Bool.or_false, hprio, hl, hsince, hstart, hid, h.clusterAt_eq]

end

end Sys2Proof.Machine
end

section

namespace Sys2Proof.Machine
open Host

section

variable {s t : State} {n d : Nat} {x : Queue} {j l : Job}

/-- Contexts of one launch that wait for one cluster have the same turn before they are placed. -/
theorem contextAhead_sequencers {c : Nat} (hc : c < (j.logical + 7) / 8) (hd : d < (j.logical + 7) / 8)
    (he : j.sequencers.clusterAt c = j.sequencers.clusterAt d) : s.contextAhead j.sequencers c = s.contextAhead j.sequencers d := by
  have hs : ∀ k, k < (j.logical + 7) / 8 → (j.sequencers.engine k).since = Engine.start.since := fun k hk => by
    unfold Job.engine Job.sequencers
    dsimp only
    rw [look_rangeMap _ hk]
    rfl
  unfold State.contextAhead
  rw [he, hs c hc, hs d hd]

theorem seqPlaced_iff {c : Nat} : s.seqPlaced j c = true ↔ j.cor = false ∧ s.contextOn (j.sequencers.clusterAt c) = false ∧
    s.contextAhead j.sequencers c = false ∧ ∀ k, k < c → j.sequencers.clusterAt k ≠ j.sequencers.clusterAt c := by
  unfold State.seqPlaced
  simp only [Bool.and_eq_true, Bool.not_eq_true', List.all_eq_true, List.mem_range, bne_iff_ne, and_assoc]

/-- On a free cluster the first context that wants it is placed. -/
theorem exists_placed_before (hc : j.cor = false) (hd : d < (j.logical + 7) / 8) (ho : s.contextOn (j.sequencers.clusterAt d) = false)
    (ha : s.contextAhead j.sequencers d = false) {k : Nat} (hk : k < d) (he : j.sequencers.clusterAt k = j.sequencers.clusterAt d) :
    ∃ c, c < d ∧ s.seqPlaced j c = true ∧ j.sequencers.clusterAt c = j.sequencers.clusterAt d := by
  have hex : ∃ c, j.sequencers.clusterAt c = j.sequencers.clusterAt d := ⟨k, he⟩
  have hfe := Nat.find_spec hex
  have hlt : Nat.find hex < d := (Nat.find_min' hex he).trans_lt hk
  refine ⟨Nat.find hex, hlt, seqPlaced_iff.2 ⟨hc, by rw [hfe]; exact ho, ?_, fun m hm h => Nat.find_min hex hm (h.trans hfe)⟩, hfe⟩
  rw [contextAhead_sequencers (hlt.trans hd) hd hfe]
  exact ha

/-- A sequencer's context is placed as the launch is accepted just where it finds its cluster free and nobody before it. -/
theorem State.Sequenced.places (h : s.Sequenced n x j (s.seqPlaced j) d l t) (hu : s.Unnamed) (hq : look s.queues n = some x) (hc : j.cor = false)
    (hd : d < (j.logical + 7) / 8) : (t.contextOn (l.clusterAt d) || t.contextAhead l d) = !s.seqPlaced j d := by
  rw [h.clusterAt_eq, h.contextOn_eq hu, h.contextAhead_eq hu hq hd, Bool.eq_iff_iff, Bool.not_eq_true', ← Bool.not_eq_true, seqPlaced_iff]
  simp only [Bool.or_eq_true, List.any_eq_true, List.mem_range, Bool.and_eq_true, decide_eq_true_eq, beq_iff_eq]
  constructor
  · rintro ((ho | ⟨c, -, ⟨hcd, -⟩, he⟩) | ha) ⟨-, ho', ha', hk⟩
    · rw [ho'] at ho; cases ho
    · exact hk c hcd he
    · rw [ha'] at ha; cases ha
  · intro hn
    by_contra hno
    push Not at hno
    obtain ⟨⟨ho, hany⟩, ha⟩ := hno
    have ho := Bool.eq_false_iff.2 ho
    have ha := Bool.eq_false_iff.2 ha
    refine hn ⟨hc, ho, ha, fun k hk he => ?_⟩
    obtain ⟨c, hcd, hp, hce⟩ := exists_placed_before hc hd ho ha hk he
    exact hany c (hcd.trans hd) ⟨hcd, hp⟩ hce

theorem State.Sequenced.team_none {placed : Nat → Bool} (h : s.Sequenced n x j placed d l t) (hl : ∀ lc, (j.lcoreOf lc).team = none) (c : Nat) :
    l.clusterTeams c = [] := by
  unfold Job.clusterTeams
  refine List.filterMap_eq_nil_iff.2 (fun lc _ => ?_)
  rw [h.lcores lc]
  exact hl lc

theorem lcoreOf_putLcore_same (k : Job) (y : Nat) (v : LCore) : (k.putLcore y v).lcoreOf y = v := by
  show (look (put k.lcores y v) y).getD ⟨none, none, 0⟩ = _
  rw [look_put, if_pos rfl]
  rfl

theorem withCores_lcoreOf (f : Nat → Option Nat) (c : Nat) (L : List Nat) (k : Job) :
    (j.withCores f L k).lcoreOf c = if c ∈ L then { j.lcoreOf c with core := f c } else k.lcoreOf c := by
  unfold Job.withCores
  induction L generalizing k with
  | nil => rfl
  | cons y L ih =>
    rw [List.foldl_cons, ih]
    by_cases hL : c ∈ L
    · rw [if_pos hL, if_pos (List.mem_cons_of_mem _ hL)]
    · rw [if_neg hL]
      by_cases h : c = y
      · subst h
        rw [lcoreOf_putLcore_same, if_pos (List.mem_cons_self ..)]
      · rw [lcoreOf_putLcore_other _ h, if_neg (fun hm => (List.mem_cons.1 hm).elim h hL)]

theorem contextHere_rest (k : Job) (c : Nat) : k.contextHere c = { k with engines := (k.contextHere c).engines, lcores := (k.contextHere c).lcores } := by
  rw [contextHere_eq, withCores_rest]
  rfl

theorem contextHere_engines (k : Job) (c : Nat) : (k.contextHere c).engines = put k.engines c { k.engine c with resident := true } := by
  rw [contextHere_eq]
  exact (withCores_keeps ..).1

theorem contextHere_lcoreOf (k : Job) (c lc : Nat) : (k.contextHere c).lcoreOf lc =
    if lc / 8 = c ∧ lc < k.logical then { k.lcoreOf lc with core := some (8 * k.clusterAt c + lc % 8) } else k.lcoreOf lc := by
  rw [contextHere_eq, withCores_lcoreOf]
  simp only [mem_clusterCores]
  rfl

/-- A launch's new number names no strand yet. -/
theorem State.Unnamed.overSeq {c : Nat} {f : Group → Group} (hu : s.Unnamed) (hl : l.id = s.nextId) :
    (∀ k g, look s.groups k = some g → (if g.kind = .seq ∧ g.job = l.id ∧ g.grp = c then f g else g) = g) ∧
      (if s.cur.kind = .seq ∧ s.cur.job = l.id ∧ s.cur.grp = c then f s.cur else s.cur) = s.cur := by
  obtain ⟨-, hg, hc, -⟩ := hu
  refine ⟨fun k g hk => if_neg (fun h => hg _ (look_mem hk) (h.2.1.trans hl)), if_neg (fun h => hc (h.2.1.trans hl))⟩

theorem look_overSeq (s : State) (j : Job) (c : Nat) (f : Group → Group) (k : Nat) : look (s.overSeq j c f).groups k =
    (look s.groups k).map (fun x : Group => if x.kind = .seq ∧ x.job = j.id ∧ x.grp = c then f x else x) :=
  look_map (fun x : Group => if x.kind = .seq ∧ x.job = j.id ∧ x.grp = c then f x else x) s.groups k

/-- A strand of a sequencer that comes to its cluster. -/
theorem seqStrand_back (s t : State) (j : Job) (c : Nat) (r : Bool) (hc : t.cycles = s.cycles) :
    ({ s.seqStrand j c with resident := r } : Group).back t (8 * j.clusterAt c) 0 = { s.seqStrand j c with resident := true } := by
  unfold Group.back
  rw [hc]
  rfl

/-- A context without teams on its cluster. -/
def State.contextTaken (t : State) (l : Job) (d : Nat) : State :=
  { t.overSeq l d (fun g => g.back t (8 * l.clusterAt d) 0) with
    jobs := put t.jobs l.id (l.contextHere d), images := t.images.filter (fun y => !(y.job == l.id && y.team == 2 ^ 64 + d)) }

/-- A context that finds its cluster free takes it. -/
theorem State.Sequenced.place {placed : Nat → Bool} (h : s.Sequenced n x j placed d l t) (hu : s.Unnamed) (hj : j.id = s.nextId)
    (hd : d < (j.logical + 7) / 8) (hp : placed d = true) : s.Sequenced n x j placed (d + 1) (l.contextHere d) (t.contextTaken l d) := by
  have hl : l.id = s.nextId := h.id_eq.trans hj
  obtain ⟨hgs, hcur⟩ := hu.overSeq (c := d) (f := fun g => g.back t (8 * l.clusterAt d) 0) hl
  have himg : s.images.filter (fun y => !(y.job == l.id && y.team == 2 ^ 64 + d)) = s.images := by
    refine List.filter_eq_self.2 (fun y hy => ?_)
    rw [beq_false_of_ne (fun e => hu.2.2.2 y hy (e.trans hl))]
    rfl
  have hb : ∀ c, (decide (c < d + 1) && placed c) = if c = d then true else (decide (c < d) && placed c) := fun c => by
    by_cases hc : c = d
    · rw [if_pos hc, hc, hp, decide_eq_true (Nat.lt_succ_self d)]; rfl
    · rw [if_neg hc, decide_eq_decide.2 (show c < d + 1 ↔ c < d by omega)]
  refine ⟨?_, ?_, ?_, fun lc => ?_, fun g hg => ?_, fun c hc => ?_⟩
  · have hcl : (t.overSeq l d (fun g => g.back t (8 * l.clusterAt d) 0)).cur = t.cur := by
      have hc : t.cur = s.cur := by rw [h.rest]; rfl
      show (if t.cur.kind = .seq ∧ t.cur.job = l.id ∧ t.cur.grp = d then t.cur.back t (8 * l.clusterAt d) 0 else t.cur) = t.cur
      rw [hc]
      exact hcur
    have him : t.images.filter (fun y => !(y.job == l.id && y.team == 2 ^ 64 + d)) = t.images := by
      have hi : t.images = s.images := by rw [h.rest]; rfl
      rw [hi]
      exact himg
    have hjobs : put t.jobs l.id (l.contextHere d) = put s.jobs s.nextId (l.contextHere d) := by
      rw [h.rest, hl]
      exact put_put ..
    have ht : t.contextTaken l d = { t with groups := (t.contextTaken l d).groups, jobs := put s.jobs s.nextId (l.contextHere d) } := by
      have hov : t.overSeq l d (fun g => g.back t (8 * l.clusterAt d) 0) =
          { t with groups := (t.overSeq l d (fun g => g.back t (8 * l.clusterAt d) 0)).groups } :=
        congrArg (fun g => { t with cur := g, groups := (t.overSeq l d (fun g => g.back t (8 * l.clusterAt d) 0)).groups }) hcl
      unfold State.contextTaken
      rw [him, hjobs, hov]
    rw [ht, h.rest]
    rfl
  · rw [contextHere_rest, h.job]
  · rw [contextHere_engines, h.engine_eq hd, h.engines, put_map _ List.nodup_range (List.mem_range.2 hd)]
    refine List.map_congr_left (fun c _ => ?_)
    rw [hb]
    split <;> rfl
  · have hlog : l.logical = j.logical := by rw [h.job]; rfl
    have hat : l.clusterAt d = j.clusterAt d := h.clusterAt_eq d
    rw [contextHere_lcoreOf, h.lcores, hlog, hat]
    by_cases hlc : lc / 8 = d ∧ lc < j.logical
    · obtain ⟨hd', hlt⟩ := hlc
      rw [if_pos ⟨hd', hlt⟩]
      dsimp only
      rw [if_pos (show lc < j.logical ∧ lc / 8 < d + 1 ∧ placed (lc / 8) = true from ⟨hlt, by omega, by rw [hd']; exact hp⟩), hd']
    · rw [if_neg hlc]
      by_cases hlt : lc < j.logical ∧ lc / 8 < d ∧ placed (lc / 8) = true
      · rw [if_pos hlt, if_pos ⟨hlt.1, hlt.2.1.trans (Nat.lt_succ_self d), hlt.2.2⟩]
      · rw [if_neg hlt, if_neg (fun hn => ?_)]
        exact hlt ⟨hn.1, Nat.lt_of_le_of_ne (Nat.le_of_lt_succ hn.2.1) (fun e => hlc ⟨e, hn.1⟩), hn.2.2⟩
  · refine (look_overSeq t l d (fun g => g.back t (8 * l.clusterAt d) 0) g).trans ?_
    rw [h.others g hg]
    cases hlk : look s.groups g with
    | none => rfl
    | some y => exact congrArg some (hgs g y hlk)
  · refine (look_overSeq t l d (fun g => g.back t (8 * l.clusterAt d) 0) (s.nextId + 1 + c)).trans ?_
    have hcyc : t.cycles = s.cycles := by rw [h.rest]; rfl
    rw [h.strands c hc, hb, Option.map_some, h.clusterAt_eq]
    by_cases hcd : c = d
    · subst hcd
      rw [if_pos rfl]
      refine congrArg some ((if_pos ⟨rfl, ?_, rfl⟩).trans (seqStrand_back s t j c _ hcyc))
      exact h.id_eq.symm
    · rw [if_neg hcd]
      exact congrArg some (if_neg (fun e => hcd e.2.2))

end

end Sys2Proof.Machine
end

section

namespace Sys2Proof.Machine
open Host

/-- A context of a launch takes its cluster if it may. -/
def State.seqStep (id : Nat) (t : State) (c : Nat) : State :=
  match look t.jobs id with
  | some k => (t.clusterIn k c).getD t
  | none => t

section

variable {s t : State} {n d : Nat} {x : Queue} {j l : Job}

theorem State.Sequenced.look_job {placed : Nat → Bool} (h : s.Sequenced n x j placed d l t) (hj : j.id = s.nextId) : look t.jobs j.id = some l := by
  rw [h.rest, hj]
  exact (look_put ..).trans (if_pos rfl)

theorem State.Sequenced.step (h : s.Sequenced n x j (s.seqPlaced j) d l t) (hu : s.Unnamed) (hq : look s.queues n = some x) (hj : j.id = s.nextId)
    (hc : j.cor = false) (hl : ∀ lc, (j.lcoreOf lc).team = none) (hd : d < (j.logical + 7) / 8) :
    ∃ l', s.Sequenced n x j (s.seqPlaced j) (d + 1) l' (t.seqStep j.id d) := by
  have hp := h.places hu hq hc hd
  have hlook := h.look_job hj
  cases hpd : s.seqPlaced j d with
  | false =>
    have hn : t.clusterIn l d = none := by
      unfold State.clusterIn
      rw [hp, hpd]
      rfl
    refine ⟨l, ?_⟩
    unfold State.seqStep
    rw [hlook]
    dsimp only
    rw [hn]
    exact h.skip hpd
  | true =>
    have hi : ∀ y ∈ t.images, y.job = l.id → y.team = 2 ^ 64 + d → t.headerOk y = true := by
      intro y hy he
      rw [h.rest] at hy
      exact absurd (he.trans (h.id_eq.trans hj)) (hu.2.2.2 y hy)
    have hn : t.clusterIn l d = some (t.contextTaken l d) := by
      unfold State.clusterIn
      rw [hp, hpd]
      exact clusterBack_alone (by rw [h.id_eq]; exact hlook) (h.team_none hl d) hi
    refine ⟨l.contextHere d, ?_⟩
    unfold State.seqStep
    rw [hlook]
    dsimp only
    rw [hn]
    exact h.place hu hj hd hpd

theorem sequenced_fold (hu : s.Unnamed) (hq : look s.queues n = some x) (hj : j.id = s.nextId) (hc : j.cor = false)
    (hl : ∀ lc, (j.lcoreOf lc).team = none) {d : Nat} (hd : d ≤ (j.logical + 7) / 8) :
    ∃ l, s.Sequenced n x j (s.seqPlaced j) d l ((List.range d).foldl (State.seqStep j.id) (s.seqStart n x j)) := by
  induction d with
  | zero => exact ⟨_, sequenced_start s n x j _⟩
  | succ d ih =>
    obtain ⟨l, h⟩ := ih (Nat.le_of_succ_le hd)
    rw [List.range_succ, List.foldl_append]
    exact h.step hu hq hj hc hl hd

/-- Of a COR launch no context is placed before it is admitted. -/
theorem sequenced_cor (hc : j.cor = true) (d : Nat) : s.Sequenced n x j (s.seqPlaced j) d j.sequencers (s.seqStart n x j) := by
  induction d with
  | zero => exact sequenced_start s n x j _
  | succ d ih =>
    refine ih.skip (Bool.eq_false_iff.2 (fun h => ?_))
    have := (seqPlaced_iff.1 h).1
    rw [hc] at this
    cases this

/-- The sequencers of an accepted launch stand at its entry, those that find their clusters free on them. -/
theorem sequenced_launch (hu : s.Unnamed) (hq : look s.queues n = some x) (hj : j.id = s.nextId) (hs : j.seqEntry ≠ 0#64)
    (hl : ∀ lc, (j.lcoreOf lc).team = none) :
    ∃ l, s.Sequenced n x j (s.seqPlaced j) ((j.logical + 7) / 8) l ((s.withLaunch n x j).startSequencers j) := by
  rw [startSequencers_eq hj hs]
  cases hc : j.cor with
  | true => exact ⟨_, sequenced_cor hc _⟩
  | false => exact sequenced_fold hu hq hj hc hl (Nat.le_refl _)

end

theorem seqStrand_eq (s : State) (j : Job) (c : Nat) (r : Bool) : ({ s.seqStrand j c with resident := r } : Group) = { Group.blank with
    gid := s.nextId + 1 + c, kind := .seq, job := j.id, grp := c, lcore := 8 * c, core := 8 * j.clusterAt c, resident := r, allot := 0, tiles := 0
    born := s.time, cycFrom := s.cycles, tileBase := j.tileBase, trapvec := j.handler &&& 0x01FFFFFFFFFFFFFC#64
    splits := [⟨0, j.seqEntry, BitVec.allOnes 32, .ready, none, false, 0, s.time, false⟩], g := (s.seqStrand j c).g } := rfl

theorem seqStrand_gGet (s : State) (j : Job) (c : Nat) (b : Bool) (r : Nat) : ({ s.seqStrand j c with resident := b } : Group).gGet r =
    if r = 1 then BitVec.ofNat 64 c else if r = 2 then j.args else 0#64 := by
  have h : ({ s.seqStrand j c with resident := b } : Group).gGet r =
      (((strandOf j .seq (s.nextId + 1 + c) 0 c (8 * c) (8 * j.clusterAt c) 0 s.time s.cycles j.seqEntry).gSet 1 (BitVec.ofNat 64 c)).gSet 2 j.args).gGet r := rfl
  rw [h, gGet_gSet, gGet_gSet, strandOf_gGet]
  grind

end Sys2Proof.Machine
end

section

/-! ## The pedigree of a root group (02 R37, R38) -/

namespace Sys2Proof.Machine
open Host

theorem testBit_above (x m i : Nat) : x.testBit (i + m) = decide (x / 2 ^ m / 2 ^ i % 2 = 1) := by
  rw [← Nat.testBit_div_two_pow, Nat.testBit_eq_decide_div_mod_eq]

theorem bitsOf_above (x m h l : Nat) : bitsOf x (h + m) (l + m) = x / 2 ^ m / 2 ^ l % 2 ^ (h + 1 - l) := by
  unfold bitsOf
  rw [Nat.shiftRight_eq_div_pow, Nat.div_div_eq_div_mul, ← Nat.pow_add, Nat.add_comm m l]
  congr 2
  omega

/-- A rank of the root element is read back from its code. -/
theorem pedRank_code {v k c : Nat} (h : rankCode true v = some (k, c)) {x m : Nat} (hx : x / 2 ^ m % 2 ^ k = c) :
    pedRank true x (k + m) = some (v, m) := by
  have hb := testBit_above x m
  have hf := bitsOf_above x m
  generalize x / 2 ^ m = y at *
  unfold rankCode at h
  unfold pedRank
  split_ifs at h <;> simp only [Option.some.injEq, Prod.mk.injEq] at h <;> obtain ⟨rfl, rfl⟩ := h
  · have h1 : x.testBit (3 + m - 1) = false := by rw [show 3 + m - 1 = 2 + m by omega, hb]; exact decide_eq_false (by omega)
    have h2 : bitsOf x (3 + m - 2) (3 + m - 3) = v := by
      rw [show 3 + m - 2 = 1 + m by omega, show 3 + m - 3 = 0 + m by omega, hf]; omega
    rw [if_neg (by omega), h1, h2, Bool.not_false, if_pos rfl, if_neg (by omega), show 3 + m - 3 = m by omega]
  · have h1 : x.testBit (7 + m - 1) = true := by rw [show 7 + m - 1 = 6 + m by omega, hb]; exact decide_eq_true (by omega)
    have h2 : x.testBit (7 + m - 2) = false := by rw [show 7 + m - 2 = 5 + m by omega, hb]; exact decide_eq_false (by omega)
    have h3 : bitsOf x (7 + m - 3) (7 + m - 7) = v - 4 := by
      rw [show 7 + m - 3 = 4 + m by omega, show 7 + m - 7 = 0 + m by omega, hf]; omega
    rw [if_neg (by omega), h1, h2, h3, Bool.not_true, if_neg Bool.false_ne_true, Bool.not_false, if_pos rfl, if_neg (by omega),
      show 7 + m - 7 = m by omega, show 4 + (v - 4) = v by omega]
  · have h1 : x.testBit (13 + m - 1) = true := by rw [show 13 + m - 1 = 12 + m by omega, hb]; exact decide_eq_true (by omega)
    have h2 : x.testBit (13 + m - 2) = true := by rw [show 13 + m - 2 = 11 + m by omega, hb]; exact decide_eq_true (by omega)
    have h3 : x.testBit (13 + m - 3) = false := by rw [show 13 + m - 3 = 10 + m by omega, hb]; exact decide_eq_false (by omega)
    have h4 : bitsOf x (13 + m - 4) (13 + m - 13) = v - 36 := by
      rw [show 13 + m - 4 = 9 + m by omega, show 13 + m - 13 = 0 + m by omega, hf]; omega
    rw [if_neg (by omega), h1, h2, h3, h4, Bool.not_true, if_neg Bool.false_ne_true, if_neg Bool.false_ne_true, Bool.not_false, if_pos rfl,
      if_neg (by omega), show 13 + m - 13 = m by omega, show 36 + (v - 36) = v by omega]
  · have h1 : x.testBit (35 + m - 1) = true := by rw [show 35 + m - 1 = 34 + m by omega, hb]; exact decide_eq_true (by omega)
    have h2 : x.testBit (35 + m - 2) = true := by rw [show 35 + m - 2 = 33 + m by omega, hb]; exact decide_eq_true (by omega)
    have h3 : x.testBit (35 + m - 3) = true := by rw [show 35 + m - 3 = 32 + m by omega, hb]; exact decide_eq_true (by omega)
    have h4 : bitsOf x (35 + m - 4) (35 + m - 3 - 32) = v - 1060 := by
      rw [show 35 + m - 4 = 31 + m by omega, show 35 + m - 3 - 32 = 0 + m by omega, hf]; omega
    rw [if_neg (by omega), h1, h2, h3, Bool.not_true, if_neg Bool.false_ne_true, if_neg Bool.false_ne_true, if_neg Bool.false_ne_true]
    dsimp only
    rw [if_pos rfl, h4, if_neg (by omega), show 35 + m - 3 - 32 = m by omega, show 1060 + (v - 1060) = v by omega]
  · exact absurd rfl ‹¬true = true›

/-- The code of a root rank is as long as it says. -/
theorem rankCode_lt {v k c : Nat} (h : rankCode true v = some (k, c)) : 3 ≤ k ∧ k ≤ 35 ∧ c < 2 ^ k := by
  unfold rankCode at h
  split_ifs at h <;> simp only [Option.some.injEq, Prod.mk.injEq] at h <;> obtain ⟨rfl, rfl⟩ := h <;> omega

/-- The root element is read back from its bits. -/
theorem pedElems_root {a b k c m d : Nat} (ha : rankCode true a = some (k, c)) (hb : rankCode true b = some (m, d)) :
    pedElems 21 true (c * 2 ^ m + d) (k + m) = [(a, b)] := by
  obtain ⟨-, -, hc⟩ := rankCode_lt ha
  obtain ⟨-, -, hd⟩ := rankCode_lt hb
  have h1 : (c * 2 ^ m + d) / 2 ^ m % 2 ^ k = c := by
    rw [Nat.add_comm, Nat.add_mul_div_right _ _ (Nat.two_pow_pos m), Nat.div_eq_of_lt hd, Nat.zero_add, Nat.mod_eq_of_lt hc]
  have h2 : (c * 2 ^ m + d) / 2 ^ 0 % 2 ^ m = d := by
    rw [Nat.pow_zero, Nat.div_one, Nat.add_comm, Nat.add_mul_mod_self_right, Nat.mod_eq_of_lt hd]
  have h3 := pedRank_code hb (m := 0) h2
  rw [Nat.add_zero] at h3
  have hnil : pedElems 20 false (c * 2 ^ m + d) 0 = [] := rfl
  rw [pedElems, pedRank_code ha h1]
  dsimp only
  rw [h3]
  dsimp only
  rw [hnil]

/-- The pedigree of a root group is its element. -/
theorem pedigree_root {a b k c m d : Nat} (ha : rankCode true a = some (k, c)) (hb : rankCode true b = some (m, d)) :
    pedigree ((pedEncode [(a, b)]).getD (0, 0)).1 ((pedEncode [(a, b)]).getD (0, 0)).2 = [(a, b)] := by
  obtain ⟨hk, hk', hc⟩ := rankCode_lt ha
  obtain ⟨hm, hm', hd⟩ := rankCode_lt hb
  have hbits : pedBits true [(a, b)] = some (k + m + 0, (c * 2 ^ m + d) * 2 ^ 0 + 0) := by
    rw [pedBits, ha, hb]
    rfl
  rw [Nat.pow_zero, Nat.mul_one, Nat.add_zero, Nat.add_zero] at hbits
  have hx : c * 2 ^ m + d < 2 ^ (k + m) := by
    rw [Nat.pow_add]
    calc c * 2 ^ m + d < c * 2 ^ m + 2 ^ m := Nat.add_lt_add_left hd _
      _ = (c + 1) * 2 ^ m := (Nat.succ_mul ..).symm
      _ ≤ 2 ^ k * 2 ^ m := Nat.mul_le_mul_right _ hc
  have hroot := pedElems_root ha hb
  generalize c * 2 ^ m + d = x at *
  unfold pedEncode
  rw [hbits]
  dsimp only
  rw [if_neg (by omega)]
  dsimp only [Option.getD_some]
  unfold pedigree
  have hpos : 0 < 2 ^ (120 - (k + m)) := Nat.two_pow_pos _
  have hsplit : 2 ^ (k + m) * 2 ^ (120 - (k + m)) = 2 ^ 120 := by rw [← Nat.pow_add]; congr 1; omega
  have hz : x * 2 ^ (120 - (k + m)) < 2 ^ 120 := hsplit ▸ (Nat.mul_lt_mul_right hpos).2 hx
  have hback : x * 2 ^ (120 - (k + m)) / 2 ^ (120 - (k + m)) = x := Nat.mul_div_cancel _ hpos
  generalize hw : 2 ^ (120 - (k + m)) = w at *
  have hlen : (BitVec.ofNat 64 ((x * w + (k + m) * 2 ^ 120) / 2 ^ 64) >>> 56).toNat = k + m := by
    rw [BitVec.toNat_ushiftRight, BitVec.toNat_ofNat, Nat.shiftRight_eq_div_pow]
    omega
  have hall : (BitVec.ofNat 64 ((x * w + (k + m) * 2 ^ 120) / 2 ^ 64)).toNat % 2 ^ 56 * 2 ^ 64 + (BitVec.ofNat 64 (x * w + (k + m) * 2 ^ 120)).toNat =
      x * w := by
    rw [BitVec.toNat_ofNat, BitVec.toNat_ofNat]
    omega
  dsimp only
  rw [hlen, hall, hw, hback]
  exact hroot

end Sys2Proof.Machine
end

section

/-! ## TEAM_DISPATCH (02 R25, R26, R31, R38, R44, 12 R242) -/

namespace Sys2Proof.Machine
open Host

theorem rootGroup_eq (s : State) (j : Job) (t k core slot : Nat) : s.rootGroup j t k core slot = { Group.blank with
    gid := s.nextId + k, kind := .root, job := j.id, team := t, grp := k, lcore := t % max 1 j.logical, core, slot, resident := true
    born := s.time, cycFrom := s.cycles, allot := j.regs, tiles := j.tileCount, tileBase := j.tileBase
    trapvec := j.handler &&& 0x01FFFFFFFFFFFFFC#64
    splits := [⟨0, j.entry, BitVec.allOnes 32, .ready, none, false, 0, s.time, false⟩], g := (s.rootGroup j t k core slot).g
    pdh := (s.rootGroup j t k core slot).pdh, pdl := (s.rootGroup j t k core slot).pdl } := by
  have h := withCursors_reg (strandOf j .root (s.nextId + k) t k (t % max 1 j.logical) core slot s.time s.cycles j.entry) (s.cursors j t k)
  unfold Group.Reg at h
  unfold State.rootGroup
  dsimp only
  rw [h]
  rfl

theorem rootGroup_gGet (s : State) (j : Job) (t k core slot r : Nat) : (s.rootGroup j t k core slot).gGet r =
    if r = 91 then (s.cursors j t k).1 else if r = 92 then (s.cursors j t k).2.1 else if r = 93 then (s.cursors j t k).2.2.1
      else if r = 94 then (s.cursors j t k).2.2.2 else 0#64 := by
  have h : (s.rootGroup j t k core slot).gGet r =
      ((strandOf j .root (s.nextId + k) t k (t % max 1 j.logical) core slot s.time s.cycles j.entry).withCursors (s.cursors j t k)).gGet r := rfl
  rw [h, gGet_withCursors, strandOf_gGet]

theorem rootGroup_pedigree (s : State) (j : Job) (core slot : Nat) {t k : Nat} (ht : t < 2 ^ 32) (hk : k < 2 ^ 32) :
    pedigree (s.rootGroup j t k core slot).pdh (s.rootGroup j t k core slot).pdl = [(k, t)] := by
  obtain ⟨c, hc⟩ := rankCode_fits (root := true) (v := k) (by unfold rankFits; rw [if_pos rfl]; omega)
  obtain ⟨d, hd⟩ := rankCode_fits (root := true) (v := t) (by unfold rankFits; rw [if_pos rfl]; omega)
  exact pedigree_root hc hd

/-- The groups of the next team of a launch. -/
def State.teamGroups (s : State) (j : Job) (core : Nat) : List (Nat × Group) :=
  (List.range j.perTeam).foldl (fun l k => put l (s.nextId + k) (s.rootGroup j j.nextTeam k core ((s.freeSlots core).getD k 0))) s.groups

/-- The record of the next team of a launch. -/
def State.newTeam (s : State) (j : Job) (core : Nat) : Team := { Team.blank with
  job := j.id, idx := j.nextTeam, lcore := j.nextTeam % max 1 j.logical, core, bytes := j.scratch, groups := j.perTeam, live := j.perTeam
  resident := true, born := s.time }

/-- A launch once its next team has started. -/
def State.dispatched (s : State) (j : Job) (core : Nat) : Job := { j with
  nextTeam := j.nextTeam + 1, liveTeams := j.liveTeams + 1, phase := .running, mark := if j.nextTeam = 0 then s.hist.length else j.mark
  start := if j.nextTeam = 0 then s.tick else j.start
  lcores := put j.lcores (j.nextTeam % max 1 j.logical)
    { j.lcoreOf (j.nextTeam % max 1 j.logical) with core := some core, team := some j.nextTeam } }

theorem teamGroups_foldl (s : State) (j : Job) (core : Nat) : ((List.range j.perTeam).map (fun k =>
    s.rootGroup j j.nextTeam k core ((s.freeSlots core).getD k 0))).foldl (fun l g => put l g.gid g) s.groups = s.teamGroups j core := by
  unfold State.teamGroups
  rw [List.foldl_map]
  simp only [rootGroup_gid]

/-- The state with the next team of a launch started, before the launch itself starts. -/
def State.withTeam (s : State) (j : Job) (core : Nat) : State :=
  { s with
    groups := s.teamGroups j core, nextId := s.nextId + j.perTeam
    teams := put s.teams (teamKey j.id j.nextTeam) (s.newTeam j core), jobs := put s.jobs j.id (s.dispatched j core) }

theorem startTeam_eq (s : State) (j : Job) (core : Nat) : s.startTeam j core =
    if j.nextTeam = 0 then (s.withTeam j core).packetStarts (s.dispatched j core) else s.withTeam j core := by
  unfold State.withTeam
  rw [← teamGroups_foldl]
  rfl

theorem startTeam_later {s : State} {j : Job} {core : Nat} (h : j.nextTeam ≠ 0) : s.startTeam j core = s.withTeam j core :=
  (startTeam_eq s j core).trans (if_neg h)

/-- With its first team a launch starts: it takes its tap's priority, the tap is served. -/
theorem startTeam_first {s : State} {j : Job} {core : Nat} {x : Queue} (h : j.nextTeam = 0) (hx : look s.queues j.queue = some x) :
    s.startTeam j core = { s.withTeam j core with
      jobs := put s.jobs j.id { s.dispatched j core with prio := (x.tap.map Prod.snd).getD j.prio }
      lastTap := (x.tap.map Prod.fst).getD s.lastTap
      queues := put s.queues j.queue { x with since := s.time, tap := if x.leaving then none else x.tap, leaving := false } } := by
  rw [startTeam_eq, if_pos h]
  unfold State.packetStarts
  rw [show look (s.withTeam j core).queues (s.dispatched j core).queue = some x from hx]
  dsimp only
  rw [show put (s.withTeam j core).jobs (s.dispatched j core).id { s.dispatched j core with prio := (x.tap.map Prod.snd).getD (s.dispatched j core).prio } =
    put s.jobs j.id { s.dispatched j core with prio := (x.tap.map Prod.snd).getD j.prio } from put_put ..]
  rfl

theorem look_teamGroups_other (s : State) (j : Job) (core : Nat) {m : Nat} (h : ∀ g, g < j.perTeam → m ≠ s.nextId + g) :
    look (s.teamGroups j core) m = look s.groups m :=
  look_foldl_range_other s.nextId j.perTeam _ _ h

theorem look_teamGroups_at (s : State) (j : Job) (core : Nat) {g : Nat} (h : g < j.perTeam) :
    look (s.teamGroups j core) (s.nextId + g) = some (s.rootGroup j j.nextTeam g core ((s.freeSlots core).getD g 0)) :=
  look_foldl_range_at s.nextId j.perTeam _ _ h

theorem startTeam_groups (s : State) (j : Job) (core : Nat) : (s.startTeam j core).groups = s.teamGroups j core := by
  rw [startTeam_eq]
  split
  · unfold State.packetStarts
    split <;> rfl
  · rfl

end Sys2Proof.Machine
end

section

namespace Sys2Proof.Machine
open Host

theorem pick_lt (s : State) (salt : Nat) {n : Nat} (h : 0 < n) : s.pick salt n < n := by
  unfold State.pick
  split
  · exact h
  · exact Nat.mod_lt _ h

theorem teamFits_iff {s : State} {j : Job} {core : Nat} : s.teamFits j core = true ↔
    j.nextTeam < j.teamCount ∧ j.hasCore core = true ∧ (j.lcoreOf (j.nextTeam % max 1 j.logical)).team.isNone = true ∧
      (!j.sequenced || ((j.engine (j.nextTeam % max 1 j.logical / 8)).resident && core == j.seqCore (j.nextTeam % max 1 j.logical))) = true ∧
      s.room core j.perTeam j.regs j.scratch = true := by
  unfold State.teamFits
  simp only [Bool.and_eq_true, decide_eq_true_eq, and_assoc]

/-- The cores of a launch's dies are its partition's. -/
theorem mem_cores {j : Job} {core : Nat} (h : j.hasCore core = true) : core ∈ j.cores := by
  unfold Job.hasCore at h
  unfold Job.cores Job.clusters
  simp only [List.mem_flatMap, List.mem_map, List.mem_range]
  exact ⟨core / 8, ⟨core / 96, List.contains_iff_mem.1 h, core / 8 % 12, by omega, by omega⟩, core % 8, by omega, by omega⟩

/-- A launch whose next team the front end lets go. -/
structure State.Dispatches (s : State) (j : Job) : Prop where
  recovery : s.inRecovery = false
  launch : j.field 0 1 = 1
  first : j.nextTeam = 0 → ∃ x, look s.queues j.queue = some x ∧ x.stopped = false ∧ x.closing = none ∧ s.tapAhead j.queue j.dies (s.tapKey j) = false

theorem State.Dispatches.goes {s : State} {j : Job} (h : s.Dispatches j) (hp : ∀ n, j.phase ≠ .ending n) :
    ¬(s.inRecovery = true ∨ j.field 0 1 ≠ 1 ∨ (j.nextTeam = 0 ∧ ((!s.mayStart j) = true ∨ s.tapAhead j.queue j.dies (s.tapKey j) = true))) := by
  rintro (hr | hl | ⟨h0, hs⟩)
  · rw [h.recovery] at hr; cases hr
  · exact hl h.launch
  · obtain ⟨x, hx, hst, hc, ht⟩ := h.first h0
    have hm : s.mayStart j = true := by
      unfold State.mayStart
      rw [h.launch, h0, hx]
      dsimp only
      rw [hst, hc]
      cases hph : j.phase with
      | ending n => exact absurd hph (hp n)
      | _ => rfl
    rw [hm, ht] at hs
    exact absurd hs (by decide)

theorem exec_dispatch_running {s : State} {j : Job} {core : Nat} (hj : look s.jobs j.id = some j) (h : s.Dispatches j) (hp : j.phase = .running)
    (hf : s.teamFits j core = true) : exec (.teamDispatch j.id core) s = .next (s.startTeam j core).idle := by
  rw [exec_teamDispatch]
  unfold execTeamDispatch State.teamDispatch
  rw [hj]
  dsimp only
  rw [if_neg (h.goes (fun n => by rw [hp]; exact Phase.noConfusion)), hp]
  dsimp only
  rw [if_pos hf]

theorem exec_dispatch_waiting {s : State} {j : Job} {core : Nat} (hj : look s.jobs j.id = some j) (h : s.Dispatches j) (hp : j.phase = .waiting) :
    exec (.teamDispatch j.id core) s =
      .next (((s.contextsIn j).bind (fun t => State.startAll j.id j.teamCount (some core) t)).getD s).idle := by
  rw [exec_teamDispatch]
  unfold execTeamDispatch State.teamDispatch
  rw [hj]
  dsimp only
  rw [if_neg (h.goes (fun n => by rw [hp]; exact Phase.noConfusion)), hp]

theorem contextsIn_none {s : State} {j : Job} (h : j.engines = []) : s.contextsIn j = some s := by
  unfold State.contextsIn
  rw [h]
  rfl

/-- The one team of a COR launch starts on the core named. -/
theorem startAll_one {s : State} {j : Job} {core : Nat} (hj : look s.jobs j.id = some j) (h0 : j.nextTeam = 0) (h1 : j.teamCount = 1)
    (hf : s.teamFits j core = true) : State.startAll j.id j.teamCount (some core) s = some (s.startTeam j core) := by
  have hmem : core ∈ j.cores.filter (fun c => s.teamFits j c && (c == core)) := by
    refine List.mem_filter.2 ⟨mem_cores (teamFits_iff.1 hf).2.1, ?_⟩
    rw [hf, beq_self_eq_true]
    rfl
  have hget : ∃ c, (j.cores.filter (fun c => s.teamFits j c && (c == core)))[s.pick (2 ^ 42 + j.nextTeam)
      (j.cores.filter (fun c => s.teamFits j c && (c == core))).length]? = some c ∧ c = core := by
    have hlt := pick_lt s (2 ^ 42 + j.nextTeam) (List.length_pos_of_mem hmem)
    refine ⟨_, List.getElem?_eq_getElem hlt, ?_⟩
    have := (List.mem_filter.1 (List.getElem_mem hlt)).2
    rw [Bool.and_eq_true, beq_iff_eq] at this
    exact this.2
  obtain ⟨c, hc, rfl⟩ := hget
  rw [h1]
  unfold State.startAll
  rw [hj]
  dsimp only
  rw [if_neg (by omega), hc]
  rfl

end Sys2Proof.Machine
end

section

/-! ## A COR launch starts whole (02 R44) -/

namespace Sys2Proof.Machine
open Host

theorem Job.Returns.same {k l : Job} (h : k.Returns l) : l.pkt = k.pkt ∧ l.dies = k.dies ∧ l.nextTeam = k.nextTeam := by
  induction h with
  | refl => exact ⟨rfl, rfl, rfl⟩
  | remap lc e _ ih => exact ih
  | @stop l _ ih =>
    unfold Job.stop
    split <;> exact ih

/-- The launch stands in the state, its contexts perhaps elsewhere. -/
def State.Holds (t : State) (j : Job) : Prop := ∃ l, look t.jobs j.id = some l ∧ j.Returns l

theorem holds_onJob {t : State} {j : Job} (h : t.Holds j) {f : Job → Job} (hf : ∀ k : Job, k.Returns (f k)) : (t.onJob j.id f).Holds j := by
  obtain ⟨l, hl, hr⟩ := h
  exact ⟨f l, look_onJob_same hl ((hf l).id_eq.trans hr.id_eq), hr.trans (hf l)⟩

theorem holds_of_jobs {t u : State} {j : Job} (h : t.Holds j) (hj : u.jobs = t.jobs) : u.Holds j := by
  unfold State.Holds
  rw [hj]
  exact h

theorem holds_teamIn {t : State} {j k : Job} (h : t.Holds j) (hk : k.id = j.id) (team core : Nat) : (t.teamIn k team core).Holds j := by
  unfold State.teamIn
  rw [hk]
  refine holds_of_jobs (holds_onJob (holds_of_jobs h ?_) (fun l => Job.Returns.refl.remap _ l.engines)) rfl
  show (t.seat core _ _).jobs = t.jobs
  rw [seat_eq]

theorem holds_clusterBack {t u : State} {j k : Job} {c : Nat} (h : t.Holds j) (hk : k.id = j.id) (hb : t.clusterBack k c = some u) : u.Holds j := by
  rw [clusterBack_eq, hk] at hb
  split at hb
  · cases hb
  · split at hb <;> cases hb
    · rw [stopJob_eq_onJob]
      exact holds_onJob h (fun _ => Job.Returns.refl.stop)
    · refine holds_of_jobs (List.foldlRecOn (motive := fun u : State => u.Holds j) _ _ (holds_onJob h (fun l => returns_contextHere l c))
        (fun u hu x _ => holds_teamIn hu hk x _)) rfl

theorem holds_contextsIn {s t : State} {j : Job} (hj : look s.jobs j.id = some j) (h : s.contextsIn j = some t) : t.Holds j := by
  unfold State.contextsIn at h
  refine List.foldlRecOn (motive := fun o => ∀ u, o = some u → State.Holds u j) _ _ (fun u hu => by cases hu; exact ⟨j, hj, .refl⟩)
    (fun o ho c _ u hu => ?_) t h
  obtain ⟨v, hv, hw⟩ := Option.bind_eq_some_iff.1 hu
  have hvj := ho v hv
  obtain ⟨k, hk, hr⟩ := hvj
  rw [hk] at hw
  dsimp only at hw
  split at hw
  · cases hw
    exact ⟨k, hk, hr⟩
  · unfold State.clusterIn at hw
    split at hw
    · cases hw
    · exact holds_clusterBack ⟨k, hk, hr⟩ hr.id_eq hw

/-- The first teams of a launch are on cores of its partition. -/
structure State.Started (t : State) (j : Job) (l : Job) : Prop where
  job : look t.jobs j.id = some l
  id_eq : l.id = j.id
  pkt : l.pkt = j.pkt
  dies : l.dies = j.dies
  bound : l.nextTeam ≤ j.teamCount
  runs : 0 < l.nextTeam → l.phase = .running
  teams : ∀ m, m < l.nextTeam → (t.teamOf j.id m).resident = true ∧ j.hasCore (t.teamOf j.id m).core = true

theorem startTeam_teams (s : State) (j : Job) (core : Nat) :
    (s.startTeam j core).teams = put s.teams (teamKey j.id j.nextTeam) (s.newTeam j core) := by
  rw [startTeam_eq]
  split
  · unfold State.packetStarts
    split <;> rfl
  · rfl

theorem startTeam_job (s : State) (j : Job) (core : Nat) :
    ∃ p, look (s.startTeam j core).jobs j.id = some { s.dispatched j core with prio := p } := by
  have hw : look (s.withTeam j core).jobs j.id = some (s.dispatched j core) := (look_put ..).trans (if_pos rfl)
  rw [startTeam_eq]
  split
  · unfold State.packetStarts
    split
    · exact ⟨_, hw⟩
    · exact ⟨_, (look_put ..).trans (if_pos rfl)⟩
  · exact ⟨_, hw⟩

theorem teamOf_startTeam (s : State) (j : Job) (core m : Nat) : (s.startTeam j core).teamOf j.id m =
    if m = j.nextTeam then s.newTeam j core else s.teamOf j.id m := by
  unfold State.teamOf
  rw [startTeam_teams, look_put]
  by_cases h : m = j.nextTeam
  · rw [if_pos h, if_pos (by rw [h])]
    rfl
  · rw [if_neg h, if_neg (fun e => h (teamKey_inj e))]

theorem State.Started.startTeam {t : State} {j l : Job} {c : Nat} (h : t.Started j l) (hf : t.teamFits l c = true) :
    ∃ k, (t.startTeam l c).Started j k ∧ k.nextTeam = l.nextTeam + 1 := by
  obtain ⟨hlt, hc, -⟩ := teamFits_iff.1 hf
  have hcount : l.teamCount = j.teamCount := by unfold Job.teamCount Job.field; rw [h.pkt]
  have hcore : j.hasCore c = true := by unfold Job.hasCore at hc ⊢; rw [← h.dies]; exact hc
  obtain ⟨p, hp⟩ := startTeam_job t l c
  have ht := teamOf_startTeam t l c
  rw [h.id_eq] at hp ht
  refine ⟨_, ⟨hp, h.id_eq, h.pkt, h.dies, ?_, fun _ => rfl, fun m hm => ?_⟩, rfl⟩
  · rw [← hcount]
    exact hlt
  · rw [ht]
    split
    · exact ⟨rfl, hcore⟩
    next hne => exact h.teams m (Nat.lt_of_le_of_ne (Nat.le_of_lt_succ hm) hne)

/-- A COR launch that starts has every team on a core of its partition. -/
theorem started_startAll {n : Nat} {first : Option Nat} {s t : State} {j l : Job} (hs : s.Started j l) (hn : j.teamCount ≤ n + l.nextTeam)
    (h : State.startAll j.id n first s = some t) : ∃ k, t.Started j k ∧ k.nextTeam = j.teamCount := by
  induction n generalizing first s l with
  | zero =>
    cases h
    exact ⟨l, hs, Nat.le_antisymm hs.bound (by omega)⟩
  | succ n ih =>
    unfold State.startAll at h
    rw [hs.job] at h
    dsimp only at h
    have hcount : l.teamCount = j.teamCount := by unfold Job.teamCount Job.field; rw [hs.pkt]
    split at h
    next hge =>
      cases h
      exact ⟨l, hs, Nat.le_antisymm hs.bound (hcount ▸ hge)⟩
    · split at h
      · cases h
      next c hc =>
        have hfit := (List.mem_filter.1 (List.mem_of_getElem? hc)).2
        rw [Bool.and_eq_true] at hfit
        obtain ⟨k, hk, hkn⟩ := hs.startTeam hfit.1
        exact ih hk (by omega) h

theorem started_of_holds {t : State} {j : Job} (h : t.Holds j) (h0 : j.nextTeam = 0) : ∃ l, t.Started j l := by
  obtain ⟨l, hl, hr⟩ := h
  obtain ⟨hp, hd, hn⟩ := hr.same
  have hn0 : l.nextTeam = 0 := hn.trans h0
  exact ⟨l, hl, hr.id_eq, hp, hd, by omega, fun h => absurd h (by omega), fun m hm => absurd hm (by omega)⟩

end Sys2Proof.Machine
end

section

/-! ## The statement -/

namespace Sys2Proof.Machine
open Host

theorem leNat_lt_pow (b : List Byte) : leNat b < 2 ^ (8 * b.length) := by
  induction b with
  | nil => exact Nat.one_pos
  | cons x b ih =>
    have hx := x.isLt
    rw [List.length_cons, Nat.mul_succ, Nat.pow_add]
    unfold leNat
    omega

theorem teamCount_lt (j : Job) : j.teamCount < 2 ^ 32 := by
  unfold Job.teamCount Job.field
  refine (leNat_lt_pow _).trans_le (Nat.pow_le_pow_right (by decide) ?_)
  have := List.length_take_le 4 (j.pkt.drop 4)
  omega

theorem perTeam_lt (j : Job) : j.perTeam < 2 ^ 32 := by
  unfold Job.perTeam Job.field
  refine (leNat_lt_pow _).trans_le (Nat.pow_le_pow_right (by decide) ?_)
  have := List.length_take_le 2 (j.pkt.drop 8)
  omega

/-- The start of a launch's next team in full. -/
theorem startTeam_result {s : State} {j : Job} {core : Nat} {x : Queue} (hx : j.nextTeam = 0 → look s.queues j.queue = some x) :
    (s.startTeam j core).idle = { s with
      groups := (s.startTeam j core).groups, nextId := s.nextId + j.perTeam, tick := s.tick + 1
      teams := put s.teams (teamKey j.id j.nextTeam) (s.newTeam j core)
      jobs := put s.jobs j.id { s.dispatched j core with prio := if j.nextTeam = 0 then (x.tap.map Prod.snd).getD j.prio else j.prio }
      lastTap := if j.nextTeam = 0 then (x.tap.map Prod.fst).getD s.lastTap else s.lastTap
      queues := if j.nextTeam = 0 then put s.queues j.queue { x with since := s.time, tap := if x.leaving then none else x.tap, leaving := false }
        else s.queues } := by
  by_cases h : j.nextTeam = 0
  · simp only [if_pos h]
    rw [startTeam_first h (hx h)]
    rfl
  · simp only [if_neg h]
    rw [startTeam_later h]
    rfl

/-- Settles O57: the packet as it is read, as it is accepted, its sequencers one by one, its teams. -/
theorem launchStart : Obligations.LaunchStart := by
  unfold Obligations.LaunchStart
  intro s n i k e core cap b x gt j p took opened
  refine ⟨fun hq htap hclosing hrec => ⟨fun herr hpk hpub hhead hpage hw hm hb ht hv => ?_, fun hpk ht hstop hbegun hord => ?_⟩, ?_⟩
  · intro o y signals
    have hreads : s.ReadsNext x := ⟨hrec, herr, hclosing, by rw [htap]; rfl, hpk, hpub, hhead⟩
    subst hb
    have hread : exec (.packetRead n) s = .next (s.packetHere n x (s.bytesAt p.pa 128)).idle :=
      congrArg Outcome.next (packetRead_page hq hreads hpage hw hm ht hv)
    refine ⟨fun hf hs ha hc hg => ?_, fun hbad => ?_⟩
    · have hl : s.launchLimits o = some (cap, gt) := launchLimits_some hf hs ha hc hg
      rw [hread]
      unfold State.packetHere
      rw [if_pos ht, hl]
      rfl
    · have hl : s.launchLimits o = none := launchLimits_none hbad
      rw [hread]
      unfold State.packetHere
      rw [if_pos ht, hl]
      dsimp only
      rw [openJob_eq s n x.head (s.bytesAt p.pa 128) (.ending 1) (q := { x with head := x.head + 1, publish := true }) htap]
      rfl
  · intro o m seq placed
    have hbound : s.Bound x i b := ⟨hrec, hclosing, by rw [htap]; rfl, hpk, ht, hstop, hbegun, hord⟩
    refine ⟨fun u hd => ?_, fun hd => ?_⟩
    · rw [exec_launchPacket_start hq hbound (Or.inr ⟨u, hd⟩), launchPacket_refused i hd, openJob_eq u n i b _ htap]
      rfl
    · have hexec := exec_launchPacket_start hq hbound (Or.inl hd)
      have ho : s.accepted n x e i b = o := rfl
      refine ⟨fun hc hf => ?_, fun hf hs => ?_, fun hf hs _ hu => ?_⟩
      · rw [hexec, launchPacket_cores i htap hd hc hf, openJob_eq s n i b _ htap]
        rfl
      · rw [hexec, launchPacket_accepts i htap hd hf, ho, startSequencers_none hs]
        rfl
      · obtain ⟨l, h⟩ := sequenced_launch (j := o) hu hq rfl hs (fun _ => rfl)
        have hrun := hexec
        rw [launchPacket_accepts i htap hd hf, ho] at hrun
        generalize (s.withLaunch n x o).startSequencers o = t at h hrun
        have hat : ∀ c, c < m → (decide (c < m) && s.seqPlaced o c) = placed c := fun c hc => by rw [decide_eq_true hc, Bool.true_and]; rfl
        refine ⟨t.idle, l, hrun, ?_, h.job, h.others, fun lc hlc => ?_, fun c hc => ⟨?_, ?_⟩⟩
        · rw [h.rest]
          rfl
        · have hiff : (lc < o.logical ∧ lc / 8 < m ∧ s.seqPlaced o (lc / 8) = true) ↔ placed (lc / 8) = true :=
            ⟨fun h => h.2.2, fun h => ⟨hlc, by show lc / 8 < (o.logical + 7) / 8; omega, h⟩⟩
          exact (h.lcores lc).trans (congrArg (fun y => ({ o.lcoreOf lc with core := y } : LCore)) (if_congr hiff rfl rfl))
        · rw [h.engine_eq hc, hat c hc]
        · have hs := h.strands c hc
          rw [hat c hc] at hs
          exact ⟨_, hs, seqStrand_eq .., fun r => seqStrand_gGet ..⟩
  · intro t' lc hj hrec hl hfirst
    have hdis : s.Dispatches j := ⟨hrec, hl, fun h0 => ⟨x, hfirst h0⟩⟩
    refine ⟨fun _ hfit hphase => ⟨(s.startTeam j core).idle, ?_, ?_, fun m hm => ?_, fun g hg =>
      ⟨s.rootGroup j t' g core ((s.freeSlots core).getD g 0), ?_, ?_, ?_, fun r => ?_⟩⟩, fun hp h0 h1 => ?_⟩
    · rcases hphase with hp | ⟨hp, h0, h1, he⟩
      · exact exec_dispatch_running hj hdis hp hfit
      · rw [exec_dispatch_waiting hj hdis hp, contextsIn_none he, Option.bind_some, startAll_one hj h0 h1 hfit]
        rfl
    · exact startTeam_result (fun h0 => (hfirst h0).1)
    · show look (s.startTeam j core).groups m = _
      rw [startTeam_groups]
      exact look_teamGroups_other s j core hm
    · show look (s.startTeam j core).groups _ = _
      rw [startTeam_groups]
      exact look_teamGroups_at s j core hg
    · exact rootGroup_eq ..
    · exact rootGroup_pedigree s j core _ ((teamFits_iff.1 hfit).1.trans (teamCount_lt j)) (hg.trans (perTeam_lt j))
    · exact rootGroup_gGet ..
    · rw [exec_dispatch_waiting hj hdis hp]
      refine ⟨_, rfl, ?_⟩
      cases hc : s.contextsIn j with
      | none => exact Or.inl rfl
      | some u =>
        rw [Option.bind_some]
        cases ha : State.startAll j.id j.teamCount (some core) u with
        | none => exact Or.inl rfl
        | some t =>
          obtain ⟨l, hl⟩ := started_of_holds (holds_contextsIn hj hc) h0
          obtain ⟨k, hk, hkn⟩ := started_startAll hl (Nat.le_add_right _ _) ha
          exact Or.inr ⟨k, hk.job, hk.runs (by omega), hkn, fun m hm => hk.teams m (by omega)⟩

end Sys2Proof.Machine
end

section

/-!
# The encoder and the decoder (04 R66, R67, R70, R78, R81)
-/

namespace Sys2Proof

/-! ## Every instruction falls in its own row of the opcode map -/

theorem encoding_statement (i : Instr) : Laws.Encoding.Statement i := by
  cases i with
  | iaddV => apply Laws.Encoding.iaddV
  | isubV => apply Laws.Encoding.isubV
  | imulV => apply Laws.Encoding.imulV
  | imulhS32V => apply Laws.Encoding.imulhS32V
  | imulhZ32V => apply Laws.Encoding.imulhZ32V
  | imadV => apply Laws.Encoding.imadV
  | iabsV => apply Laws.Encoding.iabsV
  | iaddV64 => apply Laws.Encoding.iaddV64
  | isubV64 => apply Laws.Encoding.isubV64
  | imulV64 => apply Laws.Encoding.imulV64
  | imulhS64V => apply Laws.Encoding.imulhS64V
  | imulhZ64V => apply Laws.Encoding.imulhZ64V
  | imadV64 => apply Laws.Encoding.imadV64
  | iabsV64 => apply Laws.Encoding.iabsV64
  | iaddG32 => apply Laws.Encoding.iaddG32
  | isubG32 => apply Laws.Encoding.isubG32
  | imulG32 => apply Laws.Encoding.imulG32
  | imulhS32G => apply Laws.Encoding.imulhS32G
  | imulhZ32G => apply Laws.Encoding.imulhZ32G
  | imadG32 => apply Laws.Encoding.imadG32
  | iabsG32 => apply Laws.Encoding.iabsG32
  | iaddG64 => apply Laws.Encoding.iaddG64
  | isubG64 => apply Laws.Encoding.isubG64
  | imulG64 => apply Laws.Encoding.imulG64
  | imulhS64G => apply Laws.Encoding.imulhS64G
  | imulhZ64G => apply Laws.Encoding.imulhZ64G
  | imadG64 => apply Laws.Encoding.imadG64
  | iabsG64 => apply Laws.Encoding.iabsG64
  | iaddImmV => apply Laws.Encoding.iaddImmV
  | iaddImmV64 => apply Laws.Encoding.iaddImmV64
  | iaddImmG32 => apply Laws.Encoding.iaddImmG32
  | iaddImmG64 => apply Laws.Encoding.iaddImmG64
  | imaxV => apply Laws.Encoding.imaxV
  | iminV => apply Laws.Encoding.iminV
  | imaxG => apply Laws.Encoding.imaxG
  | iminG => apply Laws.Encoding.iminG
  | andV => apply Laws.Encoding.andV
  | orV => apply Laws.Encoding.orV
  | xorV => apply Laws.Encoding.xorV
  | andnV => apply Laws.Encoding.andnV
  | andG => apply Laws.Encoding.andG
  | orG => apply Laws.Encoding.orG
  | xorG => apply Laws.Encoding.xorG
  | andnG => apply Laws.Encoding.andnG
  | shlV => apply Laws.Encoding.shlV
  | shrV => apply Laws.Encoding.shrV
  | sarV => apply Laws.Encoding.sarV
  | rotV => apply Laws.Encoding.rotV
  | shlV64 => apply Laws.Encoding.shlV64
  | shrV64 => apply Laws.Encoding.shrV64
  | sarV64 => apply Laws.Encoding.sarV64
  | rotV64 => apply Laws.Encoding.rotV64
  | shlG32 => apply Laws.Encoding.shlG32
  | shrG32 => apply Laws.Encoding.shrG32
  | sarG32 => apply Laws.Encoding.sarG32
  | rotG32 => apply Laws.Encoding.rotG32
  | shlG64 => apply Laws.Encoding.shlG64
  | shrG64 => apply Laws.Encoding.shrG64
  | sarG64 => apply Laws.Encoding.sarG64
  | rotG64 => apply Laws.Encoding.rotG64
  | clzV => apply Laws.Encoding.clzV
  | clzV64 => apply Laws.Encoding.clzV64
  | clzG32 => apply Laws.Encoding.clzG32
  | clzG64 => apply Laws.Encoding.clzG64
  | popcV => apply Laws.Encoding.popcV
  | popcV64 => apply Laws.Encoding.popcV64
  | popcG32 => apply Laws.Encoding.popcG32
  | popcG64 => apply Laws.Encoding.popcG64
  | brevV => apply Laws.Encoding.brevV
  | brevG => apply Laws.Encoding.brevG
  | bfxZV => apply Laws.Encoding.bfxZV
  | bfxSV => apply Laws.Encoding.bfxSV
  | bfxZG => apply Laws.Encoding.bfxZG
  | bfxSG => apply Laws.Encoding.bfxSG
  | bfiV => apply Laws.Encoding.bfiV
  | bfiG => apply Laws.Encoding.bfiG
  | icmpV => apply Laws.Encoding.icmpV
  | icmpG => apply Laws.Encoding.icmpG
  | movV => apply Laws.Encoding.movV
  | movV64 => apply Laws.Encoding.movV64
  | movG32 => apply Laws.Encoding.movG32
  | movG64 => apply Laws.Encoding.movG64
  | selV => apply Laws.Encoding.selV
  | selG => apply Laws.Encoding.selG
  | psetV => apply Laws.Encoding.psetV
  | psetG => apply Laws.Encoding.psetG
  | psetNzV => apply Laws.Encoding.psetNzV
  | psetNzG => apply Laws.Encoding.psetNzG
  | movSpecialV => apply Laws.Encoding.movSpecialV
  | movSpecialG => apply Laws.Encoding.movSpecialG
  | moviV => apply Laws.Encoding.moviV
  | moviG => apply Laws.Encoding.moviG
  | brxV => apply Laws.Encoding.brxV
  | brxG => apply Laws.Encoding.brxG
  | retV => apply Laws.Encoding.retV
  | retG => apply Laws.Encoding.retG
  | leaV => apply Laws.Encoding.leaV
  | leaG => apply Laws.Encoding.leaG
  | callV => apply Laws.Encoding.callV
  | callG => apply Laws.Encoding.callG
  | braV => apply Laws.Encoding.braV
  | braG => apply Laws.Encoding.braG
  | fadd => apply Laws.Encoding.fadd
  | fsub => apply Laws.Encoding.fsub
  | fmul => apply Laws.Encoding.fmul
  | ffma => apply Laws.Encoding.ffma
  | fdiv => apply Laws.Encoding.fdiv
  | fmin => apply Laws.Encoding.fmin
  | fmax => apply Laws.Encoding.fmax
  | faddF64 => apply Laws.Encoding.faddF64
  | fsubF64 => apply Laws.Encoding.fsubF64
  | fmulF64 => apply Laws.Encoding.fmulF64
  | ffmaF64 => apply Laws.Encoding.ffmaF64
  | fdivF64 => apply Laws.Encoding.fdivF64
  | fminF64 => apply Laws.Encoding.fminF64
  | fmaxF64 => apply Laws.Encoding.fmaxF64
  | fsqrt => apply Laws.Encoding.fsqrt
  | frcp => apply Laws.Encoding.frcp
  | frsq => apply Laws.Encoding.frsq
  | fexp2 => apply Laws.Encoding.fexp2
  | flog2 => apply Laws.Encoding.flog2
  | ftrigSinpi => apply Laws.Encoding.ftrigSinpi
  | ftrigCospi => apply Laws.Encoding.ftrigCospi
  | frnd => apply Laws.Encoding.frnd
  | fsqrtF64 => apply Laws.Encoding.fsqrtF64
  | frndF64 => apply Laws.Encoding.frndF64
  | fclass => apply Laws.Encoding.fclass
  | hfuse => apply Laws.Encoding.hfuse
  | fcmp => apply Laws.Encoding.fcmp
  | cvt => apply Laws.Encoding.cvt
  | cvtGxEncode => apply Laws.Encoding.cvtGxEncode
  | cvtGxDecode => apply Laws.Encoding.cvtGxDecode
  | dp4 => apply Laws.Encoding.dp4
  | rand => apply Laws.Encoding.rand
  | pitch => apply Laws.Encoding.pitch
  | shfl => apply Laws.Encoding.shfl
  | vote => apply Laws.Encoding.vote
  | bcast => apply Laws.Encoding.bcast
  | redux => apply Laws.Encoding.redux
  | scan => apply Laws.Encoding.scan
  | nzscan => apply Laws.Encoding.nzscan
  | isect => apply Laws.Encoding.isect
  | movQueuePush => apply Laws.Encoding.movQueuePush
  | movQueuePop => apply Laws.Encoding.movQueuePop
  | cpy => apply Laws.Encoding.cpy
  | cpyr => apply Laws.Encoding.cpyr
  | ldV => apply Laws.Encoding.ldV
  | stV => apply Laws.Encoding.stV
  | ldOrdered => apply Laws.Encoding.ldOrdered
  | stOrdered => apply Laws.Encoding.stOrdered
  | atom => apply Laws.Encoding.atom
  | red => apply Laws.Encoding.red
  | ldt => apply Laws.Encoding.ldt
  | stt => apply Laws.Encoding.stt
  | movSlicePush => apply Laws.Encoding.movSlicePush
  | movSlicePop => apply Laws.Encoding.movSlicePop
  | movSliceToV => apply Laws.Encoding.movSliceToV
  | movVToSlice => apply Laws.Encoding.movVToSlice
  | nop => apply Laws.Encoding.nop
  | exit => apply Laws.Encoding.exit
  | trap => apply Laws.Encoding.trap
  | eret => apply Laws.Encoding.eret
  | yield => apply Laws.Encoding.yield
  | fence => apply Laws.Encoding.fence
  | wbaseImm => apply Laws.Encoding.wbaseImm
  | wbaseReg => apply Laws.Encoding.wbaseReg
  | qpoll => apply Laws.Encoding.qpoll
  | spawn => apply Laws.Encoding.spawn
  | join => apply Laws.Encoding.join
  | allocHeap => apply Laws.Encoding.allocHeap
  | allocLog => apply Laws.Encoding.allocLog
  | rdecl => apply Laws.Encoding.rdecl
  | rview => apply Laws.Encoding.rview
  | ctlrd => apply Laws.Encoding.ctlrd
  | ctlrdFflags => apply Laws.Encoding.ctlrdFflags
  | ctlwr => apply Laws.Encoding.ctlwr
  | ctlwrFflags => apply Laws.Encoding.ctlwrFflags
  | ctlwrLfm => apply Laws.Encoding.ctlwrLfm
  | ctlwrRepc => apply Laws.Encoding.ctlwrRepc
  | ctlwrTmr => apply Laws.Encoding.ctlwrTmr
  | ctlwrAlarm => apply Laws.Encoding.ctlwrAlarm
  | bara => apply Laws.Encoding.bara
  | barw => apply Laws.Encoding.barw
  | barm => apply Laws.Encoding.barm
  | bbinit => apply Laws.Encoding.bbinit
  | bbexp => apply Laws.Encoding.bbexp
  | bbarr => apply Laws.Encoding.bbarr
  | bbwait => apply Laws.Encoding.bbwait
  | ckinit => apply Laws.Encoding.ckinit
  | ckres => apply Laws.Encoding.ckres
  | ckpub => apply Laws.Encoding.ckpub
  | ckacq => apply Laws.Encoding.ckacq
  | ckrel => apply Laws.Encoding.ckrel
  | wait => apply Laws.Encoding.wait
  | abeg => apply Laws.Encoding.abeg
  | acom => apply Laws.Encoding.acom
  | cpyt => apply Laws.Encoding.cpyt
  | tsrf => apply Laws.Encoding.tsrf
  | trig => apply Laws.Encoding.trig
  | ldG => apply Laws.Encoding.ldG
  | stG => apply Laws.Encoding.stG
  | mma => apply Laws.Encoding.mma
  | mmag => apply Laws.Encoding.mmag
  | mmav => apply Laws.Encoding.mmav
  | msca => apply Laws.Encoding.msca
  | mzero => apply Laws.Encoding.mzero
  | mdrn => apply Laws.Encoding.mdrn
  | limm => apply Laws.Encoding.limm
  | rep => apply Laws.Encoding.rep
  | _ => exact fun h => Bool.noConfusion h

theorem rowOf_encode {i : Instr} (h : i.WellFormed) : rowOf (encode i) = some i := encoding_statement i h

/-! ## A well-formed instruction decodes from its word (04 R67, R78, R80) -/

/-- The word zero falls in the row of IADD of v0 by v0, which it alone is not (04 R78). -/
theorem encode_ne_zero {i : Instr} (h : i.WellFormed) : encode i ≠ 0#32 := by
  intro h0
  have hrow := rowOf_encode h
  rw [h0, show rowOf 0#32 = some (.iaddV 0#2 0#7 0#7 0#7) from rfl] at hrow
  cases hrow
  exact absurd h (by decide)

theorem decodeWord_encode {i : Instr} (h : i.WellFormed) : decodeWord (encode i) = .ok i := by
  unfold decodeWord
  rw [if_neg (encode_ne_zero h), rowOf_encode h]
  exact if_pos h

/-- The bytes of a word, lowest first, give the word back (00 R6). -/
theorem wordBytes_join (w : W32) :
    w.extractLsb' 24 8 ++ w.extractLsb' 16 8 ++ w.extractLsb' 8 8 ++ w.extractLsb' 0 8 = w := by
  rw [BitVec.extractLsb'_append_extractLsb'_eq_extractLsb' (by decide), BitVec.extractLsb'_append_extractLsb'_eq_extractLsb' (by decide),
    BitVec.extractLsb'_append_extractLsb'_eq_extractLsb' (by decide)]
  exact BitVec.extractLsb'_eq_self

theorem decodeBytes_wordBytes (w : W32) : decodeBytes (wordBytes w) = (decodeWord w).map (fun i => (i, [])) := by
  rw [wordBytes, decodeBytes, wordBytes_join]
  cases decodeWord w <;> rfl


/-! ## Every row of the opcode map encodes back to its word (04 R67, R70, R81) -/

/-- Every instruction of a row encodes to the word whose fields the row was read from. -/
def Encodes (row : Option Instr) (w : W32) : Prop := ∀ i, row = some i → encode i = w

theorem Encodes.none {w : W32} : Encodes Option.none w := fun _ h => nomatch h

theorem Encodes.some {i : Instr} {w : W32} (h : encode i = w) : Encodes (Option.some i) w := fun _ hi => Option.some.inj hi ▸ h

/-- A row of the map under its condition on the fields, and the rows behind it. -/
theorem Encodes.row {c : Prop} [Decidable c] {i : Instr} {rest : Option Instr} {w : W32} (h : c → encode i = w) (hrest : Encodes rest w) :
    Encodes (if c then Option.some i else rest) w := by
  split
  next hc => exact .some (h hc)
  · exact hrest

/-! The subfields that a row reads out of an operand field join to the field again, one of them under the value the row's condition gives it. -/

theorem fields_1_1_1 (x : BitVec 3) : x.extractLsb' 2 1 ++ x.extractLsb' 1 1 ++ x.extractLsb' 0 1 = x := by
  rw [BitVec.extractLsb'_append_extractLsb'_eq_extractLsb' (by decide), BitVec.extractLsb'_append_extractLsb'_eq_extractLsb' (by decide)]
  exact BitVec.extractLsb'_eq_self

@[simp] theorem fields_1_1_1_mid {x : BitVec 3} {y : BitVec 1} (h : x.extractLsb' 1 1 = y) : x.extractLsb' 2 1 ++ y ++ x.extractLsb' 0 1 = x :=
  h ▸ fields_1_1_1 x

@[simp] theorem fields_1_2 (x : BitVec 3) : x.extractLsb' 2 1 ++ x.extractLsb' 0 2 = x := by
  rw [BitVec.extractLsb'_append_extractLsb'_eq_extractLsb' (by decide)]
  exact BitVec.extractLsb'_eq_self

@[simp] theorem fields_1_2_high {x : BitVec 3} {y : BitVec 1} (h : x.extractLsb' 2 1 = y) : y ++ x.extractLsb' 0 2 = x :=
  h ▸ fields_1_2 x

@[simp] theorem fields_1_2_low {x : BitVec 3} {y : BitVec 2} (h : x.extractLsb' 0 2 = y) : x.extractLsb' 2 1 ++ y = x :=
  h ▸ fields_1_2 x

theorem fields_2_1 (x : BitVec 3) : x.extractLsb' 1 2 ++ x.extractLsb' 0 1 = x := by
  rw [BitVec.extractLsb'_append_extractLsb'_eq_extractLsb' (by decide)]
  exact BitVec.extractLsb'_eq_self

@[simp] theorem fields_2_1_high {x : BitVec 3} {y : BitVec 2} (h : x.extractLsb' 1 2 = y) : y ++ x.extractLsb' 0 1 = x :=
  h ▸ fields_2_1 x

theorem fields_4_1_2 (x : BitVec 7) : x.extractLsb' 3 4 ++ x.extractLsb' 2 1 ++ x.extractLsb' 0 2 = x := by
  rw [BitVec.extractLsb'_append_extractLsb'_eq_extractLsb' (by decide), BitVec.extractLsb'_append_extractLsb'_eq_extractLsb' (by decide)]
  exact BitVec.extractLsb'_eq_self

@[simp] theorem fields_4_1_2_high {x : BitVec 7} {y : BitVec 4} (h : x.extractLsb' 3 4 = y) : y ++ x.extractLsb' 2 1 ++ x.extractLsb' 0 2 = x :=
  h ▸ fields_4_1_2 x

theorem fields_5_2 (x : BitVec 7) : x.extractLsb' 2 5 ++ x.extractLsb' 0 2 = x := by
  rw [BitVec.extractLsb'_append_extractLsb'_eq_extractLsb' (by decide)]
  exact BitVec.extractLsb'_eq_self

@[simp] theorem fields_5_2_high {x : BitVec 7} {y : BitVec 5} (h : x.extractLsb' 2 5 = y) : y ++ x.extractLsb' 0 2 = x :=
  h ▸ fields_5_2 x

theorem fields_6_1 (x : BitVec 7) : x.extractLsb' 1 6 ++ x.extractLsb' 0 1 = x := by
  rw [BitVec.extractLsb'_append_extractLsb'_eq_extractLsb' (by decide)]
  exact BitVec.extractLsb'_eq_self

@[simp] theorem fields_6_1_high {x : BitVec 7} {y : BitVec 6} (h : x.extractLsb' 1 6 = y) : y ++ x.extractLsb' 0 1 = x :=
  h ▸ fields_6_1 x

@[simp] theorem fields_3_4 (x : BitVec 7) : x.extractLsb' 4 3 ++ x.extractLsb' 0 4 = x := by
  rw [BitVec.extractLsb'_append_extractLsb'_eq_extractLsb' (by decide)]
  exact BitVec.extractLsb'_eq_self

@[simp] theorem fields_3_4_high {x : BitVec 7} {y : BitVec 3} (h : x.extractLsb' 4 3 = y) : y ++ x.extractLsb' 0 4 = x :=
  h ▸ fields_3_4 x

theorem fields_2_1_4 (x : BitVec 7) : x.extractLsb' 5 2 ++ x.extractLsb' 4 1 ++ x.extractLsb' 0 4 = x := by
  rw [BitVec.extractLsb'_append_extractLsb'_eq_extractLsb' (by decide), BitVec.extractLsb'_append_extractLsb'_eq_extractLsb' (by decide)]
  exact BitVec.extractLsb'_eq_self

@[simp] theorem fields_2_1_4_high {x : BitVec 7} {y : BitVec 2} (h : x.extractLsb' 5 2 = y) : y ++ x.extractLsb' 4 1 ++ x.extractLsb' 0 4 = x :=
  h ▸ fields_2_1_4 x

@[simp] theorem fields_1_3_3 (x : BitVec 7) : x.extractLsb' 6 1 ++ x.extractLsb' 3 3 ++ x.extractLsb' 0 3 = x := by
  rw [BitVec.extractLsb'_append_extractLsb'_eq_extractLsb' (by decide), BitVec.extractLsb'_append_extractLsb'_eq_extractLsb' (by decide)]
  exact BitVec.extractLsb'_eq_self

@[simp] theorem fields_1_3_3_high {x : BitVec 7} {y : BitVec 1} (h : x.extractLsb' 6 1 = y) : y ++ x.extractLsb' 3 3 ++ x.extractLsb' 0 3 = x :=
  h ▸ fields_1_3_3 x

@[simp] theorem fields_3_1_3 (x : BitVec 7) : x.extractLsb' 4 3 ++ x.extractLsb' 3 1 ++ x.extractLsb' 0 3 = x := by
  rw [BitVec.extractLsb'_append_extractLsb'_eq_extractLsb' (by decide), BitVec.extractLsb'_append_extractLsb'_eq_extractLsb' (by decide)]
  exact BitVec.extractLsb'_eq_self

theorem fields_2_5_3 (x : BitVec 10) : x.extractLsb' 8 2 ++ x.extractLsb' 3 5 ++ x.extractLsb' 0 3 = x := by
  rw [BitVec.extractLsb'_append_extractLsb'_eq_extractLsb' (by decide), BitVec.extractLsb'_append_extractLsb'_eq_extractLsb' (by decide)]
  exact BitVec.extractLsb'_eq_self

@[simp] theorem fields_2_5_3_high {x : BitVec 10} {y : BitVec 2} (h : x.extractLsb' 8 2 = y) : y ++ x.extractLsb' 3 5 ++ x.extractLsb' 0 3 = x :=
  h ▸ fields_2_5_3 x

@[simp] theorem fields_5_5 (x : BitVec 10) : x.extractLsb' 5 5 ++ x.extractLsb' 0 5 = x := by
  rw [BitVec.extractLsb'_append_extractLsb'_eq_extractLsb' (by decide)]
  exact BitVec.extractLsb'_eq_self

theorem major00_encodes (q : BitVec 2) (fn : BitVec 3) (d : BitVec 7) (a : BitVec 7) (b : BitVec 7) :
    Encodes (decodeMajor00 q fn d a b) (fmtA 0#6 q fn d a b) := by
  unfold decodeMajor00
  refine .row (by rintro ⟨rfl, rfl⟩; rfl) ?_
  iterate 6 refine .row (by rintro rfl; rfl) ?_
  exact .none

theorem major01_encodes (q : BitVec 2) (fn : BitVec 3) (d : BitVec 7) (a : BitVec 7) (b : BitVec 7) :
    Encodes (decodeMajor01 q fn d a b) (fmtA 1#6 q fn d a b) := by
  unfold decodeMajor01
  refine .row (by rintro ⟨rfl, rfl⟩; rfl) ?_
  iterate 6 refine .row (by rintro rfl; rfl) ?_
  exact .none

theorem major02_encodes (q : BitVec 2) (fn : BitVec 3) (d : BitVec 7) (a : BitVec 7) (b : BitVec 7) :
    Encodes (decodeMajor02 q fn d a b) (fmtA 2#6 q fn d a b) := by
  unfold decodeMajor02
  iterate 2 refine .row (fun h => by change fmtA _ _ _ _ _ _ = _; simp [h]) ?_
  exact .none

theorem major03_encodes (q : BitVec 2) (fn : BitVec 3) (d : BitVec 7) (a : BitVec 7) (b : BitVec 7) :
    Encodes (decodeMajor03 q fn d a b) (fmtA 3#6 q fn d a b) := by
  unfold decodeMajor03
  iterate 4 refine .row (fun h => by change fmtA _ _ _ _ _ _ = _; simp [h]) ?_
  exact .none

theorem major04_encodes (q : BitVec 2) (fn : BitVec 3) (d : BitVec 7) (a : BitVec 7) (b : BitVec 7) :
    Encodes (decodeMajor04 q fn d a b) (fmtA 4#6 q fn d a b) := by
  unfold decodeMajor04
  iterate 4 refine .row (fun h => by change fmtA _ _ _ _ _ _ = _; simp [h]) ?_
  exact .none

theorem major05_encodes (q : BitVec 2) (fn : BitVec 3) (d : BitVec 7) (a : BitVec 7) (b : BitVec 7) :
    Encodes (decodeMajor05 q fn d a b) (fmtA 5#6 q fn d a b) := by
  unfold decodeMajor05
  iterate 4 refine .row (fun h => by change fmtA _ _ _ _ _ _ = _; simp [h]) ?_
  exact .none

theorem major06_encodes (q : BitVec 2) (fn : BitVec 3) (d : BitVec 7) (a : BitVec 7) (b : BitVec 7) :
    Encodes (decodeMajor06 q fn d a b) (fmtA 6#6 q fn d a b) := by
  unfold decodeMajor06
  iterate 5 refine .row (by rintro ⟨rfl, rfl⟩; rfl) ?_
  iterate 3 refine .row (by rintro rfl; rfl) ?_
  exact .none

theorem major07_encodes (q : BitVec 2) (fn : BitVec 3) (d : BitVec 7) (a : BitVec 7) (b : BitVec 7) :
    Encodes (decodeMajor07 q fn d a b) (fmtA 7#6 q fn d a b) := by
  unfold decodeMajor07
  refine .row (fun h => by change fmtA _ _ _ _ _ _ = _; simp [h]) ?_
  exact .none

theorem major08_encodes (q : BitVec 2) (fn : BitVec 3) (d : BitVec 7) (a : BitVec 7) (b : BitVec 7) :
    Encodes (decodeMajor08 q fn d a b) (fmtA 8#6 q fn d a b) := by
  unfold decodeMajor08
  iterate 2 refine .row (by rintro ⟨rfl, rfl⟩; rfl) ?_
  exact .some (by change fmtA _ _ _ _ _ _ = _; simp)

theorem major09_encodes (q : BitVec 2) (fn : BitVec 3) (d : BitVec 7) (a : BitVec 7) (b : BitVec 7) :
    Encodes (decodeMajor09 q fn d a b) (fmtA 9#6 q fn d a b) := by
  unfold decodeMajor09
  refine .row (fun h => by change fmtA _ _ _ _ _ _ = _; simp [h]) ?_
  refine .row (by rintro ⟨rfl, rfl⟩; rfl) ?_
  refine .row (fun h => by change fmtA _ _ _ _ _ _ = _; simp [h]) ?_
  exact .none

theorem major0A_encodes (q : BitVec 2) (d : BitVec 7) (a : BitVec 7) (i : BitVec 10) :
    Encodes (decodeMajor0A q d a i) (fmtB 10#6 q d a i) := .some rfl

theorem major0B_encodes (q : BitVec 2) (d : BitVec 7) (a : BitVec 7) (i : BitVec 10) :
    Encodes (decodeMajor0B q d a i) (fmtB 11#6 q d a i) := .some rfl

theorem major0C_encodes (q : BitVec 2) (d : BitVec 7) (i : BitVec 17) :
    Encodes (decodeMajor0C q d i) (fmtI 12#6 q d i) := .some rfl

theorem major0D_encodes (q : BitVec 2) (fn : BitVec 3) (d : BitVec 7) (a : BitVec 7) (b : BitVec 7) :
    Encodes (decodeMajor0D q fn d a b) (fmtA 13#6 q fn d a b) := by
  unfold decodeMajor0D
  iterate 2 refine .row (by rintro ⟨rfl, rfl, rfl⟩; rfl) ?_
  refine .row (fun h => by change fmtA _ _ _ _ _ _ = _; simp [h]) ?_
  exact .none

theorem major0E_encodes (q : BitVec 2) (i : BitVec 24) :
    Encodes (decodeMajor0E q i) (fmtC 14#6 q i) := .some rfl

theorem major0F_encodes (q : BitVec 2) (i : BitVec 24) :
    Encodes (decodeMajor0F q i) (fmtC 15#6 q i) := .some rfl

theorem major10_encodes (q : BitVec 2) (fn : BitVec 3) (d : BitVec 7) (a : BitVec 7) (b : BitVec 7) :
    Encodes (decodeMajor10 q fn d a b) (fmtA 16#6 q fn d a b) := by
  unfold decodeMajor10
  iterate 7 refine .row (by rintro rfl; rfl) ?_
  exact .none

theorem major11_encodes (q : BitVec 2) (fn : BitVec 3) (d : BitVec 7) (a : BitVec 7) (b : BitVec 7) :
    Encodes (decodeMajor11 q fn d a b) (fmtA 17#6 q fn d a b) := by
  unfold decodeMajor11
  iterate 7 refine .row (by rintro rfl; rfl) ?_
  exact .none

theorem major12_encodes (q : BitVec 2) (fn : BitVec 3) (d : BitVec 7) (a : BitVec 7) (b : BitVec 7) :
    Encodes (decodeMajor12 q fn d a b) (fmtA 18#6 q fn d a b) := by
  unfold decodeMajor12
  iterate 8 refine .row (by rintro rfl; rfl) ?_
  exact .none

theorem major13_encodes (q : BitVec 2) (fn : BitVec 3) (d : BitVec 7) (a : BitVec 7) (b : BitVec 7) :
    Encodes (decodeMajor13 q fn d a b) (fmtA 19#6 q fn d a b) := by
  unfold decodeMajor13
  iterate 2 refine .row (by rintro rfl; rfl) ?_
  iterate 2 refine .row (fun h => by change fmtA _ _ _ _ _ _ = _; simp [h]) ?_
  exact .none

theorem major14_encodes (q : BitVec 2) (fn : BitVec 3) (d : BitVec 7) (a : BitVec 7) (b : BitVec 7) :
    Encodes (decodeMajor14 q fn d a b) (fmtA 20#6 q fn d a b) := by
  unfold decodeMajor14
  refine .row (fun h => by change fmtA _ _ _ _ _ _ = _; simp [h]) ?_
  exact .none

theorem major15_encodes (q : BitVec 2) (fn : BitVec 3) (d : BitVec 7) (a : BitVec 7) (b : BitVec 7) :
    Encodes (decodeMajor15 q fn d a b) (fmtA 21#6 q fn d a b) := by
  unfold decodeMajor15
  iterate 2 refine .row (fun h => by change fmtA _ _ _ _ _ _ = _; simp [h]) ?_
  exact .some rfl

theorem major16_encodes (q : BitVec 2) (fn : BitVec 3) (d : BitVec 7) (a : BitVec 7) (b : BitVec 7) :
    Encodes (decodeMajor16 q fn d a b) (fmtA 22#6 q fn d a b) := by
  unfold decodeMajor16
  refine .row (by rintro ⟨rfl, rfl, rfl⟩; rfl) ?_
  iterate 2 refine .row (fun h => by change fmtA _ _ _ _ _ _ = _; simp [h]) ?_
  exact .none

theorem major17_encodes (q : BitVec 2) (fn : BitVec 3) (d : BitVec 7) (a : BitVec 7) (b : BitVec 7) :
    Encodes (decodeMajor17 q fn d a b) (fmtA 23#6 q fn d a b) := by
  unfold decodeMajor17
  iterate 5 refine .row (fun h => by change fmtA _ _ _ _ _ _ = _; simp [h]) ?_
  exact .none

theorem major18_encodes (q : BitVec 2) (fn : BitVec 3) (d : BitVec 7) (a : BitVec 7) (b : BitVec 7) :
    Encodes (decodeMajor18 q fn d a b) (fmtA 24#6 q fn d a b) := by
  unfold decodeMajor18
  refine .row (by rintro ⟨rfl, rfl, rfl⟩; rfl) ?_
  refine .row (by rintro ⟨rfl, rfl⟩; rfl) ?_
  iterate 4 refine .row (by rintro rfl; rfl) ?_
  exact .none

theorem major19_encodes (q : BitVec 2) (fn : BitVec 3) (d : BitVec 7) (a : BitVec 7) (b : BitVec 7) :
    Encodes (decodeMajor19 q fn d a b) (fmtA 25#6 q fn d a b) := .some rfl

theorem major1A_encodes (q : BitVec 2) (fn : BitVec 3) (d : BitVec 7) (a : BitVec 7) (b : BitVec 7) :
    Encodes (decodeMajor1A q fn d a b) (fmtA 26#6 q fn d a b) := .some rfl

theorem major1B_encodes (q : BitVec 2) (d : BitVec 7) (a : BitVec 7) (i : BitVec 10) :
    Encodes (decodeMajor1B q d a i) (fmtB 27#6 q d a i) := by
  unfold decodeMajor1B
  refine .row (fun h => by change fmtB _ _ _ _ _ = _; simp [h]) ?_
  exact .none

theorem major1C_encodes (q : BitVec 2) (d : BitVec 7) (a : BitVec 7) (i : BitVec 10) :
    Encodes (decodeMajor1C q d a i) (fmtB 28#6 q d a i) := by
  unfold decodeMajor1C
  refine .row (fun h => by change fmtB _ _ _ _ _ = _; simp [h]) ?_
  exact .none

theorem major1D_encodes (q : BitVec 2) (d : BitVec 7) (a : BitVec 7) (i : BitVec 10) :
    Encodes (decodeMajor1D q d a i) (fmtB 29#6 q d a i) := by
  unfold decodeMajor1D
  exact .some (by change fmtB _ _ _ _ _ = _; simp)

theorem major1E_encodes (q : BitVec 2) (d : BitVec 7) (a : BitVec 7) (i : BitVec 10) :
    Encodes (decodeMajor1E q d a i) (fmtB 30#6 q d a i) := by
  unfold decodeMajor1E
  exact .some (by change fmtB _ _ _ _ _ = _; simp)

theorem major1F_encodes (q : BitVec 2) (fn : BitVec 3) (d : BitVec 7) (a : BitVec 7) (b : BitVec 7) :
    Encodes (decodeMajor1F q fn d a b) (fmtA 31#6 q fn d a b) := by
  unfold decodeMajor1F
  iterate 6 refine .row (fun h => by change fmtA _ _ _ _ _ _ = _; simp [h]) ?_
  exact .none

theorem major20_encodes (q : BitVec 2) (fn : BitVec 3) (d : BitVec 7) (a : BitVec 7) (b : BitVec 7) :
    Encodes (decodeMajor20 q fn d a b) (fmtA 32#6 q fn d a b) := by
  unfold decodeMajor20
  refine .row (by rintro ⟨rfl, rfl⟩; rfl) ?_
  iterate 6 refine .row (by rintro rfl; rfl) ?_
  exact .none

theorem major21_encodes (q : BitVec 2) (fn : BitVec 3) (d : BitVec 7) (a : BitVec 7) (b : BitVec 7) :
    Encodes (decodeMajor21 q fn d a b) (fmtA 33#6 q fn d a b) := by
  unfold decodeMajor21
  refine .row (by rintro ⟨rfl, rfl⟩; rfl) ?_
  iterate 6 refine .row (by rintro rfl; rfl) ?_
  exact .none

theorem major22_encodes (q : BitVec 2) (fn : BitVec 3) (d : BitVec 7) (a : BitVec 7) (b : BitVec 7) :
    Encodes (decodeMajor22 q fn d a b) (fmtA 34#6 q fn d a b) := by
  unfold decodeMajor22
  iterate 2 refine .row (fun h => by change fmtA _ _ _ _ _ _ = _; simp [h]) ?_
  exact .none

theorem major23_encodes (q : BitVec 2) (fn : BitVec 3) (d : BitVec 7) (a : BitVec 7) (b : BitVec 7) :
    Encodes (decodeMajor23 q fn d a b) (fmtA 35#6 q fn d a b) := by
  unfold decodeMajor23
  iterate 4 refine .row (fun h => by change fmtA _ _ _ _ _ _ = _; simp [h]) ?_
  exact .none

theorem major24_encodes (q : BitVec 2) (fn : BitVec 3) (d : BitVec 7) (a : BitVec 7) (b : BitVec 7) :
    Encodes (decodeMajor24 q fn d a b) (fmtA 36#6 q fn d a b) := by
  unfold decodeMajor24
  iterate 4 refine .row (fun h => by change fmtA _ _ _ _ _ _ = _; simp [h]) ?_
  exact .none

theorem major25_encodes (q : BitVec 2) (fn : BitVec 3) (d : BitVec 7) (a : BitVec 7) (b : BitVec 7) :
    Encodes (decodeMajor25 q fn d a b) (fmtA 37#6 q fn d a b) := by
  unfold decodeMajor25
  iterate 4 refine .row (fun h => by change fmtA _ _ _ _ _ _ = _; simp [h]) ?_
  exact .none

theorem major26_encodes (q : BitVec 2) (fn : BitVec 3) (d : BitVec 7) (a : BitVec 7) (b : BitVec 7) :
    Encodes (decodeMajor26 q fn d a b) (fmtA 38#6 q fn d a b) := by
  unfold decodeMajor26
  iterate 5 refine .row (by rintro ⟨rfl, rfl⟩; rfl) ?_
  iterate 3 refine .row (by rintro rfl; rfl) ?_
  exact .none

theorem major27_encodes (q : BitVec 2) (fn : BitVec 3) (d : BitVec 7) (a : BitVec 7) (b : BitVec 7) :
    Encodes (decodeMajor27 q fn d a b) (fmtA 39#6 q fn d a b) := by
  unfold decodeMajor27
  refine .row (fun h => by change fmtA _ _ _ _ _ _ = _; simp [h]) ?_
  exact .none

theorem major28_encodes (q : BitVec 2) (fn : BitVec 3) (d : BitVec 7) (a : BitVec 7) (b : BitVec 7) :
    Encodes (decodeMajor28 q fn d a b) (fmtA 40#6 q fn d a b) := by
  unfold decodeMajor28
  iterate 2 refine .row (by rintro ⟨rfl, rfl⟩; rfl) ?_
  exact .some (by change fmtA _ _ _ _ _ _ = _; simp)

theorem major29_encodes (q : BitVec 2) (fn : BitVec 3) (d : BitVec 7) (a : BitVec 7) (b : BitVec 7) :
    Encodes (decodeMajor29 q fn d a b) (fmtA 41#6 q fn d a b) := by
  unfold decodeMajor29
  refine .row (fun h => by change fmtA _ _ _ _ _ _ = _; simp [h]) ?_
  refine .row (by rintro ⟨rfl, rfl⟩; rfl) ?_
  refine .row (fun h => by change fmtA _ _ _ _ _ _ = _; simp [h]) ?_
  exact .none

theorem major2A_encodes (q : BitVec 2) (d : BitVec 7) (a : BitVec 7) (i : BitVec 10) :
    Encodes (decodeMajor2A q d a i) (fmtB 42#6 q d a i) := .some rfl

theorem major2B_encodes (q : BitVec 2) (d : BitVec 7) (a : BitVec 7) (i : BitVec 10) :
    Encodes (decodeMajor2B q d a i) (fmtB 43#6 q d a i) := .some rfl

theorem major2C_encodes (q : BitVec 2) (d : BitVec 7) (i : BitVec 17) :
    Encodes (decodeMajor2C q d i) (fmtI 44#6 q d i) := .some rfl

theorem major2D_encodes (q : BitVec 2) (fn : BitVec 3) (d : BitVec 7) (a : BitVec 7) (b : BitVec 7) :
    Encodes (decodeMajor2D q fn d a b) (fmtA 45#6 q fn d a b) := by
  unfold decodeMajor2D
  iterate 2 refine .row (by rintro ⟨rfl, rfl, rfl⟩; rfl) ?_
  refine .row (fun h => by change fmtA _ _ _ _ _ _ = _; simp [h]) ?_
  exact .none

theorem major2E_encodes (q : BitVec 2) (i : BitVec 24) :
    Encodes (decodeMajor2E q i) (fmtC 46#6 q i) := .some rfl

theorem major2F_encodes (q : BitVec 2) (i : BitVec 24) :
    Encodes (decodeMajor2F q i) (fmtC 47#6 q i) := .some rfl

theorem major30_encodes (q : BitVec 2) (fn : BitVec 3) (d : BitVec 7) (a : BitVec 7) (b : BitVec 7) :
    Encodes (decodeMajor30 q fn d a b) (fmtA 48#6 q fn d a b) := by
  unfold decodeMajor30
  iterate 4 refine .row (by rintro ⟨rfl, rfl, rfl, rfl⟩; rfl) ?_
  refine .row (fun h => by change fmtA _ _ _ _ _ _ = _; simp [h]) ?_
  iterate 3 refine .row (by rintro ⟨rfl, rfl, rfl⟩; rfl) ?_
  refine .row (fun h => by change fmtA _ _ _ _ _ _ = _; simp [h]) ?_
  exact .none

theorem major31_encodes (q : BitVec 2) (fn : BitVec 3) (d : BitVec 7) (a : BitVec 7) (b : BitVec 7) :
    Encodes (decodeMajor31 q fn d a b) (fmtA 49#6 q fn d a b) := by
  unfold decodeMajor31
  refine .row (by rintro ⟨rfl, rfl, rfl, rfl⟩; rfl) ?_
  iterate 4 refine .row (by rintro ⟨rfl, rfl⟩; rfl) ?_
  refine .row (by rintro rfl; rfl) ?_
  exact .none

theorem major32_encodes (q : BitVec 2) (d : BitVec 7) (a : BitVec 7) (i : BitVec 10) :
    Encodes (decodeMajor32 q d a i) (fmtB 50#6 q d a i) := by
  unfold decodeMajor32
  refine .row (by rintro ⟨rfl, rfl⟩; rfl) ?_
  refine .row (by rintro rfl; rfl) ?_
  exact .none

theorem major33_encodes (q : BitVec 2) (d : BitVec 7) (a : BitVec 7) (i : BitVec 10) :
    Encodes (decodeMajor33 q d a i) (fmtB 51#6 q d a i) := by
  unfold decodeMajor33
  iterate 5 refine .row (by rintro ⟨rfl, rfl⟩; rfl) ?_
  refine .row (by rintro rfl; rfl) ?_
  exact .none

theorem major34_encodes (q : BitVec 2) (fn : BitVec 3) (d : BitVec 7) (a : BitVec 7) (b : BitVec 7) :
    Encodes (decodeMajor34 q fn d a b) (fmtA 52#6 q fn d a b) := by
  unfold decodeMajor34
  iterate 7 refine .row (by rintro ⟨rfl, rfl⟩; rfl) ?_
  exact .none

theorem major35_encodes (q : BitVec 2) (fn : BitVec 3) (d : BitVec 7) (a : BitVec 7) (b : BitVec 7) :
    Encodes (decodeMajor35 q fn d a b) (fmtA 53#6 q fn d a b) := by
  unfold decodeMajor35
  iterate 2 refine .row (by rintro ⟨rfl, rfl, rfl⟩; rfl) ?_
  iterate 5 refine .row (fun h => by change fmtA _ _ _ _ _ _ = _; simp [h]) ?_
  refine .row (by rintro ⟨rfl, rfl⟩; rfl) ?_
  exact .none

theorem major36_encodes (q : BitVec 2) (fn : BitVec 3) (d : BitVec 7) (a : BitVec 7) (b : BitVec 7) :
    Encodes (decodeMajor36 q fn d a b) (fmtA 54#6 q fn d a b) := by
  unfold decodeMajor36
  refine .row (by rintro ⟨rfl, rfl, rfl, rfl⟩; rfl) ?_
  refine .row (fun h => by change fmtA _ _ _ _ _ _ = _; simp [h]) ?_
  refine .row (by rintro rfl; rfl) ?_
  exact .none

theorem major37_encodes (q : BitVec 2) (fn : BitVec 3) (d : BitVec 7) (a : BitVec 7) (b : BitVec 7) :
    Encodes (decodeMajor37 q fn d a b) (fmtA 55#6 q fn d a b) := .some rfl

theorem major38_encodes (q : BitVec 2) (fn : BitVec 3) (d : BitVec 7) (a : BitVec 7) (b : BitVec 7) :
    Encodes (decodeMajor38 q fn d a b) (fmtA 56#6 q fn d a b) := .some rfl

theorem major39_encodes (q : BitVec 2) (fa : BitVec 4) (fb : BitVec 4) (c : BitVec 3) (d : BitVec 7) (f : BitVec 6) :
    Encodes (decodeMajor39 q fa fb c d f) (fmtX 57#6 q fa fb c d f) := by
  unfold decodeMajor39
  refine .row (by rintro ⟨rfl, rfl, rfl, rfl⟩; rfl) ?_
  iterate 2 refine .row (by rintro ⟨rfl, rfl⟩; rfl) ?_
  iterate 3 refine .row (by rintro rfl; rfl) ?_
  exact .none

theorem major3A_encodes (q : BitVec 2) (i : BitVec 24) :
    Encodes (decodeMajor3A q i) (fmtC 58#6 q i) := by
  unfold decodeMajor3A
  refine .row (by rintro rfl; rfl) ?_
  exact .none

theorem major3B_encodes (q : BitVec 2) (n : BitVec 6) (m : BitVec 3) (s : BitVec 3) (g : BitVec 7) (z : BitVec 5) :
    Encodes (decodeMajor3B q n m s g z) (fmtP 59#6 q n m s g z) := by
  unfold decodeMajor3B
  refine .row (by rintro ⟨rfl, rfl⟩; rfl) ?_
  exact .none

/-! ## A word is the joining of its fields (04 R67) -/

theorem fmtA_fields (w : W32) : fmtA (majorOf w) (guardBits w) (w.extractLsb' 21 3) (w.extractLsb' 14 7) (w.extractLsb' 7 7) (w.extractLsb' 0 7) = w := by
  unfold fmtA majorOf guardBits
  iterate 5 rw [BitVec.extractLsb'_append_extractLsb'_eq_extractLsb' (by decide)]
  exact BitVec.extractLsb'_eq_self

/-- The rows of a major of format A, read from a word of that major. -/
theorem encodes_fmtA {m : BitVec 6} {rows : BitVec 2 → BitVec 3 → BitVec 7 → BitVec 7 → BitVec 7 → Option Instr}
    (hrows : ∀ q fn d a b, Encodes (rows q fn d a b) (fmtA m q fn d a b)) {w : W32} (hm : (majorOf w).toNat = m.toNat) :
    Encodes (rows (guardBits w) (w.extractLsb' 21 3) (w.extractLsb' 14 7) (w.extractLsb' 7 7) (w.extractLsb' 0 7)) w := by
  have h := hrows (guardBits w) (w.extractLsb' 21 3) (w.extractLsb' 14 7) (w.extractLsb' 7 7) (w.extractLsb' 0 7)
  rwa [← BitVec.eq_of_toNat_eq hm, fmtA_fields] at h

theorem fmtB_fields (w : W32) : fmtB (majorOf w) (guardBits w) (w.extractLsb' 17 7) (w.extractLsb' 10 7) (w.extractLsb' 0 10) = w := by
  unfold fmtB majorOf guardBits
  iterate 4 rw [BitVec.extractLsb'_append_extractLsb'_eq_extractLsb' (by decide)]
  exact BitVec.extractLsb'_eq_self

/-- The rows of a major of format B, read from a word of that major. -/
theorem encodes_fmtB {m : BitVec 6} {rows : BitVec 2 → BitVec 7 → BitVec 7 → BitVec 10 → Option Instr}
    (hrows : ∀ q d a i, Encodes (rows q d a i) (fmtB m q d a i)) {w : W32} (hm : (majorOf w).toNat = m.toNat) :
    Encodes (rows (guardBits w) (w.extractLsb' 17 7) (w.extractLsb' 10 7) (w.extractLsb' 0 10)) w := by
  have h := hrows (guardBits w) (w.extractLsb' 17 7) (w.extractLsb' 10 7) (w.extractLsb' 0 10)
  rwa [← BitVec.eq_of_toNat_eq hm, fmtB_fields] at h

theorem fmtI_fields (w : W32) : fmtI (majorOf w) (guardBits w) (w.extractLsb' 17 7) (w.extractLsb' 0 17) = w := by
  unfold fmtI majorOf guardBits
  iterate 3 rw [BitVec.extractLsb'_append_extractLsb'_eq_extractLsb' (by decide)]
  exact BitVec.extractLsb'_eq_self

/-- The rows of a major of format I, read from a word of that major. -/
theorem encodes_fmtI {m : BitVec 6} {rows : BitVec 2 → BitVec 7 → BitVec 17 → Option Instr}
    (hrows : ∀ q d i, Encodes (rows q d i) (fmtI m q d i)) {w : W32} (hm : (majorOf w).toNat = m.toNat) :
    Encodes (rows (guardBits w) (w.extractLsb' 17 7) (w.extractLsb' 0 17)) w := by
  have h := hrows (guardBits w) (w.extractLsb' 17 7) (w.extractLsb' 0 17)
  rwa [← BitVec.eq_of_toNat_eq hm, fmtI_fields] at h

theorem fmtC_fields (w : W32) : fmtC (majorOf w) (guardBits w) (w.extractLsb' 0 24) = w := by
  unfold fmtC majorOf guardBits
  iterate 2 rw [BitVec.extractLsb'_append_extractLsb'_eq_extractLsb' (by decide)]
  exact BitVec.extractLsb'_eq_self

/-- The rows of a major of format C, read from a word of that major. -/
theorem encodes_fmtC {m : BitVec 6} {rows : BitVec 2 → BitVec 24 → Option Instr}
    (hrows : ∀ q i, Encodes (rows q i) (fmtC m q i)) {w : W32} (hm : (majorOf w).toNat = m.toNat) :
    Encodes (rows (guardBits w) (w.extractLsb' 0 24)) w := by
  have h := hrows (guardBits w) (w.extractLsb' 0 24)
  rwa [← BitVec.eq_of_toNat_eq hm, fmtC_fields] at h

theorem fmtX_fields (w : W32) : fmtX (majorOf w) (guardBits w) (w.extractLsb' 20 4) (w.extractLsb' 16 4) (w.extractLsb' 13 3) (w.extractLsb' 6 7) (w.extractLsb' 0 6) = w := by
  unfold fmtX majorOf guardBits
  iterate 6 rw [BitVec.extractLsb'_append_extractLsb'_eq_extractLsb' (by decide)]
  exact BitVec.extractLsb'_eq_self

/-- The rows of a major of format X, read from a word of that major. -/
theorem encodes_fmtX {m : BitVec 6} {rows : BitVec 2 → BitVec 4 → BitVec 4 → BitVec 3 → BitVec 7 → BitVec 6 → Option Instr}
    (hrows : ∀ q a b c d f, Encodes (rows q a b c d f) (fmtX m q a b c d f)) {w : W32} (hm : (majorOf w).toNat = m.toNat) :
    Encodes (rows (guardBits w) (w.extractLsb' 20 4) (w.extractLsb' 16 4) (w.extractLsb' 13 3) (w.extractLsb' 6 7) (w.extractLsb' 0 6)) w := by
  have h := hrows (guardBits w) (w.extractLsb' 20 4) (w.extractLsb' 16 4) (w.extractLsb' 13 3) (w.extractLsb' 6 7) (w.extractLsb' 0 6)
  rwa [← BitVec.eq_of_toNat_eq hm, fmtX_fields] at h

theorem fmtP_fields (w : W32) : fmtP (majorOf w) (guardBits w) (w.extractLsb' 18 6) (w.extractLsb' 15 3) (w.extractLsb' 12 3) (w.extractLsb' 5 7) (w.extractLsb' 0 5) = w := by
  unfold fmtP majorOf guardBits
  iterate 6 rw [BitVec.extractLsb'_append_extractLsb'_eq_extractLsb' (by decide)]
  exact BitVec.extractLsb'_eq_self

/-- The rows of a major of format P, read from a word of that major. -/
theorem encodes_fmtP {m : BitVec 6} {rows : BitVec 2 → BitVec 6 → BitVec 3 → BitVec 3 → BitVec 7 → BitVec 5 → Option Instr}
    (hrows : ∀ q n k s g z, Encodes (rows q n k s g z) (fmtP m q n k s g z)) {w : W32} (hm : (majorOf w).toNat = m.toNat) :
    Encodes (rows (guardBits w) (w.extractLsb' 18 6) (w.extractLsb' 15 3) (w.extractLsb' 12 3) (w.extractLsb' 5 7) (w.extractLsb' 0 5)) w := by
  have h := hrows (guardBits w) (w.extractLsb' 18 6) (w.extractLsb' 15 3) (w.extractLsb' 12 3) (w.extractLsb' 5 7) (w.extractLsb' 0 5)
  rwa [← BitVec.eq_of_toNat_eq hm, fmtP_fields] at h

/-! ## The word of a decoded instruction -/

theorem rowOf_encodes (w : W32) : Encodes (rowOf w) w := by
  unfold rowOf
  split
  next hm => exact encodes_fmtA major00_encodes hm
  next hm => exact encodes_fmtA major01_encodes hm
  next hm => exact encodes_fmtA major02_encodes hm
  next hm => exact encodes_fmtA major03_encodes hm
  next hm => exact encodes_fmtA major04_encodes hm
  next hm => exact encodes_fmtA major05_encodes hm
  next hm => exact encodes_fmtA major06_encodes hm
  next hm => exact encodes_fmtA major07_encodes hm
  next hm => exact encodes_fmtA major08_encodes hm
  next hm => exact encodes_fmtA major09_encodes hm
  next hm => exact encodes_fmtB major0A_encodes hm
  next hm => exact encodes_fmtB major0B_encodes hm
  next hm => exact encodes_fmtI major0C_encodes hm
  next hm => exact encodes_fmtA major0D_encodes hm
  next hm => exact encodes_fmtC major0E_encodes hm
  next hm => exact encodes_fmtC major0F_encodes hm
  next hm => exact encodes_fmtA major10_encodes hm
  next hm => exact encodes_fmtA major11_encodes hm
  next hm => exact encodes_fmtA major12_encodes hm
  next hm => exact encodes_fmtA major13_encodes hm
  next hm => exact encodes_fmtA major14_encodes hm
  next hm => exact encodes_fmtA major15_encodes hm
  next hm => exact encodes_fmtA major16_encodes hm
  next hm => exact encodes_fmtA major17_encodes hm
  next hm => exact encodes_fmtA major18_encodes hm
  next hm => exact encodes_fmtA major19_encodes hm
  next hm => exact encodes_fmtA major1A_encodes hm
  next hm => exact encodes_fmtB major1B_encodes hm
  next hm => exact encodes_fmtB major1C_encodes hm
  next hm => exact encodes_fmtB major1D_encodes hm
  next hm => exact encodes_fmtB major1E_encodes hm
  next hm => exact encodes_fmtA major1F_encodes hm
  next hm => exact encodes_fmtA major20_encodes hm
  next hm => exact encodes_fmtA major21_encodes hm
  next hm => exact encodes_fmtA major22_encodes hm
  next hm => exact encodes_fmtA major23_encodes hm
  next hm => exact encodes_fmtA major24_encodes hm
  next hm => exact encodes_fmtA major25_encodes hm
  next hm => exact encodes_fmtA major26_encodes hm
  next hm => exact encodes_fmtA major27_encodes hm
  next hm => exact encodes_fmtA major28_encodes hm
  next hm => exact encodes_fmtA major29_encodes hm
  next hm => exact encodes_fmtB major2A_encodes hm
  next hm => exact encodes_fmtB major2B_encodes hm
  next hm => exact encodes_fmtI major2C_encodes hm
  next hm => exact encodes_fmtA major2D_encodes hm
  next hm => exact encodes_fmtC major2E_encodes hm
  next hm => exact encodes_fmtC major2F_encodes hm
  next hm => exact encodes_fmtA major30_encodes hm
  next hm => exact encodes_fmtA major31_encodes hm
  next hm => exact encodes_fmtB major32_encodes hm
  next hm => exact encodes_fmtB major33_encodes hm
  next hm => exact encodes_fmtA major34_encodes hm
  next hm => exact encodes_fmtA major35_encodes hm
  next hm => exact encodes_fmtA major36_encodes hm
  next hm => exact encodes_fmtA major37_encodes hm
  next hm => exact encodes_fmtA major38_encodes hm
  next hm => exact encodes_fmtX major39_encodes hm
  next hm => exact encodes_fmtC major3A_encodes hm
  next hm => exact encodes_fmtP major3B_encodes hm
  · exact .none

theorem wellFormed_of_decodeWord {w : W32} {i : Instr} (h : decodeWord w = .ok i) : w ≠ 0#32 ∧ rowOf w = some i ∧ i.WellFormed := by
  unfold decodeWord at h
  split at h
  · cases h
  next hw =>
    split at h
    · cases h
    next hrow =>
      split at h
      next hok =>
        cases h
        exact ⟨hw, hrow, hok⟩
      · cases h

theorem decodeWord_of_encode {i : Instr} {w : W32} (h : i.WellFormed) (he : encode i = w) : decodeWord w = .ok i := he ▸ decodeWord_encode h

end Sys2Proof

namespace Sys2Proof.Machine

/-- Settles O1: each instruction falls in its own row of the opcode map, and the four bytes of its word join to the word. -/
theorem decodeOfEncode : Obligations.DecodeOfEncode := by
  unfold Obligations.DecodeOfEncode
  intro i h
  rw [decodeBytes_wordBytes, decodeWord_encode h]
  rfl

/-- Settles O8: every row of the opcode map encodes back to the word it was read from, and the decoder takes well-formed rows alone. -/
theorem encodeOfDecode : Obligations.EncodeOfDecode := by
  unfold Obligations.EncodeOfDecode
  intro w i h
  obtain ⟨hw, hrow, hok⟩ := wellFormed_of_decodeWord h
  exact ⟨hok, rowOf_encodes w i hrow, hw⟩

/-- Settles O7: each printed word is the encoding of the instruction it is printed for, which is well-formed. -/
theorem specWordsDecode : Obligations.SpecWordsDecode :=
  ⟨decodeWord_of_encode rfl rfl, decodeWord_of_encode rfl rfl, decodeWord_of_encode rfl rfl, decodeWord_of_encode rfl rfl, decodeWord_of_encode rfl rfl,
    decodeWord_of_encode rfl rfl, decodeWord_of_encode rfl rfl, decodeWord_of_encode rfl rfl, decodeWord_of_encode rfl rfl, decodeWord_of_encode rfl rfl⟩

end Sys2Proof.Machine
end

section

/-!
# Rejection before an instruction's own effect (04 R78, R79, 03 R46, R47)

Every instruction begins with one of a few forms that asks its admission; a lane form then asks what bars it and its window.
-/

namespace Sys2Proof

/-! ## The major of an encoded word -/

@[simp] theorem majorOf_fmtA (m : BitVec 6) (q : BitVec 2) (fn : BitVec 3) (d a b : BitVec 7) : majorOf (fmtA m q fn d a b) = m :=
  Laws.Encoding.fmtA_m m q fn d a b

@[simp] theorem majorOf_fmtB (m : BitVec 6) (q : BitVec 2) (d a : BitVec 7) (k : BitVec 10) : majorOf (fmtB m q d a k) = m :=
  Laws.Encoding.fmtB_m m q d a k

@[simp] theorem majorOf_fmtI (m : BitVec 6) (q : BitVec 2) (d : BitVec 7) (k : BitVec 17) : majorOf (fmtI m q d k) = m :=
  Laws.Encoding.fmtI_m m q d k

@[simp] theorem majorOf_fmtC (m : BitVec 6) (q : BitVec 2) (k : BitVec 24) : majorOf (fmtC m q k) = m := Laws.Encoding.fmtC_m m q k

@[simp] theorem majorOf_fmtX (m : BitVec 6) (q : BitVec 2) (a b : BitVec 4) (c : BitVec 3) (d : BitVec 7) (f : BitVec 6) :
    majorOf (fmtX m q a b c d f) = m := Laws.Encoding.fmtX_m m q a b c d f

@[simp] theorem majorOf_fmtP (m : BitVec 6) (q : BitVec 2) (n : BitVec 6) (k s : BitVec 3) (g : BitVec 7) (z : BitVec 5) :
    majorOf (fmtP m q n k s g z) = m := Laws.Encoding.fmtP_m m q n k s g z

theorem major_fmtA {i : Instr} {m : BitVec 6} {q : BitVec 2} {fn : BitVec 3} {d a b : BitVec 7} (h : encode i = fmtA m q fn d a b) : i.major = m.toNat :=
  congrArg BitVec.toNat ((congrArg majorOf h).trans (majorOf_fmtA m q fn d a b))

theorem major_fmtB {i : Instr} {m : BitVec 6} {q : BitVec 2} {d a : BitVec 7} {k : BitVec 10} (h : encode i = fmtB m q d a k) : i.major = m.toNat :=
  congrArg BitVec.toNat ((congrArg majorOf h).trans (majorOf_fmtB m q d a k))

theorem major_fmtI {i : Instr} {m : BitVec 6} {q : BitVec 2} {d : BitVec 7} {k : BitVec 17} (h : encode i = fmtI m q d k) : i.major = m.toNat :=
  congrArg BitVec.toNat ((congrArg majorOf h).trans (majorOf_fmtI m q d k))

theorem major_fmtC {i : Instr} {m : BitVec 6} {q : BitVec 2} {k : BitVec 24} (h : encode i = fmtC m q k) : i.major = m.toNat :=
  congrArg BitVec.toNat ((congrArg majorOf h).trans (majorOf_fmtC m q k))

theorem major_fmtX {i : Instr} {m : BitVec 6} {q : BitVec 2} {a b : BitVec 4} {c : BitVec 3} {d : BitVec 7} {f : BitVec 6}
    (h : encode i = fmtX m q a b c d f) : i.major = m.toNat :=
  congrArg BitVec.toNat ((congrArg majorOf h).trans (majorOf_fmtX m q a b c d f))

theorem major_fmtP {i : Instr} {m : BitVec 6} {q : BitVec 2} {n : BitVec 6} {k s : BitVec 3} {g : BitVec 7} {z : BitVec 5}
    (h : encode i = fmtP m q n k s g z) : i.major = m.toNat :=
  congrArg BitVec.toNat ((congrArg majorOf h).trans (majorOf_fmtP m q n k s g z))

end Sys2Proof

namespace Sys2Proof.Machine
open Host

/-! ## The forms refuse what is not admitted -/

section
variable {i : Instr} {s : State}

theorem laneFormIf_rejects {bad : Bool} {f : W32 → State → State} (h : s.admits i = false) :
    laneFormIf bad i f s = .next (s.illegal (encode i)) := by
  unfold laneFormIf laneForm
  simp [h]

theorem groupForm_rejects {f : State → State} (h : s.admits i = false) : groupForm i f s = .next (s.illegal (encode i)) := by
  unfold groupForm
  simp [h]

theorem groupFormIf_rejects {bad : Bool} {f : State → State} (h : s.admits i = false) : groupFormIf bad i f s = .next (s.illegal (encode i)) := by
  unfold groupFormIf
  simp [groupForm_rejects h]

theorem convergentForm_rejects {f : State → State} (h : s.admits i = false) : convergentForm i f s = .next (s.illegal (encode i)) := by
  unfold convergentForm
  simp [h]

theorem convergentFormIf_rejects {bad : Bool} {f : State → State} (h : s.admits i = false) :
    convergentFormIf bad i f s = .next (s.illegal (encode i)) := by
  unfold convergentFormIf
  simp [convergentForm_rejects h]

theorem memoryForm_rejects {e : State → RegionAcc} {f : State → State} (h : s.admits i = false) :
    memoryForm i e f s = .next (s.illegal (encode i)) := by
  unfold memoryForm
  simp [h]

theorem matrixForm_rejects {x : BitVec 7} {f : Nat → State → State} (h : s.admits i = false) :
    matrixForm i x f s = .next (s.illegal (encode i)) := groupForm_rejects h

theorem execLimm_rejects {k : BitVec 24} (h : s.admits (.limm k) = false) : execLimm k s = .next (s.illegal (encode (.limm k))) := by
  unfold execLimm
  simp [h]

theorem execRep_rejects {n : BitVec 6} {m st : BitVec 3} {g : BitVec 7} (h : s.admits (.rep n m st g) = false) :
    execRep n m st g s = .next (s.illegal (encode (.rep n m st g))) := by
  unfold execRep
  simp [h]

/-- What every instruction does before anything of its own: a lane form asks its admission, what bars it and its window, a group-wide form
its admission; an event of the machine has no fields (04 R78, 03 R47). -/
inductive Gated (i : Instr) (s : State) (o : Outcome State Fault Refusal) : Prop
  | lane {f : W32 → State → State} (bad : Bool) (hbad : bad = true ↔ s.barred i) (h : o = laneFormIf bad i f s)
  | group {m : BitVec 6} (hm : i.major = m.toNat) (h32 : 32 ≤ m.toNat) (h : s.admits i = false → o = .next (s.illegal (encode i)))
  | event (h : i.fieldsOk = false) (he : isDeviceEvent i = true ∨ i ∈ [Instr.trapEntry, .timer, .alarm, .grpAbsent])

theorem Gated.plain {f : W32 → State → State} (hbar : ¬s.barred i) : Gated i s (laneForm i f s) :=
  .lane false ⟨nofun, fun hb => absurd hb hbar⟩ rfl

end

theorem gated (i : Instr) (s : State) : Gated i s (exec i s) := by
  cases i <;> dsimp only [exec]
  case iaddV | isubV | imulV | imulhS32V | imulhZ32V | imadV | iabsV | iaddV64 | isubV64 | imulV64 | imulhS64V | imulhZ64V | imadV64 | iabsV64 | imaxV
      | iminV | andV | orV | xorV | andnV | shlV | shrV | sarV | rotV | shlV64 | shrV64 | sarV64 | rotV64 | clzV | clzV64 | popcV | popcV64 | brevV |
      bfxZV | bfxSV | bfiV | icmpV | movV | movV64 | selV | psetV | psetNzV | movSpecialV | brxV | retV | leaV | fadd | fsub | fmul | ffma | fdiv |
      fmin | fmax | faddF64 | fsubF64 | fmulF64 | ffmaF64 | fdivF64 | fminF64 | fmaxF64 | fsqrt | frcp | frsq | fexp2 | flog2 | ftrigSinpi |
      ftrigCospi | frnd | fsqrtF64 | frndF64 | fclass | hfuse | fcmp | cvt | cvtGxEncode | cvtGxDecode | dp4 | rand | pitch | shfl | vote | bcast |
      redux | scan | isect | ldV | stV | ldt | stt | movSliceToV | movVToSlice | iaddImmV | iaddImmV64 | ldOrdered | stOrdered | atom | red | callV |
      braV | moviV =>
    exact .plain not_false
  case nzscan => exact .lane (decide (16 ≤ _)) decide_eq_true_iff rfl
  case cpy | cpyr | movQueuePush | movQueuePop | movSlicePush | movSlicePop => exact .lane (!_) (iff_of_eq (Bool.not_eq_true' _)) rfl
  case iaddG32 | isubG32 | imulG32 | imulhS32G | imulhZ32G | imadG32 | iabsG32 | iaddG64 | isubG64 | imulG64 | imulhS64G | imulhZ64G | imadG64 |
      iabsG64 | imaxG | iminG | andG | orG | xorG | andnG | shlG32 | shrG32 | sarG32 | rotG32 | shlG64 | shrG64 | sarG64 | rotG64 | clzG32 | clzG64 |
      popcG32 | popcG64 | brevG | bfxZG | bfxSG | bfiG | icmpG | movG32 | movG64 | selG | psetG | psetNzG | movSpecialG | brxG | retG | leaG | nop |
      exit | trap | eret | yield | fence | bbinit | bbexp | bbarr | bbwait | ckinit | ckres | ckpub | ckacq | ckrel | wait | abeg | acom | cpyt | tsrf
      | trig =>
    exact .group (major_fmtA rfl) (by decide) groupForm_rejects
  case iaddImmG32 | iaddImmG64 | ctlrd | ctlrdFflags | ctlwr | ctlwrFflags | ctlwrLfm | ctlwrRepc | ctlwrTmr | ctlwrAlarm =>
    exact .group (major_fmtB rfl) (by decide) groupForm_rejects
  case callG | braG => exact .group (major_fmtC rfl) (by decide) groupForm_rejects
  case moviG => exact .group (major_fmtI rfl) (by decide) groupForm_rejects
  case mzero => exact .group (major_fmtX rfl) (by decide) groupForm_rejects
  case mma | mmag | mmav | msca | mdrn => exact .group (major_fmtX rfl) (by decide) matrixForm_rejects
  case ldG | stG => exact .group (major_fmtA rfl) (by decide) memoryForm_rejects
  case qpoll => exact .group (major_fmtA rfl) (by decide) groupFormIf_rejects
  case wbaseImm | wbaseReg | spawn | join | allocHeap | allocLog | rview | bara | barw | barm =>
    exact .group (major_fmtA rfl) (by decide) convergentForm_rejects
  case rdecl => exact .group (major_fmtA rfl) (by decide) convergentFormIf_rejects
  case limm => exact .group (major_fmtC rfl) (by decide) execLimm_rejects
  case rep => exact .group (major_fmtP rfl) (by decide) execRep_rejects
  case trapEntry | timer | alarm | grpAbsent => exact .event rfl (.inr (by simp))
  all_goals exact .event rfl (.inl rfl)

/-! ## Where an instruction that is not admitted, or out of its window, stops -/

theorem exec_rejects {i : Instr} {s : State}
    (hi : i.fieldsOk = true ∨ isDeviceEvent i = false ∧ i ∉ [Instr.trapEntry, .timer, .alarm, .grpAbsent])
    (h : s.admits i = false) : StopsWith i s 0x10 (encode i).toNat 0#64 0xFF := by
  cases gated i s with
  | lane bad _ hx => exact hx.trans (laneFormIf_rejects h)
  | group _ _ hx => exact hx h
  | event hf hev =>
    obtain hok | ⟨he, ht⟩ := hi
    · exact absurd hok (by simp [hf])
    · exact absurd hev (by simp [he, ht])

theorem fieldsOk_of_admits {i : Instr} {s : State} (h : s.admits i = true) : i.fieldsOk = true :=
  (Bool.and_eq_true_iff.1 (Bool.and_eq_true_iff.1 h).1).1

/-- An operand beyond the allotment closes the window (03 R47). -/
theorem windowOk_of_outside {i : Instr} {g : Group} {o : Operand} (ho : o ∈ i.operands) (hv : o.vec = true)
    (hout : g.allot < g.wbase + o.reg + o.width) : g.windowOk i = false := by
  by_contra h
  have hall := List.all_eq_true.1 (eq_true_of_ne_false h) o ho
  simp [hv] at hall
  omega

/-- An admitted lane form stops at what bars it, ILLEGAL_OP, before it stops at its window, REGWIN (13 R252). -/
theorem laneFormIf_outside {bad : Bool} {i : Instr} {f : W32 → State → State} {s : State} (ha : s.admits i = true) (hw : s.cur.windowOk i = false) :
    laneFormIf bad i f s = .next (if bad then s.illegal (encode i) else s.stopFault 0x11 0 0#64 0xFF) := by
  unfold laneFormIf laneForm
  cases bad <;> simp [ha, hw]

/-- Settles O10: every instruction asks its admission first, a lane form then what bars it and its window. -/
theorem rejections : Obligations.Rejections := by
  unfold Obligations.Rejections
  refine ⟨fun s i he ht => exec_rejects (.inr ⟨he, ht⟩), fun s i o ha hm ho hv hout => ?_⟩
  have hw := windowOk_of_outside ho hv hout
  cases gated i s with
  | lane bad hbad hx =>
    rw [laneFormIf_outside ha hw] at hx
    exact ⟨fun hb => hx.trans (congrArg Outcome.next (if_pos (hbad.2 hb))), fun hb => hx.trans (congrArg Outcome.next (if_neg (mt hbad.1 hb)))⟩
  | group hmaj h32 _ => omega
  | event hf _ => exact absurd (fieldsOk_of_admits ha) (by simp [hf])

/-! ## The sequencer's set (04 R79) -/

/-- What the sequencer executes, as R79 lists it; the moves are those of the specials it is not barred from. -/
def SequencerRuns (i : Instr) : Prop :=
  match i with
  | .nop _ | .exit _ | .fence _ _ | .bbarr _ _ _ | .bbwait _ _ _ | .ckres _ _ _ _ | .ckpub _ _ _ _ | .ckacq _ _ _ _ | .ckrel _ _ _ _ | .wait _ _ _ => True
  | .ctlrd _ _ _ | .ctlrdFflags _ _ | .ctlwr _ _ _ | .ctlwrFflags _ _ | .ctlwrLfm _ _ | .ctlwrRepc _ _ | .ctlwrTmr _ _ | .ctlwrAlarm _ _ => True
  | .movSpecialG _ _ c => ¬(c = 0#7 ∨ c = 1#7 ∨ c = 2#7 ∨ c = 3#7 ∨ c = 4#7 ∨ c = 7#7 ∨ c = 8#7)
  | i => 0x20 ≤ i.major ∧ i.major ≤ 0x2F ∨ i.major ∈ [0x37, 0x38, 0x39, 0x3A, 0x3B]

/-- Of the specials 1 to 10 the sequencer reads four. -/
theorem sequencer_special {q : BitVec 2} {d c : BitVec 7} (hok : (Instr.movSpecialG q d c).WellFormed) :
    ¬(c = 0#7 ∨ c = 1#7 ∨ c = 2#7 ∨ c = 3#7 ∨ c = 4#7 ∨ c = 7#7 ∨ c = 8#7) ↔ c = 5#7 ∨ c = 6#7 ∨ c = 9#7 ∨ c = 10#7 := by
  obtain ⟨hd, h10⟩ := Bool.and_eq_true_iff.1 hok
  have h1 := of_decide_eq_true (Bool.and_eq_true_iff.1 hd).2
  have h10 := of_decide_eq_true h10
  simp only [← BitVec.toNat_inj, BitVec.toNat_ofNat]
  omega

/-- Majors 0x32 and 0x33 hold the accesses to the control registers and nothing else (04 R81). -/
theorem sequencerRuns_of_control {i : Instr} (hok : i.WellFormed) (h : i.major = 0x32 ∨ i.major = 0x33) : SequencerRuns i := by
  have hrow := rowOf_encode hok
  unfold rowOf at hrow
  unfold Instr.major at h
  obtain h | h := h <;> rw [h] at hrow
  · replace hrow : decodeMajor32 _ _ _ _ = some i := hrow
    unfold decodeMajor32 at hrow
    split_ifs at hrow <;> exact Option.some.inj hrow ▸ trivial
  · replace hrow : decodeMajor33 _ _ _ _ = some i := hrow
    unfold decodeMajor33 at hrow
    split_ifs at hrow <;> exact Option.some.inj hrow ▸ trivial

theorem seqAllows_of_control {i : Instr} (h : i.major = 0x32 ∨ i.major = 0x33) : seqAllows i = true := by
  unfold seqAllows seqSystem
  obtain h | h := h <;> simp [h]

theorem seqAllows_iff {i : Instr} (hok : i.WellFormed) : seqAllows i = true ↔ SequencerRuns i := by
  by_cases hctl : i.major = 0x32 ∨ i.major = 0x33
  · exact iff_of_true (seqAllows_of_control hctl) (sequencerRuns_of_control hok hctl)
  unfold SequencerRuns
  split
  case h_1 | h_2 | h_3 | h_4 | h_5 | h_6 | h_7 | h_8 | h_9 | h_10 | h_11 | h_12 | h_13 | h_14 | h_15 | h_16 | h_17 | h_18 =>
    simp [seqAllows, seqSystem, Instr.major, encode]
  case h_19 q d c =>
    rw [sequencer_special hok]
    simp [seqAllows, seqSystem, seqSpecial, Instr.major, encode, or_assoc]
  case h_20 =>
    have hread : seqSpecial i = true := by simp [seqSpecial]
    have hsystem : seqSystem i = true ↔ i.major ∈ [0x37, 0x38, 0x39, 0x3A, 0x3B] := by
      unfold seqSystem
      split
      case h_1 hm | h_2 hm | h_3 hm | h_4 hm | h_5 hm => simp [hm]
      case h_6 hm => exact absurd (.inl hm) hctl
      case h_7 hm => exact absurd (.inr hm) hctl
      case h_8 hm | h_9 hm | h_10 hm => simp [hm]
      case h_11 h37 h38 h39 h3A h3B _ _ _ _ _ => simpa using (⟨h37, h38, h39, h3A, h3B⟩ : _ ∧ _ ∧ _ ∧ _ ∧ _)
    rw [seqAllows, Bool.or_eq_true, hsystem, hread]
    simp [Nat.lt_succ_iff]

theorem State.special_of_sequencer {s : State} {c : BitVec 7} (h : c = 5#7 ∨ c = 6#7 ∨ c = 9#7 ∨ c = 10#7) :
    s.special c = match c.toNat with
      | 5 => BitVec.ofNat 64 (s.cur.core / 96) | 6 => BitVec.ofNat 64 s.pkg
      | 9 => BitVec.ofNat 64 (s.cycOf s.cur) | _ => BitVec.ofNat 64 s.time := by
  obtain rfl | rfl | rfl | rfl := h <;> rfl

theorem admits_of_sequencer {s : State} {i : Instr} (hk : s.cur.kind = .seq) (hr : s.cur.region = none) (hok : i.fieldsOk = true) :
    s.admits i = seqAllows i := by
  simp [State.admits, hk, hr, hok]

/-- Settles O12: with legal fields and no open region the sequencer admits what R79 lists, and R56 gives what its moves read. -/
theorem sequencerSet : Obligations.SequencerSet := by
  unfold Obligations.SequencerSet
  intro s i hk hr hok listed
  have hadmits : s.admits i = true ↔ listed := (admits_of_sequencer hk hr hok ▸ seqAllows_iff hok : s.admits i = true ↔ SequencerRuns i)
  refine ⟨hadmits.2, fun hl => ?_, ?_⟩
  · exact exec_rejects (.inl hok) (eq_false_of_ne_true (mt hadmits.1 hl))
  · rintro q d c rfl hl
    exact completes_groupWrite ⟨hadmits.2 hl, rfl⟩ (exec_movSpecialG s) (State.special_of_sequencer ((sequencer_special hok).1 hl))

end Sys2Proof.Machine
end

section

/-!
# The prefixes LIMM and REP (04 R74 to R76, 20 R357, 21 R380, R381)
-/

namespace Sys2Proof.Machine
open Host

/-! ## LIMM -/

theorem execLimm_partner {s : State} {i : BitVec 24} {w : W32} {p : Instr} (h : s.admits (.limm i) = true)
    (hw : s.fetch (s.sp.pc + 4#64).toNat = some w) (hp : rowOf w = some p) (ht : takesLimm p = true) :
    execLimm i s = .next { s with limm := some i } := by
  simp only [execLimm, h, hw, hp, ht]
  rfl

theorem execLimm_alone {s : State} {i : BitVec 24} {w : W32} {p : Instr} (h : s.admits (.limm i) = true)
    (hw : s.fetch (s.sp.pc + 4#64).toNat = some w) (hp : rowOf w = none ∨ rowOf w = some p ∧ takesLimm p = false) :
    execLimm i s = .next (s.illegal (encode (.limm i))) := by
  obtain hn | ⟨hs, ht⟩ := hp
  · simp only [execLimm, h, hw, hn]
    rfl
  · simp only [execLimm, h, hw, hs, ht]
    rfl

/-! ## Which iterations a REP runs -/

/-- The iterations a REP asks for: its field, or the low word of its register (04 R75). -/
def State.repCount (s : State) (n : BitVec 6) (g : BitVec 7) : Nat := if n = 63#6 then (s.cur.gGet32 g.toNat).toNat else n.toNat

theorem repCount_eq (s : State) (n : BitVec 6) (g : BitVec 7) :
    s.repCount n g = if n = 63#6 then (s.cur.gGet g.toNat).toNat % 2 ^ 32 else n.toNat := by
  simp [State.repCount, Group.gGet32]

/-- Whether a REP takes up the repeat that ctl.repc describes (03 R62). -/
def State.resumes (s : State) : Bool := s.sp.fresh && s.cur.repc.getLsbD 63

theorem execRep_run {s : State} {n : BitVec 6} {m st : BitVec 3} {g : BitVec 7} (h : s.admits (.rep n m st g) = true) :
    execRep n m st g s = .next (
      if s.resumes = true then
        if (s.cur.repc.extractLsb' 0 32).toNat = 0 then s.jump (s.sp.pc + 8#64)
        else s.repStart (encode (.rep n m st g)) (s.cur.repc.extractLsb' 32 31).toNat (s.cur.repc.extractLsb' 0 32).toNat
      else if 2 ^ 31 ≤ s.repCount n g then s.illegal (encode (.rep n m st g))
      else if s.repCount n g = 0 then s.jump (s.sp.pc + 8#64)
      else s.repStart (encode (.rep n m st g)) 0 (s.repCount n g)) := by
  unfold execRep
  simp only [h]
  cases hr : s.resumes with
  | true =>
    unfold State.resumes at hr
    simp only [hr]
    rfl
  | false =>
    unfold State.resumes at hr
    simp only [hr, State.repCount, Bool.not_false, Bool.true_and, decide_eq_true_eq]
    rfl

/-! ## The word a REP repeats -/

/-- The split in focus at the iterations of a repeat, ctl.repc.ACT of a resumption consumed (03 R62). -/
def State.repeating (s : State) (r : Rep) : State :=
  { s.consume.setSplit { s.consume.sp with rep := some r, st := .ready } with tick := s.tick + 1, limm := none }

section
variable {s : State} {ctl w : W32} {done left : Nat} {p : Instr} (hw : s.fetch (s.sp.pc + 4#64).toNat = some w)
include hw

theorem repStart_illegal (hbad : repeatable w = false ∨ (repRow w = none ∧ ctl.toNat / 2 ^ 15 % 8 ≠ 0) ∨
      (repRow w = some p ∧ repIllegal p (ctl.toNat / 2 ^ 15 % 8) (strideOf (ctl.toNat / 2 ^ 12 % 8)) done (done + left - 1) = true)) :
    s.repStart ctl done left = s.illegal ctl := by
  unfold State.repStart
  simp only [hw]
  split
  · rfl
  next hrep =>
    obtain hr | ⟨hn, hm⟩ | ⟨hs, hi⟩ := hbad
    · simp [hr] at hrep
    · simp only [hn, if_pos hm]
    · simp only [hs, hi, if_true]

theorem repStart_outside (hrep : repeatable w = true) (hs : repRow w = some p)
    (hi : repIllegal p (ctl.toNat / 2 ^ 15 % 8) (strideOf (ctl.toNat / 2 ^ 12 % 8)) done (done + left - 1) = false)
    (ho : s.cur.repOutside p (ctl.toNat / 2 ^ 15 % 8) (strideOf (ctl.toNat / 2 ^ 12 % 8)) done (done + left - 1) = true) :
    s.repStart ctl done left = s.stopFault 0x11 0 0#64 0xFF := by
  simp only [State.repStart, hw, hrep, hs, hi, ho]
  rfl

theorem repStart_repeats (hrep : repeatable w = true) (hok : (repRow w = none ∧ ctl.toNat / 2 ^ 15 % 8 = 0) ∨
      (repRow w = some p ∧ repIllegal p (ctl.toNat / 2 ^ 15 % 8) (strideOf (ctl.toNat / 2 ^ 12 % 8)) done (done + left - 1) = false ∧
        s.cur.repOutside p (ctl.toNat / 2 ^ 15 % 8) (strideOf (ctl.toNat / 2 ^ 12 % 8)) done (done + left - 1) = false)) :
    s.repStart ctl done left = s.repeating ⟨done + left, done, ctl, w⟩ := by
  obtain ⟨hn, hm⟩ | ⟨hs, hi, ho⟩ := hok
  · simp only [State.repStart, hw, hrep, hn, hm]
    rfl
  · simp only [State.repStart, hw, hrep, hs, hi, ho]
    rfl

end

theorem consume_cur (s : State) : s.consume =
    s.setCur { s.cur with splits := s.consume.cur.splits, repc := if s.sp.fresh then repcDone s.cur.repc else s.cur.repc } := by
  unfold State.consume
  cases s.sp.fresh <;> rfl

theorem consume_split (s : State) : s.consume.split = s.split := by rw [consume_cur]; rfl

theorem splitAt_consume_other {s : State} {e : Nat} (he : e ≠ s.split) : s.consume.cur.splitAt e = s.cur.splitAt e := by
  unfold State.consume
  split
  · exact (splitAt_setSplit (q := { s.sp with fresh := false }) (sp_entry s) e).trans (if_neg he)
  · rfl

theorem splitAt_consume_same {s : State} {x : Split} (hx : s.cur.splitAt s.split = some x) :
    s.consume.cur.splitAt s.split = some { x with fresh := false } := by
  have hsp := sp_of_splitAt hx
  unfold State.consume
  split
  · refine (splitAt_setSplit (q := { s.sp with fresh := false }) (sp_entry s) s.split).trans ?_
    rw [if_pos rfl, hx, hsp]
    rfl
  next hf =>
    rw [hsp, Bool.not_eq_true] at hf
    rw [hx, ← hf]

theorem repeating_frame (s : State) (r : Rep) : s.repeating r =
    { s with cur := { s.cur with splits := (s.repeating r).cur.splits, repc := (s.repeating r).cur.repc }, tick := s.tick + 1, limm := none } := by
  unfold State.repeating
  rw [consume_cur]
  rfl

theorem repeating_repc (s : State) (r : Rep) : (s.repeating r).cur.repc = if s.sp.fresh then repcDone s.cur.repc else s.cur.repc := by
  show s.consume.cur.repc = _
  rw [consume_cur]
  rfl

theorem splitAt_repeating (s : State) (r : Rep) (e : Nat) : (s.repeating r).cur.splitAt e =
    if e = s.split then (s.consume.cur.splitAt e).map (fun _ => { s.consume.sp with rep := some r, st := .ready }) else s.consume.cur.splitAt e :=
  (splitAt_setSplit (q := { s.consume.sp with rep := some r, st := .ready }) (sp_entry s.consume) e).trans (by rw [consume_split])

theorem splitAt_repeating_same {s : State} {x : Split} (r : Rep) (hx : s.cur.splitAt s.split = some x) :
    (s.repeating r).cur.splitAt s.split = some { x with rep := some r, st := .ready, fresh := false } := by
  have hc := splitAt_consume_same hx
  rw [splitAt_repeating, if_pos rfl, hc, sp_of_splitAt (s := s.consume) (by rw [consume_split]; exact hc)]
  rfl

/-- Settles O36: a REP that is admitted resumes or counts, skips or starts, and what it starts is checked whole first. -/
theorem prefixResults : Obligations.PrefixResults := by
  unfold Obligations.PrefixResults
  intro s i n m st g w p resumed count word mask step starts
  have hresumed : resumed ↔ s.resumes = true := (Bool.and_eq_true _ _).symm ▸ Iff.rfl
  have hcount : s.repCount n g = count := repCount_eq s n g
  have hstarts {done left : Nat} (he : execRep n m st g s = .next (s.repStart word done left)) : starts done left := by
    intro hw
    refine ⟨fun hbad => he.trans (congrArg Outcome.next (repStart_illegal hw hbad)), fun hrep hs hi ho =>
      he.trans (congrArg Outcome.next (repStart_outside hw hrep hs hi ho)), fun hrep hok => ?_⟩
    exact ⟨s.repeating _, he.trans (congrArg Outcome.next (repStart_repeats hw hrep hok)), repeating_frame s _, repeating_repc s _,
      fun e he => (splitAt_repeating s _ e).trans ((if_neg he).trans (splitAt_consume_other he)), fun x hx => splitAt_repeating_same _ hx⟩
  refine ⟨fun h hw => ⟨fun hp ht => execLimm_partner h.1 hw hp ht, fun hp => execLimm_alone h.1 hw hp⟩, fun h hr hc => ?_, fun h hr h0 hc => ?_,
    fun h hr h0 => ?_, fun h hn => ?_⟩
  · refine (execRep_run h.1).trans ?_
    rw [if_neg (mt hresumed.2 hr), if_pos (hcount ▸ hc)]
    rfl
  · refine hstarts ((execRep_run h.1).trans ?_)
    rw [if_neg (mt hresumed.2 hr), hcount, if_neg (by omega), if_neg (by omega)]
  · refine hstarts ((execRep_run h.1).trans ?_)
    rw [if_pos (hresumed.1 hr), if_neg (by omega)]
  · have he : execRep n m st g s = .next (s.jump (s.sp.pc + 8#64)) := by
      refine (execRep_run h.1).trans ?_
      obtain ⟨hr, h0⟩ | ⟨hr, h0⟩ := hn
      · rw [if_neg (mt hresumed.2 hr), hcount, if_neg (by omega), if_pos h0]
      · rw [if_pos (hresumed.1 hr), if_pos (by rw [h0]; rfl)]
    exact ⟨_, he, jumped rfl rfl rfl⟩

end Sys2Proof.Machine
end

section

/-!
# Transfers of control (02 R20, R21, 18 R316 to R321, 19 R322, 21 R382)
-/

namespace Sys2Proof.Machine
open Host

/-! ## The paths of a branch -/

theorem mem_insertAddr {x y : W64} {l : List W64} : y ∈ insertAddr x l ↔ y = x ∨ y ∈ l := by
  induction l with
  | nil => simp [insertAddr]
  | cons z l ih =>
    unfold insertAddr
    split
    next h => simp [h]
    · split
      · simp
      · simp only [List.mem_cons, ih]
        exact or_left_comm

/-- Addresses in ascending order without repeats. -/
abbrev Ascending (l : List W64) : Prop := l.Pairwise (fun x y => x.toNat < y.toNat)

theorem ascending_insertAddr {x : W64} {l : List W64} (h : Ascending l) : Ascending (insertAddr x l) := by
  induction l with
  | nil => simp [insertAddr, Ascending]
  | cons z l ih =>
    obtain ⟨hz, hl⟩ := List.pairwise_cons.1 h
    unfold insertAddr
    split
    · exact h
    next hne =>
      split
      next hlt => exact List.pairwise_cons.2 ⟨fun y hy => by
        obtain rfl | hy := List.mem_cons.1 hy
        · exact hlt
        · exact hlt.trans (hz y hy), h⟩
      next hge =>
        refine List.pairwise_cons.2 ⟨fun y hy => ?_, ih hl⟩
        obtain rfl | hy := mem_insertAddr.1 hy
        · have := mt BitVec.eq_of_toNat_eq hne
          omega
        · exact hz y hy

/-- The targets of some lanes, as the paths are made of them. -/
def targetsOf (dest : Nat → W64) (lanes : List Nat) : List W64 := lanes.foldl (fun l x => insertAddr (dest x) l) []

theorem ascending_targets (dest : Nat → W64) (lanes : List Nat) : Ascending (targetsOf dest lanes) :=
  List.foldlRecOn (motive := Ascending) lanes _ List.Pairwise.nil (fun _ h _ _ => ascending_insertAddr h)

theorem mem_foldl_insertAddr {dest : Nat → W64} {y : W64} {lanes : List Nat} {l : List W64} :
    y ∈ lanes.foldl (fun l x => insertAddr (dest x) l) l ↔ y ∈ l ∨ ∃ k ∈ lanes, dest k = y := by
  induction lanes generalizing l with
  | nil => simp
  | cons k lanes ih =>
    rw [List.foldl_cons, ih, mem_insertAddr]
    simp only [List.exists_mem_cons_iff, or_assoc, eq_comm (a := y)]
    exact or_left_comm

theorem targetsOf_eq {dest : Nat → W64} {lanes : List Nat} {l : List W64} (ha : Ascending l) (hl : ∀ y, y ∈ l ↔ ∃ k ∈ lanes, dest k = y) :
    targetsOf dest lanes = l := by
  have : Std.Irrefl (fun x y : W64 => x.toNat < y.toNat) := ⟨fun x => Nat.lt_irrefl _⟩
  have : Std.Antisymm (fun x y : W64 => x.toNat < y.toNat) := ⟨fun x y h1 h2 => absurd h1 (Nat.lt_asymm h2)⟩
  exact (ascending_targets dest lanes).eq_of_mem_iff ha (fun y => by
    rw [hl]
    exact mem_foldl_insertAddr.trans (by simp))

/-- The lanes of a mask whose target is `t`. -/
def lanesTo (m : W32) (dest : Nat → W64) (t : W64) : W32 := maskOf (fun l => m.getLsbD l && dest l == t)

theorem maskOf_congr {f g : Nat → Bool} (h : ∀ l, l < 32 → f l = g l) : maskOf f = maskOf g :=
  BitVec.eq_of_getLsbD_eq (fun l hl => by rw [maskOf_getLsbD f l hl, maskOf_getLsbD g l hl, h l hl])

theorem exists_lane_of_lanesTo {m : W32} {dest : Nat → W64} {t : W64} (h : lanesTo m dest t ≠ 0#32) : ∃ l, m.getLsbD l = true ∧ dest l = t := by
  by_contra hno
  refine h (BitVec.eq_of_getLsbD_eq (fun l hl => ?_))
  rw [lanesTo, maskOf_getLsbD _ l hl]
  by_contra hl
  exact hno ⟨l, by simpa using hl⟩

/-- The paths of a branch whose lanes have the targets `l`: one to each, with its lanes. -/
theorem pathsOf_eq {m : W32} {dest : Nat → W64} {l : List W64} (ha : Ascending l) (hall : ∀ k, m.getLsbD k = true → dest k ∈ l)
    (hsome : ∀ y ∈ l, ∃ k, m.getLsbD k = true ∧ dest k = y) :
    pathsOf (lanesOfMask m) dest = l.map (fun t => ⟨t, lanesTo m dest t⟩) := by
  have hl : targetsOf dest (lanesOfMask m) = l := targetsOf_eq ha (fun y => by
    simp only [mem_lanesOfMask]
    constructor
    · intro hy
      obtain ⟨k, hk, hd⟩ := hsome y hy
      exact ⟨k, ⟨BitVec.lt_of_getLsbD hk, hk⟩, hd⟩
    · rintro ⟨k, ⟨_, hk⟩, rfl⟩
      exact hall k hk)
  refine (congrArg (List.map _) hl).trans (List.map_congr_left (fun t _ => congrArg (Path.mk t) (maskOf_congr (fun k hk => ?_))))
  have : (lanesOfMask m).contains k = m.getLsbD k := by
    rw [Bool.eq_iff_iff, List.contains_iff_mem, mem_lanesOfMask]
    exact and_iff_right hk
  rw [this]

/-! ## What a lane branch does -/

section
variable {s : State} {word chk : W32} {dest : Nat → W64} {link : Group → Group}

theorem branch_bad {l : Nat} (hl : chk.getLsbD l = true) (hbad : badTarget (dest l) = true)
    (hlow : ∀ k, k < l → chk.getLsbD k = true → badTarget (dest k) = false) :
    s.branch word chk dest link = s.stopFault 0x10 word.toNat (dest l) 0xFF := by
  have hfind : (lanesOfMask chk).find? (fun l => badTarget (dest l)) = some l := by
    rw [lanesOfMask, List.find?_filter, List.find?_range_eq_some]
    refine ⟨by simp [hl, hbad], List.mem_range.2 (BitVec.lt_of_getLsbD hl), fun k hk => ?_⟩
    cases hc : chk.getLsbD k with
    | false => simp
    | true => simp [hlow k hk hc]
  unfold State.branch
  rw [hfind]

theorem noBad (hgood : ∀ l, chk.getLsbD l = true → badTarget (dest l) = false) :
    (lanesOfMask chk).find? (fun l => badTarget (dest l)) = none :=
  List.find?_eq_none.2 (fun l hl => by simp [hgood l ((mem_lanesOfMask chk l).1 hl).2])

theorem branch_idle (hgood : ∀ l, chk.getLsbD l = true → badTarget (dest l) = false) (hm : s.laneMask = 0#32) :
    s.branch word chk dest link = s.finish := by
  unfold State.branch
  rw [noBad hgood, pathsOf_eq (l := []) .nil (fun k hk => by simp [hm] at hk) (fun y hy => nomatch hy)]
  rfl

theorem branch_together {t : W64} (hgood : ∀ l, chk.getLsbD l = true → badTarget (dest l) = false) (hm : s.laneMask ≠ 0#32)
    (ht : ∀ l, s.laneMask.getLsbD l = true → dest l = t) : s.branch word chk dest link = (s.setCur (link s.cur)).jump t := by
  have hlane : ∃ l, s.laneMask.getLsbD l = true := by
    by_contra hno
    exact hm (BitVec.eq_of_getLsbD_eq (fun l _ => by simpa using fun hl => hno ⟨l, hl⟩))
  obtain ⟨l, hl⟩ := hlane
  unfold State.branch
  rw [noBad hgood, pathsOf_eq (l := [t]) (List.pairwise_singleton ..) (fun k hk => by simp [ht k hk])
    (fun y hy => ⟨l, hl, (ht l hl).trans (List.mem_singleton.1 hy).symm⟩)]
  rfl

theorem branch_apart {lo : W64} {rest : List W64} (hgood : ∀ l, chk.getLsbD l = true → badTarget (dest l) = false) (hrest : rest ≠ [])
    (ha : Ascending (lo :: rest)) (hall : ∀ l, s.laneMask.getLsbD l = true → dest l ∈ lo :: rest)
    (hsome : ∀ x ∈ lo :: rest, lanesTo s.laneMask dest x ≠ 0#32) :
    s.branch word chk dest link =
      if 16 < s.cur.stack.length + (rest.drop s.cur.freeEntries.length).length then s.stopFault 0x12 0 0#64 0xFF
      else (s.setCur (link s.cur)).place ⟨lo, lanesTo s.laneMask dest lo⟩ (rest.map (fun t => ⟨t, lanesTo s.laneMask dest t⟩)) := by
  unfold State.branch
  rw [noBad hgood, pathsOf_eq ha hall (fun y hy => exists_lane_of_lanesTo (hsome y hy)), List.length_drop]
  cases rest with
  | nil => exact absurd rfl hrest
  | cons x rest => simp only [List.map_cons, List.length_cons, List.length_map]

end

/-! ## The paths of a divergent branch in the table -/

/-- The split of the diverging entry (02 R20). -/
def State.ownPath (s : State) (first : Path) : Split :=
  { s.sp with pc := first.pc, mask := first.mask ||| (s.sp.mask &&& ~~~s.laneMask), st := .ready }

/-- The splits of the free entries that paths take (02 R20). -/
def State.newPaths (s : State) (rest : List Path) : List Split :=
  (s.cur.freeEntries.zip rest).map (fun p => ⟨p.1, p.2.pc, p.2.mask, .ready, none, false, 0, s.sp.age, false⟩)

theorem nodup_freeEntries (g : Group) : g.freeEntries.Nodup := List.nodup_range.filter _

theorem splitAt_free {g : Group} {e : Nat} (h : e ∈ g.freeEntries) : g.splitAt e = none := by
  have hall := List.all_eq_true.1 (List.mem_filter.1 h).2
  exact List.find?_eq_none.2 (fun p hp => by simpa using hall p hp)

theorem find_newPaths_taken {s : State} {rest : List Path} {k e : Nat} {x : Path} (he : s.cur.freeEntries[k]? = some e) (hx : rest[k]? = some x) :
    (s.newPaths rest).find? (fun p => p.entry == e) = some ⟨e, x.pc, x.mask, .ready, none, false, 0, s.sp.age, false⟩ := by
  have hzip : (s.cur.freeEntries.zip rest).find? (fun p => p.1 == e) = some (e, x) := by
    obtain ⟨hk, hke⟩ := List.getElem?_eq_some_iff.1 he
    obtain ⟨hk', hkx⟩ := List.getElem?_eq_some_iff.1 hx
    refine List.find?_eq_some_iff_getElem.2 ⟨by simp, k, by simp [hk, hk'], by simp [hke, hkx], fun j hj => ?_⟩
    have hne : s.cur.freeEntries[j] ≠ e := fun h => (Nat.ne_of_lt hj) ((nodup_freeEntries s.cur).getElem_inj_iff.1 (h.trans hke.symm))
    simpa using hne
  unfold State.newPaths
  rw [List.find?_map]
  exact congrArg (Option.map _) hzip

theorem find_newPaths_untaken {s : State} {rest : List Path} {e : Nat} (h : ∀ k : Nat, s.cur.freeEntries[k]? = some e → rest.length ≤ k) :
    (s.newPaths rest).find? (fun p => p.entry == e) = none := by
  refine List.find?_eq_none.2 (fun p hp he => ?_)
  obtain ⟨⟨e', x⟩, hx, rfl⟩ := List.mem_map.1 hp
  obtain ⟨k, hk⟩ := List.mem_iff_getElem?.1 hx
  obtain ⟨hfree, hrest⟩ := List.getElem?_zip_eq_some.1 hk
  have hlt := (List.getElem?_eq_some_iff.1 hrest).1
  have := h k (hfree.trans (congrArg some (beq_iff_eq.1 he)))
  omega

theorem jump_frame (s : State) (a : W64) : s.jump a = { s with cur := (s.jump a).cur, tick := s.tick + 1, limm := none } := rfl

theorem jump_cur (s : State) (a : W64) : (s.jump a).cur = { s.cur with splits := (s.jump a).cur.splits, repc := (s.jump a).cur.repc } := rfl

section
variable (s : State) (first : Path) (rest : List Path)

/-- The group in focus with the paths of a divergent branch in its table and on its stack. -/
def State.spread : State :=
  s.setCur { s.cur.putSplit (s.ownPath first) with
    splits := (s.cur.putSplit (s.ownPath first)).splits ++ s.newPaths rest
    stack := rest.drop s.cur.freeEntries.length ++ s.cur.stack }

theorem place_eq : s.place first rest = (s.spread first rest).jump first.pc := rfl

theorem place_frame : s.place first rest = { s with cur := (s.place first rest).cur, tick := s.tick + 1, limm := none } :=
  jump_frame (s.spread first rest) first.pc

theorem place_cur : (s.place first rest).cur =
    { s.cur with
      splits := (s.place first rest).cur.splits
      stack := rest.drop s.cur.freeEntries.length ++ s.cur.stack
      repc := (s.place first rest).cur.repc } := jump_cur (s.spread first rest) first.pc

theorem splitAt_spread (e : Nat) : (s.spread first rest).cur.splitAt e =
    (if e = s.split then (s.cur.splitAt e).map (fun _ => s.ownPath first) else s.cur.splitAt e).or
      ((s.newPaths rest).find? (fun p => p.entry == e)) := by
  refine List.find?_append.trans (congrArg (Option.or · _) ?_)
  have h := splitAt_putSplit s.cur (s.ownPath first) e
  rwa [show (s.ownPath first).entry = s.split from sp_entry s] at h

theorem splitAt_place_other {e : Nat} (he : e ≠ s.split) : (s.place first rest).cur.splitAt e =
    (s.cur.splitAt e).or ((s.newPaths rest).find? (fun p => p.entry == e)) := by
  rw [place_eq, State.jump, splitAt_leaveAt (by exact sp_entry _) e]
  refine (if_neg he).trans ?_
  rw [splitAt_spread, if_neg he]

end

theorem splitAt_place_same {s : State} {first : Path} {rest : List Path} {p : Split} (hp : s.cur.splitAt s.split = some p) :
    (s.place first rest).cur.splitAt s.split =
      some { p with pc := first.pc, mask := first.mask ||| (p.mask &&& ~~~s.laneMask), st := .ready, fresh := false } := by
  have hown : (s.spread first rest).cur.splitAt s.split = some (s.ownPath first) := by
    rw [splitAt_spread, if_pos rfl, hp]
    rfl
  rw [place_eq, State.jump, splitAt_leaveAt (by exact sp_entry _) s.split]
  refine (if_pos rfl).trans ?_
  rw [hown, sp_of_splitAt (s := s.spread first rest) hown]
  simp only [State.ownPath, sp_of_splitAt hp, Option.map_some]

theorem splitAt_place_taken {s : State} {first : Path} {rest : List Path} {p : Split} (hp : s.cur.splitAt s.split = some p) {k e : Nat} {x : Path}
    (he : s.cur.freeEntries[k]? = some e) (hx : rest[k]? = some x) :
    (s.place first rest).cur.splitAt e = some ⟨e, x.pc, x.mask, .ready, none, false, 0, p.age, false⟩ := by
  have hfree := splitAt_free (List.mem_of_getElem? he)
  have hne : e ≠ s.split := fun h => by rw [h, hp] at hfree; cases hfree
  rw [splitAt_place_other s first rest hne, hfree, Option.none_or, find_newPaths_taken he hx, sp_of_splitAt hp]

theorem splitAt_place_untaken {s : State} {first : Path} {rest : List Path} {e : Nat} (hne : e ≠ s.split)
    (he : ∀ k : Nat, s.cur.freeEntries[k]? = some e → rest.length ≤ k) : (s.place first rest).cur.splitAt e = s.cur.splitAt e := by
  rw [splitAt_place_other s first rest hne, find_newPaths_untaken he, Option.or_none]

/-! ## The transfers -/

theorem goto_good {s : State} {word : W32} {t : W64} {link : Group → Group} (h : badTarget t = false) :
    s.goto word t link = (s.setCur (link s.cur)).jump t := if_neg (by simp [h])

theorem goto_bad {s : State} {word : W32} {t : W64} {link : Group → Group} (h : badTarget t = true) :
    s.goto word t link = s.stopFault 0x10 word.toNat t 0xFF := if_pos h

/-- A group-wide transfer goes to a legal target, with its link written. -/
theorem branches_goto {i : Instr} {s u : State} {t : W64} {f : State → State} {link : Group → Group} (h : Runs i s)
    (hg : s.gpGuard i.guardOf = true) (ht : badTarget t = false) (he : exec i s = groupForm i f s) (hf : f s = s.goto (encode i) t link)
    (hu : s.setCur (link s.cur) = u) (hs : (link s.cur).splits = s.cur.splits) : Branches i s u t := by
  subst hu
  exact branches_group h he hg (hf.trans (goto_good ht)) rfl rfl hs

theorem stops_goto {i : Instr} {s : State} {t : W64} {f : State → State} {link : Group → Group} (h : Runs i s)
    (hg : s.gpGuard i.guardOf = true) (ht : badTarget t = true) (he : exec i s = groupForm i f s) (hf : f s = s.goto (encode i) t link) :
    StopsWith i s 0x10 (encode i).toNat t 0xFF := by
  rw [groupForm_run h, hg] at he
  exact he.trans (congrArg Outcome.next (hf.trans (goto_bad ht)))

/-- Settles O38: a group-wide transfer has one target, and the lanes of a lane form fall into one path per distinct target, by ascending address. -/
theorem branchResults : Obligations.BranchResults := by
  unfold Obligations.BranchResults
  constructor
  · intro s q i a hg here off t r
    exact ⟨fun h ht => branches_goto h hg ht (exec_braG s) rfl rfl rfl, fun h ht => branches_goto h hg ht (exec_callG s) rfl rfl rfl,
      fun h ht => branches_goto h hg ht (exec_brxG s) rfl rfl rfl, fun h ht => branches_goto h hg ht (exec_retG s) rfl rfl rfl,
      fun h ht => stops_goto h hg ht (exec_braG s) rfl, fun h ht => stops_goto h hg ht (exec_callG s) rfl,
      fun h ht => stops_goto h hg ht (exec_brxG s) rfl, fun h ht => stops_goto h hg ht (exec_retG s) rfl⟩
  · intro s q i a m here off rel abs linked forms f hf dest u h
    have hform : ∃ link v, exec f.1 s = .next (s.branch (encode f.1) f.2.1 dest link) ∧ link s.cur = { s.cur with v := v } ∧
        u = s.setCur { s.cur with v := v } := by
      simp only [forms, List.mem_cons, List.not_mem_nil, or_false] at hf
      obtain rfl | rfl | rfl | rfl := hf
      · exact ⟨id, _, (exec_braV s).trans (laneForm_run h), rfl, rfl⟩
      · exact ⟨_, _, (exec_callV s).trans (laneForm_run h), rfl, rfl⟩
      · exact ⟨id, _, (exec_brxV s).trans (laneForm_run h), rfl, rfl⟩
      · exact ⟨id, _, (exec_retV s).trans (laneForm_run h), rfl, rfl⟩
    obtain ⟨link, v, he, hlink, hu⟩ := hform
    clear_value u
    subst hu
    refine ⟨fun l hl hbad hlow => he.trans (congrArg Outcome.next (branch_bad hl hbad hlow)),
      fun hgood => ⟨fun hm => ?_, fun t hm ht => ?_, ?_⟩⟩
    · exact completes_skip (he.trans (congrArg Outcome.next (branch_idle hgood hm)))
    · rw [branch_together hgood hm ht, hlink] at he
      exact ⟨_, he, jumped rfl rfl rfl⟩
    · intro lo rest p hrest ha hall hp pick free stacked hsome
      rw [branch_apart hgood hrest ha hall hsome, hlink] at he
      refine ⟨fun hfull => he.trans (congrArg Outcome.next (if_pos hfull)), fun hfit => ?_⟩
      refine ⟨_, he.trans (congrArg Outcome.next (if_neg (Nat.not_lt.2 hfit))), place_frame .., ?_, splitAt_place_same hp,
        fun k e x hk hx => ?_, fun e hne hk => ?_⟩
      · have hcur := place_cur (s.setCur { s.cur with v := v }) ⟨lo, pick lo⟩ (rest.map (fun x => ⟨x, pick x⟩))
        rw [← List.map_drop] at hcur
        exact hcur
      · have hpath : (rest.map (fun t => (⟨t, lanesTo s.laneMask dest t⟩ : Path)))[k]? = some ⟨x, pick x⟩ := by
          rw [List.getElem?_map, hx]
          rfl
        exact splitAt_place_taken (s := s.setCur { s.cur with v := v }) hp hk hpath
      · exact splitAt_place_untaken hne (fun k he => by rw [List.length_map]; exact hk k he)

end Sys2Proof.Machine
end

section

/-!
# Rounding, and words that round to themselves (05 R87, R91, R92)
-/

namespace Sys2Proof.Machine

/-! ## A significand cut by k bits (05 R92) -/

/-- Whether a mode rounds a magnitude with integer part `lo` and a dropped part `rem / 2 ^ k` away from zero, where something is dropped. -/
def Mode.up (mode : Mode) (neg : Bool) (lo rem k : Nat) : Bool :=
  match mode with
  | .rne => decide (2 ^ k < 2 * rem) || (decide (2 * rem = 2 ^ k) && decide (lo % 2 = 1))
  | .rz => false
  | .ru => !neg
  | .rd => neg
  | .sr draw => decide (draw < (rem * 2 ^ 32) >>> k)

theorem roundShift_exact (mode : Mode) (neg : Bool) {m k : Nat} (h : m % 2 ^ k = 0) : roundShift mode neg m k = (m / 2 ^ k, true) := by
  have hrem : m - (m >>> k) <<< k = 0 := by
    rw [Nat.shiftRight_eq_div_pow, Nat.shiftLeft_eq, ← Nat.mod_eq_sub_div_mul, h]
  rw [roundShift.eq_def, if_pos hrem, Nat.shiftRight_eq_div_pow]

theorem roundShift_inexact (mode : Mode) (neg : Bool) {m k : Nat} (h : m % 2 ^ k ≠ 0) :
    roundShift mode neg m k = (if mode.up neg (m / 2 ^ k) (m % 2 ^ k) k then m / 2 ^ k + 1 else m / 2 ^ k, false) := by
  have hrem : m - (m >>> k) <<< k = m % 2 ^ k := by
    rw [Nat.shiftRight_eq_div_pow, Nat.shiftLeft_eq, ← Nat.mod_eq_sub_div_mul]
  rw [roundShift.eq_def, if_neg (by rwa [hrem]), hrem, Nat.shiftRight_eq_div_pow]
  cases mode <;> rfl

/-- The quotient rounded up. -/
theorem add_pred_div (m : Nat) {a : Nat} (ha : 0 < a) : (m + (a - 1)) / a = if m % a = 0 then m / a else m / a + 1 := by
  have hm := Nat.div_add_mod m a
  have hlt := Nat.mod_lt m ha
  split
  next h => exact Nat.div_eq_of_lt_le (by rw [Nat.mul_comm]; omega) (by rw [Nat.succ_mul, Nat.mul_comm]; omega)
  next h => exact Nat.div_eq_of_lt_le (by rw [Nat.succ_mul, Nat.mul_comm]; omega) (by rw [Nat.succ_mul, Nat.succ_mul, Nat.mul_comm]; omega)

/-- A mode gives one of the two integers around the quotient, which are the same one where nothing is dropped. -/
theorem roundShift_fst (mode : Mode) (neg : Bool) (m k : Nat) :
    (roundShift mode neg m k).1 = if mode.up neg (m / 2 ^ k) (m % 2 ^ k) k then (m + (2 ^ k - 1)) / 2 ^ k else m / 2 ^ k := by
  rw [add_pred_div m (Nat.two_pow_pos k)]
  by_cases h : m % 2 ^ k = 0
  · rw [roundShift_exact _ _ h, if_pos h, ite_self]
  · rw [roundShift_inexact _ _ h, if_neg h]

theorem roundShift_exact_iff (mode : Mode) (neg : Bool) (m k : Nat) : (roundShift mode neg m k).2 = true ↔ 2 ^ k ∣ m := by
  rw [Nat.dvd_iff_mod_eq_zero]
  by_cases h : m % 2 ^ k = 0
  · simp [roundShift_exact _ _ h, h]
  · simp [roundShift_inexact _ _ h, h]

/-- RNE: no further from the quotient than half a unit on either side. -/
theorem roundShift_rne_nearest (neg : Bool) (m k : Nat) :
    2 * ((roundShift .rne neg m k).1 * 2 ^ k - m) ≤ 2 ^ k ∧ 2 * (m - (roundShift .rne neg m k).1 * 2 ^ k) ≤ 2 ^ k := by
  have hm : m / 2 ^ k * 2 ^ k + m % 2 ^ k = m := Nat.div_add_mod' m _
  have hs : (m / 2 ^ k + 1) * 2 ^ k = m / 2 ^ k * 2 ^ k + 2 ^ k := Nat.succ_mul _ _
  rw [roundShift_fst, add_pred_div m (Nat.two_pow_pos k)]
  cases hup : Mode.up .rne neg (m / 2 ^ k) (m % 2 ^ k) k with
  | true =>
    have hge : 2 ^ k ≤ 2 * (m % 2 ^ k) := by simp [Mode.up] at hup; omega
    have h0 : m % 2 ^ k ≠ 0 := by have := Nat.two_pow_pos k; omega
    rw [if_pos rfl, if_neg h0, hs]
    omega
  | false =>
    have hle : 2 * (m % 2 ^ k) ≤ 2 ^ k := by simp [Mode.up] at hup; omega
    rw [if_neg Bool.false_ne_true]
    omega

/-- RNE: the even integer where both are equally near. -/
theorem roundShift_rne_even (neg : Bool) {m k : Nat} (h : 2 * (m % 2 ^ k) = 2 ^ k) : (roundShift .rne neg m k).1 % 2 = 0 := by
  have h0 : m % 2 ^ k ≠ 0 := by have := Nat.two_pow_pos k; omega
  rw [roundShift_inexact _ _ h0]
  rcases Nat.mod_two_eq_zero_or_one (m / 2 ^ k) with h2 | h2
  · simp [Mode.up, h, h2]
  · simp [Mode.up, h, h2, Nat.add_mod]

/-! ## The encodings of a format (05 R87) -/

/-- The significand of a finite encoding without its sign. -/
def Fmt.sig (f : Fmt) (x : Nat) : Nat := if x / 2 ^ f.mb = 0 then x else 2 ^ f.mb + x % 2 ^ f.mb

/-- The least exponent of the last place. -/
abbrev Fmt.ulp (f : Fmt) : Int := f.emin - f.mb

/-- Subnormals share the exponent of the least normals, from where each step of the exponent field adds one. -/
theorem unpack_eq (f : Fmt) (x : Nat) : f.unpack x = (f.sig x, f.ulp + (x / 2 ^ f.mb - 1 : Nat)) := by
  unfold Fmt.unpack Fmt.sig
  dsimp only
  split
  next h =>
    rw [Nat.mod_eq_of_lt ((Nat.div_eq_zero_iff_lt (Nat.two_pow_pos _)).1 h), h]
    simp
  next h =>
    rw [Prod.mk.injEq]
    generalize x / 2 ^ f.mb = e at h ⊢
    exact ⟨rfl, by unfold Fmt.ulp Fmt.emin; omega⟩

/-- The significands of subnormals have no hidden bit, those of normals have it and no higher one. -/
theorem sig_bounds (f : Fmt) (x : Nat) :
    (x / 2 ^ f.mb = 0 ∧ f.sig x = x ∧ x < 2 ^ f.mb) ∨ (x / 2 ^ f.mb ≠ 0 ∧ 2 ^ f.mb ≤ f.sig x ∧ f.sig x < 2 ^ (f.mb + 1)) := by
  unfold Fmt.sig
  split
  next h => exact .inl ⟨h, rfl, (Nat.div_eq_zero_iff_lt (Nat.two_pow_pos _)).1 h⟩
  next h =>
    have := Nat.mod_lt x (Nat.two_pow_pos f.mb)
    exact .inr ⟨h, Nat.le_add_right _ _, by rw [pow_succ]; omega⟩

/-- The magnitude of an encoding in units of the least last place. -/
def Fmt.mag (f : Fmt) (x : Nat) : Nat := f.sig x * 2 ^ (x / 2 ^ f.mb - 1)

/-- Greater encodings have greater magnitudes. -/
theorem mag_mono (f : Fmt) {x y : Nat} (h : x ≤ y) : f.mag x ≤ f.mag y := by
  have he : x / 2 ^ f.mb ≤ y / 2 ^ f.mb := Nat.div_le_div_right h
  unfold Fmt.mag
  obtain heq | hlt := Nat.eq_or_lt_of_le he
  · rw [heq]
    refine Nat.mul_le_mul_right _ ?_
    have hx := Nat.div_add_mod x (2 ^ f.mb)
    have hy := Nat.div_add_mod y (2 ^ f.mb)
    rw [heq] at hx
    unfold Fmt.sig
    rw [heq]
    split <;> omega
  · obtain ⟨h0, -, -⟩ | ⟨-, hy, -⟩ := sig_bounds f y
    · exact absurd (h0 ▸ hlt) (Nat.not_lt_zero _)
    obtain ⟨hx0, hx, hxl⟩ | ⟨hx0, -, hxl⟩ := sig_bounds f x
    · rw [hx0, hx]
      exact Nat.mul_le_mul (hxl.le.trans hy) (Nat.pow_le_pow_right Nat.two_pos (Nat.zero_le _))
    · generalize x / 2 ^ f.mb = ex at hlt hx0 ⊢
      generalize y / 2 ^ f.mb = ey at hlt ⊢
      calc f.sig x * 2 ^ (ex - 1) ≤ 2 ^ (f.mb + 1) * 2 ^ (ex - 1) := Nat.mul_le_mul_right _ hxl.le
        _ = 2 ^ f.mb * 2 ^ ex := by rw [← pow_add, ← pow_add]; congr 1; omega
        _ ≤ f.sig y * 2 ^ (ey - 1) := Nat.mul_le_mul hy (Nat.pow_le_pow_right Nat.two_pos (by omega))

theorem dyadicGt_add (m n a b : Nat) (c : Int) : dyadicGt m (c + a) n (c + b) = decide (n * 2 ^ b < m * 2 ^ a) := by
  unfold dyadicGt
  split
  next h =>
    have hab : a = (a - b) + b := by omega
    have hs : (c + a - (c + b)).toNat = a - b := by omega
    rw [hs, Nat.shiftLeft_eq, hab, pow_add, ← mul_assoc, Nat.add_sub_cancel, decide_eq_decide]
    exact (Nat.mul_lt_mul_right (Nat.two_pow_pos b)).symm
  next h =>
    have hab : b = (b - a) + a := by omega
    have hs : (c + b - (c + a)).toNat = b - a := by omega
    rw [hs, Nat.shiftLeft_eq, hab, pow_add, ← mul_assoc, Nat.add_sub_cancel, decide_eq_decide]
    exact (Nat.mul_lt_mul_right (Nat.two_pow_pos a)).symm

/-- A finite encoding does not exceed the format. -/
theorem dyadicGt_maxEnc (f : Fmt) {x : Nat} (h : x ≤ f.maxEnc) :
    dyadicGt (f.sig x) (f.ulp + (x / 2 ^ f.mb - 1 : Nat)) (f.unpack f.maxEnc).1 (f.unpack f.maxEnc).2 = false := by
  rw [unpack_eq, dyadicGt_add, decide_eq_false_iff_not, Nat.not_lt]
  exact mag_mono f h

/-! ## A finite word decodes and rounds to itself -/

/-- A finite encoding leaves the sign bit, and is none of the encodings of infinity and NaN. -/
theorem maxEnc_finite {f : Fmt} (he : 0 < f.eb) {x : Nat} (h : x ≤ f.maxEnc) :
    x < 2 ^ (f.eb + f.mb) ∧ (f.ieee = true → x / 2 ^ f.mb ≠ 2 ^ f.eb - 1) ∧ (f.topNan = true → x ≠ 2 ^ (f.eb + f.mb) - 1) := by
  have he2 : 2 ≤ 2 ^ f.eb := Nat.le_self_pow he.ne' 2
  have hm : 0 < 2 ^ f.mb := Nat.two_pow_pos _
  have htop : (2 ^ f.eb - 1) * 2 ^ f.mb + 2 ^ f.mb = 2 ^ (f.eb + f.mb) := by
    rw [← Nat.succ_mul, Nat.succ_eq_add_one, Nat.sub_add_cancel (by omega), pow_add]
  have hone : 2 ^ f.mb ≤ (2 ^ f.eb - 1) * 2 ^ f.mb := Nat.le_mul_of_pos_left _ (by omega)
  unfold Fmt.maxEnc at h
  cases hi : f.ieee with
  | true =>
    rw [hi, if_pos rfl] at h
    refine ⟨by omega, fun _ => (Nat.div_lt_of_lt_mul (by rw [Nat.mul_comm]; omega)).ne, fun _ => by omega⟩
  | false =>
    rw [hi] at h
    cases ht : f.topNan <;> simp [ht] at h <;> simp <;> omega

theorem decodeF_word {f : Fmt} (he : 0 < f.eb) (neg : Bool) {x : Nat} (h : x ≤ f.maxEnc) :
    decodeF f (f.word neg x) = .fin neg (f.sig x) (f.ulp + (x / 2 ^ f.mb - 1 : Nat)) := by
  obtain ⟨hlt, hieee, htop⟩ := maxEnc_finite he h
  have hs : (f.word neg x / 2 ^ (f.eb + f.mb) % 2 = 1) = (neg = true) := by
    unfold Fmt.word
    cases neg
    · simp [Nat.div_eq_of_lt hlt]
    · simp [Nat.add_div_left _ (Nat.two_pow_pos _), Nat.div_eq_of_lt hlt]
  have hx : f.word neg x % 2 ^ (f.eb + f.mb) = x := by
    unfold Fmt.word
    cases neg <;> simp [Nat.mod_eq_of_lt hlt]
  unfold decodeF
  simp only [hs, hx, unpack_eq]
  rw [if_neg, if_neg]
  · simp
  · simpa using htop
  · simpa using hieee

/-- A significand below the hidden bit has the least exponent, any other has the hidden bit as its highest. -/
theorem log2_sig {f : Fmt} {x : Nat} (h : f.sig x ≠ 0) :
    (x / 2 ^ f.mb = 0 ∧ Nat.log2 (f.sig x) < f.mb) ∨ (x / 2 ^ f.mb ≠ 0 ∧ Nat.log2 (f.sig x) = f.mb) := by
  obtain ⟨h0, hx, hlt⟩ | ⟨h0, hge, hlt⟩ := sig_bounds f x
  · exact .inl ⟨h0, (Nat.log2_lt h).2 (hx.trans_lt hlt)⟩
  · exact .inr ⟨h0, (Nat.log2_eq_iff h).2 ⟨hge, hlt⟩⟩

/-- The last place of a rounded encoding is its own last place, so nothing is dropped. -/
theorem lastPlace_eq {f : Fmt} {x : Nat} (h : f.sig x ≠ 0) :
    max (f.ulp + (x / 2 ^ f.mb - 1 : Nat) + Nat.log2 (f.sig x)) f.emin - f.mb = f.ulp + (x / 2 ^ f.mb - 1 : Nat) := by
  unfold Fmt.ulp
  obtain ⟨h0, hlog⟩ | ⟨h0, hlog⟩ := log2_sig h
  · rw [h0]
    omega
  · rw [hlog]
    omega

/-- A significand with its exponent packs to the encoding it was unpacked from. -/
theorem pack_sig (f : Fmt) (x : Nat) :
    (if f.sig x < 2 ^ f.mb then f.sig x else f.sig x + (f.ulp + (x / 2 ^ f.mb - 1 : Nat) + f.mb - f.emin).toNat * 2 ^ f.mb) = x := by
  obtain ⟨-, hx, hlt⟩ | ⟨h0, hge, -⟩ := sig_bounds f x
  · rw [hx, if_pos hlt]
  · have he : (f.ulp + (x / 2 ^ f.mb - 1 : Nat) + f.mb - f.emin).toNat = x / 2 ^ f.mb - 1 := by unfold Fmt.ulp; omega
    rw [if_neg (Nat.not_lt.2 hge), he, Fmt.sig, if_neg h0]
    have hx := Nat.div_add_mod' x (2 ^ f.mb)
    have hs : (x / 2 ^ f.mb - 1) * 2 ^ f.mb + 2 ^ f.mb = x / 2 ^ f.mb * 2 ^ f.mb := by
      rw [← Nat.succ_mul, Nat.succ_eq_add_one, Nat.sub_add_cancel (Nat.pos_of_ne_zero h0)]
    omega

/-- A finite value of a format rounds to its own word without a flag, in every mode. -/
theorem roundF_finite {f : Fmt} (mode : Mode) (neg : Bool) {x : Nat} (h : x ≤ f.maxEnc) :
    roundF f mode false (.fin neg (f.sig x) (f.ulp + (x / 2 ^ f.mb - 1 : Nat))) = ⟨f.word neg x, 0⟩ := by
  have hbig := dyadicGt_maxEnc f h
  have hpack := pack_sig f x
  rw [roundF, roundFin.eq_def]
  by_cases h0 : f.sig x = 0
  · rw [h0, if_pos (Nat.two_pow_pos _)] at hpack
    rw [if_pos h0, ← hpack]
  · have hr : ∀ e : Int, roundAt mode neg (f.sig x) e e = (f.sig x, true) := fun e => by
      rw [roundAt, if_pos (le_refl _), sub_self, Int.toNat_zero, Nat.shiftLeft_zero]
    simp only [if_neg h0, lastPlace_eq h0, hr, hbig, hpack]
    cases mode <;> simp

/-- Settles O24: every mode's rounding of a cut significand, and every finite word of a format with an exponent field. -/
theorem rounding : Obligations.Rounding := by
  refine ⟨fun neg m k draw => ?_, fun f mode neg x hf hx => ?_⟩
  · have hrem : m - m / 2 ^ k * 2 ^ k = m % 2 ^ k := Nat.mod_eq_sub_div_mul.symm
    refine ⟨⟨?_, roundShift_rne_nearest neg m k⟩, fun h => roundShift_rne_even neg (hrem ▸ h), roundShift_fst .rz neg m k, ?_,
      roundShift_fst .rd neg m k, ?_, fun mode => roundShift_exact_iff mode neg m k⟩
    · rw [roundShift_fst]
      exact (ite_eq_or_eq _ _ _).symm
    · rw [roundShift_fst]
      cases neg <;> rfl
    · rw [roundShift_fst, hrem, Mode.up, Nat.shiftRight_eq_div_pow]
      simp only [decide_eq_true_eq]
  have he : 0 < f.eb := by
    have : ∀ g ∈ [fp64, fp32, fp19, bf16, fp16, e5m2, e4m3, e3m2, e2m3, e2m1], 0 < g.eb := by decide
    exact this f hf
  rw [decodeF_word he neg hx, roundF_finite mode neg hx]

end Sys2Proof.Machine
end

section

/-!
# The engine context of a sequencer (11 R211, R213, R219)
-/

namespace Sys2Proof.Machine
open Host

/-! ## The context of the cluster in its launch -/

theorem job_putJob {s : State} {j : Job} (h : j.id = s.cur.job) : (s.putJob j).job = j := by
  unfold State.job
  rw [State.putJob_jobs, look_put, if_pos (show (s.putJob j).cur.job = j.id from h.symm)]
  rfl

theorem putJob_putJob (s : State) {j k : Job} (h : j.id = k.id) : (s.putJob j).putJob k = s.putJob k := by
  unfold State.putJob
  dsimp only
  rw [h, put_put]

theorem State.Placed.putJob {s : State} {j : Job} (h : j.id = s.cur.job) : (s.putJob j).Placed := by
  refine ⟨?_, by rw [job_putJob h]; exact h⟩
  rw [job_putJob h, State.putJob_jobs, look_put]
  exact if_pos h.symm

/-- A launch with another context of a cluster. -/
def Job.withEngine (j : Job) (c : Nat) (e : Engine) : Job := { j with engines := put j.engines c e }

/-- A launch whose image says whether its B store was used. -/
def Job.withBst (j : Job) (b : Bool) : Job := { j with bstUse := j.bstUse || b }

theorem putEngine_eq (s : State) (e : Engine) : s.putEngine e = s.putJob (s.job.withEngine s.cur.cluster e) := rfl

theorem withEngine_withEngine (j : Job) (c : Nat) (e e' : Engine) : (j.withEngine c e).withEngine c e' = j.withEngine c e' :=
  congrArg (fun l => { j with engines := l }) (put_put ..)

section
variable {s : State} (hp : s.Placed)
include hp

theorem State.Placed.job_putEngine (e : Engine) : (s.putEngine e).job = s.job.withEngine s.cur.cluster e := job_putJob hp.2

theorem State.Placed.putEngine (e : Engine) : (s.putEngine e).Placed := State.Placed.putJob hp.2

theorem State.Placed.engine_putEngine (e : Engine) : (s.putEngine e).engine = e := by
  have hj : (s.putEngine e).engine = (s.putEngine e).job.engine s.cur.cluster := rfl
  rw [hj, hp.job_putEngine]
  exact (engine_put (j := s.job) rfl _).trans (if_pos rfl)

theorem State.Placed.putEngine_putEngine (e e' : Engine) : (s.putEngine e).putEngine e' = s.putEngine e' := by
  rw [putEngine_eq (s.putEngine e), hp.job_putEngine, putEngine_eq s e, putEngine_eq s e', putJob_putJob s (by rfl)]
  exact congrArg s.putJob (withEngine_withEngine ..)

theorem State.Placed.job_markBst (b : Bool) : (s.markBst b).job = s.job.withBst b := by
  unfold Job.withBst
  cases b with
  | true => rw [Bool.or_true]; exact job_putJob hp.2
  | false => rw [Bool.or_false]; rfl

theorem State.Placed.markBst (b : Bool) : (s.markBst b).Placed := by
  cases b with
  | true => exact State.Placed.putJob hp.2
  | false => exact hp

theorem State.Placed.engine_markBst (b : Bool) : (s.markBst b).engine = s.engine := by
  unfold State.engine
  rw [hp.job_markBst]
  cases b <;> rfl

theorem State.Placed.putEngine_markBst (b : Bool) (e : Engine) :
    (s.markBst b).putEngine e = s.putJob ((s.job.withBst b).withEngine s.cur.cluster e) := by
  rw [putEngine_eq, hp.job_markBst]
  cases b with
  | true => exact putJob_putJob s rfl
  | false => rfl

end

/-- An instruction of the sequencer that ends in an effect on its context. -/
theorem effects_putJob {s : State} {i : Instr} {f : State → State} {j : Job} (h : Runs i s) (he : exec i s = groupForm i f s)
    (hg : s.gpGuard i.guardOf = true) (hf : f s = (s.putJob j).finish) : Effects i s (s.putJob j) :=
  effects_group h he hg hf rfl rfl rfl rfl

/-! ## Operands in scratchpad (21 R359) -/

/-- A scratchpad operand of `n` bytes is there: inside the team's scratchpad, written by no earlier operation, with good data. -/
structure State.HasOperand (s : State) (va : W64) (n : Nat) (bs : List Byte) (t off : Nat) : Prop where
  at' : s.operandRef va.toNat n = .at t off
  after : s.operandAfter t off n = none
  good : s.poisoned (scratchLoc s.cur.job t off) n = false
  bytes : bs = s.bytesAt (scratchLoc s.cur.job t off) n

theorem State.HasOperand.withOperand {s : State} {va : W64} {n : Nat} {bs : List Byte} {t off : Nat} (h : s.HasOperand va n bs t off)
    (f : List Byte → State) : s.withOperand va n f = f bs := by
  unfold State.withOperand
  rw [h.at']
  dsimp only
  rw [h.after]
  dsimp only
  rw [h.good, h.bytes]
  rfl

/-- Marking the use of the B store leaves the operands. -/
theorem State.HasOperand.markBst {s : State} {va : W64} {n : Nat} {bs : List Byte} {t off : Nat} (h : s.HasOperand va n bs t off) (hp : s.Placed)
    (b : Bool) : (s.markBst b).HasOperand va n bs t off := by
  cases b with
  | false => exact h
  | true =>
    refine ⟨?_, h.after, h.good, ?_⟩
    · rw [← h.at']
      unfold State.operandRef
      rw [hp.job_markBst]
      rfl
    · rw [h.bytes]
      exact bytesAt_congr (s := s.markBst true) (t := s) (fun _ _ _ => rfl)

/-! ## Bytes of the A buffer and of slices (11 R213, R219) -/

theorem abufBytes_length (e : Engine) (off n : Nat) : (e.abufBytes off n).length = n := by simp [Engine.abufBytes]

/-- A part of a range of the A buffer. -/
theorem abufBytes_sub (e : Engine) {off n a len : Nat} (h : a + len ≤ n) : e.abufBytes (off + a) len = ((e.abufBytes off n).drop a).take len := by
  refine List.ext_getElem (by simp [abufBytes_length]; omega) (fun i h1 h2 => ?_)
  simp [Engine.abufBytes, Nat.add_assoc]

/-- What was just written into the A buffer. -/
theorem abufBytes_memPut {e : Engine} {off : Nat} {c : Cells 8} {bs : List Byte} (h : e.abuf = memPut c off bs) : e.abufBytes off bs.length = bs := by
  refine List.ext_getElem (abufBytes_length ..) (fun i h1 h2 => ?_)
  simp [Engine.abufBytes, h, memPut_get, h2, List.getD_eq_getElem?_getD]

theorem sliceBytes_length {l : List Slice} (h : ∀ sl ∈ l, sl.length = 32) : (sliceBytes l).length = 128 * l.length := by
  induction l with
  | nil => rfl
  | cons sl l ih =>
    have hs : ∀ ws : Slice, (ws.flatMap (fun w => leBytes 4 w.toNat)).length = 4 * ws.length := fun ws => by
      simp [List.length_flatMap, Nat.mul_comm]
    rw [sliceBytes, List.flatMap_cons, List.length_append, hs, h sl (by simp), List.length_cons]
    have := ih (fun x hx => h x (by simp [hx]))
    unfold sliceBytes at this
    omega

end Sys2Proof.Machine
end

section

/-!
# Entries of banks and of the accumulator store (11 R213, R217)
-/

namespace Sys2Proof.Machine
open Host

/-! ## One entry -/

/-- The bits of an entry. -/
abbrev entryBits (tag : Nat) : Nat := if tag = 1 then 64 else 32

/-- How many entries a row of 512 words holds. -/
abbrev rowEntries (tag : Nat) : Nat := if tag = 1 then 256 else 512

/-- Word `k` belongs to none of the one or two words of an entry. -/
def OutsideEntry (tag row j k : Nat) : Prop :=
  k ≠ row * 512 + (if tag = 1 then 2 * j else j) ∧ (tag = 1 → k ≠ row * 512 + 2 * j + 1)

theorem getEntry_putEntry (c : Cells 32) (tag row j x : Nat) : getEntry (putEntry c tag row j x) tag row j = x % 2 ^ entryBits tag := by
  unfold getEntry putEntry
  split
  next h => simp [Cells.get_set]; omega
  next h => simp [Cells.get_set]

theorem get_putEntry_outside {c : Cells 32} {tag row j x k : Nat} (h : OutsideEntry tag row j k) : (putEntry c tag row j x).get k = c.get k := by
  obtain ⟨h1, h2⟩ := h
  unfold putEntry
  split
  next ht =>
    rw [if_pos ht] at h1
    rw [Cells.get_set, if_neg (h2 ht), Cells.get_set, if_neg h1]
  next ht =>
    rw [if_neg ht] at h1
    rw [Cells.get_set, if_neg h1]

/-- Different entries have no word in common. -/
theorem getEntry_putEntry_ne {c : Cells 32} {tag r r' j j' x : Nat} (h : (r', j') ≠ (r, j)) (hj : j < rowEntries tag) (hj' : j' < rowEntries tag) :
    getEntry (putEntry c tag r j x) tag r' j' = getEntry c tag r' j' := by
  have hne : ∀ k, (k = r' * 512 + (if tag = 1 then 2 * j' else j') ∨ (tag = 1 ∧ k = r' * 512 + 2 * j' + 1)) → OutsideEntry tag r j k := by
    intro k hk
    rw [Ne, Prod.mk.injEq] at h
    unfold OutsideEntry
    unfold rowEntries at hj hj'
    split at hk <;> split at hj <;> simp_all <;> omega
  unfold getEntry
  split
  next ht => rw [get_putEntry_outside (hne _ (.inl (by rw [if_pos ht]))), get_putEntry_outside (hne _ (.inr ⟨ht, rfl⟩))]
  next ht => rw [get_putEntry_outside (hne _ (.inl (by rw [if_neg ht])))]

/-! ## A list of entries, each replaced by what it becomes -/

/-- Replaces the entries at the positions of a list, from row `g` on, and collects the flags: entry `p` becomes `f p` of what stood there. -/
def storeEntries (tag g : Nat) (f : Nat × Nat → Nat → FRes) (l : List (Nat × Nat)) (c : Cells 32 × Nat) : Cells 32 × Nat :=
  l.foldl (fun c p =>
    let x := f p (getEntry c.1 tag (g + p.1) p.2)
    (putEntry c.1 tag (g + p.1) p.2 x.bits, c.2 ||| x.flags)) c

section
variable {tag g : Nat} {f : Nat × Nat → Nat → FRes} {l : List (Nat × Nat)} {c : Cells 32 × Nat}

theorem storeEntries_outside {k : Nat} (h : ∀ p ∈ l, OutsideEntry tag (g + p.1) p.2 k) : (storeEntries tag g f l c).1.get k = c.1.get k := by
  induction l generalizing c with
  | nil => rfl
  | cons a l ih =>
    obtain ⟨ha, hl⟩ := List.forall_mem_cons.1 h
    exact (ih hl).trans (get_putEntry_outside ha)

theorem storeEntries_notMem {p : Nat × Nat} (hw : ∀ p ∈ l, p.2 < rowEntries tag) (hp : p.2 < rowEntries tag) (h : p ∉ l) :
    getEntry (storeEntries tag g f l c).1 tag (g + p.1) p.2 = getEntry c.1 tag (g + p.1) p.2 := by
  induction l generalizing c with
  | nil => rfl
  | cons a l ih =>
    obtain ⟨ha, hl⟩ := List.forall_mem_cons.1 hw
    obtain ⟨hpa, hpl⟩ := not_or.1 (mt List.mem_cons.2 h)
    refine (ih hl hpl).trans (getEntry_putEntry_ne (fun he => hpa ?_) ha hp)
    rw [Prod.mk.injEq] at he
    exact Prod.ext (by omega) he.2

theorem storeEntries_mem {p : Nat × Nat} (hw : ∀ p ∈ l, p.2 < rowEntries tag) (hl : l.Nodup) (h : p ∈ l) :
    getEntry (storeEntries tag g f l c).1 tag (g + p.1) p.2 = (f p (getEntry c.1 tag (g + p.1) p.2)).bits % 2 ^ entryBits tag := by
  induction l generalizing c with
  | nil => simp at h
  | cons a l ih =>
    obtain ⟨ha, hwl⟩ := List.forall_mem_cons.1 hw
    obtain ⟨hal, hnl⟩ := List.nodup_cons.1 hl
    obtain rfl | hpl := List.mem_cons.1 h
    · exact (storeEntries_notMem hwl ha hal).trans (getEntry_putEntry ..)
    · refine (ih hwl hnl hpl).trans ?_
      rw [getEntry_putEntry_ne (fun he => hal ?_) ha (hwl p hpl)]
      rw [Prod.mk.injEq] at he
      exact (Prod.ext (by omega) he.2 : p = a) ▸ hpl

/-- Every entry is read as it stood before the first. -/
theorem storeEntries_flags (hw : ∀ p ∈ l, p.2 < rowEntries tag) (hl : l.Nodup) :
    (storeEntries tag g f l c).2 = l.foldl (fun x p => x ||| (f p (getEntry c.1 tag (g + p.1) p.2)).flags) c.2 := by
  induction l generalizing c with
  | nil => rfl
  | cons a l ih =>
    obtain ⟨ha, hwl⟩ := List.forall_mem_cons.1 hw
    obtain ⟨hal, hnl⟩ := List.nodup_cons.1 hl
    refine (ih hwl hnl).trans (List.foldl_ext _ _ _ (fun x p hp => ?_))
    rw [getEntry_putEntry_ne (fun he => hal ?_) ha (hwl p hp)]
    rw [Prod.mk.injEq] at he
    exact (Prod.ext (by omega) he.2 : p = a) ▸ hp

end

/-! ## The positions of a block of entries -/

theorem cells2_eq_product (m n : Nat) : cells2 m n = List.range m ×ˢ List.range n := rfl

theorem mem_cells2 {m n : Nat} {p : Nat × Nat} : p ∈ cells2 m n ↔ p.1 < m ∧ p.2 < n := by
  rw [cells2_eq_product, List.mem_product, List.mem_range, List.mem_range]

theorem nodup_cells2 (m n : Nat) : (cells2 m n).Nodup := List.nodup_range.product List.nodup_range

end Sys2Proof.Machine
end

section

/-!
# MSCA, MZERO and MDRN (11 R223, R224, 21 R361)
-/

namespace Sys2Proof.Machine
open Host

/-- A sequencer's instruction on its descriptor, under its guard. -/
theorem matrixForm_run {i : Instr} {desc : BitVec 7} {f : Nat → State → State} {s : State} (h : Runs i s) (hg : s.gpGuard i.guardOf = true) :
    matrixForm i desc f s = .next (f (s.cur.gGet desc.toNat).toNat s) := by
  rw [matrixForm, groupForm_run h, if_pos hg]

/-! ## MSCA -/

/-- What MSCA makes of entry `p` of a bank and of the entry of the row group it is added to (11 R223). -/
def scaTerm (b : Bank) (d : Nat) (scales : List Byte) (p : Nat × Nat) (old : Nat) : FRes :=
  let word := fun k => leNat ((scales.drop (4 * k)).take 4)
  scaElem b.tag (!d.testBit 0) (if !d.testBit 0 then scaScale b.tag (word p.1) (word (32 + p.2 / 128)) else (.fin false 1 0, 0))
    (getEntry b.words b.tag p.1 p.2) old

/-- The context MSCA leaves: the row group with its bank added, the flags of both, the bank invalid. -/
def Engine.scaled (e : Engine) (q d : Nat) (scales : List Byte) : Engine :=
  let b := e.bank (bitsOf d 2 2)
  let r := storeEntries b.tag (32 * q) (scaTerm b d scales) (cells2 b.m b.n) (e.acc, b.flags)
  let e1 := { e.rest.orFlag q r.2 with acc := r.1 }
  if bitsOf d 2 2 = 0 then { e1 with bank0 := { b with valid := false } } else { e1 with bank1 := { b with valid := false } }

theorem scaTerm_eq (b : Bank) (d : Nat) (scales : List Byte) (p : Nat × Nat) (old : Nat) :
    let word := fun k => leNat ((scales.drop (4 * k)).take 4)
    scaTerm b d scales p old = scaElem b.tag (d % 2 == 0)
      (if d % 2 = 0 then scaScale b.tag (word p.1) (word (32 + p.2 / 128)) else (.fin false 1 0, 0)) (getEntry b.words b.tag p.1 p.2) old := by
  have h : (!d.testBit 0) = (d % 2 == 0) := by
    rw [Nat.testBit_zero]
    rcases Nat.mod_two_eq_zero_or_one d with h | h <;> simp [h]
  unfold scaTerm
  simp only [h, beq_iff_eq]

theorem scaFinish_eq (s : State) (q d : Nat) (scales : List Byte) :
    s.scaFinish q d scales = (s.putEngine (s.engine.scaled q d scales)).finish := rfl

/-- Without scales their bytes do not count. -/
theorem scaled_unscaled (e : Engine) (q : Nat) {d : Nat} (h : d.testBit 0 = true) (x y : List Byte) : e.scaled q d x = e.scaled q d y := by
  have hf : ∀ b, scaTerm b d x = scaTerm b d y := fun b => by
    funext p old
    simp [scaTerm, h]
  simp only [Engine.scaled, hf]

/-- What MSCA changes in a context without progress. -/
theorem scaled_eq {e : Engine} (q d : Nat) (scales : List Byte) (hpr : e.progress = 0) (htk : e.taken = []) :
    let b := e.bank (bitsOf d 2 2)
    let r := storeEntries b.tag (32 * q) (scaTerm b d scales) (cells2 b.m b.n) (e.acc, b.flags)
    e.scaled q d scales = { e with
      acc := r.1
      flags := e.flags.set q (e.flags.get q ||| BitVec.ofNat 8 r.2)
      bank0 := if bitsOf d 2 2 = 0 then { b with valid := false } else e.bank0
      bank1 := if bitsOf d 2 2 = 0 then e.bank1 else { b with valid := false } } := by
  cases e
  dsimp only at hpr htk
  subst hpr htk
  by_cases h : bitsOf d 2 2 = 0 <;> simp only [Engine.scaled, h, if_true, if_false] <;> rfl

/-- What MSCA asks of its descriptor, its bank and the place of its scales (11 R223, 21 R360). -/
structure State.ScaReady (s : State) (a : BitVec 4) (d : BitVec 7) (D t off : Nat) (sb : List Byte) : Prop where
  desc : D = (s.cur.gGet d.toNat).toNat
  small : D < 8
  valid : (s.engine.bank (bitsOf D 2 2)).valid = true
  tag : (s.engine.bank (bitsOf D 2 2)).tag = scaTag a.toNat
  reg : D % 4 = 2 → d ≠ 95#7
  idle : s.engine.progress = 0 ∧ s.engine.taken = []
  memory : D % 4 = 2 → s.HasOperand (s.cur.gGet (d.toNat + 1)) 256 sb t off
  queue : D % 4 = 0 → 2 ≤ s.engine.mqs.length ∧ sb = sliceBytes (s.engine.mqs.take 2)

/-- Two slices of scales that are there are taken from mqs. -/
theorem fetchQueue_scales {s : State} (hp : s.Placed) (h : 2 ≤ s.engine.mqs.length) (htk : s.engine.taken = []) (q d : Nat) :
    s.fetchQueue 3 2 (fun s => s.scaFinish q d (sliceBytes s.engine.taken)) =
      (s.putEngine (Engine.scaled { s.engine with mqs := s.engine.mqs.drop 2 } q d (sliceBytes (s.engine.mqs.take 2)))).finish := by
  have hpull : s.engine.pull 3 2 = { s.engine with mqs := s.engine.mqs.drop 2, taken := s.engine.mqs.take 2 } := by
    unfold Engine.pull
    rw [htk]
    rfl
  rw [State.fetchQueue, hpull, if_neg (by simp [h]), scaFinish_eq, hp.engine_putEngine, hp.putEngine_putEngine]
  rfl

/-- MSCA with its scales at hand. -/
theorem exec_msca_run {s : State} {q : BitVec 2} {a : BitVec 4} {c : BitVec 3} {d : BitVec 7} {D t off : Nat} {sb : List Byte}
    (h : Runs (.msca q a c d) s) (hg : s.gpGuard q = true) (hp : s.Placed) (hr : s.ScaReady a d D t off sb) :
    exec (.msca q a c d) s = .next (s.putEngine (Engine.scaled
      { s.engine with mqs := if D % 4 = 0 then s.engine.mqs.drop 2 else s.engine.mqs } c.toNat D sb)).finish := by
  refine (exec_msca s).trans ((matrixForm_run h hg).trans (congrArg Outcome.next ?_))
  have hok : ¬(8 ≤ D ∨ (!(s.engine.bank (bitsOf D 2 2)).valid) = true ∨ (s.engine.bank (bitsOf D 2 2)).tag ≠ scaTag a.toNat ∨
      (D % 4 = 2 ∧ d = 95#7)) := by
    rintro (h8 | h8 | h8 | ⟨h4, h95⟩)
    · exact absurd hr.small (Nat.not_lt.2 h8)
    · simp [hr.valid] at h8
    · exact h8 hr.tag
    · exact hr.reg h4 h95
  dsimp only
  rw [← hr.desc, if_neg hok]
  have h0 : D.testBit 0 = decide (D % 2 = 1) := by rw [Nat.testBit_eq_decide_div_mod_eq]; simp
  have h1 : D.testBit 1 = decide (D / 2 % 2 = 1) := by rw [Nat.testBit_eq_decide_div_mod_eq, pow_one]
  by_cases hodd : D % 2 = 1
  · rw [if_pos (by simp [h0, hodd]), if_neg (by omega), scaFinish_eq,
      scaled_unscaled (d := D) _ _ (by simp [h0, hodd]) [] sb]
  rw [if_neg (by simp [h0, hodd])]
  by_cases hmem : D % 4 = 2
  · rw [if_pos (by simp [h1]; omega), if_neg (by omega), (hr.memory hmem).withOperand, scaFinish_eq]
  · obtain ⟨hlen, hsb⟩ := hr.queue (by omega)
    rw [if_neg (by simp [h1]; omega), if_pos (by omega), fetchQueue_scales hp hlen hr.idle.2, hsb]

/-- MSCA adds its bank, entry by entry, to a row group that it changes nowhere else. -/
theorem exec_msca_effects {s : State} {q : BitVec 2} {a : BitVec 4} {c : BitVec 3} {d : BitVec 7} {D t off : Nat} {sb : List Byte}
    (h : Runs (.msca q a c d) s) (hg : s.gpGuard q = true) (hp : s.Placed) (hr : s.ScaReady a d D t off sb) :
    let e := s.engine
    let B := e.bank (bitsOf D 2 2)
    let r := storeEntries B.tag (32 * c.toNat) (scaTerm B D sb) (cells2 B.m B.n) (e.acc, B.flags)
    Effects (.msca q a c d) s (s.putEngine { e with
      acc := r.1
      mqs := if D % 4 = 0 then e.mqs.drop 2 else e.mqs
      flags := e.flags.set c.toNat (e.flags.get c.toNat ||| BitVec.ofNat 8 r.2)
      bank0 := if bitsOf D 2 2 = 0 then { B with valid := false } else e.bank0
      bank1 := if bitsOf D 2 2 = 0 then e.bank1 else { B with valid := false } }) := by
  have he := exec_msca_run h hg hp hr
  rw [scaled_eq _ _ _ (by exact hr.idle.1) (by exact hr.idle.2)] at he
  exact effects_finish he rfl rfl rfl rfl

/-! ## MZERO and MDRN -/

theorem get_filter {w : Nat} (f : Nat → Bool) (c : Cells w) (k : Nat) :
    Cells.get (c.filter (fun p => f p.1)) k = if f k then c.get k else 0#w := by
  induction c with
  | nil => simp [Cells.get]
  | cons p c ih =>
    obtain ⟨a, x⟩ := p
    by_cases hk : k = a
    · subst hk
      by_cases hf : f k = true <;> simp [hf, Cells.get, ih]
    · by_cases hf : f a = true <;> simp [hf, Cells.get, hk, ih]

/-- Clearing rows clears their words and no other. -/
theorem get_clearRows (e : Engine) (lo n k : Nat) :
    (e.clearRows lo n).acc.get k = if lo * 512 ≤ k ∧ k < (lo + n) * 512 then 0#32 else e.acc.get k := by
  have hg := get_filter (fun k => decide (k < lo * 512) || decide ((lo + n) * 512 ≤ k)) e.acc k
  refine hg.trans ?_
  by_cases h : lo * 512 ≤ k ∧ k < (lo + n) * 512
  · rw [if_pos h, if_neg (by simp; omega)]
  · rw [if_neg h, if_pos (by simp; omega)]

theorem exec_mzero_effects {s : State} {q : BitVec 2} {c : BitVec 3} (h : Runs (.mzero q c) s) (hg : s.gpGuard q = true) :
    Effects (.mzero q c) s (s.putEngine { s.engine with
      acc := (s.engine.clearRows (32 * c.toNat) 32).acc, flags := s.engine.flags.set c.toNat 0#8 }) :=
  effects_putJob h (exec_mzero s) hg rfl

/-- The slices a drain pushes. -/
def Engine.drained (e : Engine) (f q d : Nat) : List Slice := (List.range (mdM d)).flatMap (fun i => e.drainRow f (32 * q + i) (mdN d))

/-- The flags a drain reports: those of the row group and those of the conversions. -/
def Engine.drainReport (e : Engine) (f q d : Nat) : Nat := (e.flags.get q).toNat ||| e.drainFlags f q (mdM d) (mdN d)

/-- The context a drain leaves where mqo has room for all it has still to push. -/
def Engine.afterDrain (e : Engine) (f q d : Nat) : Engine :=
  let flags := e.flags.set q (BitVec.ofNat 8 (e.drainReport f q d))
  { e with
    acc := if d / 2 ^ 14 % 2 = 1 then (e.clearRows (32 * q) (mdM d)).acc else e.acc
    mqo := e.mqo ++ (e.drained f q d).drop e.progress
    progress := 0
    flags := if d / 2 ^ 14 % 2 = 1 then flags.set q 0#8 else flags }

theorem ofNat_or_toNat (x : BitVec 8) (y : Nat) : x ||| BitVec.ofNat 8 y = BitVec.ofNat 8 (x.toNat ||| y) := by
  rw [BitVec.ofNat_or, BitVec.ofNat_toNat, BitVec.setWidth_eq]

theorem orFlag_eq (e : Engine) (q f : Nat) : e.orFlag q f = { e with flags := e.flags.set q (BitVec.ofNat 8 ((e.flags.get q).toNat ||| f)) } := by
  rw [Engine.orFlag, ofNat_or_toNat]

theorem drain_room {s : State} {f q dreg d : Nat} (htk : s.engine.taken = [])
    (h : (s.engine.drained f q d).length - s.engine.progress ≤ 16 - s.engine.mqo.length) :
    s.drain f q dreg d = (((s.putEngine (s.engine.afterDrain f q d)).setCur
      (s.cur.gSet dreg (BitVec.ofNat 64 (d % 2 ^ 56 + s.engine.drainReport f q d % 64 * 2 ^ 56))))).finish := by
  have hmin : min (16 - s.engine.mqo.length) ((s.engine.drained f q d).length - s.engine.progress) =
      (s.engine.drained f q d).length - s.engine.progress := Nat.min_eq_right h
  have htake : ((s.engine.drained f q d).drop s.engine.progress).take (16 - s.engine.mqo.length) = (s.engine.drained f q d).drop s.engine.progress :=
    List.take_of_length_le (by rw [List.length_drop]; exact h)
  unfold State.drain
  dsimp only
  rw [← Engine.drained, hmin, htake, if_neg (by omega)]
  have hx : (BitVec.ofNat 8 (s.engine.drainReport f q d)).toNat % 64 = s.engine.drainReport f q d % 64 := by
    rw [BitVec.toNat_ofNat, Nat.mod_mod_of_dvd _ (by decide)]
  simp only [orFlag_eq, Engine.rest, Cells.get_set, if_true]
  rw [← hx]
  refine congrArg State.finish ?_
  refine congrArg (fun e => (s.putEngine e).setCur (s.cur.gSet dreg _)) (?_ : _ = s.engine.afterDrain f q d)
  unfold Engine.afterDrain
  rw [← htk, Nat.testBit_eq_decide_div_mod_eq]
  by_cases hclr : d / 2 ^ 14 % 2 = 1 <;> simp only [hclr, decide_true, decide_false, if_true, Bool.false_eq_true, if_false] <;> rfl

theorem drain_full {s : State} {f q dreg d : Nat}
    (h : 16 - s.engine.mqo.length < (s.engine.drained f q d).length - s.engine.progress) :
    s.drain f q dreg d = (s.putEngine { s.engine with
      mqo := s.engine.mqo ++ ((s.engine.drained f q d).drop s.engine.progress).take (16 - s.engine.mqo.length)
      progress := s.engine.progress + (16 - s.engine.mqo.length) }).block (.queue 2) := by
  have hmin : min (16 - s.engine.mqo.length) ((s.engine.drained f q d).length - s.engine.progress) = 16 - s.engine.mqo.length :=
    Nat.min_eq_left h.le
  unfold State.drain
  dsimp only
  rw [← Engine.drained, hmin, if_pos (by omega)]

theorem exec_mdrn_run {s : State} {q : BitVec 2} {a : BitVec 4} {c : BitVec 3} {d : BitVec 7} (h : Runs (.mdrn q a c d) s)
    (hg : s.gpGuard q = true) (h0 : bitsOf (s.cur.gGet d.toNat).toNat 55 15 = 0) :
    exec (.mdrn q a c d) s = .next (s.drain a.toNat c.toNat d.toNat (s.cur.gGet d.toNat).toNat) :=
  (exec_mdrn s).trans ((matrixForm_run h hg).trans (congrArg Outcome.next (if_neg (not_not.2 h0))))

/-- Settles O51: each instruction's context by its own lemma, MSCA's entries by what a list of distinct entries comes to. -/
theorem matrixAccumulate : Obligations.MatrixAccumulate := by
  intro s q a c d t off sb D e g left B word r all room fl hg
  refine ⟨fun h hp hD hv ht hn hd hpr htk hmem hq => ?_, fun h => ?_, fun h _ h0 htk => ?_⟩
  · have hr : s.ScaReady a d D t off sb := ⟨rfl, hD, hv, ht, hd, ⟨hpr, htk⟩, fun hm => by
      obtain ⟨h1, h2, h3, h4⟩ := hmem hm
      exact ⟨h1, h2, h3, h4⟩, hq⟩
    have hw : ∀ p ∈ cells2 B.m B.n, p.2 < rowEntries B.tag := fun p hp => (mem_cells2.1 hp).2.trans_le hn
    have he := exec_msca_effects h hg hp hr
    have hflags := storeEntries_flags (g := g) (f := scaTerm B D sb) (c := (e.acc, B.flags)) hw (nodup_cells2 _ _)
    refine ⟨(storeEntries B.tag g (scaTerm B D sb) (cells2 B.m B.n) (e.acc, B.flags)).1, fun i j hi hj => ?_, fun k hk => ?_, ?_⟩
    · refine (storeEntries_mem (p := (i, j)) hw (nodup_cells2 _ _) (mem_cells2.2 ⟨hi, hj⟩)).trans ?_
      rw [scaTerm_eq]
    · exact storeEntries_outside (fun p hp => hk p.1 p.2 (mem_cells2.1 hp).1 (mem_cells2.1 hp).2)
    · simp only [scaTerm_eq] at hflags
      rw [← hflags]
      exact he
  · exact ⟨_, fun k => get_clearRows e g 32 k, exec_mzero_effects h hg⟩
  · have hrun := exec_mdrn_run h hg h0
    refine ⟨fun hroom => ⟨(e.afterDrain a.toNat c.toNat D).acc, fun k => ?_, ?_⟩, fun hroom => ?_⟩
    · unfold Engine.afterDrain
      by_cases hclr : D / 2 ^ 14 % 2 = 1
      · simp only [hclr, if_true, true_and]
        exact get_clearRows e g (mdM D) k
      · simp only [hclr, if_false, false_and]
    · rw [drain_room htk hroom] at hrun
      exact effects_finish hrun rfl rfl rfl rfl
    · exact ⟨_, hrun.trans (congrArg Outcome.next (drain_full hroom)), waiting_block rfl⟩

end Sys2Proof.Machine
end

section

/-!
# Value-grouped rows whose words arrive slice by slice (11 R227 to R230)
-/

namespace Sys2Proof.Machine
open Host

/-! ## Parsing from fewer words -/

/-- The second source gives every word that the first one gives. -/
def Extends (get more : Nat → Option W32) : Prop := ∀ k x, get k = some x → more k = some x

/-- A word that the first source lacks and the second has. -/
def Lacks (get more : Nat → Option W32) (k : Nat) : Prop := get k = none ∧ more k ≠ none

/-- A parsed group ends behind a word that was there; no failure of a group is a parsed row. -/
def GroupEnds (get : Nat → Option W32) : Except VgRow (List Nat × Nat) → Prop
  | .ok r => ∃ k, r.2 = k + 1 ∧ get k ≠ none
  | .error e => ∀ gs, e ≠ .ok gs

theorem vgGroup_ends (get : Nat → Option W32) (len kv w f i : Nat) (prev : Int) (ps : List Nat) :
    GroupEnds get (vgGroup get len kv w f i prev ps) := by
  fun_induction vgGroup get len kv w f i prev ps
  case case5 ih => exact ih
  case case8 f i prev ps h0 b hb hb255 h1 h2 lo hi hhi hlo dd hd =>
    exact ⟨w + (i + 2) / 4, by dsimp only; omega, fun h => by simp [vgByte, h] at hhi⟩
  case case11 ih => exact ih
  all_goals exact fun _ => VgRow.noConfusion

/-- A list of groups that parses ends behind a word that was there. -/
theorem vgGroups_last {get : Nat → Option W32} {len kv n w : Nat} {acc gs : List (W32 × List Nat)} (hw : get (w - 1) ≠ none)
    (h : vgGroups get len kv n w acc = .ok gs) : get (len - 1) ≠ none := by
  fun_induction vgGroups get len kv n w acc
  case case1 => exact hw
  case case5 n w acc hlen v hv e he => exact absurd h ((he ▸ vgGroup_ends get len kv (w + 1) (4 * len + 1) 0 (-1) []) gs)
  case case6 n w acc hlen v hv ps w1 hg ih =>
    obtain ⟨k, hk, hget⟩ : GroupEnds get (.ok (ps, w1)) := hg ▸ vgGroup_ends get len kv (w + 1) (4 * len + 1) 0 (-1) []
    exact ih (by rw [show w1 - 1 = k by dsimp only at hk; omega]; exact hget) h
  all_goals cases h

/-- A row that parses passes the limits of R229 on its header and its length, and its groups parse. -/
theorem vgRow_ok {get : Nat → Option W32} {fb kv room : Nat} {gs : List (W32 × List Nat)} (h : vgRow get fb kv room = .ok gs) :
    ∃ x l, get 0 = some x ∧ get 1 = some l ∧ ¬(256 < x.toNat % 2 ^ 16 ∨ x.toNat / 2 ^ 24 ≠ 0 ∨ x.toNat / 2 ^ 16 % 256 ≠ fb) ∧
      ¬(l.toNat < 2 ∨ 16384 < l.toNat ∨ room < 4 * l.toNat) ∧ vgGroups get l.toNat kv (x.toNat % 2 ^ 16) 2 [] = .ok gs := by
  revert h
  fun_cases vgRow get fb kv room
  case case5 x hx n hhead l hl hlen => exact fun h => ⟨x, l, hx, hl, hhead, hlen, h⟩
  all_goals exact VgRow.noConfusion

/-- The last word of a row that parses was there. -/
theorem vgRow_last {get : Nat → Option W32} {fb kv room : Nat} {gs : List (W32 × List Nat)} (h : vgRow get fb kv room = .ok gs) :
    ∃ l, get 1 = some l ∧ 2 ≤ l.toNat ∧ l.toNat ≤ 16384 ∧ get (l.toNat - 1) ≠ none := by
  obtain ⟨x, l, -, hl, -, hlen, hgroups⟩ := vgRow_ok h
  exact ⟨l, hl, by omega, by omega, vgGroups_last (by simp [hl]) hgroups⟩

section
variable {get more : Nat → Option W32} (hx : Extends get more)
include hx

theorem get_or_lacks (k : Nat) : get k = more k ∨ Lacks get more k := by
  cases hg : get k with
  | some x => exact .inl (hx k x hg).symm
  | none =>
    cases hm : more k with
    | none => exact .inl rfl
    | some y => exact .inr ⟨hg, by simp [hm]⟩

theorem vgByte_or_lacks (w i : Nat) : vgByte get w i = vgByte more w i ∨ (vgByte get w i = none ∧ Lacks get more (w + i / 4)) := by
  unfold vgByte
  obtain h | h := get_or_lacks hx (w + i / 4)
  · exact .inl (by rw [h])
  · exact .inr ⟨by rw [h.1]; rfl, h⟩

/-- The three bytes of a wide gap or of a group's end, from fewer words: all there, or the group needs one that is missing. -/
theorem vgGroup_wide_or_need {len kv w f i : Nat} {prev : Int} {ps : List Nat} {lo hi : Nat} (h0 : ¬len ≤ w + i / 4)
    (h1 : ¬len ≤ w + (i + 1) / 4) (h2 : ¬len ≤ w + (i + 2) / 4) (hb : vgByte more w i = some 255) (hlo : vgByte more w (i + 1) = some lo)
    (hhi : vgByte more w (i + 2) = some hi) :
    (vgByte get w i = some 255 ∧ vgByte get w (i + 1) = some lo ∧ vgByte get w (i + 2) = some hi) ∨
      ∃ k, vgGroup get len kv w (f + 1) i prev ps = .error (.need k) ∧ Lacks get more k := by
  obtain hb' | ⟨hb', hl⟩ := vgByte_or_lacks hx w i
  swap
  · exact .inr ⟨_, by simp [vgGroup, h0, hb'], hl⟩
  obtain hlo' | ⟨hlo', hl⟩ := vgByte_or_lacks hx w (i + 1)
  swap
  · exact .inr ⟨_, by simp [vgGroup, h0, h1, h2, hb', hb, hlo'], hl⟩
  obtain hhi' | ⟨hhi', hl⟩ := vgByte_or_lacks hx w (i + 2)
  swap
  · exact .inr ⟨_, by simp [vgGroup, h0, h1, h2, hb', hb, hlo', hlo, hhi'], hl⟩
  exact .inl ⟨hb'.trans hb, hlo'.trans hlo, hhi'.trans hhi⟩

/-- A group that parses from more words parses from fewer, or one of them is missing. -/
theorem vgGroup_or_need {len kv w f i : Nat} {prev : Int} {ps : List Nat} {r : List Nat × Nat} (h : vgGroup more len kv w f i prev ps = .ok r) :
    vgGroup get len kv w f i prev ps = .ok r ∨ ∃ k, vgGroup get len kv w f i prev ps = .error (.need k) ∧ Lacks get more k := by
  fun_induction vgGroup more len kv w f i prev ps
  case case5 f i prev ps h0 b hb hb255 p hp ih =>
    obtain hb' | ⟨hb', hl⟩ := vgByte_or_lacks hx w i
    · simpa [vgGroup, h0, hb', hb, hb255, hp, p] using ih h
    · exact .inr ⟨_, by simp [vgGroup, h0, hb'], hl⟩
  case case8 f i prev ps h0 b hb hb255 h1 h2 lo hi hhi hlo dd hd =>
    obtain rfl := not_not.1 hb255
    refine (vgGroup_wide_or_need hx h0 h1 h2 hb hlo hhi).imp_left (fun hbytes => ?_)
    obtain ⟨hb', hlo', hhi'⟩ := hbytes
    rw [← h]
    simp [vgGroup, h0, h1, h2, hb', hlo', hhi', dd, hd]
  case case11 f i prev ps h0 b hb hb255 h1 h2 lo hi hhi hlo dd hd hd' p hp ih =>
    obtain rfl := not_not.1 hb255
    obtain ⟨hb', hlo', hhi'⟩ | hneed := vgGroup_wide_or_need hx h0 h1 h2 hb hlo hhi
    · rw [vgGroup]
      simp only [if_neg h0, if_neg h1, if_neg h2, hb', hlo', hhi', if_neg hb255]
      rw [if_neg hd, if_neg hd', if_neg hp]
      exact ih h
    · exact .inr hneed
  all_goals cases h

theorem vgGroups_or_need {len kv n w : Nat} {acc gs : List (W32 × List Nat)} (h : vgGroups more len kv n w acc = .ok gs) :
    vgGroups get len kv n w acc = .ok gs ∨ ∃ k, vgGroups get len kv n w acc = .need k ∧ Lacks get more k := by
  fun_induction vgGroups more len kv n w acc
  case case1 => exact .inl (by rw [vgGroups, if_pos rfl]; exact h)
  case case5 n w acc hlen v hv e he => exact absurd h ((he ▸ vgGroup_ends more len kv (w + 1) (4 * len + 1) 0 (-1) []) gs)
  case case6 n w acc hlen v hv ps w1 hg ih =>
    obtain hv' | hl := get_or_lacks hx w
    swap
    · exact .inr ⟨w, by simp [vgGroups, hlen, hl.1], hl⟩
    obtain he | ⟨k, he, hl⟩ := vgGroup_or_need hx hg
    · simpa [vgGroups, hlen, hv', hv, he] using ih h
    · exact .inr ⟨k, by simp [vgGroups, hlen, hv', hv, he], hl⟩
  all_goals cases h

/-- A row that parses from more words parses from fewer, or one of them is missing. -/
theorem vgRow_or_need {fb kv room : Nat} {gs : List (W32 × List Nat)} (h : vgRow more fb kv room = .ok gs) :
    vgRow get fb kv room = .ok gs ∨ ∃ k, vgRow get fb kv room = .need k ∧ Lacks get more k := by
  obtain ⟨x, l, h0, h1, hhead, hlen, hgroups⟩ := vgRow_ok h
  obtain h0' | hl := get_or_lacks hx 0
  swap
  · exact .inr ⟨0, by rw [vgRow, hl.1], hl⟩
  obtain h1' | hl := get_or_lacks hx 1
  swap
  · exact .inr ⟨1, by simp only [vgRow, h0', h0, if_neg hhead, hl.1], hl⟩
  simp only [vgRow, h0', h0, h1', h1, if_neg hhead, if_neg hlen]
  exact vgGroups_or_need hx hgroups

end

end Sys2Proof.Machine
end

section

/-!
# MMAV (05 R104, 11 R227 to R230)
-/

namespace Sys2Proof.Machine
open Host

/-! ## What a column makes of its row group -/

/-- A context with other slices waiting in mqb, other progress and other slices taken. -/
def Engine.withQueue (e : Engine) (waiting : List Slice) (progress : Nat) (taken : List Slice) : Engine :=
  { e with mqb := waiting, progress := progress, taken := taken }

/-- The first columns of an MMAV, one after another. -/
def Engine.vgColumns (e : Engine) (fa fb q d : Nat) (gs : Nat → List (W32 × List Nat)) (n : Nat) : Engine :=
  (List.range n).foldl (fun t j => t.vgColumn fa fb q d j (gs j)) e

/-- What a column sum makes of entry `p` of the row group, given the groups of every column and the activations of every row. -/
def columnTerm (fb : Nat) (gs : Nat → List (W32 × List Nat)) (act : Nat → Nat → Nat) (p : Nat × Nat) (old : Nat) : FRes :=
  mmavColumn ((gs p.2).map (fun g => (rowElem fb g.1.toNat 0, g.2))) (act p.1) old

/-- The positions of a block of entries, column after column. -/
def columnCells (m n : Nat) : List (Nat × Nat) := (List.range n).flatMap (fun j => (List.range m).map (fun i => (i, j)))

theorem columnCells_succ (m n : Nat) : columnCells m (n + 1) = columnCells m n ++ (List.range m).map (fun i => (i, n)) := by
  simp [columnCells, List.range_succ]

/-- Columns first or rows first, the positions are the same. -/
theorem columnCells_perm (m n : Nat) : (columnCells m n).Perm (cells2 m n) := by
  have hswap : columnCells m n = (cells2 n m).map Prod.swap := by
    simp [columnCells, cells2, List.map_flatMap, Function.comp_def]
  rw [hswap]
  refine (List.perm_ext_iff_of_nodup ((nodup_cells2 n m).map Prod.swap_injective) (nodup_cells2 m n)).2 (fun p => ?_)
  obtain ⟨i, j⟩ := p
  simp [mem_cells2, and_comm]

/-- A context whose row groups hold `p`'s words, and whose flag word of row group `q` has `p`'s flags on top. -/
def Engine.Summed (e t : Engine) (q : Nat) (p : Cells 32 × Nat) : Prop :=
  t.acc = p.1 ∧ ∀ k, t.flags.get k = if k = q then e.flags.get k ||| BitVec.ofNat 8 p.2 else e.flags.get k

theorem Engine.Summed.start (e : Engine) (q : Nat) : e.Summed e q (e.acc, 0) := ⟨rfl, fun k => by simp⟩

/-- One entry replaced and its flags added. -/
theorem Engine.Summed.put {e t : Engine} {q row j : Nat} {p : Cells 32 × Nat} (h : e.Summed t q p) (r : FRes) :
    e.Summed { t.orFlag q r.flags with acc := t.acc.set (row * 512 + j) (BitVec.ofNat 32 r.bits) } q (putEntry p.1 0 row j r.bits, p.2 ||| r.flags) := by
  obtain ⟨hacc, hflags⟩ := h
  refine ⟨congrArg (fun c => Cells.set c (row * 512 + j) (BitVec.ofNat 32 r.bits)) hacc, fun k => ?_⟩
  refine (Cells.get_set ..).trans ?_
  rw [hflags]
  by_cases hk : k = q
  · rw [if_pos hk, if_pos hk, if_pos rfl, hk, BitVec.ofNat_or, BitVec.or_assoc]
  · rw [if_neg hk, if_neg hk, hflags, if_neg hk]

section
variable {e t : Engine} {fa fb q d : Nat} {gs : Nat → List (W32 × List Nat)} {act : Nat → Nat → Nat} {p : Cells 32 × Nat}

theorem activation_congr (h : t.abuf = e.abuf) (i p : Nat) : t.activation fa d i p = e.activation fa d i p := by
  unfold Engine.activation Engine.abufBytes
  rw [h]

/-- A column is summed entry by entry, in ascending row order. -/
theorem Engine.Summed.vgColumn (h : e.Summed t q p) (hact : ∀ i, i < mdM d → t.activation fa d i = act i) (j : Nat) :
    e.Summed (t.vgColumn fa fb q d j (gs j)) q (storeEntries 0 (32 * q) (columnTerm fb gs act) ((List.range (mdM d)).map (fun i => (i, j))) p) := by
  unfold Engine.vgColumn storeEntries
  rw [List.foldl_map]
  have hmem : ∀ i ∈ List.range (mdM d), t.activation fa d i = act i := fun i hi => hact i (List.mem_range.1 hi)
  clear hact
  generalize List.range (mdM d) = l at hmem
  generalize t.activation fa d = act' at hmem
  induction l generalizing t p with
  | nil => exact h
  | cons i l ih =>
    obtain ⟨hi, hl⟩ := List.forall_mem_cons.1 hmem
    rw [List.foldl_cons, List.foldl_cons]
    refine ih ?_ hl
    rw [hi]
    have hput := h.put (row := 32 * q + i) (j := j) (columnTerm fb gs act (i, j) (getEntry p.1 0 (32 * q + i) j))
    rw [← h.1] at hput ⊢
    exact hput

theorem vgColumn_frame (e : Engine) (fa fb q d j : Nat) (g : List (W32 × List Nat)) :
    e.vgColumn fa fb q d j g = { e with acc := (e.vgColumn fa fb q d j g).acc, flags := (e.vgColumn fa fb q d j g).flags } := by
  unfold Engine.vgColumn
  generalize e.activation fa d = act
  refine List.foldlRecOn (motive := fun t : Engine => t = { e with acc := t.acc, flags := t.flags }) _ _ rfl (fun t ht i _ => ?_)
  rw [ht]
  rfl

theorem vgColumns_frame (e : Engine) (fa fb q d : Nat) (gs : Nat → List (W32 × List Nat)) (n : Nat) :
    e.vgColumns fa fb q d gs n = { e with acc := (e.vgColumns fa fb q d gs n).acc, flags := (e.vgColumns fa fb q d gs n).flags } := by
  unfold Engine.vgColumns
  refine List.foldlRecOn (motive := fun t : Engine => t = { e with acc := t.acc, flags := t.flags }) _ _ rfl (fun t ht j _ => ?_)
  rw [vgColumn_frame, ht]

theorem vgColumns_succ (e : Engine) (fa fb q d : Nat) (gs : Nat → List (W32 × List Nat)) (n : Nat) :
    e.vgColumns fa fb q d gs (n + 1) = (e.vgColumns fa fb q d gs n).vgColumn fa fb q d n (gs n) := by
  simp [Engine.vgColumns, List.range_succ]

/-- The queues play no part in a column's sum. -/
theorem vgColumn_withQueue (e : Engine) (fa fb q d j : Nat) (g : List (W32 × List Nat)) (waiting taken : List Slice) (progress : Nat) :
    (e.withQueue waiting progress taken).vgColumn fa fb q d j g = (e.vgColumn fa fb q d j g).withQueue waiting progress taken :=
  List.foldl_hom (fun t : Engine => t.withQueue waiting progress taken) (fun _ _ => rfl)

/-- The columns of an MMAV are summed one after another. -/
theorem summed_vgColumns (hact : ∀ i, i < mdM d → e.activation fa d i = act i) (n : Nat) :
    e.Summed (e.vgColumns fa fb q d gs n) q (storeEntries 0 (32 * q) (columnTerm fb gs act) (columnCells (mdM d) n) (e.acc, 0)) := by
  induction n with
  | zero => exact .start e q
  | succ n ih =>
    have habuf : (e.vgColumns fa fb q d gs n).abuf = e.abuf := by rw [vgColumns_frame]
    rw [vgColumns_succ, columnCells_succ, storeEntries, List.foldl_append]
    exact ih.vgColumn (fun i hi => (funext (activation_congr habuf i)).trans (hact i hi)) n

end

/-! ## A summed block of entries -/

/-- Flags added one by one to a flag word, or together. -/
theorem ofNat_foldl_or {α : Type} (g : α → Nat) (l : List α) (w : BitVec 8) (x : Nat) :
    w ||| BitVec.ofNat 8 (l.foldl (fun x p => x ||| g p) x) = l.foldl (fun f p => f ||| BitVec.ofNat 8 (g p)) (w ||| BitVec.ofNat 8 x) := by
  induction l generalizing x with
  | nil => rfl
  | cons a l ih => rw [List.foldl_cons, ih, BitVec.ofNat_or, ← BitVec.or_assoc, List.foldl_cons]

theorem mem_columnCells {m n : Nat} {p : Nat × Nat} : p ∈ columnCells m n ↔ p.1 < m ∧ p.2 < n :=
  (columnCells_perm m n).mem_iff.trans mem_cells2

theorem nodup_columnCells (m n : Nat) : (columnCells m n).Nodup := (columnCells_perm m n).nodup_iff.2 (nodup_cells2 m n)

section
variable {e t : Engine} {q m n : Nat} {f : Nat × Nat → Nat → FRes} (h : e.Summed t q (storeEntries 0 (32 * q) f (columnCells m n) (e.acc, 0)))
include h

theorem Engine.Summed.acc_inside (hn : n ≤ 512) {i j : Nat} (hi : i < m) (hj : j < n) :
    t.acc.get ((32 * q + i) * 512 + j) = BitVec.ofNat 32 (f (i, j) (e.acc.get ((32 * q + i) * 512 + j)).toNat).bits := by
  have hget := storeEntries_mem (tag := 0) (g := 32 * q) (f := f) (c := (e.acc, 0)) (p := (i, j)) (fun p hp => (mem_columnCells.1 hp).2.trans_le hn)
    (nodup_columnCells m n) (mem_columnCells.2 ⟨hi, hj⟩)
  rw [← h.1] at hget
  exact BitVec.eq_of_toNat_eq hget

theorem Engine.Summed.acc_outside {k : Nat} (hk : ∀ i j, i < m → j < n → k ≠ (32 * q + i) * 512 + j) : t.acc.get k = e.acc.get k := by
  rw [h.1]
  exact storeEntries_outside (fun p hp => ⟨hk p.1 p.2 (mem_columnCells.1 hp).1 (mem_columnCells.1 hp).2, fun h0 => absurd h0 (by decide)⟩)

theorem Engine.Summed.flags_get (hn : n ≤ 512) (k : Nat) :
    t.flags.get k = if k = q then (cells2 m n).foldl (fun x p => x ||| BitVec.ofNat 8 (f p (e.acc.get ((32 * q + p.1) * 512 + p.2)).toNat).flags) (e.flags.get k)
      else e.flags.get k := by
  rw [h.2, storeEntries_flags (fun p hp => (mem_columnCells.1 hp).2.trans_le hn) (nodup_columnCells m n), ofNat_foldl_or]
  dsimp only
  have hperm := (columnCells_perm m n).foldl_eq' (f := fun (x : BitVec 8) p => x ||| BitVec.ofNat 8 (f p (getEntry e.acc 0 (32 * q + p.1) p.2)).flags)
    (fun p _ p' _ x => by rw [BitVec.or_assoc, BitVec.or_comm (BitVec.ofNat 8 _), ← BitVec.or_assoc]) (e.flags.get k)
  have hzero : e.flags.get k ||| BitVec.ofNat 8 0 = e.flags.get k := BitVec.or_zero
  rw [hzero, hperm]
  rfl

end

/-! ## Columns from mqb, slice by slice (11 R230) -/

/-- The words of a list of slices, none where a slice is missing. -/
def sliceWord (l : List Slice) (k : Nat) : Option W32 := (l[k / 32]?).map (fun sl => sl.getD (k % 32) 0#32)

theorem sliceWord_eq_none {l : List Slice} {k : Nat} : sliceWord l k = none ↔ l.length ≤ k / 32 := by
  simp [sliceWord]

theorem extends_take (l : List Slice) (n : Nat) : Extends (sliceWord (l.take n)) (sliceWord l) := by
  intro k x h
  unfold sliceWord at h ⊢
  rw [List.getElem?_take] at h
  split at h
  · exact h
  · simp at h

/-- The words of a column from mqb: they parse, and fill their slices. -/
structure ColumnSlices (fb kv room : Nat) (chunk : List Slice) (gs : List (W32 × List Nat)) : Prop where
  row : vgRow (sliceWord chunk) fb kv room = .ok gs
  size : chunk.length = (((sliceWord chunk 1).getD 0#32).toNat + 31) / 32

section
variable {fb kv room : Nat} {chunk : List Slice} {gs : List (W32 × List Nat)} (h : ColumnSlices fb kv room chunk gs)
include h

theorem ColumnSlices.length_le : chunk.length ≤ 512 := by
  obtain ⟨l, hl, -, hmax, -⟩ := vgRow_last h.row
  rw [h.size, hl]
  dsimp only [Option.getD_some]
  omega

/-- Some of the slices parse to the column's groups, and are then all of them, or the next one is needed. -/
theorem ColumnSlices.take (n : Nat) :
    (vgRow (sliceWord (chunk.take n)) fb kv room = .ok gs ∧ chunk.length ≤ n) ∨
      ∃ k, vgRow (sliceWord (chunk.take n)) fb kv room = .need k ∧ n ≤ k / 32 ∧ k / 32 < chunk.length := by
  obtain hok | ⟨k, hneed, hnone, hsome⟩ := vgRow_or_need (extends_take chunk n) h.row
  · refine .inl ⟨hok, ?_⟩
    obtain ⟨l, hl, hmin, -, hlast⟩ := vgRow_last hok
    have hlt := Nat.lt_of_not_le (mt sliceWord_eq_none.2 hlast)
    have hsize := h.size
    rw [extends_take chunk n 1 l hl] at hsize
    rw [List.length_take] at hlt
    dsimp only [Option.getD_some] at hsize
    omega
  · have hk := Nat.lt_of_not_le (mt sliceWord_eq_none.2 hsome)
    have hn := sliceWord_eq_none.1 hnone
    rw [List.length_take] at hn
    exact .inr ⟨k, hneed, by omega, hk⟩

end

/-- Taking more slices of a column that stands at the head of mqb. -/
theorem pull_column (e : Engine) (chunk more : List Slice) (progress : Nat) {n k : Nat} (hn : n ≤ chunk.length) (hnk : n ≤ k) (hk : k ≤ chunk.length) :
    (e.withQueue (chunk.drop n ++ more) progress (chunk.take n)).pull 1 k = e.withQueue (chunk.drop k ++ more) progress (chunk.take k) := by
  have hlen : (chunk.take n).length = n := List.length_take_of_le hn
  have hdrop : (chunk.drop n ++ more).drop (k - n) = chunk.drop k ++ more := by
    rw [List.drop_append_of_le_length (by simp; omega), List.drop_drop, Nat.add_sub_cancel' hnk]
  have htake : chunk.take n ++ (chunk.drop n ++ more).take (k - n) = chunk.take k := by
    rw [List.take_append_of_le_length (by simp; omega), ← List.take_add, Nat.add_sub_cancel' hnk]
  have hpull : (e.withQueue (chunk.drop n ++ more) progress (chunk.take n)).pull 1 k = e.withQueue ((chunk.drop n ++ more).drop (k - (chunk.take n).length))
      progress (chunk.take n ++ (chunk.drop n ++ more).take (k - (chunk.take n).length)) := rfl
  rw [hpull, hlen, hdrop, htake]

/-- The slices taken hold the whole column. -/
theorem vgPop_parsed {u : State} (hp : u.Placed) {fa fb q d j f : Nat} {e : Engine} {gs : List (W32 × List Nat)}
    (h : vgRow (sliceWord e.taken) fb (mdKV d) (u.sliceLimit - mdLoc d) = .ok gs) :
    (u.putEngine e).vgPop fa fb q d j (f + 1) = (u.putEngine ((e.vgColumn fa fb q d j gs).withQueue (e.vgColumn fa fb q d j gs).mqb (e.progress + 1) []), true) := by
  have hrow : vgRow (fun k => (e.taken[k / 32]?).map (fun sl => sl.getD (k % 32) 0#32)) fb (mdKV d) ((u.putEngine e).sliceLimit - mdLoc d) = .ok gs := h
  rw [State.vgPop, hp.engine_putEngine]
  dsimp only
  rw [hrow]
  dsimp only
  rw [hp.putEngine_putEngine]
  rfl

/-- A slice is missing and stands in mqb. -/
theorem vgPop_need {u : State} (hp : u.Placed) {fa fb q d j f k : Nat} {e : Engine}
    (h : vgRow (sliceWord e.taken) fb (mdKV d) (u.sliceLimit - mdLoc d) = .need k) (hk : k / 32 < (e.pull 1 (k / 32 + 1)).taken.length) :
    (u.putEngine e).vgPop fa fb q d j (f + 1) = (u.putEngine (e.pull 1 (k / 32 + 1))).vgPop fa fb q d j f := by
  have hrow : vgRow (fun k => (e.taken[k / 32]?).map (fun sl => sl.getD (k % 32) 0#32)) fb (mdKV d) ((u.putEngine e).sliceLimit - mdLoc d) = .need k := h
  rw [State.vgPop, hp.engine_putEngine]
  dsimp only
  rw [hrow]
  dsimp only
  rw [if_neg (Nat.not_le.2 hk), hp.putEngine_putEngine]

/-- A column at the head of mqb is popped slice by slice and summed. -/
theorem vgPop_column {u : State} (hp : u.Placed) {fa fb q d j : Nat} {chunk more : List Slice} {gs : List (W32 × List Nat)}
    (h : ColumnSlices fb (mdKV d) (u.sliceLimit - mdLoc d) chunk gs) (e : Engine) (progress f n : Nat) (hn : n ≤ chunk.length)
    (hf : chunk.length < f + n) :
    (u.putEngine (e.withQueue (chunk.drop n ++ more) progress (chunk.take n))).vgPop fa fb q d j f =
      (u.putEngine ((e.vgColumn fa fb q d j gs).withQueue more (progress + 1) []), true) := by
  induction f generalizing n with
  | zero => omega
  | succ f ih =>
    obtain ⟨hok, hall⟩ | ⟨k, hneed, hnk, hk⟩ := h.take n
    · rw [vgPop_parsed hp hok, vgColumn_withQueue, List.drop_eq_nil_of_le hall]
      rfl
    · have hlen : (chunk.take (k / 32 + 1)).length = k / 32 + 1 := List.length_take_of_le hk
      have hpull := pull_column e chunk more progress hn (Nat.le_succ_of_le hnk) hk
      rw [vgPop_need hp hneed (by rw [hpull]; exact hlen ▸ Nat.lt_succ_self _), hpull]
      exact ih (k / 32 + 1) hk (by omega)

/-- The columns that stand in mqb one after another. -/
theorem vgQueue_columns {u : State} (hp : u.Placed) {fa fb q d : Nat} {gs : Nat → List (W32 × List Nat)} {chunks : Nat → List Slice} {rest : List Slice}
    (h : ∀ j, j < mdN d → ColumnSlices fb (mdKV d) (u.sliceLimit - mdLoc d) (chunks j) (gs j)) (e : Engine) (n j : Nat) (hj : j + n = mdN d) :
    (u.putEngine ((e.vgColumns fa fb q d gs j).withQueue ((List.range' j n).flatMap chunks ++ rest) (j + 1) [])).vgQueue fa fb q d n =
      (u.putEngine ((e.vgColumns fa fb q d gs (mdN d)).withQueue rest 0 [])).finish := by
  induction n generalizing j with
  | zero =>
    obtain rfl : j = mdN d := by omega
    rw [State.vgQueue, hp.engine_putEngine, hp.putEngine_putEngine]
    rfl
  | succ n ih =>
    have hcol := h j (by omega)
    have hpop := vgPop_column (fa := fa) (q := q) (j := j) (more := (List.range' (j + 1) n).flatMap chunks ++ rest) hp hcol (e.vgColumns fa fb q d gs j)
      (j + 1) 514 0 (Nat.zero_le _) (by have := hcol.length_le; omega)
    rw [List.drop_zero, List.take_zero] at hpop
    rw [State.vgQueue, show mdN d - (n + 1) = j by omega, List.range'_succ, List.flatMap_cons, List.append_assoc, hpop]
    dsimp only
    rw [if_pos rfl, ← vgColumns_succ]
    exact ih (j + 1) (by omega)

/-- The columns of the B store. -/
theorem vgStore_columns {u : State} (hp : u.Placed) {fa fb q d : Nat} {gs : Nat → List (W32 × List Nat)}
    (h : ∀ j, j < mdN d → vgRow (u.columnWord d j) fb (mdKV d) (u.sliceLimit - mdLoc d) = .ok (gs j)) (e : Engine) :
    (u.putEngine e).vgStore fa fb q d = (u.putEngine ((e.vgColumns fa fb q d gs (mdN d)).withQueue e.mqb 0 [])).finish := by
  have hfold : (List.range (mdN d)).foldl (fun t j =>
      match vgRow ((u.putEngine e).columnWord d j) fb (mdKV d) ((u.putEngine e).sliceLimit - mdLoc d) with
      | .ok gs => t.vgColumn fa fb q d j gs
      | _ => t) e = e.vgColumns fa fb q d gs (mdN d) := by
    refine List.foldl_ext _ _ _ (fun t j hj => ?_)
    have hrow : vgRow ((u.putEngine e).columnWord d j) fb (mdKV d) ((u.putEngine e).sliceLimit - mdLoc d) = .ok (gs j) := h j (List.mem_range.1 hj)
    rw [hrow]
  unfold State.vgStore
  dsimp only
  rw [hp.engine_putEngine, hp.putEngine_putEngine]
  refine congrArg (fun e => (u.putEngine e).finish) ((congrArg Engine.rest hfold).trans ?_)
  rw [vgColumns_frame]
  rfl

end Sys2Proof.Machine
end

section

/-!
# MMAV on its operands (11 R219, R228, R230, R232, 21 R360)
-/

namespace Sys2Proof.Machine
open Host

/-! ## The activation rows -/

/-- The bytes of a padded activation row. -/
abbrev actLen (fa d : Nat) : Nat := 128 * ((rowLen fa (mdKV d) + 127) / 128)

/-- The activation rows are there, `ab` being their `n` bytes: in the A buffer, at a scratchpad operand, or in mqa. -/
structure State.HasRows (s : State) (dreg d n : Nat) (ab : List Byte) (t off : Nat) : Prop where
  source : mdA d ≠ 3
  buffer : mdA d = 1 → ab = s.engine.abufBytes (mdBase d) n
  memory : mdA d = 2 → s.HasOperand (s.cur.gGet (dreg + 1)) n ab t off
  queue : mdA d = 0 → n / 128 ≤ s.engine.mqa.length ∧ (∀ sl ∈ s.engine.mqa, sl.length = 32) ∧ ab = sliceBytes (s.engine.mqa.take (n / 128))

/-- A context with activation rows brought into its A buffer. -/
def Engine.withRows (e : Engine) (d n : Nat) (ab : List Byte) : Engine := { e with
  abuf := if mdA d = 1 then e.abuf else memPut e.abuf (mdBase d) ab
  mqa := if mdA d = 0 then e.mqa.drop (n / 128) else e.mqa
  progress := 1 }

theorem mdA_cases {d : Nat} (h : mdA d ≠ 3) : mdA d = 0 ∨ mdA d = 1 ∨ mdA d = 2 := by
  have : mdA d < 4 := Nat.mod_lt _ (by decide)
  omega

theorem State.HasRows.length {s : State} {dreg d n t off : Nat} {ab : List Byte} (h : s.HasRows dreg d n ab t off) (hn : 128 ∣ n) : ab.length = n := by
  obtain h0 | h1 | h2 := mdA_cases h.source
  · obtain ⟨hlen, hsl, rfl⟩ := h.queue h0
    rw [sliceBytes_length (fun sl hm => hsl sl (List.mem_of_mem_take hm)), List.length_take_of_le hlen, Nat.mul_div_cancel' hn]
  · rw [h.buffer h1, abufBytes_length]
  · rw [(h.memory h2).bytes, bytesAt_length]

/-- The A buffer then holds the rows. -/
theorem State.HasRows.abufBytes {s : State} {dreg d n t off : Nat} {ab : List Byte} (h : s.HasRows dreg d n ab t off) (hn : 128 ∣ n) :
    (s.engine.withRows d n ab).abufBytes (mdBase d) n = ab := by
  by_cases h1 : mdA d = 1
  · rw [h.buffer h1]
    unfold Engine.abufBytes Engine.withRows
    simp only [h1, if_true]
  · have := abufBytes_memPut (e := s.engine.withRows d n ab) (if_neg h1)
    rwa [h.length hn] at this

/-- Activation rows that are there are brought in at once. -/
theorem State.HasRows.fetchRows {s : State} {dreg d n t off : Nat} {ab : List Byte} (h : s.HasRows dreg d n ab t off) (hp : s.Placed)
    (hidle : s.engine.progress = 0) (htk : s.engine.taken = []) (go : State → State) :
    s.fetchRows dreg d n none go = go ((s.markBst (mdB d == 0)).putEngine (s.engine.withRows d n ab)) := by
  have hu := hp.markBst (mdB d == 0)
  have he := hp.engine_markBst (mdB d == 0)
  have hmem := fun h2 => (h.memory h2).markBst hp (mdB d == 0)
  have hcur : (s.markBst (mdB d == 0)).cur = s.cur := by cases (mdB d == 0) <;> rfl
  unfold State.fetchRows
  dsimp only
  generalize s.markBst (mdB d == 0) = u at hu he hmem hcur
  rw [he, if_neg (not_not.2 hidle)]
  obtain h0 | h1 | h2 := mdA_cases h.source
  · obtain ⟨hlen, -, hab⟩ := h.queue h0
    have hpull : s.engine.pull 0 (n / 128) = { s.engine with mqa := s.engine.mqa.drop (n / 128), taken := s.engine.mqa.take (n / 128) } := by
      unfold Engine.pull
      rw [htk]
      rfl
    have hrows : s.engine.withRows d n ab = { s.engine with
        abuf := memPut s.engine.abuf (mdBase d) ab, mqa := s.engine.mqa.drop (n / 128), progress := 1, taken := [] } := by
      rw [Engine.withRows, if_neg (by omega), if_pos h0, ← htk]
    simp only [h0, Option.isSome_none, Bool.false_eq_true, if_false, false_and, State.listCheck, hpull]
    rw [if_neg (by rw [List.length_take_of_le hlen]; omega), hrows, hab]
    rfl
  · simp only [h1, State.listCheck, Engine.withRows, if_true]
    rw [if_neg (by decide)]
  · simp only [h2]
    rw [hcur, (hmem h2).withOperand]
    simp only [State.listCheck, Engine.withRows, h2]
    rfl

/-- The activations of a row are read from its part of the rows' bytes. -/
theorem State.HasRows.activation {s : State} {dreg d t off : Nat} {ab : List Byte} {fa i : Nat} (h : s.HasRows dreg d (actLen fa d * mdM d) ab t off)
    (hi : i < mdM d) (p : Nat) :
    (s.engine.withRows d (actLen fa d * mdM d) ab).activation fa d i p =
      (roundF fp32 .rne false (rowElem fa (leNat ((ab.drop (actLen fa d * i)).take (actLen fa d))) p)).bits := by
  have hdvd : 128 ∣ actLen fa d * mdM d := Dvd.dvd.mul_right (Nat.dvd_mul_right ..) _
  have hrow : actLen fa d * i + actLen fa d ≤ actLen fa d * mdM d := (Nat.mul_le_mul_left _ (Nat.succ_le_of_lt hi))
  unfold Engine.activation
  dsimp only
  rw [abufBytes_sub _ hrow, h.abufBytes hdvd]

/-! ## The instruction -/

/-- What MMAV asks of its descriptor (11 R229, 21 R360). -/
structure State.MmavReady (s : State) (fa dreg d : Nat) : Prop where
  store : mdB d = 0 → s.bst = true
  one : mdK d = 1
  rows : mdM d ≤ 8
  loc : mdLoc d % 4 = 0
  positions : 0 < mdKV d
  fits : mdBase d + actLen fa d * mdM d ≤ 262144
  reg : mdA d = 2 → dreg ≠ 95

/-- The columns parse, in the B store or in mqb, from where `rest` is left. -/
structure State.HasColumns (s : State) (fb d : Nat) (gs : Nat → List (W32 × List Nat)) (chunks : Nat → List Slice) (rest : List Slice) : Prop where
  store : mdB d = 0 → ∀ j, j < mdN d → vgRow (s.columnWord d j) fb (mdKV d) (s.sliceLimit - mdLoc d) = .ok (gs j)
  queue : mdB d = 1 → s.engine.mqb = (List.range (mdN d)).flatMap chunks ++ rest ∧
    ∀ j, j < mdN d → ColumnSlices fb (mdKV d) (s.sliceLimit - mdLoc d) (chunks j) (gs j)

theorem State.HasColumns.vgBad {s : State} {fb d : Nat} {gs : Nat → List (W32 × List Nat)} {chunks : Nat → List Slice} {rest : List Slice}
    (h : s.HasColumns fb d gs chunks rest) (h0 : mdB d = 0) : s.vgBad fb d = none := by
  unfold State.vgBad
  rw [List.findSome?_eq_none_iff]
  intro j hj
  rw [h.store h0 j (List.mem_range.1 hj)]

theorem mdB_cases (d : Nat) : mdB d = 0 ∨ mdB d = 1 := by
  have : mdB d < 2 := Nat.mod_lt _ (by decide)
  omega

/-- MMAV with its operands at hand sums its columns over its activation rows. -/
theorem mmavRun_columns {s : State} {word : W32} {fa fb q dreg d t off : Nat} {ab : List Byte} {gs : Nat → List (W32 × List Nat)}
    {chunks : Nat → List Slice} {rest : List Slice} (hp : s.Placed) (hidle : s.engine.progress = 0) (htk : s.engine.taken = [])
    (hr : s.MmavReady fa dreg d) (ha : s.HasRows dreg d (actLen fa d * mdM d) ab t off) (hc : s.HasColumns fb d gs chunks rest) :
    s.mmavRun word fa fb q dreg d = ((s.markBst (mdB d == 0)).putEngine (((s.engine.withRows d (actLen fa d * mdM d) ab).vgColumns fa fb q d gs (mdN d)).withQueue
      (if mdB d = 1 then rest else s.engine.mqb) 0 [])).finish := by
  have hu := hp.markBst (mdB d == 0)
  have hillegal : ¬((mdB d = 0 ∧ (!s.bst) = true) ∨ mdK d ≠ 1 ∨ (mdA d = 2 ∧ dreg = 95)) := by
    rintro (⟨h0, hb⟩ | hk | ⟨h2, h95⟩)
    · simp [hr.store h0] at hb
    · exact hk hr.one
    · exact hr.reg h2 h95
  have hlimit : ¬(8 < mdM d ∨ mdLoc d % 4 ≠ 0 ∨ mdKV d = 0 ∨ 262144 < mdBase d + actLen fa d * mdM d) := by
    rintro (h | h | h | h)
    · exact absurd hr.rows (Nat.not_le.2 h)
    · exact h hr.loc
    · exact hr.positions.ne' h
    · exact absurd hr.fits (Nat.not_le.2 h)
  have hgood : (if mdB d = 0 ∧ s.engine.progress = 0 then s.vgBad fb d else none) = none := by
    split
    next h => exact hc.vgBad h.1
    · rfl
  unfold State.mmavRun
  dsimp only
  rw [if_neg ha.source, if_neg hillegal, if_neg hlimit, hgood]
  dsimp only
  rw [ha.fetchRows hp hidle htk]
  obtain h0 | h1 := mdB_cases d
  · have hcols : ∀ j, j < mdN d → vgRow ((s.markBst (mdB d == 0)).columnWord d j) fb (mdKV d) ((s.markBst (mdB d == 0)).sliceLimit - mdLoc d) = .ok (gs j) := by
      rw [h0]
      exact hc.store h0
    rw [if_pos h0, vgStore_columns hu hcols, if_neg (by omega)]
    rfl
  · obtain ⟨hmqb, hcols⟩ := hc.queue h1
    have hcols' : ∀ j, j < mdN d → ColumnSlices fb (mdKV d) ((s.markBst (mdB d == 0)).sliceLimit - mdLoc d) (chunks j) (gs j) := by
      rw [h1]
      exact hcols
    have hq := vgQueue_columns (fa := fa) (q := q) (rest := rest) hu hcols' (s.engine.withRows d (actLen fa d * mdM d) ab) (mdN d) 0 (Nat.zero_add _)
    rw [← List.range_eq_range', ← hmqb] at hq
    rw [if_neg (by omega), hu.engine_putEngine, if_pos h1, ← hq]
    have hstart : (s.engine.withRows d (actLen fa d * mdM d) ab) =
        (s.engine.withRows d (actLen fa d * mdM d) ab).withQueue s.engine.mqb (0 + 1) [] := by
      unfold Engine.withQueue
      rw [← htk]
      rfl
    exact congrArg (fun e => State.vgQueue ((s.markBst (mdB d == 0)).putEngine e) fa fb q d (mdN d)) hstart

/-- Settles O52: the checks pass, the rows are brought in, and the columns of either source are summed over them one after another. -/
theorem matrixColumns : Obligations.MatrixColumns := by
  intro s q fa fb c d ab t off gs chunks rest i D e len n word h hp hg hpr htk hst hk hm hloc hkv hfit hreg h3 hbuf hmem hmqa hcol0 hcol1 act at' r
  have hr : s.MmavReady fa.toNat d.toNat D := ⟨hst, hk, hm, hloc, hkv, hfit, fun h2 hd => hreg h2 (BitVec.eq_of_toNat_eq hd)⟩
  have ha : s.HasRows d.toNat D n ab t off := ⟨h3, hbuf, fun h2 => by
    obtain ⟨m1, m2, m3, m4⟩ := hmem h2
    exact ⟨m1, m2, m3, m4⟩, hmqa⟩
  have hc : s.HasColumns fb.toNat D gs chunks rest := ⟨hcol0, fun h1 => ⟨(hcol1 h1).1, fun j hj => ⟨((hcol1 h1).2 j hj).1, ((hcol1 h1).2 j hj).2⟩⟩⟩
  have hsum := summed_vgColumns (e := e.withRows D n ab) (fa := fa.toNat) (fb := fb.toNat) (q := c.toNat) (gs := gs) (act := act)
    (fun i hi => funext (ha.activation hi)) (mdN D)
  have hn : mdN D ≤ 512 := Nat.succ_le_of_lt (Nat.mod_lt _ (by decide))
  refine ⟨_, _, fun i j hi hj => hsum.acc_inside hn hi hj, fun k hk => hsum.acc_outside hk, hsum.flags_get hn, ?_⟩
  have hrun := mmavRun_columns (word := encode i) (fa := fa.toNat) (q := c.toNat) hp hpr htk hr ha hc
  have hidle : ∀ (x : Engine) w, x.withQueue w 0 [] = x.withQueue w e.progress e.taken := fun x w => by rw [hpr, htk]
  rw [hp.putEngine_markBst, vgColumns_frame, hidle] at hrun
  exact effects_finish ((exec_mmav s).trans ((matrixForm_run h hg).trans (congrArg Outcome.next hrun))) rfl rfl rfl rfl

end Sys2Proof.Machine
end
